-- ==== Sys2Proof/Word.lean ====
section
/-! DEFINITION. The plain data types of the JXT-4736 model: bytes, words, indices and the sparse table type
(00 R4: bit 0 is the least significant bit of any field, register or word). -/

namespace Sys2Proof

/-- One byte. -/
abbrev Byte := BitVec 8
/-- A 32-bit register or field. -/
abbrev U32 := BitVec 32
/-- A 64-bit register or field. -/
abbrev U64 := BitVec 64
/-- A logical polder number (01 R12, R13). -/
abbrev Pid := Fin 32
/-- A quadrant (01 R11). -/
abbrev Quad := Fin 4
/-- A site number Pnn (01 R11). -/
abbrev Site := Fin 36
/-- A tensor descriptor register, 64 bytes (09 R197). -/
abbrev DescWord := BitVec 512

/-- A table of values by key, in one canonical form: keys strictly rising, and no entry equal to the value an unlisted
key reads as (the operations stand in Machine/Ops.lean). -/
abbrev Sparse (α : Type) := List (Nat × α)

end Sys2Proof
end

