-- ==== Sys2Proof/Syntax.lean ====
section
/-! DEFINITION. The commands of the block: one constructor per row of spec/opcode_table.json, with the row's operands.
A task instruction carries the fields of its two words (10 R212, Table 10-1); an event carries what comes from outside
the part (a sensor sample, a frame, a packet, the tiler's output), and everything else it needs is in State. -/

namespace Sys2Proof

/-- The fields of an instruction's word 0 after CLASS and OP, and its word 1 (10 R212, Table 10-1). `upsets` is no field: it is how
many of the vectors of an ee, ru, qz or sp instruction mismatch and reissue (17 R397; DESIGN CHOICE, log entry 4). -/
structure Fields where
  long : Bool := false
  mask : BitVec 3 := 0
  z    : Bool := false
  rd   : BitVec 5 := 0
  ra   : BitVec 5 := 0
  rb   : BitVec 5 := 0
  rc   : BitVec 5 := 0
  imm  : BitVec 29 := 0
  w1   : U64 := 0
  upsets : Nat := 0
deriving DecidableEq, Repr

/-- What a check of an error-correcting code says of one word or line (11 R240, 13 R303); `miscorrected` where more symbols of a line are
in error than the code detects. -/
inductive Ecc where
  | clean
  | corrected (symbol : BitVec 7)
  | uncorrectable
  | miscorrected
deriving DecidableEq, Repr

/-- The bits that come wrong from the read of an LPDDR5X line (13 R303): data bits by DQ pin and beat of the burst, bits of the four check
bytes, and the link errors before it, each of which the controller retries (Table 13-4). -/
structure LineErrs where
  data    : List (Fin 16 × Fin 32) := []
  check   : List (Fin 32) := []
  retries : Nat := 0
deriving DecidableEq, Repr

/-- The ports of a mesh router, in the order ties are broken (13 R292); `embankment` leads to E0 or E2 and `side` to E1 or
E3, since a corner router is joined to two embankments (13 R286). -/
inductive Port where
  | north | east | south | west | here | embankment | side
deriving DecidableEq, Repr

/-- The two networks of the fabric (13 R288, Table 13-2). -/
inductive Net where
  | request | response
deriving DecidableEq, Repr

/-- The kinds of mesh packet (13 Table 13-2). -/
inductive PacketKind where
  | readRequest | write | weirUpdate | watch | readResponse | writeAck | watchNotice
deriving DecidableEq, Repr

/-- The network of a packet kind (13 Table 13-2). -/
def PacketKind.net : PacketKind → Net
  | .readRequest => .request
  | .write => .request
  | .weirUpdate => .request
  | .watch => .request
  | .readResponse => .response
  | .writeAck => .response
  | .watchNotice => .response

/-- Whether packets of a kind carry a payload (13 Table 13-2). -/
def PacketKind.loaded : PacketKind → Bool
  | .write => true
  | .readResponse => true
  | _ => false

/-- The header of a mesh packet (13 R288): destination, source, source count, kind, payload length and address, and the byte
enables of a write, one mask for each 64-byte unit. Its payload is not held (log entry 30). -/
structure FabPacket where
  dest : BitVec 6
  src  : BitVec 6
  srcs : BitVec 6
  kind : PacketKind
  len  : BitVec 13
  addr : U64
  be   : List U64 := []
deriving DecidableEq, Repr

/-- The kinds of access a memory-side cache serves (13 R295). -/
inductive MscKind where
  | read | writeWhole | writePartial
deriving DecidableEq, Repr

/-- An access that reaches a memory-side cache (13 R295, R296): the attachment site it comes by, none for the embankment's own link
ports. -/
structure MscAcc where
  site : Option Site := none
  addr : U64
  kind : MscKind
  errs : LineErrs := {}
deriving DecidableEq, Repr

/-- The rest of an access that reaches the caches: its site, its errors, and the other accesses of the same fabric cycle (13 R296). -/
structure MscArrival where
  site   : Option Site := none
  errs   : LineErrs := {}
  others : List MscAcc := []
deriving DecidableEq, Repr

/-- The polder at which the loader or the output compressor ends a piece of work, and whether the check of that work disagrees
(17 R395). -/
structure CheckedEnd where
  p     : Pid
  upset : Bool := false
deriving DecidableEq, Repr

/-- A Palnex control frame with its CRC-32 (14 R311, Table 14-1). -/
structure Frame where
  type    : Byte
  lane    : Byte := 0
  len     : BitVec 16
  seq     : U32
  ackSeq  : U32 := 0
  status  : Byte := 0
  cls     : Byte
  tag     : BitVec 16
  payload : List Byte
  crc     : U32 := 0
deriving DecidableEq, Repr

/-- A stream packet with its CRC-32 (14 R318). -/
structure StreamPacket where
  type   : Byte
  stream : Byte
  len    : BitVec 16
  lseq   : U32
  offset : U64
  cred   : U32
  flags  : Byte
  data   : List Byte
  crc    : U32 := 0
deriving DecidableEq, Repr

/-- What a remote packet asks of a window (11 R261), or that the receiver refused a packet of the instruction at `pc` of polder
`p` of the module it goes to (11 R262; DESIGN CHOICE, log entry 58: how a refusal names its instruction). -/
inductive RemoteOp where
  | write (data : List Byte) (slotEnd : Bool)
  | read (len : BitVec 13)
  | signal (inc : BitVec 12)
  | refused (p : Fin 32) (pc : U32) (info : U32)
deriving DecidableEq, Repr

/-- A packet that crosses a Wilvar link: a mesh packet with coordinates, the peer offset of 11 R261, the dateline channel on
which it travels (14 R323), the source modules merged into its stream (R325), and the polder and pc of the instruction that sent it. -/
structure WilvarPacket where
  dest   : BitVec 12
  source : BitVec 12
  offset : BitVec 48
  op     : RemoteOp
  net    : Net
  dateline : Bool := false
  wsrc   : BitVec 6 := 1
  tag    : Fin 32 × U32 := (0, 0)
deriving DecidableEq, Repr

/-- The four stamps of a sync exchange, in ps, and the parent's timebase at it (14 R327). -/
structure SyncStamps where
  t1 : Int
  t2 : Int
  t3 : Int
  t4 : Int
  parentTb : U64
deriving DecidableEq, Repr

/-- A cadence announcement (14 R330, Table 14-7). -/
structure Announce where
  kind   : BitVec 4
  point  : Byte
  origin : BitVec 12
  seq    : BitVec 16
  stamp  : U64
deriving DecidableEq, Repr

/-- What the sensors give the power manager at the end of an epoch (16 R388). -/
structure EpochInputs where
  tjMean   : Int            -- mean of TJ_MAX over the epoch, 0.125 °C
  tjMax    : Int            -- largest TJ_MAX of the epoch, 0.125 °C
deriving DecidableEq, Repr

/-- What the polders of a quadrant would issue and did issue in a berm step (16 R378, R379). -/
structure BermInputs where
  demand : BitVec 7         -- fraction of full, in 64ths, rounded up
  gaps   : BitVec 32        -- issue cycles withheld in the step
  fills  : BitVec 32        -- filler cycles in the step
deriving DecidableEq, Repr

/-- Where link signal energy is detected in S1 and S2 (16 R385). -/
inductive LinkDetector where
  | palnex (lane : Bool)
  | wilvar (w : Fin 6)
deriving DecidableEq, Repr

/-- The strap pins sampled at input valid (18 R428, R432). -/
structure Straps where
  coolClass : BitVec 2
  addrSel   : BitVec 2
deriving DecidableEq, Repr

/-- What the parts around the boot give it: whether LPDDR5X training succeeds per controller, draws of the entropy source in
order, and which Palnex lanes train (13 R301, 17 R420, 14 R310). -/
structure BootInputs where
  trained : List Bool
  entropy : List (BitVec 256)
  c0Up    : Bool
  c1Up    : Bool
  sLanes  : Byte
deriving DecidableEq, Repr

/-- One row of logits at the sampling head: the slot it belongs to and its BF16 values (15 R355). -/
structure LogitRow where
  slot   : Nat
  logits : List (BitVec 16)
deriving DecidableEq, Repr

/-- A region of a base-and-bound image (11 R247, Table 11-4). -/
structure Region where
  base  : U64
  pages : U32
  perm  : Byte
deriving DecidableEq, Repr

/-- A cache tensor of a binding: positions per page P_c, pages per group g_c, and the layers times polders it exists on
(15 R348). -/
structure CacheTensor where
  positions : Nat
  group     : Nat
  copies    : Nat
deriving DecidableEq, Repr

/-- A launch that Herd commits for a step: of a micro-batch's decode rows or of a prefill chunk, to a polder, with the record's
other fields (15 R350, R353). -/
structure LaunchPlan where
  microBatch : Nat
  prefill    : Bool
  polder     : Pid
  record     : BitVec 512
deriving DecidableEq, Repr

/-- A layer as the tiler reads it (12 R270, Table 12-1): reduction and columns, widths, what it is computed with, the heads of an
attention block, the heads folded into its rows (R276), the survey's G along columns, the elements of its weight (06 R111), and the
ratios ρ_j, one or one for each column, as fractions (06 R107). -/
structure Layer where
  k        : Nat
  cols     : Nat
  wWidth   : Nat
  aWidth   : Nat
  xnor     : Bool := false
  logPath  : Bool := false
  two4     : Bool := false
  uint     : Bool := false
  heads    : Nat := 0
  folded   : Nat := 1
  survey   : Nat := 0
  elements : Nat := 0
  ratios   : List (Nat × Nat) := []
deriving DecidableEq, Repr

/-- A pair of staging buffers for an operand that is not resident (12 R280): the registers that the code uses, where the operand lies,
the buffers and their bytes, and the weir of the copies. -/
structure Staging where
  dSrc  : BitVec 4
  dDst  : BitVec 4
  sAddr : BitVec 5
  sThr  : BitVec 5
  src   : U64
  buf0  : U64
  buf1  : U64
  size  : Nat
  weir  : BitVec 16
deriving DecidableEq, Repr

/-- What the nest of a layer names and the manual leaves to the tiler: registers, the place of its parameter blocks and multiplier
vectors, and the block's other fields (10 Table 10-8). -/
structure NestRefs where
  dWeight : BitVec 4
  dAct    : BitVec 4
  dOut    : BitVec 4
  sCol    : BitVec 5
  sPos    : BitVec 5
  sRow    : BitVec 5
  sTpb    : BitVec 5
  tpb     : U64
  mvec    : U64 := 0
  chain   : Nat := 0
  nc      : Nat := 0
  budget  : Nat := 0
  sigma   : Nat := 0
  trunc   : BitVec 4 := 0
  sr      : Bool := false
  gen     : Nat := 0
  sid     : U32 := 0
  staging : Option Staging := none
deriving DecidableEq, Repr

/-- A part of a stage's code: words that the manual leaves open, the nest of a layer (12 R277), the copies of an output to the other
members of the reach (R284) or to double-buffered places of the next reach, or the wait on the producers' completions. -/
inductive CodePart where
  | words (ws : List U64)
  | nest (layer : Nat) (r : NestRefs)
  | gather (dSrc dDst : BitVec 4) (sAddr : BitVec 5) (dests : List (U64 × BitVec 16))
  | send (dSrc dDst : BitVec 4) (sAddr sTmp : BitVec 5) (dests : List (U64 × U64 × BitVec 16))
  | await (weir : BitVec 16) (producers : Nat) (sThr sTmp : BitVec 5)
deriving DecidableEq, Repr

/-- What a stage runs on one polder of its reach: its code, and its descriptors. -/
structure StageShare where
  code : List CodePart
  desc : List DescWord
deriving DecidableEq, Repr

/-- A stage of the stage list: its number and reach, whether it runs prefill chunks, the rows U of each sequence (12 R275), its layers,
and the shares of its polders in ascending order. -/
structure StagePlan where
  number    : BitVec 16
  reach     : Nat
  prefill   : Bool := false
  rowsPer   : Nat := 1
  waitLimit : U32 := 0
  layers    : List Layer := []
  shares    : List StageShare
deriving DecidableEq, Repr

/-- What a polder of a reach holds for all its stages (12 R283): its stage table, the place of its code, its regions and weir ranges. -/
structure Holding where
  stageBase : U64
  codeBase  : U64
  regions   : List Region
  weirs     : List (BitVec 16 × BitVec 16)
deriving DecidableEq, Repr

/-- A reach: its logical polders in ascending order and what each holds (01 R21). -/
structure Reach where
  polders : List Pid
  holds   : List Holding
deriving DecidableEq, Repr

/-- A tensor that is recompressed in training (15 R363): the INT16 master elements of the owned shard, the base codebook, and the mask
tensor with the positions and columns of a transposable weight. -/
structure Recomp where
  master   : U64
  count    : Nat
  codebook : U64
  entries  : Nat
  mask     : Option (U64 × Nat × Nat) := none
deriving DecidableEq, Repr

/-- What the tiler reads of a program, and of its output what the manual leaves open (12 R269, log entry 33): the declared level, the
reaches, the reaches that a token visits in turn, the stages, images that Herd places, the cache tensors, the refetch table, what a
training checkpoint holds, the page directories of 15 R349 (polder, address, entries per slot), the launches of a step, the member sets
that Herd installs before a cx names them (14 R337), the places of the hyperparameter block (15 R360), and the tensors recompressed in
training. -/
structure BindPlan where
  level        : Byte
  reaches      : List Reach
  visits       : List Nat := []
  stages       : List StagePlan := []
  images       : List (U64 × List Byte) := []
  caches       : List CacheTensor := []
  refetch      : List (Pid × Fin 16 × U64 × U64) := []
  ckptBytes    : Nat := 0
  ckptRanges   : List (U64 × Nat) := []
  directory    : List (Pid × U64 × Nat) := []
  launches     : List LaunchPlan := []
  sets         : List (BitVec 6 × List (BitVec 12 × Pid)) := []
  hyper        : List U64 := []
  recomp       : List Recomp := []
deriving DecidableEq, Repr

/-- What a training step leaves for Herd's bookkeeping (15 R361, R362): PEAK over the member set, the overflow count of this module and
whether any member has one, and the bytes that the step's launches and collectives wrote before and after a recompression's masks. -/
structure TrainInputs where
  peak       : U32
  overflowed : Nat
  setOverflow : Bool
  written    : List (U64 × List Byte)
  recoded    : List (U64 × List Byte) := []
deriving DecidableEq, Repr

/-- Why a rollback starts (17 R404, Table 17-3); `joined` where another member of a training set rolls back (15 R365). -/
inductive RollbackCause where
  | groupLimit (site : Site)
  | planned
  | uncorrectable
  | line (addr : U64)
  | herdFailure
  | joined
deriving DecidableEq, Repr

/-- How the restore of a checkpoint ends (17 R408): done, on an uncorrectable unit, with CKPT_EXTERNAL data that does not arrive, or by
a further cause of Table 17-3. -/
inductive RestoreEnd where
  | done | unitLost | notReturned | struck
deriving DecidableEq, Repr

/-- What a rollback meets: its cause, the self-test of the spare, how the restore ends (17 R405-R408), and whether a member of a training
set has not committed this module's latest checkpoint (15 R365). -/
structure RollbackInputs where
  cause      : RollbackCause
  selfTestOk : Bool
  restore    : RestoreEnd
  older      : Bool := false
deriving DecidableEq, Repr

/-- A firmware image: its 8,192-byte header and its payload (17 R411). -/
structure FwImage where
  header  : List Byte
  payload : List Byte
deriving DecidableEq, Repr, Inhabited

/-- The PLDM numeric and state sensors (18 R433, Table 18-9). -/
inductive SensorId where
  | channel (src : BitVec 4)
  | energyTotal | powerState | coolClass | strapFault | bootSlot | recovery | calOrigin | integrityLost
  | thermalLockout | trainingFailure
deriving DecidableEq, Repr

/-- The signature of a cx (14 R340): primitive, operator, KIND and WIDTH, element count, handle and root, and the member's count of earlier
cx on the handle. -/
structure CxSig where
  prim    : BitVec 6
  op      : BitVec 3
  kind    : BitVec 4
  width   : Nat
  count   : Nat
  handle  : Nat
  root    : Nat
  earlier : Nat
deriving DecidableEq, Repr

/-- What another member gives a collective: its rank, its signature, its coordinate and its element codes (14 R339, R340). -/
structure PeerShare where
  rank    : Nat
  sig     : CxSig
  coord   : BitVec 12
  codes   : List U64
deriving DecidableEq, Repr

/-- The place in the array or in the log-add units at which an operation of a pass goes wrong (03 Table 3-5, 05 Table 5-5): the
popcount of PE row `pe`, the output of the column tree, one of the two overflow detectors of the sump adder, the product of a
position, or the addition of a row's P (or N) to its entry. -/
inductive SlipPoint where
  | popcount (pe : Nat)
  | tree
  | detector
  | product
  | merge (neg : Bool)
deriving DecidableEq, Repr

/-- A transient error in a pass: the row, column and issue cycle of the row (for a product, the position) that it strikes, and by
how much the value formed there is off (DESIGN CHOICE, log entry 4: chance brings it). -/
structure Slip where
  point : SlipPoint
  row   : Nat
  col   : Nat
  cycle : Nat
  delta : Int
deriving DecidableEq, Repr

/-- A transient error at the drain of a row (03 R62 CP3; 05 R103 CPL3; 17 R395): the entry of a column is off by `delta`, or a
duplicate or checker of the drain path disagrees. -/
inductive DrainSlip where
  | entry (col : Nat) (delta : Int)
  | checker
deriving DecidableEq, Repr

/-- The commands: one constructor per row of spec/opcode_table.json. -/
inductive Instr where
  /-- CTL_NOP (R220): Does nothing and costs one cycle. -/
  | ctlNop (p : Pid) (f : Fields)
  /-- CTL_END (R220): Requests the end of the task, which then waits for the task's work to finish. -/
  | ctlEnd (p : Pid) (f : Fields)
  /-- CTL_JMP (R220): Branches unconditionally to its own address plus 8 times the sign-extended offset. -/
  | ctlJmp (p : Pid) (f : Fields)
  /-- CTL_BEQ (R220): Branches if the two scalar sources are equal. -/
  | ctlBeq (p : Pid) (f : Fields)
  /-- CTL_BNE (R220): Branches if the two scalar sources differ. -/
  | ctlBne (p : Pid) (f : Fields)
  /-- CTL_BLT (R220): Branches if the first scalar source is less than the second, signed. -/
  | ctlBlt (p : Pid) (f : Fields)
  /-- CTL_BGE (R220): Branches if the first scalar source is greater than or equal to the second, signed. -/
  | ctlBge (p : Pid) (f : Fields)
  /-- CTL_BLTU (R220): Branches if the first scalar source is less than the second, unsigned. -/
  | ctlBltu (p : Pid) (f : Fields)
  /-- CTL_BGEU (R220): Branches if the first scalar source is greater than or equal to the second, unsigned. -/
  | ctlBgeu (p : Pid) (f : Fields)
  /-- CTL_ADD (R220): Writes the sum of two scalar registers, modulo 2^64. -/
  | ctlAdd (p : Pid) (f : Fields)
  /-- CTL_SUB (R220): Writes the difference of two scalar registers, modulo 2^64. -/
  | ctlSub (p : Pid) (f : Fields)
  /-- CTL_MUL (R220): Writes the low 64 bits of the product of two scalar registers. -/
  | ctlMul (p : Pid) (f : Fields)
  /-- CTL_AND (R220): Writes the bitwise AND of two scalar registers. -/
  | ctlAnd (p : Pid) (f : Fields)
  /-- CTL_OR (R220): Writes the bitwise OR of two scalar registers. -/
  | ctlOr (p : Pid) (f : Fields)
  /-- CTL_XOR (R220): Writes the bitwise XOR of two scalar registers. -/
  | ctlXor (p : Pid) (f : Fields)
  /-- CTL_SHL (R220): Shifts a scalar register left by the second source modulo 64. -/
  | ctlShl (p : Pid) (f : Fields)
  /-- CTL_SHR (R220): Shifts a scalar register right logically by the second source modulo 64. -/
  | ctlShr (p : Pid) (f : Fields)
  /-- CTL_SRA (R220): Shifts a scalar register right arithmetically by the second source modulo 64. -/
  | ctlSra (p : Pid) (f : Fields)
  /-- CTL_ADDI (R220): Adds a sign-extended immediate to a scalar register. -/
  | ctlAddi (p : Pid) (f : Fields)
  /-- CTL_SHLI (R220): Shifts a scalar register left by an immediate amount. -/
  | ctlShli (p : Pid) (f : Fields)
  /-- CTL_SHRI (R220): Shifts a scalar register right logically by an immediate amount. -/
  | ctlShri (p : Pid) (f : Fields)
  /-- CTL_ANDI (R220): ANDs a scalar register with a zero-extended immediate. -/
  | ctlAndi (p : Pid) (f : Fields)
  /-- CTL_LI (R220): Loads the 64-bit value of word 1 into a scalar register. -/
  | ctlLi (p : Pid) (f : Fields)
  /-- CTL_TIME (R220): Reads the device timebase into a scalar register. -/
  | ctlTime (p : Pid) (f : Fields)
  /-- CTL_TIMER_CLAIM (R221): Claims timebase timer Tn for the program under the resource rules. -/
  | ctlTimerClaim (p : Pid) (f : Fields)
  /-- CTL_TIMER_ARM (R221): Sets the deadline and expiry weir of a held timer. -/
  | ctlTimerArm (p : Pid) (f : Fields)
  /-- CTL_TIMER_RELEASE (R221): Releases and disarms a held timer. -/
  | ctlTimerRelease (p : Pid) (f : Fields)
  /-- CTL_TIMER_READ (R221): Returns whether a held timer has expired since it was last armed. -/
  | ctlTimerRead (p : Pid) (f : Fields)
  /-- TIMER_EXPIRY (R221): An armed timer reaches its deadline and signals its weir once by 1. -/
  | timerExpiry (n : Fin 16)
  /-- MV_LD (R222): Loads a scalar, mask, descriptor or vector register from memory or a register window. -/
  | mvLd (p : Pid) (f : Fields)
  /-- MV_ST (R222): Stores a scalar, mask, descriptor or vector register to memory or a register window. -/
  | mvSt (p : Pid) (f : Fields)
  /-- MV_LANE (R222): Copies one lane of a vector register into a scalar register. -/
  | mvLane (p : Pid) (f : Fields)
  /-- MV_SPLAT (R222): Writes the low 16 bits of a scalar into every unmasked lane of a vector register. -/
  | mvSplat (p : Pid) (f : Fields)
  /-- MV_DGET (R222): Reads one 8-byte word of a descriptor register into a scalar register. -/
  | mvDget (p : Pid) (f : Fields)
  /-- MV_DPUT (R222): Writes a scalar into one 8-byte word of a descriptor register. -/
  | mvDput (p : Pid) (f : Fields)
  /-- MV_MAND (R222): Writes the AND of two mask registers. -/
  | mvMand (p : Pid) (f : Fields)
  /-- MV_MOR (R222): Writes the OR of two mask registers. -/
  | mvMor (p : Pid) (f : Fields)
  /-- MV_MNOT (R222): Writes the complement of a mask register. -/
  | mvMnot (p : Pid) (f : Fields)
  /-- MV_MSET (R222): Sets the leading min(sRA, 128) bits of a mask register and clears the rest. -/
  | mvMset (p : Pid) (f : Fields)
  /-- MV_COPY (R223): Starts an asynchronous byte copy of one tensor into another on the move engine. -/
  | mvCopy (p : Pid) (f : Fields)
  /-- MV_BYTES (R223): Starts an asynchronous copy of a byte range on the move engine. -/
  | mvBytes (p : Pid) (f : Fields)
  /-- MOVE_COMPLETE (R223): A move-engine copy has made all its writes visible and signals its weir once by 1. -/
  | moveComplete (id : Nat)
  /-- WR_SIGNAL (R224): Adds an increment to a weir. -/
  | wrSignal (p : Pid) (f : Fields)
  /-- WR_WAIT (R258): Waits until a weir's count meets a threshold, watching locally or placing a remote watch. -/
  | wrWait (p : Pid) (f : Fields)
  /-- WR_READ (R224): Reads the count of a weir into a scalar register. -/
  | wrRead (p : Pid) (f : Fields)
  /-- WR_RSIGNAL (R224): Adds an increment to a peer module's weir through a weir window. -/
  | wrRsignal (p : Pid) (f : Fields)
  /-- WR_SWAIT (R224): Waits until a slot's tag is full. -/
  | wrSwait (p : Pid) (f : Fields)
  /-- WR_SFREE (R250): Sets a slot's tag empty. -/
  | wrSfree (p : Pid) (f : Fields)
  /-- WR_SFILL (R250): Sets a slot's tag full. -/
  | wrSfill (p : Pid) (f : Fields)
  /-- WAIT_COMPLETE (R258): A waiting wr.wait or wr.swait sees its weir threshold met or its slot full, or receives its watch notice, and completes. -/
  | waitComplete (p : Pid)
  /-- WAIT_TIMEOUT (R253): A task's wait on a slot, weir or fence passes WAIT_LIMIT and the instruction faults. -/
  | waitTimeout (p : Pid)
  /-- MM_LD (R226): Checks and queues a weight load into a latch half. -/
  | mmLd (p : Pid) (f : Fields)
  /-- MM_BP (R227): Checks, reads the tile parameter block and queues one pass of an output tile. -/
  | mmBp (p : Pid) (f : Fields)
  /-- MM_FENCE (R229): Waits until every queued load and pass of the task has finished, drained and been written by the OC. -/
  | mmFence (p : Pid) (f : Fields)
  /-- FENCE_COMPLETE (R229): All work queued before a fence has finished and is visible, so the fence completes. -/
  | fenceComplete (p : Pid)
  /-- WEIGHT_LOAD_START (R70): A queued weight load starts writing once the latch planes it needs are free. -/
  | weightLoadStart (p : Pid)
  /-- WEIGHT_LOAD_DONE (R69): A weight load has written all its planes, with codebook lookup and overflow check, into the latches. -/
  | weightLoadDone (e : CheckedEnd)
  /-- PASS_START (R228): A pass at the head of the pass queue runs the checks of Table 4-4, latches or compares its record, and begins issuing rows. -/
  | passStart (p : Pid) (slip : Option Slip)
  /-- LAST_PRODUCT_RETIRE (R79): The last product of a group's CLOSE pass retires into the sump. -/
  | lastProductRetire (p : Pid)
  /-- SET_SWAP (R79): The sump sets swap once the shadow set is clean, after a drain-interlock stall if needed. -/
  | setSwap (p : Pid)
  /-- DRAIN_ROW (R80): The next row of the shadow set leaves to the element engine once the EE accepts it, clearing its entries. -/
  | drainRow (p : Pid) (slip : Option DrainSlip)
  /-- OC_TILE_WRITE (R445): The OC surveys, widens if needed, compresses and writes out a fully received and checked tile with headers and tag settings. -/
  | ocTileWrite (e : CheckedEnd)
  /-- SUMP_DBG_START (R87): A START write requests a debug snapshot of one sump entry, or is denied without debug access. -/
  | sumpDbgStart (p : Pid) (v : U32)
  /-- SNAPSHOT_DONE (R87): The snapshot lands in SUMP_DBG_DATA and DONE is set. -/
  | snapshotDone (p : Pid)
  /-- DRAIN_HOLD_WRITE (R87): A write to SUMP_CTL.DRAIN_HOLD stops or resumes the drain, or is denied without debug access. -/
  | drainHoldWrite (p : Pid) (v : U32)
  /-- EE_PASS (R230): Copies operand A. -/
  | eePass (p : Pid) (f : Fields)
  /-- EE_ADD (R230): Adds A and B in BF16 or INT16. -/
  | eeAdd (p : Pid) (f : Fields)
  /-- EE_SUB (R230): Subtracts B from A in BF16 or INT16. -/
  | eeSub (p : Pid) (f : Fields)
  /-- EE_MUL (R230): Multiplies A and B in BF16 or INT16. -/
  | eeMul (p : Pid) (f : Fields)
  /-- EE_FMA (R230): Computes A times B plus C with one rounding. -/
  | eeFma (p : Pid) (f : Fields)
  /-- EE_MIN (R230): Returns the smaller of A and B. -/
  | eeMin (p : Pid) (f : Fields)
  /-- EE_MAX (R230): Returns the larger of A and B. -/
  | eeMax (p : Pid) (f : Fields)
  /-- EE_CMP_EQ (R162): Writes to a mask whether A equals B. -/
  | eeCmpEq (p : Pid) (f : Fields)
  /-- EE_CMP_NE (R162): Writes to a mask whether A differs from B. -/
  | eeCmpNe (p : Pid) (f : Fields)
  /-- EE_CMP_LT (R162): Writes to a mask whether A is less than B. -/
  | eeCmpLt (p : Pid) (f : Fields)
  /-- EE_CMP_LE (R162): Writes to a mask whether A is less than or equal to B. -/
  | eeCmpLe (p : Pid) (f : Fields)
  /-- EE_SEL (R162): Selects A where the condition mask is set, else B. -/
  | eeSel (p : Pid) (f : Fields)
  /-- EE_ABS (R230): Returns the magnitude of A. -/
  | eeAbs (p : Pid) (f : Fields)
  /-- EE_NEG (R230): Returns the negation of A. -/
  | eeNeg (p : Pid) (f : Fields)
  /-- EE_RSH (R230): Applies a rounding shift to INT16 A. -/
  | eeRsh (p : Pid) (f : Fields)
  /-- EE_CVT (R231): Converts A to BF16, INT16 or LG8, optionally with stochastic rounding. -/
  | eeCvt (p : Pid) (f : Fields)
  /-- EE_RCP (R163): Returns the correctly rounded reciprocal of BF16 A. -/
  | eeRcp (p : Pid) (f : Fields)
  /-- EE_RSQ (R163): Returns the correctly rounded reciprocal square root of BF16 A. -/
  | eeRsq (p : Pid) (f : Fields)
  /-- EE_EX2 (R163): Returns the correctly rounded 2 to the power A. -/
  | eeEx2 (p : Pid) (f : Fields)
  /-- EE_LG2 (R163): Returns the correctly rounded log2 of A. -/
  | eeLg2 (p : Pid) (f : Fields)
  /-- EE_LMUL (R101): Multiplies two LG8 codes. -/
  | eeLmul (p : Pid) (f : Fields)
  /-- EE_LDIV (R101): Divides two LG8 codes. -/
  | eeLdiv (p : Pid) (f : Fields)
  /-- EE_LEXP (R101): Returns the LG8 code of e to the BF16 power A. -/
  | eeLexp (p : Pid) (f : Fields)
  /-- EE_GATHER (R167): Reads one element per lane from a one-dimensional tensor at indices held in a vector pair. -/
  | eeGather (p : Pid) (f : Fields)
  /-- EE_CHAIN (R172): Loads a chain-table entry from scratchpad, waiting while a latched tile holds the entry. -/
  | eeChain (p : Pid) (f : Fields)
  /-- EE_ULOAD (R175): Checks and loads a micro-program slot, waiting while a latched tile uses it. -/
  | eeUload (p : Pid) (f : Fields)
  /-- RU_COUNT (R178): Counts the unmasked positions of each line. -/
  | ruCount (p : Pid) (f : Fields)
  /-- RU_SUM (R179): Sums each line exactly. -/
  | ruSum (p : Pid) (f : Fields)
  /-- RU_SUMSQ (R179): Sums the squares of each line exactly. -/
  | ruSumsq (p : Pid) (f : Fields)
  /-- RU_MV (R182): Returns the mean and population variance of each line. -/
  | ruMv (p : Pid) (f : Fields)
  /-- RU_MVP (R183): Writes a moment record for each line. -/
  | ruMvp (p : Pid) (f : Fields)
  /-- RU_MVF (R183): Adds a line of moment records and returns mean and variance. -/
  | ruMvf (p : Pid) (f : Fields)
  /-- RU_MAX (R181): Returns the largest value of each line. -/
  | ruMax (p : Pid) (f : Fields)
  /-- RU_MIN (R181): Returns the smallest value of each line. -/
  | ruMin (p : Pid) (f : Fields)
  /-- RU_ARGMAX (R181): Returns the position of the largest value of each line. -/
  | ruArgmax (p : Pid) (f : Fields)
  /-- RU_ARGMIN (R181): Returns the position of the smallest value of each line. -/
  | ruArgmin (p : Pid) (f : Fields)
  /-- RU_LSUM (R102): Returns the LG8 sum and BF16 natural log of the sum of each LG8 line. -/
  | ruLsum (p : Pid) (f : Fields)
  /-- QZ_CBK (R113): Fills a codebook bank from a base codebook, waiting for loads that name the bank. -/
  | qzCbk (p : Pid) (f : Fields)
  /-- QZ_SURVEY (R116): Surveys a tensor region and writes group limits, codes and second-level scales. -/
  | qzSurvey (p : Pid) (f : Fields)
  /-- QZ_QUANT (R115): Writes the codes of a tensor in its declared form using the surveyed scales. -/
  | qzQuant (p : Pid) (f : Fields)
  /-- QZ_OPT (R234): Runs the optimiser update on every unmasked parameter element. -/
  | qzOpt (p : Pid) (f : Fields)
  /-- PW_HINT (R238): Stamps a phase hint into the power manager's mailbox. -/
  | pwHint (p : Pid) (f : Fields)
  /-- PW_PREF (R238): Sets the preferred operating point of a phase. -/
  | pwPref (p : Pid) (f : Fields)
  /-- PW_ENERGY (R237): Returns the job's estimated energy in microjoules. -/
  | pwEnergy (p : Pid) (f : Fields)
  /-- CX_ALLREDUCE (R338): Starts an all-reduce of the source over a member set. -/
  | cxAllreduce (p : Pid) (f : Fields)
  /-- CX_REDUCESCATTER (R338): Starts a reduce-scatter over a member set. -/
  | cxReducescatter (p : Pid) (f : Fields)
  /-- CX_ALLGATHER (R338): Starts an all-gather over a member set. -/
  | cxAllgather (p : Pid) (f : Fields)
  /-- CX_BROADCAST (R338): Starts a broadcast from the root member. -/
  | cxBroadcast (p : Pid) (f : Fields)
  /-- CX_BARRIER (R338): Starts a barrier over a member set. -/
  | cxBarrier (p : Pid) (f : Fields)
  /-- COLLECTIVE_COMPLETE (R236): A collective's result is visible at this member and its weir is signalled once by 1. -/
  | collectiveComplete (id : Nat) (peers : List PeerShare)
  /-- SP_OPEN (R148): Takes and clears the spillway and sets its salt and spill region. -/
  | spOpen (p : Pid) (f : Fields)
  /-- SP_ADD (R150): Adds 128 keyed values to the spillway, spilling absent keys of full buckets. -/
  | spAdd (p : Pid) (f : Fields)
  /-- SP_FLUSH (R152): Writes every valid entry out, returns the count and closes the spillway. -/
  | spFlush (p : Pid) (f : Fields)
  /-- SP_MERGE (R152): Applies the records of a region as spillway updates. -/
  | spMerge (p : Pid) (f : Fields)
  /-- LAUNCH_COMMIT (R211): A write of SEQ_LAUNCH word 7 commits a launch record to the queue or is refused when full. -/
  | launchCommit (p : Pid) (w7 : U64)
  /-- TASK_START (R201): A launch record at the queue head is checked and its task starts, refused or ends at once with no work. -/
  | taskStart (p : Pid)
  /-- TASK_END (R202): A task's work completes, its completion record is written and its completion weirs are signalled. -/
  | taskEnd (p : Pid)
  /-- SEQ_CTL_FLUSH (R206): Discards every queued launch record not yet started. -/
  | seqCtlFlush (p : Pid)
  /-- SEQ_CTL_ABORT (R206): Aborts the running task at its next instruction boundary. -/
  | seqCtlAbort (p : Pid)
  /-- SEQ_CTL_RESUME (R205): Clears HALTED so the polder may start further tasks. -/
  | seqCtlResume (p : Pid)
  /-- RES_CLAIM_CLAIM (R208): Claims a resource entry for an owner or fails with RESOURCE_HELD. -/
  | resClaimClaim (owner : BitVec 4) (entry : Byte)
  /-- RES_CLAIM_RELEASE (R208): Releases a resource entry, refused unless by its owner. -/
  | resClaimRelease (owner : BitVec 4) (entry : Byte)
  /-- TERP_TAG_OP (R267): Sets the tags of a run of slots to full or empty at 64 tags per cycle. -/
  | terpTagOp (p : Pid) (v : U64)
  /-- TAG_OP_DONE (R267): A bulk tag operation has set its last tag and BUSY clears. -/
  | tagOpDone (p : Pid)
  /-- TERP_BANK_CTL_WRITE (R242): Changes a bank's protection, tag mode or power state, or is refused while a region or window covers it. -/
  | terpBankCtlWrite (p : Pid) (b : Fin 44) (v : U32)
  /-- BANK_READY (R245): A bank's zero-fill, power-up or wake from sleep completes and BUSY clears. -/
  | bankReady (p : Pid) (b : Fin 44)
  /-- TERP_RWIN_CTL_WRITE (R265): Opens, closes or reconfigures a remote window, or is refused. -/
  | terpRwinCtlWrite (p : Pid) (w : Fin 4) (v : U32)
  /-- WEIR_ADD_WRITE (R256): Adds the written value to a weir's count. -/
  | weirAddWrite (w : Fin 16384) (v : U32)
  /-- WEIR_SET_WRITE (R257): Sets a weir's count ahead of the cycle's increments. -/
  | weirSetWrite (w : Fin 16384) (v : U32)
  /-- WEIR_THRESH_WRITE (R260): Sets a weir's notify threshold, possibly setting NOTIFIED. -/
  | weirThreshWrite (w : Fin 16384) (v : U32)
  /-- WEIR_CTL_WRITE (R260): Enables notification or clears NOTIFIED, setting NOTIFIED if the weir already meets its threshold. -/
  | weirCtlWrite (w : Fin 16384) (v : U32)
  /-- WEIR_UPDATE_ARRIVAL (R257): An update from another domain passes its synchroniser and applies to a weir, possibly setting NOTIFIED. -/
  | weirUpdateArrival (w : Fin 16384)
  /-- REMOTE_PACKET_ARRIVAL (R263): A remote packet is checked against the window and lands under the tag rules or is refused. -/
  | remotePacketArrival (p : Pid)
  /-- REGISTER_WRITE (R8): A write to a register without behaviour of its own updates it by its access types. -/
  | registerWrite (addr : U64) (wide : Bool) (v : U64)
  /-- FABRIC_PACKET_FORWARD (R292): A router output arbitrates waiting packets by deficit-weighted round robin and forwards one. -/
  | fabricPacketForward (site : Site) (out : Port) (now : Nat) (arrivals : List (Port × FabPacket)) (taken : Nat × Nat)
  /-- PACKET_PROMOTION (R292): A head packet that has waited over 512 fabric cycles is promoted. -/
  | packetPromotion (site : Site) (out : Port) (net : Net) (inp : Port) (now : Nat)
  /-- ACTIVITY_TIMER_EXPIRE (R291): A router's activity timer for an input reaches zero and the input leaves the SRCS sum. -/
  | activityTimerExpire (site : Site) (inp : Port) (out : Port) (now : Nat)
  /-- MSC_ACCESS (R295): A request at a memory-side cache is served by hit, fill, write allocation or write-back. -/
  | mscAccess (addr : U64) (kind : MscKind) (x : MscArrival)
  /-- MSC_CTL_FLUSH (R298): Writes back every line that was dirty at the write. -/
  | mscCtlFlush (k : Fin 4)
  /-- FLUSH_DONE (R298): The last flushed line is visible in LPDDR5X and FLUSH_BUSY clears. -/
  | flushDone (k : Fin 4)
  /-- MSC_RANGE_WRITE (R297): Sets or enables a residency range, or is refused. -/
  | mscRangeWrite (k : Fin 4) (n : Fin 16) (lim : Bool) (v : U64)
  /-- REFPB (R300): A per-bank refresh falls due and is issued. -/
  | refpb (mc : Fin 8) (ch : Fin 72) (bank : Fin 16)
  /-- TEMP_REPORT_POLL (R300): Every 16 ms the controller reads each device's temperature report. -/
  | tempReportPoll (mc : Fin 8) (reports : List Byte)
  /-- WCK_DRIFT_TRACKING (R301): Every 1 ms a channel pauses to track WCK-to-DQ drift. -/
  | wckDriftTracking (mc : Fin 8) (ch : Fin 72)
  /-- PATROL_SCRUB_READ (R305): The controller patrol-reads a line in a free bank cycle and writes back a correction. -/
  | patrolScrubRead (mc : Fin 8) (errs : LineErrs)
  /-- SPARE_COPY_DONE (R306): A sparing copy finishes and the half is served from the spare. -/
  | spareCopyDone (mc : Fin 8)
  /-- CHANNEL_FAILURE (R307): A channel stops responding and every line it holds becomes uncorrectable. -/
  | channelFailure (mc : Fin 8) (ch : Fin 72)
  /-- TERP_PATROL_SCRUB (R399): The terp scrubber reads a word in an unwanted bank cycle and writes back a correction. -/
  | terpPatrolScrub (p : Pid) (addr : BitVec 29) (ecc : Ecc)
  /-- REFETCH_DONE (R400): The refetch engine has rewritten the slot from its image and the read retries. -/
  | refetchDone (p : Pid) (slot : BitVec 17)
  /-- COMMAND_FRAME (R312): An intact COMMAND frame is acknowledged by hardware and stored, or refused as DUP, GAP or BUSY. -/
  | commandFrame (lane : Bool) (fr : Frame)
  /-- HEARTBEAT_FRAME (R312): An intact HEARTBEAT is acknowledged with HB. -/
  | heartbeatFrame (lane : Bool) (fr : Frame)
  /-- ACK_FRAME (R313): An ACK from the node releases acknowledged module frames from the send buffer. -/
  | ackFrame (lane : Bool) (fr : Frame)
  /-- FRAME_RESEND_TIMEOUT (R313): A module frame unacknowledged for 6 µs is resent with every later frame on the other lane. -/
  | frameResendTimeout
  /-- HEARTBEAT_IDLE_TIMEOUT (R314): A lane idle for 5 µs sends a HEARTBEAT. -/
  | heartbeatIdleTimeout (lane : Bool)
  /-- CONTROL_LINK_LOST (R315): No intact frame for 30 µs sets LINK_LOST and posts an event to Herd. -/
  | controlLinkLost
  /-- JOB_OPEN (R316): Opens a job with the node as owner and sets the module's coordinate and extents. -/
  | jobOpen
  /-- JOB_CLOSE (R316): Closes the job, unbinding every program and closing windows and streams. -/
  | jobClose
  /-- STREAM_OPEN (R319): Opens a stream for one type and direction. -/
  | streamOpen
  /-- STREAM_CLOSE (R316): Closes a stream. -/
  | streamClose
  /-- STATUS_READ (R316): Returns PNX_STATUS, CAD_STATUS and the job id. -/
  | statusRead
  /-- MODEL_LOAD (R344): Checks and records a landed model package. -/
  | modelLoad (packageOk : Bool)
  /-- PROG_BIND (R344): Binds a program through the tiler. -/
  | progBind (plan : BindPlan)
  /-- PROG_UNBIND (R344): Ends every request of a program with UNBIND and unbinds it. -/
  | progUnbind
  /-- PROG_RESTART (R359): Clears a faulted program's STOPPED state with every slot empty. -/
  | progRestart
  /-- REQ_SUBMIT (R347): Checks a request and queues it or refuses it. -/
  | reqSubmit
  /-- REQ_CANCEL (R355): Cancels a queued request at once or a live one at its next boundary. -/
  | reqCancel
  /-- TRAIN_START (R360): Starts the training loop of a program. -/
  | trainStart
  /-- TRAIN_STOP (R344): Stops the training loop after the step in progress commits. -/
  | trainStop
  /-- STATS_READ (R366): Returns an image of the HERD block. -/
  | statsRead
  /-- STREAM_PACKET_ARRIVAL (R319): An inbound stream packet is CRC-checked and lands at BASE plus OFFSET, or is dropped and closes the stream. -/
  | streamPacketArrival (pk : StreamPacket)
  /-- STREAM_DONE (R319): Every byte of an inbound stream is visible, so its weir is signalled and STREAM_DONE posted. -/
  | streamDone (stream : Byte)
  /-- STREAM_CREDIT (R318): A credit return restores credits to a type's pool. -/
  | streamCredit (type : BitVec 3) (count : BitVec 29)
  /-- STREAM_NAK (R320): A NAK makes the sender replay from the named LSEQ out of its retry buffer. -/
  | streamNak (lseq : U32)
  /-- PNX_SEND_GO (R319): Starts sending an outbound stream from PNX_SEND_ADDR, or is refused while busy. -/
  | pnxSendGo (v : U64)
  /-- STREAM_SEND_DONE (R319): An outbound stream has sent all its bytes and SEND_BUSY clears. -/
  | streamSendDone
  /-- STREAM_LANE_RETRAIN (R320): A failed stream lane makes the channel retrain on a narrower group and replay. -/
  | streamLaneRetrain (working : Byte)
  /-- WILVAR_TRAIN (R321): A port trains after power-up or cable insertion at 16, 8 or 4 lanes. -/
  | wilvarTrain (w : Fin 6) (lanes : Nat)
  /-- WILVAR_PEER_EXCHANGE (R322): A port exchanges job id and coordinate with its peer and flags miscabling. -/
  | wilvarPeerExchange (w : Fin 6) (jobId : U64) (coord : BitVec 12)
  /-- WILVAR_PACKET_ARRIVAL (R324): A Wilvar packet is delivered into the mesh or forwarded cut-through towards its destination. -/
  | wilvarPacketArrival (w : Fin 6) (pk : WilvarPacket)
  /-- WILVAR_FLIT_REPLAY (R325): A flit FEC cannot correct is replayed from the retry buffer. -/
  | wilvarFlitReplay (w : Fin 6)
  /-- WAKE_PATTERN_REPEAT (R326): A port sends the wake pattern to a down peer every 100 µs until the link trains. -/
  | wakePatternRepeat (w : Fin 6)
  /-- SYNC_EXCHANGE (R327): Every 10 µs a member exchanges stamped messages with its parent, steers its timebase and judges lock. -/
  | syncExchange (t : SyncStamps)
  /-- PARENT_PORT_DOWN (R329): A member whose parent port goes down chooses a new parent or clears LOCKED. -/
  | parentPortDown
  /-- ANNOUNCE_LOCKED (R331): A LOCKED announcement arrives, is flooded and recorded as a permanent cap. -/
  | announceLocked (port : Fin 6) (a : Announce)
  /-- ANNOUNCE_TARGET (R331): A TARGET announcement arrives and is flooded. -/
  | announceTarget (port : Fin 6) (a : Announce)
  /-- ANNOUNCE_CAP (R331): A CAP announcement arrives, replaces its origin's cap and is flooded. -/
  | announceCap (port : Fin 6) (a : Announce)
  /-- ANNOUNCE_RELEASE (R331): A RELEASE announcement withdraws its origin's cap and is flooded. -/
  | announceRelease (port : Fin 6) (a : Announce)
  /-- ANNOUNCE_HALT (R335): A HALT announcement suspends wait intervals and is flooded. -/
  | announceHalt (port : Fin 6) (a : Announce)
  /-- ANNOUNCE_RESUME (R335): A RESUME announcement ends the hold of wait intervals and is flooded. -/
  | announceResume (port : Fin 6) (a : Announce)
  /-- EPOCH_BOUNDARY (R333): At an epoch boundary the member applies announcements, computes and steps its operating point and updates throttle, sluice and droop needs and learning. -/
  | epochBoundary (i : EpochInputs)
  /-- CURRENT_REPORT (R372): A 1 µs regulator report is projected over the window and may stretch clocks and lower the sluice need. -/
  | currentReport (r : Fin 14) (mean : U32)
  /-- LIMIT_WINDOW_CLOSE (R372): A 10 µs window closes and an overrun sets LIMIT_OVER and asserts ALERT_N for 1 ms. -/
  | limitWindowClose (r : Fin 14)
  /-- ALERT_PULSE_END (R372): The 1 ms limit alert ends and its ALERT_N source releases. -/
  | alertPulseEnd
  /-- DROOP_DETECT (R374): A rail falls below 95% of its set point and the stretcher swallows every second pulse. -/
  | droopDetect (q : Quad)
  /-- DROOP_RELEASE (R374): The rail has stood above 97% for 1 µs and the droop response ends. -/
  | droopRelease (q : Quad)
  /-- ESTIMATE_INTERVAL_CLOSE (R375): A 2 µs estimation interval closes and its energy estimate is published and accumulated. -/
  | estimateIntervalClose (railNj : List Nat) (inputNj : Nat)
  /-- BERM_STEP (R378): Each 125 ns the berm level moves one unit towards the quadrant's demand. -/
  | bermStep (q : Quad) (b : BermInputs)
  /-- A1_ENTRY (R383): After 1 µs idle with berm level 0 a quadrant's arithmetic clock is gated. -/
  | a1Entry (q : Quad)
  /-- PM_CTL_S1_REQ (R383): Requests entry into S1. -/
  | pmCtlS1Req
  /-- PM_CTL_S2_REQ (R383): Requests entry into S2, after cache flush and save of the retained set. -/
  | pmCtlS2Req
  /-- S1_IDLE_TIMEOUT (R383): S1_IDLE_MS of idle with no job or program elapses and the module enters S1. -/
  | s1IdleTimeout
  /-- WAKE_N_ASSERT (R385): WAKE_N held low for 1 µs or longer is a wake source in S1 or S2. -/
  | wakeNAssert
  /-- LINK_SIGNAL_DETECT (R385): Signal energy on a Wilvar or Palnex detector wakes the module from S1 or S2. -/
  | linkSignalDetect (src : LinkDetector) (pattern : Bool)
  /-- WAKE (R386): A latched wake source runs the wake order back to A0. -/
  | wake (b : BootInputs)
  /-- GANDER_SAMPLE (R391): A comparator samples its channel and becomes active or inactive, applying its actions. -/
  | ganderSample (n : Fin 8) (src : BitVec 4) (value : U32)
  /-- TRIP_RESTART (R390): After 1 ms at or below 95 °C arithmetic restarts at 300 MHz and RESUME is announced. -/
  | tripRestart
  /-- GANDER_CMP_WRITE (R392): Configures a comparator, or is refused when the owner field differs. -/
  | ganderCmpWrite (n : Fin 8) (v : U32)
  /-- GANDER_THR_WRITE (R392): Sets a comparator threshold, or is refused when the owner field differs. -/
  | ganderThrWrite (n : Fin 8) (v : U32)
  /-- MICROBATCH_BOUNDARY (R351): The last completion weir of a micro-batch's launches notifies Herd, which samples, ends, moves, admits and launches. -/
  | microbatchBoundary (prog : Fin 4) (b : Nat) (rows : List LogitRow)
  /-- HERD_FAULT_HANDLER (R359): The scheduler aborts the faulted program's tasks, ends its requests, posts PROG_FAULT and resumes the polder. -/
  | herdFaultHandler (p : Pid)
  /-- EVENT_LOG_SEND (R345): The event log feeder moves the next event into the send buffer when it has room. -/
  | eventLogSend
  /-- TRAIN_STEP (R361): Once a step's batch has landed, a member runs forward, backward, reduction, optimiser and bookkeeping for the step. -/
  | trainStep (prog : Fin 4) (i : TrainInputs)
  /-- ROLLBACK (R405): Herd halts, aborts, optionally activates a spare, rebinds, restores the checkpoint and replays. -/
  | rollback (i : RollbackInputs)
  /-- CKPT_CTL_GO (R409): Starts a copy between a device address range and checkpoint reserve units. -/
  | ckptCtlGo (v : U32)
  /-- CKPT_COPY_DONE (R409): A checkpoint copy finishes and DONE is set. -/
  | ckptCopyDone (ue : Bool)
  /-- SEC_DBG_REVOKE (R421): Ends the debug grant. -/
  | secDbgRevoke
  /-- SEC_DBG_NEW_NONCE (R420): Replaces the debug nonce with a fresh one. -/
  | secDbgNewNonce (entropy : List (BitVec 256))
  /-- DEBUG_TOKEN (R420): A debug token over MCTP is verified and grants debug rights, or is refused. -/
  | debugToken (tok : List Byte) (entropy : List (BitVec 256))
  /-- MGT_SB_CFG_WRITE (R430): Sets a sideband pin's function, or is refused when the owner field differs. -/
  | mgtSbCfgWrite (n : Fin 8) (v : U32)
  /-- INPUT_VALID (R436): Input becomes valid and power-up runs in order, sampling the straps and booting. -/
  | inputValid (straps : Straps) (b : BootInputs)
  /-- VIN_UNDERVOLTAGE (R427): VIN below 42 V for 100 µs makes input invalid and powers the module down. -/
  | vinUndervoltage
  /-- VIN_OVERVOLTAGE (R427): VIN above 62 V for 100 µs powers the module down. -/
  | vinOvervoltage
  /-- EN_IN_FALL (R437): EN_IN going low runs the power-down sequence. -/
  | enInFall
  /-- MRST_N (R438): MRST_N held low for 1 µs resets every domain but the input stage and resumes power-up from the MGT step. -/
  | mrstN (b : BootInputs)
  /-- I3C_SETDASA (R432): Assigns the dynamic address from the static address. -/
  | i3cSetdasa (static dyn : BitVec 7)
  /-- I3C_ENTDAA (R432): Takes part in dynamic address assignment. -/
  | i3cEntdaa (dyn : BitVec 7)
  /-- I3C_SETNEWDA (R432): Changes the dynamic address. -/
  | i3cSetnewda (dyn : BitVec 7)
  /-- I3C_RSTDAA (R432): Resets the dynamic address. -/
  | i3cRstdaa
  /-- I3C_GETPID (R432): Returns the provisional ID. -/
  | i3cGetpid
  /-- I3C_GETBCR (R432): Returns the bus characteristics register. -/
  | i3cGetbcr
  /-- I3C_GETDCR (R432): Returns the device characteristics register. -/
  | i3cGetdcr
  /-- I3C_GETSTATUS (R432): Returns the target status. -/
  | i3cGetstatus
  /-- I3C_ENEC (R432): Enables target events. -/
  | i3cEnec (ev : Byte)
  /-- I3C_DISEC (R432): Disables target events. -/
  | i3cDisec (ev : Byte)
  /-- I3C_GETMWL (R432): Returns the maximum write length. -/
  | i3cGetmwl
  /-- I3C_SETMWL (R432): Sets the maximum write length. -/
  | i3cSetmwl (len : BitVec 16)
  /-- I3C_GETMRL (R432): Returns the maximum read length. -/
  | i3cGetmrl
  /-- I3C_SETMRL (R432): Sets the maximum read length. -/
  | i3cSetmrl (len : BitVec 16)
  /-- PLDM_SENSOR_READ (R433): Returns a numeric or state sensor, or ERROR_NOT_READY outside its states. -/
  | pldmSensorRead (id : SensorId)
  /-- PLDM_ENTER_S1 (R433): Requests entry into S1. -/
  | pldmEnterS1
  /-- PLDM_ENTER_S2 (R433): Requests entry into S2. -/
  | pldmEnterS2
  /-- PLDM_CLEAR_LOCKOUT (R390): Clears a thermal lockout. -/
  | pldmClearLockout
  /-- PLDM_BURN_DEBUG_LOCK (R420): Burns the DEBUG_LOCK fuse permanently. -/
  | pldmBurnDebugLock
  /-- PLDM_FW_UPDATE_IMAGE (R413): Writes a firmware image to the slot not running and marks it pending. -/
  | pldmFwUpdateImage (image : FwImage)
  /-- PLDM_FW_UPDATE_CALIBRATION (R419): Replaces the calibration set, or refuses a set that would read NONE. -/
  | pldmFwUpdateCalibration (cal : List Byte)
  /-- PLDM_STEPPING_READ (R433): Returns the stepping identity record. -/
  | pldmSteppingRead
  /-- GET_VERSION (R416): Answers the SPDM version request. -/
  | getVersion
  /-- GET_CAPABILITIES (R416): Answers the SPDM capabilities request. -/
  | getCapabilities
  /-- NEGOTIATE_ALGORITHMS (R416): Offers ML-DSA-65 and SHA3-256 only. -/
  | negotiateAlgorithms (asym hash : U32)
  /-- GET_DIGESTS (R416): Returns the certificate chain digest of slot 0. -/
  | getDigests
  /-- GET_CERTIFICATE (R416): Returns the certificate chain of slot 0. -/
  | getCertificate (slot : BitVec 4) (offset len : BitVec 16)
  /-- CHALLENGE (R416): Signs a challenge response with the alias key. -/
  | challenge (slot : BitVec 4) (nonce : BitVec 256)
  /-- GET_MEASUREMENTS (R416): Returns the measurement blocks, signed if requested. -/
  | getMeasurements (index : Byte) (signed : Bool) (nonce : BitVec 256)
  /-- TAP_BYPASS (R434): Selects the bypass register. -/
  | tapBypass
  /-- TAP_IDCODE (R434): Selects the IDCODE register. -/
  | tapIdcode
  /-- TAP_SAMPLE_PRELOAD (R434): Samples or preloads the boundary register. -/
  | tapSamplePreload (pins preload : BitVec 64)
  /-- TAP_EXTEST (R434): Drives pins from the boundary register where permitted, else loads BYPASS. -/
  | tapExtest
  /-- TAP_CLAMP (R434): Holds pins from the boundary register with bypass selected where permitted, else loads BYPASS. -/
  | tapClamp
  /-- TAP_HIGHZ (R434): Floats the outputs where permitted, else loads BYPASS. -/
  | tapHighz
  /-- WILVAR_PORT_DOWN (R424): A Wilvar port whose cable is removed or whose link fails goes down, clearing TRAINED and WIDTH until it retrains. -/
  | wilvarPortDown (w : Fin 6)
  /-- FLASH_WRITE_COMPLETE (R438): A flash write in progress completes, after which a deferred MRST_N takes effect and power-down proceeds. -/
  | flashWriteComplete
  /-- POWER_STATE_ENTRY_COMPLETE (R383): Entry into S1 or S2 completes, after which a wake latched during entry follows at once. -/
  | powerStateEntryComplete
  /-- UNSUPPORTED_REQUEST (R416): An SPDM request not in Table 17-7 is answered with ERROR UnsupportedRequest. -/
  | unsupportedRequest (code : Byte)
deriving DecidableEq, Repr

end Sys2Proof
end

