-- ==== Sys2Proof/Config.lean ====
section
/-! DEFINITION. What the manual leaves open, as constants without a body: no proof can see a value of them (DESIGN CHOICE, log entries 3
and 5). -/

namespace Sys2Proof

/-- The free values: the n-th value that timing or the outside fixes and the manual does not (DESIGN CHOICE, log entry 3). -/
opaque Config.freeWord : Nat → U64

/-- A byte that another module answers with: the read's place in the order of free values, and its address (DESIGN CHOICE, log entry 3). -/
opaque Config.peerByte : Nat → Nat → Byte

/-- The four check bytes of a line under the RS(68,64) code of 13 R303: the manual gives no generator of the code (DESIGN CHOICE, log
entry 62). -/
opaque Config.rsCheck : List Byte → BitVec 32

/-- The clip factor of an inline survey, a BF16 code: the manual gives the tile no field that holds it (DEDUCED, log entry 21). -/
opaque Config.inlineClip : BitVec 16

/-! ### Standards outside the manual (DESIGN CHOICE, log entry 5): SHA3-256 and SHAKE256 of FIPS 202, ML-DSA-65 of FIPS 204 -/

opaque Config.sha3 : List Byte → List Byte
opaque Config.shake256 : List Byte → List Byte
/-- The ML-DSA-65 public key of a seed. -/
opaque Config.keyOf : List Byte → List Byte
/-- The ML-DSA-65 signature by the key of a seed over a message. -/
opaque Config.sign : List Byte → List Byte → List Byte
/-- Whether a signature over a message verifies under a public key: key, message, signature. -/
opaque Config.verifies : List Byte → List Byte → List Byte → Bool

/-! ### Fuses, mask ROM and flash as the part ships (DESIGN CHOICE, log entry 5) -/

/-- The unique device secret UDS (17 R415). -/
opaque Config.uds : List Byte
/-- The fused Mbavimund firmware key hash (17 R412). -/
opaque Config.fwKeyHash : List Byte
/-- The fused calibration key, against which a set's signature verifies (17 R418). -/
opaque Config.calKey : List Byte
/-- The fused debug key, against which a token's signature verifies (17 R420). -/
opaque Config.dbgKey : List Byte
/-- The anti-rollback counter as fused before this model's history begins (17 R422). -/
opaque Config.fuseCtr : BitVec 6
/-- The DEBUG_LOCK fuse as it ships (17 R422). -/
opaque Config.debugLock : Bool
/-- The boot ROM's bytes (17 Table 17-8). -/
opaque Config.bootRom : List Byte
/-- The image in firmware slot A or B as the part ships. -/
opaque Config.factoryImage : Bool → FwImage
/-- The calibration set as the part ships. -/
opaque Config.factoryCal : List Byte
/-- The certificate chain in flash (17 R415). -/
opaque Config.certChain : List Byte
/-- Whether every value of a calibration body lies in range (17 R418: the layout of the body is not in the manual). -/
opaque Config.calInRange : List Byte → Bool
/-- The calibrated offset of each quadrant's arithmetic rail in a calibration set, mV (16 R369, 17 R417); it is taken modulo 31. -/
opaque Config.varithOffset : List Byte → Nat → Nat
/-- The place of a sideband pin's cell in the boundary register (18 R434: the manual gives no order of the cells; DESIGN CHOICE, log
entry 67). -/
opaque Config.scanCell : Nat → Nat
/-- The bits of the I3C characteristics registers and of the provisional ID that the manual does not fix. -/
opaque Config.i3cBcr : Byte
opaque Config.i3cDcr : Byte
opaque Config.i3cPid : BitVec 48

/-- The credits that the node advertises at link start, per stream type (14 R317). -/
opaque Config.nodeCredits : Nat → Nat

end Sys2Proof
end

