-- ==== Sys2Proof/Machine/State.lean ====
section
/-! DEFINITION. The state of the part, as plain data: every register, buffer, queue, table and pin of the manual, the
command queue, and State.reset. A field's default is its value after power-on reset (00 R9); where the manual gives none
the assumption log names the choice (DESIGN CHOICE, log entries 1, 2). -/

namespace Sys2Proof.Machine

/-- The model raises no fault of its own: a task fault of 09 Table 9-9 is an effect on State (09 R205). -/
inductive Fault where
deriving DecidableEq, Repr

/-- Why a command has no meaning. -/
inductive Refusal where
  /-- Raised by an arm of `exec` whose command has no meaning yet; safe. -/
  | notModelled (mnemonic : String)
deriving DecidableEq, Repr

/-! ### Values -/

/-- A value of ACC32 or ACCX: finite, or the sentinel (02 R28, R29). -/
inductive Acc where
  | val (x : Int)
  | sentinel
deriving DecidableEq, Repr

/-- A log accumulator: empty, a log magnitude in units of 2^-12 log2, or the sentinel (05 R90). -/
inductive LogAcc where
  | empty
  | fin (l : Int)
  | sentinel
deriving DecidableEq, Repr

/-- A sump entry: an accumulator with its residue register mod 7, 0 once the sentinel voids it (03 R62 CP3, R63), or the pair
(P, N) of a log group with the depth D of its terms so far (04 R73; 05 R95, R98). -/
inductive Entry where
  | acc (a : Acc) (residue : Nat)
  | pair (p n : LogAcc) (depth : Nat)
deriving DecidableEq, Repr

/-! ### Tasks and the sequencer (09) -/

/-- The fields of a stage record that stay in force while its task runs (09 R195, Table 9-2). -/
structure StageRec where
  code      : U64
  codeLen   : U32
  fillBound : U32
  level     : Byte
  prog      : Fin 4
  stage     : BitVec 16
  waitLimit : U32
deriving DecidableEq, Repr

/-- What a task waits for (10 R224, R229; 11 R250, R258): a weir, a slot, a fence, or the tag, full or empty, of a slot that an access
of its next instruction needs. -/
inductive WaitKind where
  | weir (w : BitVec 16) (t : U32)
  | slot (n : BitVec 17)
  | fence
  | access (q : Pid) (n : BitVec 17) (full : Bool)
deriving DecidableEq, Repr

/-- A wait in progress and the timebase at its start (11 R253). -/
structure Wait where
  kind  : WaitKind
  start : U64
deriving DecidableEq, Repr

/-- An entry of the stream claim table: a pair (generator, stream id) and the destination that drew it first (06 R127). -/
structure Claim where
  gen  : BitVec 4
  sid  : U32
  dest : Nat
deriving DecidableEq, Repr

/-- A queued weight load (10 R226): its serial number, its instruction, the descriptor and side record it read, its
positions and columns, its half, and the width w of the operand it loads. -/
structure LoadReq where
  id    : Nat
  pc    : U32
  dreg  : BitVec 5
  desc  : DescWord
  side  : BitVec 256
  k0    : Nat
  klen  : Nat
  c0    : Nat
  ncols : Nat
  half  : Fin 2
  w     : Nat
deriving DecidableEq, Repr

/-- A task: one launch record in execution, with its architectural registers (09 R194, R196, Table 9-3). -/
structure Task where
  launch   : BitVec 512
  stage    : StageRec
  fill     : U32
  pc       : U32
  s        : Vector U64 32
  d        : Vector DescWord 16
  v        : Vector (BitVec 2048) 32
  m        : Vector (BitVec 128) 8
  wait     : Option Wait := none
  ending   : Bool := false
  loaded   : Vector (Option LoadReq) 2 := Vector.replicate 2 none
  claims   : List Claim := []
  peak     : U32 := 0
  replays  : U32 := 0
  widened  : U32 := 0
deriving DecidableEq, Repr

/-- The SEQ block of a polder (09 R194, R211), the completion record of the task that faulted last (15 R359), and the records that
wait on a bank or a tag before they are written (11 R242, R250). -/
structure Seq where
  words      : Vector U64 8 := Vector.replicate 8 0
  queue      : List (BitVec 512) := []
  refused    : Bool := false
  halted     : Bool := false
  fault      : U64 := 0
  faultPc    : U32 := 0
  faultTime  : U64 := 0
  record     : List Byte := []
  owed       : List (Nat × List Byte) := []
  stageBase  : U64 := 0
  tasks      : U64 := 0
  faults     : U64 := 0
deriving DecidableEq, Repr

/-! ### The array (03, 04, 05) -/

/-- The BPE block (03 R65, R66); `ran` says that a pass has issued since BPE_STALL_CYCLES was last read. -/
structure Bpe where
  ctl     : U32 := 1
  status  : U32 := 0
  issued  : U64 := 0
  skipped : U64 := 0
  trunc   : U64 := 0
  stall   : U64 := 0
  ran     : Bool := false
deriving DecidableEq, Repr

/-- What a load has written into one latch half (04 R67, R68): per unmasked column the bits of that half of the operand at every
unmasked position (0 where masked or dropped), and of the whole load the sum C_j of each column (06 R109), whether the column
holds an overflow code (03 R61), and whether a streamed scale saturated or was bad (06 R111). -/
structure Latch where
  load : LoadReq
  bits : List (List Nat)
  sums : List Int
  ovf  : List Bool
  sat  : Bool := false
  bad  : Bool := false
deriving DecidableEq, Repr

/-- The tile parameter block as a pass carries it (10 Table 10-8). -/
structure Tpb where
  shift  : Nat
  accX   : Bool
  chain  : Fin 16
  nc     : Nat
  budget : BitVec 16
  sigma  : Nat
  sr     : Bool
  gen    : BitVec 4
  sid    : U32
  mult   : List Nat
deriving DecidableEq, Repr

/-- A queued pass (10 R227, R228). -/
structure PassReq where
  pc      : U32
  outReg  : BitVec 5
  actReg  : BitVec 5
  outD    : DescWord
  outSide : BitVec 256
  act     : DescWord
  actSide : BitVec 256
  load    : LoadReq
  half    : Fin 2
  close   : Bool
  trunc   : Nat
  m       : Nat
  chunks  : Nat
  chunk   : Nat
  frame   : Nat
  r0      : Nat
  tpb     : Tpb
  epoch   : U32
deriving DecidableEq, Repr

/-- The path of a pass (10 R227). -/
inductive Path where
  | bitPlane | xnor | logPath
deriving DecidableEq, Repr

/-- The parameter record of an output tile (04 Table 4-5, 05 R95, 10 R228) with the place of the tile in its tensor: `live`
counts its rows outside the row predicate, `ncols` its valid columns, `masks` holds the stage masks of its chain. -/
structure TileRec where
  path    : Path
  wKind   : Nat
  wWidth  : Nat
  aKind   : Nat
  aWidth  : Nat
  two4    : Bool
  tpb     : Tpb
  trunc   : Nat
  zw      : Nat
  za      : Nat
  outD    : DescWord
  outSide : BitVec 256
  live    : Nat
  ncols   : Nat
  epoch   : U32
  skipEn  : Bool
  truncOff : Bool
  masks   : List (BitVec 128)
  m       : Nat
  chunks  : Nat
  r0      : Nat
  c0      : Nat
deriving DecidableEq, Repr

/-- What issuing passes counts and flags (03 R61, R65, R66; 04 R86; 05 R104; 06 R111). -/
structure PassCounts where
  issued   : Nat := 0
  skipped  : Nat := 0
  trunc    : Nat := 0
  products : Nat := 0
  cheap    : Nat := 0
  rowOvf   : Bool := false
  clamp    : Bool := false
  colOvf   : Bool := false
  scaleSat : Bool := false
  scaleBad : Bool := false
  born     : Bool := false
  logBorn  : Bool := false
deriving DecidableEq, Repr

/-- A frame of a sump set: its record, the chunks it holds, its entries by row, and the sums of 06 R109. -/
structure SumpFrame where
  tile    : TileRec
  done    : Nat
  rows    : List (List Entry)
  rowSum  : List Int
  colSum  : List Int
  kU      : Nat
deriving DecidableEq, Repr

/-- A group of frames (04 R74, R75), by frame index, with its serial number, how often it was replayed (04 R82, 17 R398), and what
its passes count, which a replay counts again. -/
structure Group where
  accX    : Bool
  m       : Nat
  serial  : Nat := 0
  replays : Nat := 0
  work    : PassCounts := {}
  frames  : List (Nat × SumpFrame)
deriving DecidableEq, Repr

/-- A debug snapshot outstanding (04 R87). -/
structure Snapshot where
  shadow : Bool
  entry  : Nat
  column : Nat
deriving DecidableEq, Repr

/-- The SUMP block and the sump sets (04 R73-R81, R87, R88). `closed` holds the groups whose CLOSE pass has issued and that
await their swap, in order; `retired` says that the last product of the first has retired; `wait` that the array is stalled
under R79, and `waited` that it has been since SUMP_DRAIN_WAIT was last read; `shadow` is the draining group with its next row;
`groups` counts the groups opened. -/
structure Sump where
  hold      : Bool := false
  ovfSeen   : Bool := false
  wait      : Bool := false
  waited    : Bool := false
  drainWait : U64 := 0
  swaps     : U64 := 0
  ovfCount  : U64 := 0
  drained   : U64 := 0
  dbgAddr   : U32 := 0
  dbgStat   : U32 := 0
  dbgData   : U64 := 0
  snap      : Option Snapshot := none
  groups    : Nat := 0
  opened    : Option Group := none
  closed    : List Group := []
  retired   : Bool := false
  shadow    : Option (Group × Nat × Nat) := none
deriving DecidableEq, Repr

/-- The weight latches, their loader queue and the pass queue (04 R68, R70; 10 R226, R227). -/
structure ArrayQ where
  nextLoad : Nat := 0
  loads    : List LoadReq := []
  loading  : Option LoadReq := none
  latches  : Vector (Option Latch) 2 := Vector.replicate 2 none
  passes   : List PassReq := []
deriving DecidableEq, Repr

/-- The LOG block (05 R104); LOG_TBL is the constant table of 05 R92. -/
structure LogBlk where
  status    : U32 := 0
  products  : U64 := 0
  cheap     : U64 := 0
  depthOver : U64 := 0
  convOvf   : U64 := 0
deriving DecidableEq, Repr

/-! ### Quantisation, output compressor, spillway (06, 07) -/

/-- A codebook bank: the entries that differ from 0, keyed by 256 u + i, and the width and load shift of its last fill
(06 R112, R113). -/
structure CbBank where
  cells : Sparse (BitVec 16) := []
  width : Nat := 16
  shift : Nat := 0
deriving DecidableEq, Repr

/-- The QZ block and the codebook store (06 R112, R129). -/
structure Qz where
  status   : U32 := 0
  clipped  : U64 := 0
  elements : U64 := 0
  widened  : U64 := 0
  excess   : U64 := 0
  shared   : U64 := 0
  gradOvf  : U64 := 0
  keys     : Vector U64 16 := Vector.replicate 16 0
  banks    : Vector CbBank 2 := Vector.replicate 2 {}
deriving DecidableEq, Repr

/-- An element as the OC holds it: an integer before steps 4 and 5 of 02 R39 (an infinity clamps), a finished code with the
flags it sets, or an exact value m 2^e that a survey will code. -/
inductive OcElem where
  | int (x : Int) (clip : Bool)
  | inf (neg : Bool)
  | sentinel (clip : Bool)
  | code (c : Nat) (sat narrow clip : Bool)
  | exact (m e : Int) (clip : Bool)
deriving DecidableEq, Repr

/-- An output tile in an OC buffer: its record, the group it belongs to, the rows received so far, and the tap records of those
rows with the tap tensor's descriptor, none without a tap (08 R185, R445; 17 R396). -/
structure OcTile where
  tile  : TileRec
  group : Group
  rows  : List (List OcElem)
  taps  : List (List Byte)
  tapD  : Option DescWord := none
  full  : Bool
deriving DecidableEq, Repr

/-- The OC block and its two tile buffers (07 R154, 08 R445). -/
structure Oc where
  status  : U32 := 0
  dense   : U64 := 0
  packed  : U64 := 0
  hotrow  : U64 := 0
  zeros   : U64 := 0
  bytes   : U64 := 0
  recv    : Option OcTile := none
  ready   : Option OcTile := none
deriving DecidableEq, Repr

/-- The spillway and the SPW block (07 R148, R155): entries keyed by 8 bucket + way. -/
structure Spw where
  status    : U32 := 0
  isOpen    : Bool := false
  salt      : U32 := 0
  count     : U32 := 0
  spilled   : U32 := 0
  updates   : U64 := 0
  conflicts : U64 := 0
  spills    : U64 := 0
  cells     : List (Nat × BitVec 32 × Acc) := []
  regionBase : Nat := 0
  regionLen : Nat := 0
deriving DecidableEq, Repr

/-! ### Element engine and reduction unit (08) -/

/-- A chain table entry (08 R172, Tables 8-2 to 8-4). -/
structure Chain where
  header  : U64 := 0
  stages  : Vector U64 8 := Vector.replicate 8 0
  cbDesc  : DescWord := 0
  tapDesc : DescWord := 0
  rowVec  : Vector (BitVec 2048) 8 := Vector.replicate 8 0
deriving DecidableEq, Repr

/-- The EE block, the chain table and the micro-program store (08 R172, R175, R187); `held` and `met` say that a row has drained
since EE_HOLD_CYCLES and EE_PORT_WAIT were last read. -/
structure Ee where
  status     : U32 := 0
  rows       : U64 := 0
  hold       : U64 := 0
  suppressed : U64 := 0
  stride0    : U64 := 0
  portWait   : U64 := 0
  held       : Bool := false
  met        : Bool := false
  chains     : Vector Chain 16 := Vector.replicate 16 {}
  uprogs     : Vector (List U32) 32 := Vector.replicate 32 []
deriving DecidableEq, Repr

/-- The RU block (08 R187); `met` says that a tap has taken a row since RU_TAP_WAIT was last read. -/
structure Ru where
  status  : U32 := 0
  lines   : U64 := 0
  emptied : U64 := 0
  tapWait : U64 := 0
  met     : Bool := false
deriving DecidableEq, Repr

/-! ### Scratchpad, slots, windows and weirs (11) -/

/-- TERP_BANK_CTL_b (11 R239-R245). -/
structure Bank where
  busy  : Bool := false
  power : BitVec 2 := 0
  tags  : Bool := false
  prot  : Bool := false
deriving DecidableEq, Repr

/-- The registers of a remote window (11 R261-R265). -/
structure Window where
  isOpen  : Bool := false
  weirs   : Bool := false
  wr      : Bool := false
  rd      : Bool := false
  arrWeir : BitVec 16 := 0xFFFF
  base    : BitVec 17 := 0
  size    : BitVec 17 := 0
  step    : U32 := 0
  arr     : U64 := 0
deriving DecidableEq, Repr

/-- A remote packet at a landing port: its window, its offset and what it asks (11 R261, R263), the device address it goes back to and
the instruction that sent it, and, once accepted, the first slot or weir of the window it met (11 R265). -/
structure Landing where
  window : Fin 4
  offset : BitVec 41
  op     : RemoteOp
  sender : Option Nat
  tag    : Pid × U32 := (0, 0)
  base   : Option Nat := none
deriving DecidableEq, Repr

/-- The TERP block of a polder (11 R266, R267); bit n of `slots` is the tag of slot n, and `ended` lists the slots that a slot end has
set full since the last nanosecond (11 R252). -/
structure Terp where
  status  : U32 := 0
  tagOp   : Option U64 := none
  narrow  : U64 := 0
  tagWaits : U64 := 0
  refused : U64 := 0
  banks   : Vector Bank 44 := Vector.replicate 44 {}
  bnd     : BitVec 832 := 0
  windows : Vector Window 4 := Vector.replicate 4 {}
  slots   : BitVec 90112 := 0
  ended   : List Nat := []
  landing : List Landing := []
deriving DecidableEq, Repr

/-- A weir (11 R255). -/
structure Weir where
  count    : U32 := 0
  thresh   : U32 := 0
  notifyEn : Bool := false
  notified : Bool := false
deriving DecidableEq, Repr

/-- A watch of polder p on a weir that another holds, and whether its notice has been sent (11 R258). -/
structure Watch where
  p      : Pid
  weir   : Nat
  thresh : U32
  sent   : Bool := false
deriving DecidableEq, Repr

/-- The counters of a WEIR block (11, WEIR_WAIT_CYCLES and WEIR_SIGNALS); `waited` says that a task has waited on a weir since the
former was last read. -/
structure WeirBlk where
  waits   : U64 := 0
  signals : U64 := 0
  waited  : Bool := false
deriving DecidableEq, Repr

/-- One polder (01 R12, 09 Table 9-14). -/
structure Polder where
  task : Option Task := none
  seq  : Seq := {}
  bpe  : Bpe := {}
  arr  : ArrayQ := {}
  sump : Sump := {}
  logb : LogBlk := {}
  qz   : Qz := {}
  oc   : Oc := {}
  spw  : Spw := {}
  ee   : Ee := {}
  ru   : Ru := {}
  terp : Terp := {}
  weir : WeirBlk := {}
  hints : List (Fin 4 × BitVec 6 × U64 × BitVec 16) := []
deriving DecidableEq, Repr

/-! ### Asynchronous work (10 R217) -/

/-- What an asynchronous transfer of the move engine does when it completes (10 R222, R223, R236). -/
inductive Work where
  | bytes (src dst : Nat) (len : Nat)
  | tensor (src dst : DescWord) (srcSide dstSide : BitVec 256)
  | collective (op : BitVec 6) (red : BitVec 3) (src dst : DescWord) (srcSide dstSide : BitVec 256) (handle root : Nat)
deriving DecidableEq, Repr

/-- An outstanding transfer: its serial number, its polder and task instruction, the fill count of its task (09 R200), and the weir it
signals. -/
structure Transfer where
  id    : Nat
  p     : Pid
  pc    : U32
  prog  : Fin 4
  fill  : U32
  work  : Work
  weir  : BitVec 16
deriving DecidableEq, Repr

/-- A timebase timer (10 R221); the claimant stands in the resource table. -/
structure Timer where
  deadline : U64 := 0
  weir     : BitVec 16 := 0
  armed    : Bool := false
  armedAt  : U64 := 0
  expired  : Bool := false
deriving DecidableEq, Repr

/-- What the part last answered on a bus, a port or a connector (DESIGN CHOICE, log entry 6). -/
inductive Reply where
  | none
  | value (v : U64)
  | status (code : Byte)
  | bytes (bs : List Byte)
  | frame (f : Frame)
  | packet (p : FabPacket)
  | stream (p : StreamPacket)
deriving DecidableEq, Repr

/-- The DISC block's map of polders and the operating point it reports (09 R191). -/
structure Disc where
  siteOf : Vector Site 32
  state  : Vector (BitVec 2) 36
  mapGen : Byte := 0
  opNow  : Byte := 0
  opMax  : Byte := 0
  arithMhz : BitVec 16 := 0
  fabMhz : BitVec 16 := 0
deriving DecidableEq, Repr

/-- The RES block (09 R207, R208). -/
structure ResTbl where
  owner   : Vector (BitVec 4) 96
  result  : BitVec 2 := 0
  refused : U64 := 0
deriving DecidableEq, Repr

/-! ### Fabric, memory-side caches, memory controllers (13) -/

/-- One network at an output (13 R292; 14 R325): packets waiting by input with the fabric cycle of their arrival and whether
they are promoted, the deficit counters, and the input whose turn it is. -/
structure Arbiter (α : Type) where
  queues  : Vector (List (α × Nat × Bool)) 7 := Vector.replicate 7 []
  deficit : Vector Int 7 := Vector.replicate 7 0
  turn    : Fin 7 := 0
  inTurn  : Bool := false
deriving DecidableEq, Repr

/-- One network at a router output. -/
abbrev OutNet := Arbiter FabPacket

/-- A router output (13 R291): LAST of each input with the fabric cycle at which its activity timer ends, the networks, the packet of
each network that the link carries with its input and the flits it still has, the network of the last flit (R292), and the flits in the
queue to an embankment (R287). -/
structure OutPort where
  last : Vector (Option (BitVec 6 × Nat)) 7 := Vector.replicate 7 none
  nets : Vector OutNet 2 := Vector.replicate 2 {}
  wire : Vector (Option (FabPacket × Fin 7 × Nat)) 2 := Vector.replicate 2 none
  lastNet : Fin 2 := 1
  held : Vector Nat 2 := Vector.replicate 2 0
deriving DecidableEq, Repr

/-- A mesh router with its FAB counters (13 R286, R309). -/
structure Router where
  outs     : Vector OutPort 7 := Vector.replicate 7 {}
  promoted : U64 := 0
  flits    : U64 := 0
deriving DecidableEq, Repr

/-- A way of a memory-side cache: its visible block, the valid and dirty bits of its sectors, and whether it is pinned; a way
with no valid sector holds no block (13 R295, R297). -/
structure MscWay where
  block  : Nat := 0
  valid  : U32 := 0
  dirty  : U32 := 0
  pinned : Bool := false
deriving DecidableEq, Repr

/-- The MSC block of an embankment and its cache: ways keyed by 16 set + way, the tree bits of a set, and the lines a flush
has still to write back (13 R295-R298, R309). -/
structure Msc where
  status     : U32 := 0
  hits       : U64 := 0
  misses     : U64 := 0
  writebacks : U64 := 0
  pinOver    : U64 := 0
  base       : Vector U64 16 := Vector.replicate 16 0
  lim        : Vector U64 16 := Vector.replicate 16 0
  ways       : Sparse MscWay := []
  tree       : Sparse (BitVec 15) := []
  flushing   : Option Nat := none
deriving DecidableEq, Repr

/-- The MC block of a controller (13 R309) with the error history of its halves, the symbols corrected per line, its remap
table and the copy in progress (R306), failed channels (R307), the devices' temperature reports and when they were read
(R300), the refreshes issued per bank, the row open in each bank plus 1 (R300, R302), the last drift tracking per channel (R301) and the patrol position (R305). -/
structure Mc where
  trained    : Bool := false
  status     : U32 := 0
  ce         : U64 := 0
  ue         : U64 := 0
  scrubs     : U64 := 0
  linkRetry  : U64 := 0
  remap      : List (Nat × Nat) := []
  copying    : List (Nat × Nat) := []
  errors     : Sparse Nat := []
  symbols    : Sparse (List (BitVec 7)) := []
  failed     : List (Fin 72) := []
  reports    : List Byte := []
  reportAt   : U64 := 0
  refreshes  : Sparse Nat := []
  rows       : Sparse Nat := []
  drift      : Sparse U64 := []
  scrubPos   : Nat := 0
deriving DecidableEq, Repr

/-! ### Palnex, Wilvar, cadence (14) -/

/-- An open stream (14 R319): the record of Table 14-5 and the byte ranges landed, as (first, end) in rising order. -/
structure Stream where
  id     : Byte
  type   : Byte
  weir   : BitVec 16
  base   : U64
  length : U64
  landed : List (Nat × Nat) := []
  done   : Bool := false
deriving DecidableEq, Repr

/-- An outbound stream in progress (14 R319): where its bytes lie (Herd's own bytes, or a device address), the offset of the
first, how many there are and how many have been sent. -/
structure Sending where
  stream : Byte
  off    : Nat
  data   : Option (List Byte)
  addr   : Nat
  len    : Nat
  sent   : Nat
deriving DecidableEq, Repr

/-- The PNX block, the ack engine and the stream channel (14 R311-R320, R342): the next SEQ expected and to send, the command
buffer, the send buffer with the time and lane of each sending, the job, the streams, the credits held and the retry
buffer. -/
structure Pnx where
  status    : U32 := 0
  sWidth    : Nat := 0
  c0Up      : Bool := false
  c1Up      : Bool := false
  active    : Bool := false
  sendAddr  : U64 := 0
  send      : U64 := 0
  accepted  : U64 := 0
  ackBusy   : U64 := 0
  crcDrop   : U64 := 0
  resent    : U64 := 0
  replays   : U64 := 0
  rxNext    : U32 := 0
  txNext    : U32 := 0
  cmds      : List Frame := []
  txBuf     : List (Frame × U64) := []
  txLane    : Bool := false
  lastTx    : Vector U64 2 := Vector.replicate 2 0
  lastRx    : U64 := 0
  lost      : Bool := false
  job       : Option U64 := none
  streams   : List Stream := []
  credits   : Vector Nat 8 := Vector.replicate 8 0
  rxHeld    : Vector Nat 8 := Vector.replicate 8 0
  sending   : Option Sending := none
  rxLseq    : U32 := 0
  txLseq    : U32 := 0
  retry     : List StreamPacket := []
deriving DecidableEq, Repr

/-- A WLV block (14 R342), when its port last sent the wake pattern (R326), and its output: LAST of each input, 6 for the module's own
packets, the networks, and the network of the last packet (R325). -/
structure Wlv where
  width     : BitVec 2 := 0
  trained   : Bool := false
  miscabled : Bool := false
  peerValid : Bool := false
  wakeSeen  : Bool := false
  peer      : BitVec 12 := 0
  tx        : U64 := 0
  rx        : U64 := 0
  replays   : U64 := 0
  fec       : U64 := 0
  forwarded : U64 := 0
  wakeAt    : Option U64 := none
  last      : Vector (Option (BitVec 6 × Nat)) 7 := Vector.replicate 7 none
  nets      : Vector (Arbiter WilvarPacket) 4 := Vector.replicate 4 {}
  lastNet   : Fin 4 := 3
deriving DecidableEq, Repr

/-- The CAD block and the cadence state of a member (14 R327-R335, R342): coordinate X·256 + Y·16 + Z, extents less 1,
announcements held with whether each came late, the CAPs and LOCKED caps in force by origin, the members locked, the HALTs held,
and the announcements sent. -/
structure Cad where
  coord     : BitVec 12 := 0
  extents   : BitVec 12 := 0
  locked    : Bool := false
  cadence   : Bool := false
  targetOp  : Nat := 0
  targetSeq : Option (BitVec 16) := none
  offset    : BitVec 32 := 0
  announces : U64 := 0
  late      : U64 := 0
  reparent  : U64 := 0
  halts     : U64 := 0
  inBand    : Nat := 0
  exchangeAt : U64 := 0
  stepped   : Bool := false
  rateHeld  : Bool := false
  slew      : Int := 0
  slewTick  : Nat := 0
  parent    : Option (Fin 6) := none
  seen      : List (BitVec 12 × BitVec 16) := []
  held      : List (Announce × Nat) := []
  caps      : List (BitVec 12 × Nat) := []
  lockCaps  : List (BitVec 12 × Nat) := []
  haltsHeld : List (BitVec 12) := []
  haltAt    : U64 := 0
  seq       : BitVec 16 := 0
  myCap     : Option Nat := none
  epoch     : Nat := 0
  sent      : List (Announce × List (Fin 6)) := []
deriving DecidableEq, Repr

/-! ### Herd (15) -/

/-- A request (15 Table 15-4). -/
structure Request where
  id        : U64
  mode      : Byte
  stops     : List U32
  promptLen : Nat
  maxNew    : Nat
  temp      : BitVec 16
  topP      : BitVec 16
  topK      : Nat
  stream    : Option Byte
  prompt    : List U32
  landed    : Bool
deriving DecidableEq, Repr

/-- A live sequence (15 R347-R353): its request, whether it is in DECODE, prompt positions run, tokens made, its page groups
(first page, pages), its admission number, and whether its row runs in the present step of its micro-batch. -/
structure LiveSeq where
  req     : Request
  decode  : Bool
  done    : Nat
  made    : Nat
  pages   : List (Nat × Nat)
  order   : Nat
  ran     : Bool := false
deriving DecidableEq, Repr

/-- A training run (15 R360): its number on its program, the fields of TRAIN_START, the step it has come to, the gradient unit in force,
the step at which a TRAIN_STOP came, and of the step whether its launches were made and which still wait for room in a queue. -/
structure TrainRun where
  number    : Nat
  data      : Byte
  handle    : BitVec 6
  external  : Bool
  first     : Nat
  steps     : Nat
  step      : Nat
  batch     : Nat
  len       : Nat
  hp        : List Byte
  recompEvery : Nat
  ckptEvery : Nat
  gradUnit  : BitVec 16
  stopAt    : Option Nat := none
  launched  : Bool := false
  left      : List (Pid × BitVec 512) := []
deriving DecidableEq, Repr

/-- A command of the log since the rollback point (15 R364); a cancel that a rollback finds unanswered keeps its frame. -/
inductive LogOp where
  | submit (r : Request)
  | cancel (id : U64) (f : Option Frame)
  | start (r : TrainRun)
  | stop
deriving DecidableEq, Repr

/-- What a checkpoint keeps of a program (15 R364): its queue, its slots, admissions so far, steps per micro-batch, prefill
chunks run, boundaries so far, the chunk in its pipeline (admission number, rows), and its training run. -/
structure ProgTables where
  queue      : List Request := []
  slots      : List (Option LiveSeq) := []
  admitted   : Nat := 0
  steps      : List Nat := []
  chunks     : Nat := 0
  boundaries : Nat := 0
  inChunk    : Option (Nat × Nat) := none
  train      : Option TrainRun := none
  runs       : Nat := 0
deriving DecidableEq, Repr

/-- A checkpoint that a later one has taken the place of, and the log between the two (15 R364, R365). -/
structure OldPoint where
  tables : ProgTables
  weirs  : List (Nat × U32)
  bytes  : List (Nat × List Byte)
  log    : List (Nat × LogOp)
deriving DecidableEq, Repr

/-- A bound program (15 R344, R364): the fields of PROG_BIND, the plan, its micro-batches (12 R283) and the tiler's estimate of each polder's
cycles (R269), its tables, cancels that wait for a boundary, its SAMPLES
stream with the offset reached and the record batches held, the records sent per request, the steps reported per run, the log
since the rollback point with the boundary or step count of each command, what is left to replay and up to which boundary,
the last checkpoint: tables, weir counts and bytes, and the one before it with the log between the two. -/
structure Prog where
  model    : U32
  training : Bool
  tMax     : Nat
  prefill  : Nat
  key      : U64
  poolBase : Nat
  poolLen  : Nat
  plan     : BindPlan
  m        : Nat := 1
  estimate : List (Pid × Nat) := []
  stopped  : Bool := false
  tables   : ProgTables := {}
  cancels  : List (U64 × Option Frame) := []
  sampleStream : Option Byte := none
  sampleOff : Nat := 0
  records  : List (List Byte) := []
  sent     : List (U64 × Nat) := []
  reported : List (Nat × Nat) := []
  log      : List (Nat × LogOp) := []
  replay   : List (Nat × LogOp) := []
  replayTo : Nat := 0
  saved    : ProgTables := {}
  savedWeirs : List (Nat × U32) := []
  savedBytes : List (Nat × List Byte) := []
  older    : Option OldPoint := none
deriving DecidableEq, Repr

/-- What the tiler's output depends on (12 R269): the model package with its stage list, the shapes of the binding, the cooling class,
OP_MAX and the map in force. -/
structure TilerKey where
  model     : U32 × U64 × U64
  training  : Bool
  slots     : Nat
  tMax      : Nat
  prefill   : Nat
  coolClass : BitVec 2
  opMax     : Byte
  map       : Vector Site 32
deriving DecidableEq, Repr

/-- The services: models recorded, programs, the event log, its lost count, the HERD counters, the member sets and the cx count
of each handle and polder, what the tiler has emitted, and the fault of the last binding that failed with its INFO (15 R343-R366, 14 R337,
R340; 12 R269; 09 R189, R208). -/
structure Herd where
  ready     : Bool := false
  models    : List (U32 × U64 × U64) := []
  progs     : Vector (Option Prog) 4 := Vector.replicate 4 none
  events    : List (Byte × List Byte) := []
  lostNow   : U64 := 0
  reqDone   : U64 := 0
  refused   : U64 := 0
  tokens    : U64 := 0
  steps     : U64 := 0
  rollbacks : U64 := 0
  lost      : U64 := 0
  sets      : Sparse (List (BitVec 12 × Pid)) := []
  cxCount   : Sparse Nat := []
  tiled     : List (TilerKey × BindPlan) := []
  bindFault : Byte × Nat := (0, 0)
  noJobs    : Bool := false
  outOfService : Bool := false
  linkEvent : Bool := false
deriving DecidableEq, Repr

/-! ### Power, thermal, gander (16) -/

/-- The power state (16 R383, 18 R429, R437; 17 R412). `run` is A0, or A1 per quadrant. -/
inductive PowerState where
  | off | refused | recovery | run | s1 | s2
deriving DecidableEq, Repr

/-- A rail (16 R371, R372): its limit and last mean, the reports of the window in progress, and the window's number. -/
structure Rail where
  limit   : U32 := 0
  mean    : U32 := 0
  reports : List Nat := []
  window  : Nat := 0
deriving DecidableEq, Repr

/-- A phase of a program (10 R238, 16 R381): the preferred point, samples taken, the last 32 samples (energy, pairs) per point,
the points at which a sluice CAP arose, and the learned point. -/
structure Phase where
  pref    : Option Nat := none
  taken   : Nat := 0
  samples : Vector (List (Nat × Nat)) 7 := Vector.replicate 7 []
  sluiced : List Nat := []
  learned : Option Nat := none
  trial   : Option Nat := none
deriving DecidableEq, Repr

/-- The PM block and the controllers behind it (16 R372-R394): the needs of R373, the stretch of each quadrant in MHz with the
point that ends it, droops, berm levels, throttle and trip records, energy fractions in nJ, the power state, and of the epoch in progress
whether every estimate left headroom, the estimated energy, and the pairs that each polder had issued at its start (R373, R381). -/
structure Pm where
  state     : PowerState := .off
  entering  : Option PowerState := none
  coolClass : BitVec 2 := 0
  ctl       : U32 := 0x00000A60
  limitOver : Bool := false
  lockout   : Bool := false
  halted    : Bool := false
  prealarm  : Bool := false
  powerEst  : BitVec 16 := 0
  energyJob : U64 := 0
  energyTotal : U64 := 0
  energyInput : U64 := 0
  fracJob   : Nat := 0
  fracTotal : Nat := 0
  fracInput : Nat := 0
  estStart  : U64 := 0
  estCut    : Option U64 := none
  estimate  : Vector Nat 14 := Vector.replicate 14 0
  jobFrom   : Option U64 := none
  jobTo     : Option U64 := none
  ganderEvents : List (Fin 8) := []
  stretchNs : U64 := 0
  droops    : U64 := 0
  bermGaps  : U64 := 0
  bermFills : U64 := 0
  limitOvers : U64 := 0
  trips     : U64 := 0
  rails     : Vector Rail 14 := Vector.replicate 14 {}
  phases    : Vector (Vector Phase 64) 4 := Vector.replicate 4 (Vector.replicate 64 {})
  nSluice   : Option Nat := none
  nDroop    : Option Nat := none
  nThrottle : Option Nat := none
  nPrealarm : Option Nat := none
  sluiceMhz : Vector (Option (Nat × Nat)) 4 := Vector.replicate 4 none
  hardMhz   : Bool := false
  droop     : Vector Bool 4 := Vector.replicate 4 false
  droopEpoch : Vector Nat 4 := Vector.replicate 4 0
  droopQuiet : Nat := 0
  sluiceQuiet : Nat := 0
  headroom  : Bool := true
  epochNj   : Nat := 0
  pairsAt   : Vector U64 32 := Vector.replicate 32 0
  coolEpochs : Nat := 0
  lastPhases : Vector (Option (BitVec 6)) 4 := Vector.replicate 4 none
  spoiled   : Bool := false
  berm      : Vector Nat 4 := Vector.replicate 4 0
  bermStep  : Vector Nat 4 := Vector.replicate 4 0
  idleAt    : Vector U64 4 := Vector.replicate 4 0
  a1        : Vector Bool 4 := Vector.replicate 4 false
  alertAt   : Option U64 := none
  tripTimes : List U64 := []
  coolSince : Option U64 := none
  idleSince : U64 := 0
  wakeLatched : Bool := false
  saved     : Option (Vector Site 32 × Vector (BitVec 2) 36 × Byte × Vector (BitVec 4) 32) := none
  sensors   : Vector (Option U32) 16 := Vector.replicate 16 none
deriving DecidableEq, Repr

/-- The GANDER block (16 R391-R394) and whether wake-on-voltage holds G7 (R393). -/
structure Gander where
  refused  : Bool := false
  fired    : Byte := 0
  active   : Vector Bool 8 := Vector.replicate 8 false
  wakeSrc  : U32 := 0
  wakeTime : U64 := 0
  wov      : U32 := 50000
  wovHolds : Bool := false
  cmp      : Vector U32 8 := #v[0xF98000A0, 0xFDCC03E8, 0, 0, 0, 0, 0, 0xF9C00028]
  thr      : Vector U32 8 := #v[0xF0000398, 0xF000AFC8, 0, 0, 0, 0, 0, 0xF0000370]
  value    : Vector U32 8 := Vector.replicate 8 0
deriving DecidableEq, Repr

/-! ### Integrity, checkpoints, security, flash (17) -/

/-- The INTEG counters of a site (17 R422), the replays of the second in progress (R398) and the time of the first
uncorrectable word (R401). -/
structure SiteInteg where
  replay  : U64 := 0
  ce      : U64 := 0
  ue      : U64 := 0
  refetch : U64 := 0
  second  : Nat := 0
  inSecond : Nat := 0
  firstUe : Option U64 := none
deriving DecidableEq, Repr

/-- The INTEG block (17 R422), the refetch table, the sites that wait for planned replacement, the refetches in progress, the
rollback that a hardware failure has started, and whether its first step is done (R405). -/
structure Integ where
  ctl       : U32 := 0x00400003
  hardSeen  : Bool := false
  lost      : Bool := false
  spareLeft : BitVec 4 := 0b1111
  spareActs : U64 := 0
  rebuilt   : U64 := 0
  sites     : Vector SiteInteg 36 := Vector.replicate 36 {}
  rfSrc     : Vector (Vector U64 16) 32 := Vector.replicate 32 (Vector.replicate 16 0)
  rfMst     : Vector (Vector U64 16) 32 := Vector.replicate 32 (Vector.replicate 16 0)
  planned   : List Site := []
  refetching : List (Pid × Nat) := []
  cause     : Option RollbackCause := none
  rolling   : Bool := false
deriving DecidableEq, Repr

/-- What a copy was started with: restore or save, its address, first unit and units (17 R409; DEDUCED, log entry 61). -/
structure CopyJob where
  restore : Bool := false
  addr    : Nat := 0
  unit    : Nat := 0
  units   : Nat := 0
deriving DecidableEq, Repr

/-- The CKPT block (17 R409, R422), the copy in progress, the bytes of the reserve keyed by 1,024 unit + byte (13 R304), and whether a checkpoint has
committed. -/
structure Ckpt where
  ctl     : U32 := 0
  busy    : Bool := false
  status  : U32 := 0
  addr    : U64 := 0
  unit    : U32 := 0
  units   : U32 := 0
  job     : CopyJob := {}
  reserve : Sparse Byte := []
deriving DecidableEq, Repr

/-- The boot measurement record (17 Table 17-8): blocks 1 to 6. -/
structure Measured where
  rom    : List Byte
  header : List Byte
  slotB  : Bool
  svn    : Byte
  ctr    : BitVec 6
  cal    : List Byte
  origin : BitVec 2
deriving DecidableEq, Repr

/-- The SEC block, the fuses that burn, the debug grant, the measurements and what the last boot ran (17 R412-R422). -/
structure Sec where
  svn       : Byte := 0
  fuseCtr   : BitVec 6 := Config.fuseCtr
  calOrigin : BitVec 2 := 0
  granted   : BitVec 2 := 0
  debugLock : Bool := Config.debugLock
  recovery  : Bool := false
  unconfirmed : Bool := false
  slotB     : Bool := false
  nonce     : BitVec 256 := 0
  rights    : U32 := 0
  measured  : Option Measured := none
  offsets   : Vector Nat 4 := Vector.replicate 4 0
  savedMeas : Option Measured := none
deriving DecidableEq, Repr

/-- The flash (17 R410): the boot control record, the images of slots A and B, the calibration set, the retired sites with the
map in force and its generation, the remap tables, the integrity log, and whether a write is in progress (18 R437). -/
structure Flash where
  preferB  : Bool := false
  pending  : Option Bool := none
  tries    : Nat := 0
  images   : Vector FwImage 2 := #v[Config.factoryImage false, Config.factoryImage true]
  cal      : List Byte := Config.factoryCal
  retired  : List Site := []
  map      : Option (Vector Site 32 × Vector (BitVec 2) 36 × Byte) := none
  remaps   : List (List (Nat × Nat)) := []
  log      : List Byte := []
  writing  : Bool := false
deriving DecidableEq, Repr

/-! ### Module hardware (18) -/

/-- The instruction in force in the TAP (18 R434). -/
inductive TapIns where
  | bypass | idcode | samplePreload | extest | clamp | highz
deriving DecidableEq, Repr

/-- A PLDM firmware update that waits for Herd to be ready (18 R433). -/
inductive FwUpdate where
  | image (i : FwImage)
  | calibration (c : List Byte)
deriving DecidableEq, Repr

/-- The MGT block, the straps as sampled, the I3C target and the TAP (18 R428-R434, R443); `downWaits` and `mrstWaits` are a
power-down and a reset that wait for a flash write (R437, R438). -/
structure Mgt where
  straps    : Straps := ⟨0, 0⟩
  enIn      : Bool := true
  refused   : Bool := false
  mrstSeen  : Bool := false
  strapRefused : Bool := false
  modPg     : Bool := false
  sbCfg     : Vector U32 8 := #v[0xF0000007, 0xF0000007, 0xF0000007, 0, 0, 0, 0, 0]
  sbIn      : BitVec 8 := 0
  downWaits : Bool := false
  mrstWaits : Option BootInputs := none
  dynAddr   : Option (BitVec 7) := none
  events    : Byte := 1
  ibis      : Nat := 0
  mwl       : BitVec 16 := 256
  mrl       : BitVec 16 := 256
  negotiated : Bool := false
  updates   : List FwUpdate := []
  tap       : TapIns := .idcode
  boundary  : BitVec 64 := 0
deriving DecidableEq, Repr

/-- The state of the part. -/
structure State where
  pending   : List Instr := []
  freeIx    : Nat := 0
  reply     : Reply := .none
  tb        : U64 := 0
  mem       : List Host.Cell := []
  polders   : Vector Polder 32 := Vector.replicate 32 {}
  weirs     : Sparse Weir := []
  flight    : List (Nat × U32) := []
  notices   : List Nat := []
  watches   : List Watch := []
  ccWeir    : WeirBlk := {}
  transfers : List Transfer := []
  nextId    : Nat := 0
  sent      : List (U64 × RemoteOp) := []
  handed    : Nat := 0
  claimedRegions : List (Fin 4 × Region) := []
  claimedWeirs : List (Fin 4 × Nat × Nat) := []
  holdWaits : Bool := false
  timers    : Vector Timer 16 := Vector.replicate 16 {}
  disc      : Disc
  res       : ResTbl
  routers   : Vector Router 36 := Vector.replicate 36 {}
  msc       : Vector Msc 4 := Vector.replicate 4 {}
  mc        : Vector Mc 8 := Vector.replicate 8 {}
  pnx       : Pnx := {}
  wlv       : Vector Wlv 6 := Vector.replicate 6 {}
  wlvOut    : List (Fin 6 × WilvarPacket) := []
  cad       : Cad := {}
  herd      : Herd := {}
  pm        : Pm := {}
  gander    : Gander := {}
  sec       : Sec := {}
  integ     : Integ := {}
  ckpt      : Ckpt := {}
  flash     : Flash := {}
  mgt       : Mgt := {}
deriving DecidableEq, Repr

/-- The factory map (01 Table 1-2). -/
def factoryMap : Vector Site 32 :=
  #v[0, 1, 2, 6, 8, 12, 13, 14, 3, 4, 5, 9, 11, 15, 16, 17, 21, 22, 23, 27, 29, 33, 34, 35, 18, 19, 20, 24, 26, 30, 31, 32]

/-- The state of each site under the factory map: the centre site of each quadrant is its spare (01 R12). -/
def factorySites : Vector (BitVec 2) 36 :=
  ((((Vector.replicate 36 0).set 7 1).set 10 1).set 28 1).set 25 1

/-- The entries that hardware holds at power-up (09 R208, 16 R392, 18 R430). -/
def resetOwners : Vector (BitVec 4) 96 :=
  ((((((Vector.replicate 96 0).set 64 15).set 65 15).set 71 15).set 88 15).set 89 15).set 90 15

/-- The part as every register reads after power-on reset and before input is valid (00 R9, 18 R436). -/
def State.reset : State :=
  { disc := { siteOf := factoryMap, state := factorySites }, res := { owner := resetOwners } }

end Sys2Proof.Machine
end

