-- ==== Sys2Proof/Machine/Arbiter.lean ====
section
/-! DEFINITION. Deficit-weighted round robin with promotion by age (13 R291, R292), which the mesh's routers and the Wilvar outputs share
(14 R325). `weight` is the SRCS or WSRC of a packet, `cost` what a send takes from its counter. -/

namespace Sys2Proof.Machine

/-- The oldest promoted head packet, ties in input order (13 R292 step 3). -/
def promotedHead {α : Type} (N : Arbiter α) : Option (Fin 7) :=
  (List.finRange 7).foldl (fun best i =>
    match N.queues[i] with
    | (_, t, true) :: _ =>
      match best with
      | none => some i
      | some j => match N.queues[j] with
        | (_, u, _) :: _ => if t < u then some i else best
        | [] => some i
    | _ => best) none

/-- The turns of 13 R292 steps 1 and 2 until an input may send, at most `fuel` of them: the input, and the network with the
counters so far. -/
def takeTurns {α : Type} (weight cost : α → Nat) : Nat → Arbiter α → Option (Fin 7 × Arbiter α)
  | 0, _ => none
  | fuel + 1, N =>
    let i := N.turn
    match N.queues[i] with
    | [] => takeTurns weight cost fuel { N with deficit := N.deficit.set i 0, turn := i + 1, inTurn := false }
    | (k, _, _) :: _ =>
      let N := if N.inTurn then N
        else { N with deficit := N.deficit.set i (N.deficit[i] + 512 * (weight k : Int)), inTurn := true }
      if (cost k : Int) ≤ N.deficit[i] then some (i, N)
      else takeTurns weight cost fuel { N with turn := i + 1, inTurn := false }

/-- Turns enough for any waiting packet to be reached: a counter gains at least 512 a round. -/
def turnFuel {α : Type} (N : Arbiter α) : Nat := 7 * (12 + (N.deficit.toList.map (fun d => (-d).toNat / 512)).sum)

/-- The input that sends next, and the network before the send. -/
def pickSender {α : Type} (weight cost : α → Nat) (N : Arbiter α) : Option (Fin 7 × Arbiter α) :=
  match promotedHead N with
  | some i => some (i, N)
  | none => if N.queues.toList.all List.isEmpty then none else takeTurns weight cost (turnFuel N) N

/-- The network after input i has sent its head packet: the counter is charged, or 0 where nothing waits any longer. -/
def Arbiter.sendHead {α : Type} (N : Arbiter α) (i : Fin 7) (rest : List (α × Nat × Bool)) (charge : Nat) : Arbiter α :=
  { N with queues := N.queues.set i rest, deficit := N.deficit.set i (if rest.isEmpty then 0 else N.deficit[i] - (charge : Int)) }

/-- A packet joins an input's queue at a fabric cycle. -/
def Arbiter.join {α : Type} (N : Arbiter α) (i : Fin 7) (k : α) (at_ : Nat) : Arbiter α :=
  { N with queues := N.queues.set i (N.queues[i] ++ [(k, at_, false)]) }

/-- The head packets that have waited more than 512 fabric cycles are promoted (13 R292 step 3). -/
def Arbiter.promote {α : Type} (N : Arbiter α) (now : Nat) : Arbiter α :=
  { N with queues := N.queues.map (fun l => match l with
      | (k, t, p) :: rest => (k, t, p || decide (t + 512 < now)) :: rest
      | [] => []) }

/-- The sources merged into a stream (13 R291): the sum of LAST over the inputs whose activity timer runs, at least 1 and at most 63. -/
def sourcesOf (last : Vector (Option (BitVec 6 × Nat)) 7) (now : Nat) : BitVec 6 :=
  let sum := (last.toList.map (fun x => match x with
    | some (v, t) => if now < t then v.toNat else 0
    | none => 0)).sum
  BitVec.ofNat 6 (min 63 (max 1 sum))

end Sys2Proof.Machine
end

