-- ==== Sys2Proof/Machine/Ops.lean ====
section
/-! DEFINITION. The named operations over the state: sparse tables, memory, polders and tasks, the device address map,
base and bound, banks and tags, faults of a task and the issue of an instruction. -/

namespace Sys2Proof.Machine

open Host (Outcome)

/-! ### Sparse tables in canonical form -/

/-- The value at key `a`; an unlisted key reads `d`. -/
def sget {α : Type} (d : α) : Sparse α → Nat → α
  | [], _ => d
  | (k, v) :: t, a => if k = a then v else sget d t a

/-- Put an entry in its place among rising keys. -/
def sins {α : Type} (a : Nat) (x : α) : Sparse α → Sparse α
  | [] => [(a, x)]
  | (k, v) :: t => if k < a then (k, v) :: sins a x t else (a, x) :: (k, v) :: t

/-- Set key `a` to `x`; the value an unlisted key reads as is not listed. -/
def sput {α : Type} [DecidableEq α] (d : α) (l : Sparse α) (a : Nat) (x : α) : Sparse α :=
  let rest := l.filter (fun e => e.1 != a)
  if x = d then rest else sins a x rest

/-- Keys strictly rise. -/
def rising {α : Type} : Sparse α → Bool
  | [] => true
  | [_] => true
  | a :: b :: t => decide (a.1 < b.1) && rising (b :: t)

/-- The canonical form: keys strictly rise and no entry equals the default. -/
def canonical {α : Type} [DecidableEq α] (d : α) (l : Sparse α) : Bool :=
  rising l && l.all (fun e => decide (e.2 ≠ d))

/-! ### Memory -/

/-- The canonical form of memory (DESIGN CHOICE, log entry 1: an unlisted byte reads 0). -/
abbrev Memory.wf (m : List Host.Cell) : Bool := canonical (0 : Byte) m

/-- One byte at a device address; a peer's byte comes from outside (09 R209, DESIGN CHOICE, log entry 3). -/
def State.byte (s : State) (a : Nat) : Byte := if a < 2 ^ 63 then sget 0 s.mem a else Config.peerByte s.freeIx a

/-- Store one byte at a device address; a store to a peer address leaves the module. -/
def State.putByte (s : State) (a : Nat) (b : Byte) : State :=
  if a < 2 ^ 63 then { s with mem := sput 0 s.mem a b }
  else { s with sent := s.sent ++ [(BitVec.ofNat 64 a, .write [b] false)] }

/-- The bytes from `a` on, `n` of them. -/
def State.bytes (s : State) (a n : Nat) : List Byte := (List.range n).map (fun i => s.byte (a + i))

/-- Store bytes from `a` on, one by one. -/
def State.storeBytes (s : State) (a : Nat) : List Byte → State
  | [] => s
  | b :: t => (s.putByte a b).storeBytes (a + 1) t

/-- The packets in which bytes go to a peer: none crosses a boundary of 4,096 bytes (13 R288, DEDUCED, log entry 47). -/
def peerPackets (a : Nat) (bs : List Byte) : List (U64 × RemoteOp) :=
  (List.range ((a % 4096 + bs.length + 4095) / 4096)).map (fun k =>
    let lo := max a (4096 * (a / 4096 + k))
    (BitVec.ofNat 64 lo, .write ((bs.drop (lo - a)).take (4096 * (a / 4096 + k + 1) - lo)) false))

/-- Store bytes from `a` on; to a peer they leave in packets. -/
def State.putBytes (s : State) (a : Nat) (bs : List Byte) : State :=
  if a < 2 ^ 63 then s.storeBytes a bs else { s with sent := s.sent ++ peerPackets a bs }

/-- The last byte that this module has sent to a peer address, if any. -/
def State.lastSent (s : State) (a : Nat) : Option Byte :=
  s.sent.foldl (fun b x =>
    match x.2 with
    | .write d _ => if x.1.toNat ≤ a ∧ a < x.1.toNat + d.length then d[a - x.1.toNat]? else b
    | _ => b) none

/-- Mark the last packet into each slot among packets of one transfer (11 R263). -/
def endMarks : List (U64 × RemoteOp) → List (U64 × RemoteOp)
  | [] => []
  | (a, .write d e) :: t => (a, .write d (e || !t.any (fun x => x.1.toNat / 4096 == a.toNat / 4096))) :: endMarks t
  | x :: t => x :: endMarks t

/-- Mark the packets that one asynchronous write has sent, those from the n-th on (11 R250, R263). -/
def State.markEnds (s : State) (n : Nat) : State := { s with sent := s.sent.take n ++ endMarks (s.sent.drop n) }

/-- Bytes to a number, the least significant byte first (00 R4). -/
def leNat : List Byte → Nat
  | [] => 0
  | b :: t => b.toNat + 256 * leNat t

/-- The `n` bytes of a number, the least significant byte first (00 R4). -/
def leBytes : Nat → Nat → List Byte
  | 0, _ => []
  | n + 1, x => BitVec.ofNat 8 x :: leBytes n (x / 256)

/-- A little-endian number of `n` bytes in memory. -/
def State.num (s : State) (a n : Nat) : Nat := leNat (s.bytes a n)

/-! ### Polders, tasks and registers -/

/-- Change one polder. -/
def State.onPolder (s : State) (p : Pid) (g : Polder → Polder) : State :=
  { s with polders := s.polders.set p.val (g s.polders[p]) p.isLt }

/-- Change the task of a polder. -/
def State.onTask (s : State) (p : Pid) (g : Task → Task) : State :=
  s.onPolder p (fun P => { P with task := P.task.map g })

/-- A scalar register; s0 is always 0 (09 Table 9-3). -/
def Task.sreg (t : Task) (r : BitVec 5) : U64 := if r = 0 then 0 else t.s[r.toFin]

/-- Write a scalar register; a write to s0 is discarded (10 R215). -/
def Task.setS (t : Task) (r : BitVec 5) (x : U64) : Task :=
  if r = 0 then t else { t with s := t.s.set r.toNat x r.isLt }

/-- A vector register. -/
def Task.vreg (t : Task) (r : BitVec 5) : BitVec 2048 := t.v[r.toFin]

/-- Write a vector register. -/
def Task.setV (t : Task) (r : BitVec 5) (x : BitVec 2048) : Task :=
  { t with v := t.v.set r.toNat x r.isLt }

/-- A mask register; m0 reads as all ones (08 R157). -/
def Task.mreg (t : Task) (r : BitVec 3) : BitVec 128 := if r = 0 then BitVec.allOnes 128 else t.m[r.toFin]

/-- Write a mask register; a write to m0 is ignored (08 R157). -/
def Task.setM (t : Task) (r : BitVec 3) (x : BitVec 128) : Task :=
  if r = 0 then t else { t with m := t.m.set r.toNat x r.isLt }

/-- A descriptor register. -/
def Task.dreg (t : Task) (r : BitVec 4) : DescWord := t.d[r.toFin]

/-- Write a descriptor register. -/
def Task.setD (t : Task) (r : BitVec 4) (x : DescWord) : Task :=
  { t with d := t.d.set r.toNat x r.isLt }

/-- The descriptor register a 5-bit field names (checked to be at most 15, 10 R214). -/
def dnum (r : BitVec 5) : BitVec 4 := r.setWidth 4
/-- The mask register a 5-bit field names (checked to be at most 7, 10 R214). -/
def mnum (r : BitVec 5) : BitVec 3 := r.setWidth 3

/-- Lane `l` of a vector register (08 R156). -/
def lane (v : BitVec 2048) (l : Nat) : BitVec 16 := v.extractLsb' (16 * l) 16

/-- A vector from its 128 lanes, lane 0 first. -/
def ofLanes (ls : List (BitVec 16)) : BitVec 2048 :=
  BitVec.ofNat 2048 (ls.foldr (fun x acc => x.toNat + 65536 * acc) 0)

/-- Word `k` of a descriptor register (10 R222). -/
def dword (d : DescWord) (k : Nat) : U64 := d.extractLsb' (64 * k) 64

/-- A wide value with the `w` bits at `lo` replaced. -/
def setField {n : Nat} (x : BitVec n) (lo w : Nat) (y : Nat) : BitVec n :=
  BitVec.ofNat n (x.toNat - (x.toNat / 2 ^ lo % 2 ^ w) * 2 ^ lo + (y % 2 ^ w) * 2 ^ lo)

/-- A number from bytes as a wide value. -/
def ofBytes (n : Nat) (bs : List Byte) : BitVec n := BitVec.ofNat n (leNat bs)

/-! ### Free values (DESIGN CHOICE, log entry 3) -/

/-- The next free value, and the state with the counter advanced. -/
def State.fresh (s : State) : U64 × State := (Config.freeWord s.freeIx, { s with freeIx := s.freeIx + 1 })

/-- Whether debug access to the sumps is granted (17 R420, Table 17-10: RIGHTS bit 0). -/
def State.sumpDebug (s : State) : Bool := s.sec.granted == 1 && s.sec.rights.getLsbD 0

/-! ### The device address map (09 R209, Tables 9-13, 9-14) -/

/-- Where a device address lies. -/
inductive Place where
  | dram
  | scratch (p : Pid) (off : Nat)
  | window (p : Pid) (off : Nat)
  | control (off : Nat)
  | edge (k : Quad) (off : Nat)
  | system (off : Nat)
  | peer (coord : BitVec 12) (p : Pid) (w : Fin 4) (off : Nat)
  | unmapped
deriving DecidableEq, Repr

/-- Offsets of a polder's register window that lie in some block's span. -/
def inSpan (off : Nat) : Bool := off < 0x9000 || (0x10000 ≤ off && off < 0x30000)

/-- The range of 09 Table 9-13 that holds an address. -/
def place (a : Nat) : Place :=
  if a < 0x8000000000 then .dram
  else if 0x10000000000 ≤ a ∧ a < 0x10400000000 then
    let p := (a - 0x10000000000) / 0x20000000
    let off := (a - 0x10000000000) % 0x20000000
    if off < 0x16000000 then .scratch (Fin.ofNat 32 p) off else .unmapped
  else if 0x20000000000 ≤ a ∧ a < 0x20002000000 then
    let p := (a - 0x20000000000) / 0x100000
    let off := (a - 0x20000000000) % 0x100000
    if inSpan off then .window (Fin.ofNat 32 p) off else .unmapped
  else if 0x30000000000 ≤ a ∧ a < 0x30001000000 then .control (a - 0x30000000000)
  else if 0x31000000000 ≤ a ∧ a < 0x31004000000 then
    .edge (Fin.ofNat 4 ((a - 0x31000000000) / 0x1000000)) ((a - 0x31000000000) % 0x1000000)
  else if 0x32000000000 ≤ a ∧ a < 0x32001000000 then .system (a - 0x32000000000)
  else if 0x8000000000000000 ≤ a ∧ a < 0x9000000000000000 then
    .peer (BitVec.ofNat 12 (a / 2 ^ 48)) (Fin.ofNat 32 (a / 2 ^ 43)) (Fin.ofNat 4 (a / 2 ^ 41)) (a % 2 ^ 41)
  else .unmapped

/-- The device address of scratchpad offset `off` of polder `p`. -/
def scratchAddr (p : Pid) (off : Nat) : Nat := 0x10000000000 + 0x20000000 * p.val + off

/-- The scratchpad's size in bytes (09, DISC_STORE). -/
def scratchBytes : Nat := 0x16000000

/-- Whether `len` bytes at `a` lie in memory of one kind: the LPDDR5X map or one polder's scratchpad. -/
def inMemory (a len : Nat) : Bool :=
  match place a with
  | .dram => a + len ≤ 0x8000000000
  | .scratch _ off => off + len ≤ scratchBytes
  | _ => false

/-! ### Base and bound (11 R247, R248) -/

/-- A region of an image: base, bytes, whether it grants reads and writes. -/
structure Bound where
  base : Nat
  size : Nat
  rd   : Bool
  wr   : Bool
deriving DecidableEq, Repr

/-- Region `r` of a base-and-bound image (11 Table 11-4); one that grants nothing has size 0. -/
def boundOf (b : BitVec 832) (r : Nat) : Bound :=
  let base := (b.extractLsb' (64 + 128 * r) 64).toNat
  let size := (b.extractLsb' (128 + 128 * r) 32).toNat * 4096
  let perm := b.extractLsb' (160 + 128 * r) 8
  let size := if base % 4096 = 0 ∧ inMemory base size then size else 0
  { base, size, rd := perm.getLsbD 0, wr := perm.getLsbD 1 }

/-- The six regions of an image. -/
def bounds (b : BitVec 832) : List Bound := (List.range 6).map (boundOf b)

/-- Whether a region holds `len` bytes at `a` with the right asked for. -/
def Bound.covers (r : Bound) (write : Bool) (a len : Nat) : Bool :=
  (if write then r.wr else r.rd) && r.size ≠ 0 && r.base ≤ a && a + len ≤ r.base + r.size

/-- Weirs an image grants (11 R247, R248). -/
def weirGranted (b : BitVec 832) (w : Nat) : Bool :=
  let b0 := (b.extractLsb' 0 16).toNat
  let c0 := (b.extractLsb' 16 16).toNat
  let b1 := (b.extractLsb' 32 16).toNat
  let c1 := (b.extractLsb' 48 16).toNat
  w < 16384 && ((b0 ≤ w && w < b0 + c0) || (b1 ≤ w && w < b1 + c1))

/-! ### What stops an instruction -/

/-- Why an instruction does not complete: a task fault with its code and INFO (09 Table 9-9), a fault whose own rule leaves
effects (`late`, with the state they give; 09 R204), a slot whose tag must turn full or empty first
(11 R250), or a wait that leaves the state given (a bank that is busy or waking, 11 R242, R245; a full queue). -/
inductive Stop where
  | fault (code : Byte) (info : U32)
  | late (s : State) (code : Byte) (info : U32)
  | blocked (q : Pid) (slot : BitVec 17) (full : Bool)
  | held (s : State)

/-- A result or a stop. -/
abbrev Res (α : Type) := Except Stop α

/-- Go on only if `ok`; else the fault. -/
def need (ok : Bool) (code : Byte) (info : Nat) : Res Unit :=
  if ok then .ok () else .error (.fault code (BitVec.ofNat 32 info))

/-! ### Checks of an access (10 R218) -/

/-- A run of bytes an access may touch. -/
abbrev Run := Nat × Nat

/-- The end of the mapped stretch that holds a mapped address, itself in no range (09 Tables 9-13, 9-14). -/
def stretchEnd (a : Nat) : Nat :=
  match place a with
  | .dram => 0x8000000000
  | .scratch _ off => a - off + scratchBytes
  | .window _ off => a - off + (if off < 0x9000 then 0x9000 else 0x30000)
  | .control _ => 0x30001000000
  | .edge _ _ => 0x31004000000
  | .system _ => 0x32001000000
  | .peer _ _ _ _ => 0x9000000000000000
  | .unmapped => a

/-- The first address of a run in no range of the map, if any (09 R209). -/
def unmappedIn (r : Run) : Option Nat := if r.2 ≠ 0 ∧ stretchEnd r.1 < r.1 + r.2 then some (stretchEnd r.1) else none

/-- Whether an address needs base and bound (11 R248). -/
def isMemory (a : Nat) : Bool :=
  match place a with
  | .dram => true
  | .scratch _ _ => true
  | _ => false

/-- Whether a peer address lies in an open window of this module (11 R261, R262). -/
def windowOpen (s : State) (write : Bool) (a len : Nat) : Bool :=
  match place a with
  | .peer _ p w off =>
    let x := s.polders[p].terp.windows[w]
    x.isOpen && !x.weirs && (if write then x.wr else x.rd) && off + len ≤ x.size.toNat * 4096
  | _ => false

/-- One access of an instruction: whether it writes, and the runs of bytes that its walk may touch (10 R218). The side record,
the elements, the row headers, the group codes and the scales of an operand are accesses of their own (DEDUCED, log entry 45). -/
abbrev Part := Bool × List Run

/-- Whether an address lies in a peer. -/
def isPeer (a : Nat) : Bool := match place a with | .peer _ _ _ _ => true | _ => false

/-- The address that an access finds outside base and bound, if its memory lies in no one region that grants it (11 R248). -/
def outOfBounds (bs : List Bound) (x : Part) : Option Nat :=
  let mem := x.2.filter (fun r => isMemory r.1)
  if mem.isEmpty || bs.any (fun b => mem.all (fun r => b.covers x.1 r.1 r.2)) then none
  else match mem.find? (fun r => bs.all (fun b => !b.covers x.1 r.1 r.2)) with
    | some r => some r.1
    | none => mem.getLast?.map (·.1)

/-- The checks of 10 R218 from ADDR_RANGE on, over all accesses that a vector unit, array or move engine makes for an
instruction: register windows are not memory (ACCESS_DENIED), and the memory of each access lies in one region (11 R248). -/
def checkParts (s : State) (p : Pid) (parts : List Part) : Res Unit :=
  let parts := parts.map (fun x => (x.1, x.2.filter (fun r => r.2 ≠ 0)))
  let runs := parts.flatMap (·.2)
  match runs.findSome? unmappedIn with
  | some a => .error (.fault 0x08 (BitVec.ofNat 32 a))
  | none =>
    match runs.find? (fun r => !isMemory r.1 && !isPeer r.1) with
    | some r => .error (.fault 0x07 (BitVec.ofNat 32 r.1))
    | none =>
      match parts.findSome? (outOfBounds (bounds s.polders[p].terp.bnd)) with
      | some a => .error (.fault 0x09 (BitVec.ofNat 32 a))
      | none =>
        match parts.findSome? (fun x => x.2.find? (fun r => isPeer r.1 && !windowOpen s x.1 r.1 r.2)) with
        | some r => .error (.fault 0x19 (BitVec.ofNat 32 r.1))
        | none => .ok ()

/-- The checks of one access. -/
def checkRuns (s : State) (p : Pid) (write : Bool) (runs : List Run) : Res Unit := checkParts s p [(write, runs)]

/-! ### Banks and tags (11 R241-R245, R250) -/

/-- The slots of one run, as (polder, slot). -/
def runSlots (r : Run) : List (Pid × Nat) :=
  match place r.1 with
  | .scratch p off =>
    if r.2 = 0 then [] else
    (List.range ((off + r.2 - 1) / 4096 - off / 4096 + 1)).map (fun i => (p, off / 4096 + i))
  | _ => []

/-- Put a slot into an ascending list without repeats. -/
def addSlot (x : Pid × Nat) : List (Pid × Nat) → List (Pid × Nat)
  | [] => [x]
  | y :: t => if x = y then y :: t else if x.1 < y.1 ∨ (x.1 = y.1 ∧ x.2 < y.2) then x :: y :: t else y :: addSlot x t

/-- The slots that runs touch, in ascending order, each once (11 R250). -/
def slotsOf (runs : List Run) : List (Pid × Nat) := (runs.flatMap runSlots).foldl (fun l x => addSlot x l) []

/-- The bank that holds a slot (11 R239). -/
def bankIx (slot : Nat) : Fin 44 := Fin.ofNat 44 (slot / 2048)

/-- The tag of a slot. -/
def State.tag (s : State) (p : Pid) (slot : Nat) : Bool := s.polders[p].terp.slots.getLsbD slot

/-- Change the terp of a polder. -/
def State.onTerp (s : State) (p : Pid) (g : Terp → Terp) : State :=
  s.onPolder p (fun P => { P with terp := g P.terp })

/-- Set the tag of a slot. -/
def State.setTag (s : State) (p : Pid) (slot : Nat) (full : Bool) : State :=
  s.onTerp p (fun T => { T with slots := setField T.slots slot 1 (if full then 1 else 0) })

/-- Wake a bank (11 Table 11-3: the first access to a sleeping bank). -/
def State.wakeBank (s : State) (p : Pid) (b : Fin 44) : State :=
  s.onTerp p (fun T =>
    { T with banks := T.banks.set b.val { T.banks[b] with power := 0, busy := true } b.isLt })

/-- Whether an access may touch the slots, in ascending order: it waits on a bank that is busy, on a slot under refetch
(17 R400), on a sleeping bank, which it wakes, and, where the bank has TAGS = 1, on a tag (11 R242, R245, R250). -/
def gate (s : State) (write : Bool) : List (Pid × Nat) → Res Unit
  | [] => .ok ()
  | (p, n) :: t =>
    let b := bankIx n
    let bank := s.polders[p].terp.banks[b]
    if bank.busy || s.integ.refetching.contains (p, n) then .error (.held s)
    else if bank.power = 1 then .error (.held (s.wakeBank p b))
    else if bank.tags && (s.tag p n == write) then .error (.blocked p (BitVec.ofNat 17 n) (!write))
    else gate s write t

/-- Whether an access that ignores tags may touch the slots: it waits on a bank that is busy or sleeping (11 R242, R245). -/
def gateBusy (s : State) : List (Pid × Nat) → Res Unit
  | [] => .ok ()
  | (p, n) :: t =>
    let bank := s.polders[p].terp.banks[bankIx n]
    if bank.busy then .error (.held s)
    else if bank.power = 1 then .error (.held (s.wakeBank p (bankIx n)))
    else gateBusy s t

/-- A slot end: in a bank with TAGS = 1 the tag turns full (11 R250). -/
def State.slotEnd (s : State) (p : Pid) (n : Nat) : State :=
  if s.polders[p].terp.banks[bankIx n].tags then
    (s.setTag p n true).onTerp p (fun T => { T with ended := n :: T.ended })
  else s

/-- Slot ends of an asynchronous write: the tags of the slots it put bytes into turn full (11 R250). -/
def State.slotEnds (s : State) : List (Pid × Nat) → State
  | [] => s
  | (p, n) :: t => (s.slotEnd p n).slotEnds t

/-- The checks and the waits of one operand: `may` are the bytes it may touch, `does` those it reads or writes. -/
def access (s : State) (p : Pid) (write : Bool) (may does : List Run) : Res Unit := do
  checkRuns s p write may
  gate s write (slotsOf does)

/-! ### Weirs (11 R254-R260) -/

/-- A weir by its number; numbers from 16,384 on name none. -/
def State.weir (s : State) (w : Nat) : Weir := sget {} s.weirs w

/-- Whether a count meets a threshold (11 R255). -/
def meets (c t : U32) : Bool := decide ((c - t).toNat < 2 ^ 31)

/-- The polder that holds a weir, if a polder does (11 R254). -/
def weirHome (w : Nat) : Option Pid := if w < 15360 then some (Fin.ofNat 32 (w / 480)) else none

/-- Store a weir after a change of its count, threshold or enable, setting NOTIFIED and posting the notice of 11 R260 where
it now meets its threshold and did not before; a watch whose threshold the count meets sends its notice (11 R258). -/
def State.putWeir (s : State) (w : Nat) (x : Weir) : State :=
  let o := s.weir w
  let was := meets o.count o.thresh
  let nowMeets := meets x.count x.thresh
  let hit := x.notifyEn && nowMeets && !was
  { s with weirs := sput {} s.weirs w { x with notified := x.notified || hit },
           notices := if hit then s.notices ++ [w] else s.notices,
           watches := s.watches.map (fun y => if y.weir = w ∧ meets x.count y.thresh then { y with sent := true } else y) }

/-- Count an update in the WEIR block that holds the weir (11, WEIR_SIGNALS). -/
def State.countSignal (s : State) (w : Nat) : State :=
  match weirHome w with
  | some p => s.onPolder p (fun P => { P with weir := { P.weir with signals := P.weir.signals + 1 } })
  | none => { s with ccWeir := { s.ccWeir with signals := s.ccWeir.signals + 1 } }

/-- Add an increment to a weir; a number that names no weir takes nothing. -/
def State.weirAdd (s : State) (w : Nat) (inc : U32) : State :=
  if w < 16384 then
    (s.countSignal w).putWeir w { s.weir w with count := (s.weir w).count + inc }
  else s

/-- Send an update to a weir from polder `p`: it applies at once at a weir of that polder, and after the fabric otherwise
(11 Table 11-6, R257). -/
def State.weirSend (s : State) (p : Pid) (w : Nat) (inc : U32) : State :=
  if weirHome w = some p then s.weirAdd w inc else { s with flight := s.flight ++ [(w, inc)] }

/-! ### Completion records and faults of a task (09 R202, R205) -/

/-- The fields of a launch record (09 Table 9-7). -/
def lField (l : BitVec 512) (byte n : Nat) : Nat := l.toNat / 2 ^ (8 * byte) % 2 ^ (8 * n)

/-- The completion record of 09 Table 9-8. -/
def completionRecord (fault state pc cycles peak replays widened info : Nat) : List Byte :=
  leBytes 2 fault ++ leBytes 1 state ++ leBytes 1 0 ++ leBytes 4 pc ++ leBytes 8 cycles ++ leBytes 4 peak
    ++ leBytes 4 replays ++ leBytes 4 widened ++ leBytes 4 info

/-- Where a launch's completion record goes, if COMP is not 0; a COMP that is unaligned or names no memory takes none (DEDUCED, log
entry 14). -/
def compAddr (l : BitVec 512) : Option Nat :=
  let a := lField l 24 8
  if a = 0 ∨ a % 32 ≠ 0 ∨ inMemory a 32 = false then none else some a

/-- The slots that a launch's completion record touches. -/
def compSlots (l : BitVec 512) : List (Pid × Nat) := slotsOf (((compAddr l).map (fun a => (a, 32))).toList)

/-- Write a completion record. -/
def State.complete (s : State) (l : BitVec 512) (record : List Byte) : State :=
  match compAddr l with
  | some a => s.putBytes a record
  | none => s

/-- Owe a record to the sequencer of a polder. -/
def State.owe (s : State) (p : Pid) (a : Nat) (record : List Byte) : State :=
  s.onPolder p (fun P => { P with seq := { P.seq with owed := P.seq.owed ++ [(a, record)] } })

/-- The completion record of a task that ends by a fault or an abort is written as soon as its bank and its tag let it, as any write
waits (11 R242, R250); the task is gone meanwhile, and the polder's next one waits for it (11 R246). -/
def State.completeSoon (s : State) (p : Pid) (l : BitVec 512) (record : List Byte) : State :=
  match compAddr l with
  | none => s
  | some a =>
    match gate s true (compSlots l) with
    | .ok () => s.putBytes a record
    | .error (.held s') => s'.owe p a record
    | .error _ => s.owe p a record

/-- The oldest record that a polder owes is written if its bank and its tag let it. -/
def State.payRecord (s : State) (p : Pid) : State :=
  match s.polders[p].seq.owed with
  | [] => s
  | (a, r) :: rest =>
    match gate s true (slotsOf [(a, 32)]) with
    | .ok () => (s.putBytes a r).onPolder p (fun P => { P with seq := { P.seq with owed := rest } })
    | .error (.held s') => s'
    | .error _ => s

/-- The completion record of a task (09 Table 9-8). -/
def Task.record (t : Task) (fault state pc cycles info : Nat) : List Byte :=
  completionRecord fault state pc cycles t.peak.toNat t.replays.toNat t.widened.toNat info

/-- Discard a task's array work (04 R76, 11 R246): its loads, passes, groups and partly received output tile; a tile that the
OC has received whole stays to be written. Both sets are then clean. -/
def State.discardArray (s : State) (p : Pid) : State :=
  s.onPolder p (fun P =>
    { P with
      arr := { P.arr with loads := [], loading := none, passes := [] },
      sump := { P.sump with opened := none, closed := [], retired := false, shadow := none, wait := false },
      oc := { P.oc with recv := match P.oc.recv with | some t => if t.full then some t else none | none => none } })

/-- The owner code of a program (09 Table 9-12). -/
def progOwner (g : Fin 4) : BitVec 4 := BitVec.ofNat 4 (g.val + 1)

/-- The resource entry of a polder's spillway (09 Table 9-11). -/
def spillEntry (p : Pid) : Fin 96 := ⟨32 + p.val, by omega⟩

/-- Release a resource entry where its owner asks (09 R208). -/
def State.freeEntry (s : State) (e : Fin 96) (o : BitVec 4) : State :=
  { s with res := { s.res with owner := if s.res.owner[e] = o then s.res.owner.set e.val 0 e.isLt else s.res.owner } }

/-- The end of a task by any route: its registers go, TERP_BND is cleared and the spillway is released (09 R196, 11 R246,
07 R148, 09 Table 9-11), with the entry its program holds for it (09 R208). -/
def State.dropTask (s : State) (p : Pid) : State :=
  let e := spillEntry p
  let own := match s.polders[p].task with
    | some t => (s.freeEntry e (progOwner t.stage.prog)).res.owner
    | none => s.res.owner
  let s := s.onPolder p (fun P =>
    { P with task := none, terp := { P.terp with bnd := 0 }, spw := { P.spw with isOpen := false, cells := [] } })
  { s with watches := s.watches.filter (fun x => x.p != p), res := { s.res with owner := own },
           pm := { s.pm with idleAt := s.pm.idleAt.set (p.val / 8) s.tb (by have := p.isLt; omega) } }

/-- A task faults (09 R205): its work is discarded, SEQ_FAULT, SEQ_FAULT_PC and SEQ_FAULT_TIME are written, the completion
record says faulted, the fault counts, and the polder halts. -/
def State.taskFaultAt (s : State) (p : Pid) (pc : U32) (code : Byte) (info : U32) : State :=
  match s.polders[p].task with
  | none => s
  | some t =>
    let (cyc, s) := s.fresh
    let s := s.discardArray p
    let record := t.record code.toNat 2 pc.toNat cyc.toNat info.toNat
    let s := s.onPolder p (fun P =>
      { P with seq := { P.seq with
          fault := (code.setWidth 64 <<< 56) ||| info.setWidth 64, faultPc := pc, faultTime := s.tb,
          faults := P.seq.faults + 1, halted := true, record } })
    (s.completeSoon p t.launch record).dropTask p

/-- A fault of the instruction at the task's pc. -/
def State.taskFault (s : State) (p : Pid) (code : Byte) (info : U32) : State :=
  match s.polders[p].task with
  | none => s
  | some t => s.taskFaultAt p t.pc code info

/-! ### What runs (16 R383, R390; 18 R437) -/

/-- The module is powered and in A0 or A1: its blocks run and accept register accesses. -/
def State.running (s : State) : Bool := decide (s.pm.state = .run)

/-- The arithmetic clocks run: the module is in A0 or A1 and no trip halts it (16 R390). -/
def State.arithOn (s : State) : Bool := s.running && !s.pm.halted

/-- EXTEST, CLAMP or HIGHZ is in force: no launch record is accepted and no quadrant leaves A1 (18 R434). -/
def State.tapHolds (s : State) : Bool :=
  match s.mgt.tap with
  | .extest | .clamp | .highz => true
  | _ => false

/-- The quadrant of a logical polder (01 R12). -/
def quadOf (p : Pid) : Quad := Fin.ofNat 4 (p.val / 8)

/-- An access or an update on a quadrant brings it out of A1 (16 R383). -/
def State.wakeQuad (s : State) (q : Quad) : State :=
  if s.tapHolds then s
  else { s with pm := { s.pm with a1 := s.pm.a1.set q false, idleAt := s.pm.idleAt.set q s.tb } }

/-- Requests at terp banks bring their quadrants out of A1 (16 R383). -/
def State.wakeSlots (s : State) : List (Pid × Nat) → State
  | [] => s
  | (p, _) :: t => (s.wakeQuad (quadOf p)).wakeSlots t

/-- A step of the arithmetic domain: nothing happens while its clocks stand (DESIGN CHOICE, log entry 7). -/
def whenArith (s : State) (k : State → Outcome State Fault Refusal) : Outcome State Fault Refusal :=
  if s.arithOn then k s else .next s

/-- A register access, which only a running module accepts (18 R437; DESIGN CHOICE, log entry 7). -/
def whenRunning (s : State) (k : State → Outcome State Fault Refusal) : Outcome State Fault Refusal :=
  if s.running then k s else .next s

/-- A register access at a polder, which brings its quadrant out of A1 (16 R383). -/
def atPolder (s : State) (p : Pid) (k : State → Outcome State Fault Refusal) : Outcome State Fault Refusal :=
  if s.running then k (s.wakeQuad (quadOf p)) else .next s

/-! ### Mismatches and failures of a site (17 R398, R401, R404) -/

/-- A rollback starts, unless one has started already (17 R404). -/
def State.startRollback (s : State) (c : RollbackCause) : State :=
  { s with integ := { s.integ with cause := match s.integ.cause with | none => some c | some x => some x } }

/-- The site of a logical polder (01 R13). -/
def State.siteOf (s : State) (p : Pid) : Site := s.disc.siteOf[p]

/-- Change the counters of a site. -/
def State.onSite (s : State) (n : Site) (g : SiteInteg → SiteInteg) : State :=
  { s with integ := { s.integ with sites := s.integ.sites.set n (g s.integ.sites[n]) } }

/-- Mark a site for planned replacement at the next rollback point. -/
def State.planSite (s : State) (n : Site) : State :=
  if s.integ.planned.contains n then s else { s with integ := { s.integ with planned := s.integ.planned ++ [n] } }

/-- Whether a group that was replayed n times may not be replayed again (17 R398, REPLAY_MAX). -/
def State.replayLimit (s : State) (n : Nat) : Bool := (s.integ.ctl.extractLsb' 0 8).toNat ≤ n

/-- A site fails under 17 R398: HARD_SEEN, and a rollback with spare activation starts. -/
def State.hardFail (s : State) (p : Pid) : State :=
  { s with integ := { s.integ with hardSeen := true } }.startRollback (.groupLimit (s.siteOf p))

/-- A replay counts for its site; more than RATE_MAX in a one-second window plan its replacement (17 R398). -/
def State.countReplay (s : State) (p : Pid) : State :=
  let k := s.tb.toNat / 1000000000
  let n := s.siteOf p
  let s := s.onSite n (fun x =>
    { x with replay := x.replay + 1, second := k, inSecond := if x.second = k then x.inSecond + 1 else 1 })
  if (s.integ.ctl.extractLsb' 16 16).toNat < s.integ.sites[n].inSecond then s.planSite n else s

/-- A replay counts for the site and in the REPLAYS of the polder's task (17 R398, 09 Table 9-8). -/
def State.taskReplay (s : State) (p : Pid) : State := (s.countReplay p).onTask p (fun t => { t with replays := t.replays + 1 })

/-- An instruction reissues n times from a vector that mismatched (17 R397). -/
def State.reissue (s : State) (p : Pid) : Nat → State
  | 0 => s
  | n + 1 => (s.taskReplay p).reissue p n

/-! ### Issue (10 R214, R216) -/

/-- The task of a polder that may issue: the arithmetic clocks run, the polder runs a task, it is not ending, and it waits on nothing but an access of its
next instruction. -/
def State.issuer (s : State) (p : Pid) : Option Task :=
  match s.polders[p].task with
  | none => none
  | some t =>
    if t.ending || !s.arithOn then none
    else match t.wait with
      | none => some t
      | some w => match w.kind with
        | .access _ _ _ => some t
        | _ => none

/-- How an instruction uses a register field. -/
inductive RegUse where
  | unused | any | desc | mask | pair
deriving DecidableEq, Repr

/-- What the encoding rules of an instruction are (10 R213, R214 check 2): its level, length, the use of its register fields
and of MASK and Z, and the IMM bits and word 1 bits that it uses; `checked` marks what reissues from a vector that mismatches (17 R397). -/
structure Use where
  level : Nat := 1
  long  : Bool := false
  rd    : RegUse := .unused
  ra    : RegUse := .unused
  rb    : RegUse := .unused
  rc    : RegUse := .unused
  mask  : Bool := false
  z     : Bool := false
  imm   : BitVec 29 := 0
  w1    : U64 := 0
  checked : Bool := false

/-- Whether a register field fits its use. -/
def RegUse.fits (u : RegUse) (r : BitVec 5) : Bool :=
  match u with
  | .unused => r = 0
  | .any => true
  | .desc => r.toNat ≤ 15
  | .mask => r.toNat ≤ 7
  | .pair => r.toNat % 2 = 0

/-- Whether the fields of an instruction obey its encoding rules at a declared level (10 R214 check 2). -/
def Use.legal (u : Use) (level : Nat) (f : Fields) : Bool :=
  decide (u.level ≤ level) && (f.long == u.long) && u.rd.fits f.rd && u.ra.fits f.ra && u.rb.fits f.rb && u.rc.fits f.rc
  && (u.mask || f.mask == 0) && (u.z || !f.z) && (f.imm &&& ~~~ u.imm) == 0 && (f.w1 &&& ~~~ u.w1) == 0

/-- The bytes of an instruction. -/
def Fields.bytes (f : Fields) : Nat := if f.long then 16 else 8

/-- Start or keep the wait for the tag of a slot (11 R250, R253). -/
def State.blockOn (s : State) (p q : Pid) (n : BitVec 17) (full : Bool) : State :=
  s.onTask p (fun t =>
    if t.wait.map (·.kind) = some (.access q n full) then t else { t with wait := some ⟨.access q n full, s.tb⟩ })

/-- The pc of a task after a completed instruction. -/
def State.setPc (s : State) (p : Pid) (pc : U32) : State := s.onTask p (fun t => { t with pc, wait := none })

/-- The fetch check (10 R214 check 1): both words of the instruction lie below CODE_LEN (09 R196). -/
def fetchOk (t : Task) (f : Fields) : Bool := t.pc.toNat + Fields.bytes f ≤ t.stage.codeLen.toNat

/-- The address the first word outside the code has. -/
def fetchInfo (t : Task) : U32 :=
  (t.stage.code + (if t.pc.toNat + 8 ≤ t.stage.codeLen.toNat then t.pc.setWidth 64 + 8 else t.pc.setWidth 64)).setWidth 32

/-- Issue an instruction on polder `p`: nothing happens where no task can issue (DESIGN CHOICE, log entry 7); the checks of 10 R214 come
first; `body` answers the state and the next pc, or what stops the instruction. -/
def issueTo (p : Pid) (u : Use) (f : Fields) (s : State) (body : Task → Res (State × U32)) :
    Outcome State Fault Refusal :=
  match s.issuer p with
  | none => .next s
  | some t =>
    if !fetchOk t f then .next (s.taskFault p 0x08 (fetchInfo t))
    else if !u.legal t.stage.level.toNat f then .next (s.taskFault p 0x01 0)
    else match body t with
      | .ok (s', pc) => .next ((s'.reissue p (if u.checked then f.upsets else 0)).setPc p pc)
      | .error (.fault c i) => .next (s.taskFault p c i)
      | .error (.late s' c i) => .next (s'.taskFault p c i)
      | .error (.blocked q n full) => .next (s.blockOn p q n full)
      | .error (.held s') => .next s'

/-- Issue an instruction that does not branch (10 R212: the pc advances by 8 or 16). -/
def issue (p : Pid) (u : Use) (f : Fields) (s : State) (body : Task → Res State) : Outcome State Fault Refusal :=
  issueTo p u f s (fun t => do
    let s' ← body t
    return (s', t.pc + BitVec.ofNat 32 (Fields.bytes f)))

end Sys2Proof.Machine
end

