-- ==== Sys2Proof/Machine/Fabric.lean ====
section
/-! DEFINITION. The package mesh (13 R286-R292): routes, activity counts, deficit-weighted round robin and promotion by age.
Times are fabric cycles, which the command carries as `now`; they are not part of the state's timebase. -/

namespace Sys2Proof.Machine

open Host (Outcome)

/-- The input of a router by its place in the tie order (13 R292). -/
def Port.ix : Port → Fin 7
  | .north => 0 | .east => 1 | .south => 2 | .west => 3 | .here => 4 | .embankment => 5 | .side => 6

/-- The column of a site (01 R11). -/
def siteCol (n : Site) : Nat := n.val % 6
/-- The row of a site (01 R11). -/
def siteRow (n : Site) : Nat := n.val / 6
/-- The quadrant of a site (01 R12, Table 1-2). -/
def siteQuad (n : Site) : Nat := if siteRow n < 3 then siteCol n / 3 else 3 - siteCol n / 3

/-- The output by which a packet leaves a router (13 R289): along its row to the column of its destination site, then along the
column; to E0 and E2 (36 and 38) along its own column, to E1 and E3 (37 and 39) along its own row (DESIGN CHOICE, log entry 30: how the
header names a destination). -/
def route (n : Site) (dest : BitVec 6) : Option Port :=
  let d := dest.toNat
  if d < 36 then
    if d % 6 > siteCol n then some .east else if d % 6 < siteCol n then some .west
    else if d / 6 > siteRow n then some .south else if d / 6 < siteRow n then some .north else some .here
  else if d = 36 then some (if siteRow n = 0 then .embankment else .north)
  else if d = 38 then some (if siteRow n = 5 then .embankment else .south)
  else if d = 37 then some (if siteCol n = 5 then .side else .east)
  else if d = 39 then some (if siteCol n = 0 then .side else .west)
  else none

/-- Whether a router has a link at an output (13 R286). -/
def hasPort (n : Site) : Port → Bool
  | .north => siteRow n ≠ 0
  | .south => siteRow n ≠ 5
  | .east => siteCol n ≠ 5
  | .west => siteCol n ≠ 0
  | .here => true
  | .embankment => siteRow n = 0 || siteRow n = 5
  | .side => siteCol n = 0 || siteCol n = 5

/-- The neighbour at an output with the input by which a packet reaches it. -/
def neighbour (n : Site) : Port → Option (Site × Port)
  | .north => if siteRow n ≠ 0 then some (Fin.ofNat 36 (n.val - 6), .south) else none
  | .south => if siteRow n ≠ 5 then some (Fin.ofNat 36 (n.val + 6), .north) else none
  | .east => if siteCol n ≠ 5 then some (Fin.ofNat 36 (n.val + 1), .west) else none
  | .west => if siteCol n ≠ 0 then some (Fin.ofNat 36 (n.val - 1), .east) else none
  | _ => none

/-- Where a packet of another agent enters the mesh (13 R289): a polder's at its own site, and only for another place; an embankment's in
the column (E0, E2) or the row (E1, E3) of its destination site, for another embankment through the corner that the two share, along
column 2 between E0 and E2 and along row 2 between E1 and E3. -/
def entersAt (n : Site) (inp : Port) (dest : BitVec 6) : Bool :=
  let d := dest.toNat
  match inp with
  | .here => d != n.val
  | .embankment =>
    if d < 36 then d % 6 == siteCol n
    else if d = 36 ∨ d = 38 then siteCol n == 2 && (d == 38) == (siteRow n == 0)
    else siteCol n == (if d = 37 then 5 else 0)
  | .side =>
    if d < 36 then d / 6 == siteRow n
    else if d = 37 ∨ d = 39 then siteRow n == 2 && (d == 37) == (siteCol n == 0)
    else siteRow n == (if d = 36 then 0 else 5)
  | _ => true

/-- Whether packets enter the mesh by an input: the local port and the embankment ports (13 R291). -/
def injects : Port → Bool
  | .here | .embankment | .side => true
  | _ => false

/-- Whether a link joins two quadrants, columns 2 and 3 or rows 2 and 3 (13 R287). -/
def crosses (a b : Site) : Bool := (siteCol a / 3 != siteCol b / 3) || (siteRow a / 3 != siteRow b / 3)

/-- The flits of a packet: 512 payload bytes each, and one for a packet without payload (13 R288; DESIGN CHOICE, log entry 30). -/
def packetFlits (k : FabPacket) : Nat := max 1 ((k.len.toNat + 511) / 512)

/-- What a send takes from a deficit counter (13 R292). -/
def packetCost (k : FabPacket) : Nat := if k.len = 0 then 64 else k.len.toNat

/-- The place of a network in a router output. -/
def netIx : Net → Fin 2
  | .request => 0
  | .response => 1

/-- Change one output of one router. -/
def State.onOut (s : State) (n : Site) (o : Port) (g : OutPort → OutPort) : State :=
  let r := s.routers[n]
  { s with routers := s.routers.set n { r with outs := r.outs.set (Port.ix o) (g r.outs[Port.ix o]) } }

/-- Change one network of one output of one router. -/
def State.onNet (s : State) (n : Site) (o : Port) (net : Net) (g : OutNet → OutNet) : State :=
  s.onOut n o (fun P => { P with nets := P.nets.set (netIx net) (g P.nets[netIx net]) })

/-- The flits that wait behind one input of a router on a network, those on its links among them: what the dual-clock queue of that
input holds (13 R287). -/
def flitsFrom (R : Router) (inp : Port) (net : Net) : Nat :=
  (R.outs.toList.map (fun P =>
    ((P.nets[netIx net].queues[Port.ix inp]).map (fun x => packetFlits x.1)).sum
    + (match P.wire[netIx net] with
      | some (_, i, left) => if i = Port.ix inp then left else 0
      | none => 0))).sum

/-- A packet reaches a router by an input: it waits at the output of its route on the network of its kind (Table 13-2); a packet injected
by the local port or an embankment port carries SRCS 1 (13 R291). A destination that names nothing, an input the router does not have, or
a place where it may not enter the mesh brings no packet. -/
def State.packetArrives (s : State) (n : Site) (at_ : Nat) (inp : Port) (k : FabPacket) : State :=
  if !hasPort n inp || !entersAt n inp k.dest then s else
  match route n k.dest with
  | none => s
  | some o =>
    let k := if injects inp then { k with srcs := 1 } else k
    s.onNet n o k.kind.net (fun N =>
      N.join (Port.ix inp) k at_)

/-- A packet that another agent sends into the mesh; the queue of an embankment port that has no room for it holds it back (13 R287). -/
def State.packetEnters (s : State) (n : Site) (at_ : Nat) (inp : Port) (k : FabPacket) : State :=
  if !injects inp || (inp != .here && 64 < flitsFrom s.routers[n] inp k.kind.net + packetFlits k) then s
  else s.packetArrives n at_ inp k

/-- The input that sends next on a network of a router's output, and the network before the send (13 R292). -/
def nextSender (N : OutNet) : Option (Fin 7 × OutNet) := pickSender (fun k => k.srcs.toNat) packetCost N

/-- Whether a link takes a packet: the dual-clock queue behind it, to another quadrant or to an embankment, has room for its flits; a full
queue holds its sender back (13 R287). -/
def linkRoom (s : State) (n : Site) (o : Port) (k : FabPacket) : Bool :=
  match neighbour n o with
  | some (m, inp) => !crosses n m || flitsFrom s.routers[m] inp k.kind.net + packetFlits k ≤ 64
  | none => o == .here || s.routers[n].outs[Port.ix o].held[netIx k.kind.net] + packetFlits k ≤ 64

/-- The packet that one network of an output sends next goes onto a free link, if the link takes it: its counter is charged, and it
carries as SRCS what R291 says (13 R291, R292). -/
def State.startPacket (s : State) (n : Site) (o : Port) (now : Nat) (net : Net) : State :=
  let P := s.routers[n].outs[Port.ix o]
  if P.wire[netIx net].isSome then s else
  match nextSender P.nets[netIx net] with
  | none => s
  | some (i, N) =>
    match N.queues[i] with
    | [] => s
    | (k, _, _) :: rest =>
      if !linkRoom s n o k then s else
      let N := N.sendHead i rest (packetCost k)
      s.onOut n o (fun P =>
        let P := { P with last := P.last.set i (some (k.srcs, now + 1024)), nets := P.nets.set (netIx net) N }
        { P with wire := P.wire.set (netIx net) (some ({ k with srcs := sourcesOf P.last now }, i, packetFlits k)) })

/-- A packet has left by an output after `t` cycles: the neighbour takes it into the queue of its next output, or it leaves the mesh; a
write that has reached its end is acknowledged (13 R287, R290, Table 13-2). -/
def State.packetLeaves (s : State) (n : Site) (o : Port) (t : Nat) (k : FabPacket) : State :=
  let s := { s with reply := .packet k }
  match neighbour n o with
  | some (m, inp) => s.packetArrives m (t + 3 + if crosses n m then 7 else 1) inp k
  | none =>
    let s := if o = .here then s else s.onOut n o (fun P =>
      { P with held := P.held.set (netIx k.kind.net) (P.held[netIx k.kind.net] + packetFlits k) })
    if k.kind = .write then
      s.packetEnters n (t + 3 + if o = .here then 0 else 16) o
        { dest := k.src, src := k.dest, srcs := 1, kind := .writeAck, len := 0, addr := k.addr }
    else s

/-- The flits of both networks on a link, alternately, until one packet is through (13 R292): the network that finishes, the flits that it
sends, and those of the other one. -/
def linkTurns (P : OutPort) : Option (Fin 2 × Nat × Nat) :=
  let left := fun (j : Fin 2) => P.wire[j].map (fun x => x.2.2)
  let f := P.lastNet + 1
  match left f, left P.lastNet with
  | some a, some b => if a ≤ b then some (f, a, a - 1) else some (P.lastNet, b, b)
  | some a, none => some (f, a, 0)
  | none, some b => some (P.lastNet, b, 0)
  | none, none => none

/-- FABRIC_PACKET_FORWARD: arrivals join their queues and the embankment takes flits of its queues; then each network of the output puts
the packet whose turn it is on the link, the networks alternate flit by flit until one packet is through, and that packet is handed to the
neighbour or out of the mesh (13 R287-R292). The fabric clocks run in A0 and A1 only, at every site, spare or retired (01 R14, 16 Table
16-1). -/
def execFabricPacketForward (n : Site) (o : Port) (now : Nat) (arrivals : List (Port × FabPacket)) (taken : Nat × Nat) (s : State) :
    Outcome State Fault Refusal := whenRunning s fun s =>
  let s := arrivals.foldl (fun s x => s.packetEnters n now x.1 x.2) s
  let s := if taken = (0, 0) then s else s.onOut n o (fun P => { P with held := #v[P.held[0] - taken.1, P.held[1] - taken.2] })
  let s := (s.startPacket n o now .request).startPacket n o now .response
  let P := s.routers[n].outs[Port.ix o]
  match linkTurns P with
  | none => .next s
  | some (j, a, b) =>
    match P.wire[j] with
    | none => .next s
    | some (k, _, _) =>
      let s := s.onOut n o (fun P =>
        { P with wire := (P.wire.map (fun x => x.map (fun (k, i, left) => (k, i, left - b)))).set j none, lastNet := j })
      let r := s.routers[n]
      let s := { s with routers := s.routers.set n { r with flits := r.flits + BitVec.ofNat 64 (a + b) } }
      .next (s.packetLeaves n o (now + a + b - 1) k)

/-- PACKET_PROMOTION: a head packet that has waited more than 512 fabric cycles at the output is promoted (13 R292 step 3). -/
def execPacketPromotion (n : Site) (o : Port) (net : Net) (inp : Port) (now : Nat) (s : State) :
    Outcome State Fault Refusal := whenRunning s fun s =>
  match s.routers[n].outs[Port.ix o].nets[netIx net].queues[Port.ix inp] with
  | (k, t, false) :: rest =>
    if now ≤ t + 512 then .next s else
    let s := s.onNet n o net (fun N => { N with queues := N.queues.set (Port.ix inp) ((k, t, true) :: rest) })
    let r := s.routers[n]
    .next { s with routers := s.routers.set n { r with promoted := r.promoted + 1 } }
  | _ => .next s

/-- ACTIVITY_TIMER_EXPIRE: an activity timer reaches 0 and its input leaves the sum (13 R291). -/
def execActivityTimerExpire (n : Site) (inp out : Port) (now : Nat) (s : State) : Outcome State Fault Refusal := whenRunning s fun s =>
  let r := s.routers[n]
  let P := r.outs[Port.ix out]
  match P.last[Port.ix inp] with
  | some (_, t) =>
    if now < t then .next s
    else
      let P := { P with last := P.last.set (Port.ix inp) none }
      .next { s with routers := s.routers.set n { r with outs := r.outs.set (Port.ix out) P } }
  | none => .next s

end Sys2Proof.Machine
end

