-- ==== Sys2Proof/Machine/Crc.lean ====
section
/-! DEFINITION. The CRC-32 of control frames and stream packets (14 R311, R318): the polynomial of IEEE 802.3, with the bit order, the
initial value and the final complement of that standard (PRESUMED, log entry 64). -/

namespace Sys2Proof

/-- Shift n bits of a CRC register out. -/
def crcBits : Nat → Nat → Nat
  | 0, c => c
  | n + 1, c => crcBits n (if c % 2 = 1 then (c / 2) ^^^ 0xEDB88320 else c / 2)

/-- The CRC-32 of bytes. -/
def crc32 (bs : List Byte) : U32 :=
  BitVec.ofNat 32 ((bs.foldl (fun c b => crcBits 8 (c ^^^ b.toNat)) 0xFFFFFFFF) ^^^ 0xFFFFFFFF)

/-- A number as n bytes, the least significant first (00 R4). -/
def lowBytes (n v : Nat) : List Byte := (List.range n).map (fun i => BitVec.ofNat 8 (v / 256 ^ i))

/-- The 16 header bytes of a control frame (14 Table 14-1). -/
def Frame.header (f : Frame) : List Byte :=
  [f.type, f.lane] ++ lowBytes 2 f.len.toNat ++ lowBytes 4 f.seq.toNat ++ lowBytes 4 f.ackSeq.toNat ++ [f.status, f.cls]
  ++ lowBytes 2 f.tag.toNat

/-- Whether a frame's CRC holds over its header and payload. -/
def Frame.crcOk (f : Frame) : Bool := f.crc == crc32 (f.header ++ f.payload)

/-- A frame as it is sent: its CRC holds. -/
def Frame.seal (f : Frame) : Frame := { f with crc := crc32 (f.header ++ f.payload) }

theorem Frame.crcOk_seal (f : Frame) : f.seal.crcOk = true := by simp [Frame.crcOk, Frame.seal, Frame.header]

/-- The 32 header bytes of a stream packet (14 R318). -/
def StreamPacket.header (k : StreamPacket) : List Byte :=
  [k.type, k.stream] ++ lowBytes 2 k.len.toNat ++ lowBytes 4 k.lseq.toNat ++ lowBytes 8 k.offset.toNat ++ lowBytes 4 k.cred.toNat
  ++ [k.flags] ++ List.replicate 11 0

/-- Whether a packet's CRC holds over its header and payload. -/
def StreamPacket.crcOk (k : StreamPacket) : Bool := k.crc == crc32 (k.header ++ k.data)

/-- A packet as it is sent: its CRC holds. -/
def StreamPacket.seal (k : StreamPacket) : StreamPacket := { k with crc := crc32 (k.header ++ k.data) }

theorem StreamPacket.crcOk_seal (k : StreamPacket) : k.seal.crcOk = true := by
  simp [StreamPacket.crcOk, StreamPacket.seal, StreamPacket.header]

end Sys2Proof
end

