-- ==== Sys2Proof/Machine/Flags.lean ====
section
/-! DEFINITION. Status flags and access types (00 R8, Table 0-2; 02 R43): sticky bits that hardware sets and software clears
by writing 1, and the sticky flags of each polder block. -/

namespace Sys2Proof.Machine

/-- A sticky bit set by hardware (00 Table 0-2, W1C). -/
def stick {n : Nat} (x : BitVec n) (bit : Nat) (on : Bool) : BitVec n :=
  if on then x ||| (1#n <<< bit) else x

/-- A software write to a register whose bits of `mask` are W1C and whose others are read-only. -/
def w1c {n : Nat} (x v mask : BitVec n) : BitVec n := x &&& ~~~ (v &&& mask)

/-- A software write to a register whose bits of `mask` are RW and whose others do not change. -/
def wrw {n : Nat} (x v mask : BitVec n) : BitVec n := (x &&& ~~~ mask) ||| (v &&& mask)

/-- EE_STATUS flags of a conversion or clamp (08 R187). -/
def State.eeFlags (s : State) (p : Pid) (sat narrow : Bool) : State :=
  s.onPolder p (fun P => { P with ee := { P.ee with status := stick (stick P.ee.status 0 sat) 1 narrow } })

/-- OC_STATUS flags of the form finally written (06 R122, 07 R154). -/
def State.ocFlags (s : State) (p : Pid) (sat narrow : Bool) : State :=
  s.onPolder p (fun P => { P with oc := { P.oc with status := stick (stick P.oc.status 0 sat) 1 narrow } })

/-- A QZ_STATUS flag (06 R129). -/
def State.qzFlag (s : State) (p : Pid) (bit : Nat) (on : Bool) : State :=
  s.onPolder p (fun P => { P with qz := { P.qz with status := stick P.qz.status bit on } })

/-- A BPE_STATUS flag (03 R65). -/
def State.bpeFlag (s : State) (p : Pid) (bit : Nat) (on : Bool) : State :=
  s.onPolder p (fun P => { P with bpe := { P.bpe with status := stick P.bpe.status bit on } })

/-- A LOG_STATUS flag (05 R104). -/
def State.logFlag (s : State) (p : Pid) (bit : Nat) (on : Bool) : State :=
  s.onPolder p (fun P => { P with logb := { P.logb with status := stick P.logb.status bit on } })

/-- An RU_STATUS flag (08 R179, R180). -/
def State.ruFlag (s : State) (p : Pid) (bit : Nat) (on : Bool) : State :=
  s.onPolder p (fun P => { P with ru := { P.ru with status := stick P.ru.status bit on } })

/-- An SPW_STATUS flag (07 R155). -/
def State.spwFlag (s : State) (p : Pid) (bit : Nat) (on : Bool) : State :=
  s.onPolder p (fun P => { P with spw := { P.spw with status := stick P.spw.status bit on } })

/-- A TERP_STATUS flag (11 R267). -/
def State.terpFlag (s : State) (p : Pid) (bit : Nat) (on : Bool) : State :=
  s.onTerp p (fun T => { T with status := stick T.status bit on })

end Sys2Proof.Machine
end

