-- ==== Sys2Proof/Machine/Memctl.lean ====
section
/-! DEFINITION. Memory-side caches and memory controllers (13 R294-R307): the visible map, hits, fills and write-backs,
residency ranges, flushes, corrected and uncorrectable lines, sparing, refresh and patrol. Data lie in one image, since no
access returns stale data (R294); the caches hold what of it they cover. -/

namespace Sys2Proof.Machine

open Host (Outcome)

/-! ### The visible map (13 R302) -/

/-- Bits [lo + n - 1 : lo] of a number. -/
def bitsOf (x lo n : Nat) : Nat := x / 2 ^ lo % 2 ^ n

/-- The module-wide channel set T of a visible block. -/
def channelSet (B : Nat) : Nat :=
  bitsOf B 0 6 ^^^ bitsOf B 6 6 ^^^ bitsOf B 12 6 ^^^ bitsOf B 18 6 ^^^ bitsOf B 24 4

/-- A line in a controller: its set, stripe, channel of the set (0 to 8) and line. -/
structure Loc where
  set     : Nat
  stripe  : Nat
  channel : Nat
  line    : Nat
deriving DecidableEq, Repr

/-- Where a visible address lies: controller and line. -/
def locate (a : Nat) : Fin 8 × Loc :=
  let B := a / 2048
  let T := channelSet B
  let b := B / 64
  (Fin.ofNat 8 T, { set := T / 8, stripe := b / 8, channel := (b / 8 + 1 + b % 8) % 9, line := a / 64 % 32 })

/-- The number of a line within its controller. -/
def Loc.id (l : Loc) : Nat := ((l.set * 524288 + l.stripe) * 9 + l.channel) * 32 + l.line

/-- The line of a number. -/
def locOf (id : Nat) : Loc :=
  { line := id % 32, channel := id / 32 % 9, stripe := id / 288 % 524288, set := id / 150994944 }

/-- The channel of a controller on which a line lies (13 R299). -/
def Loc.chan (l : Loc) : Nat := 9 * l.set + l.channel

/-- Channel n is channel n mod 4 of package floor(n / 4) of its controller (13 R299). -/
def packageOf (chan : Nat) : Nat × Nat := (chan / 4, chan % 4)

/-- Where a block lies in its channel (13 R302): bank group, bank, row, and its byte. -/
structure Cell where
  group : Nat
  bank  : Nat
  row   : Nat
  byte  : Nat
deriving DecidableEq, Repr

/-- The place of channel block s (13 R302). -/
def cellOf (s : Nat) : Cell := { group := bitsOf s 0 2, bank := bitsOf s 2 2, row := bitsOf s 4 15, byte := 2048 * s }

/-- The number of a block's bank within its controller: 16 to a channel (13 Table 13-4). -/
def Loc.bank (l : Loc) : Nat := 16 * l.chan + (cellOf l.stripe).group + 4 * (cellOf l.stripe).bank

/-- The channel and the byte of the reserve block at which the check bytes of a data line lie (13 R302, R303). -/
def checkPlace (l : Loc) : Nat × Nat :=
  (9 * l.set + l.stripe % 9, 128 * ((l.channel + 9 - (l.stripe + 1) % 9) % 9) + 4 * l.line)

/-- The visible address of a data line; a line of the stripe's reserve block has none. -/
def addrOf (m : Fin 8) (l : Loc) : Option Nat :=
  let i := (l.channel + 9 - (l.stripe + 1) % 9) % 9
  if i = 8 then none else
  let b := 8 * l.stripe + i
  let low := (8 * l.set + m.val) ^^^ bitsOf b 0 6 ^^^ bitsOf b 6 6 ^^^ bitsOf b 12 6 ^^^ bitsOf b 18 4
  some ((64 * b + low) * 2048 + 64 * l.line)

/-! ### Sparing (13 R306) -/

/-- The half from which a half is served: its spare once a pair stands in the remap table, which lists pairs as they came. -/
def Mc.servedHalf (c : Mc) (half : Nat) : Nat := c.remap.foldl (fun h e => if e.1 = h then e.2 else h) half

/-- The place of unit u of the checkpoint reserve: the controller, and line j of the reserve half of stripe floor(u / 64) in module-wide
set u mod 64 (13 R299, R304). -/
def unitLine (u j : Nat) : Fin 8 × Loc :=
  let T := u % 64
  (Fin.ofNat 8 T, { set := T / 8, stripe := u / 64, channel := u / 64 % 9, line := 16 + j })

/-- Spare half k of a set: the reserve half of stripe 523,776 + k (13 R304). -/
def spareHalf (set k : Nat) : Nat :=
  Loc.id { set := set, stripe := 523776 + k, channel := (523776 + k) % 9, line := 16 } / 16

/-- The lowest free spare half of a half's set on a different channel. -/
def Mc.freeSpare (c : Mc) (half : Nat) : Option Nat :=
  let l := locOf (16 * half)
  ((List.range 512).filter (fun k => (523776 + k) % 9 != l.channel)).findSome? (fun k =>
    let h := spareHalf l.set k
    if c.remap.any (fun e => e.2 == h) || c.copying.any (fun e => e.2 == h) then none else some h)

/-- A corrected error in line `i` of a half, the one it is served from: it counts, and that half is spared after four errors, or after
errors in two symbols of one line. -/
def Mc.corrected (c : Mc) (half i : Nat) (symbol : BitVec 7) : Mc :=
  let line := 16 * half + i
  let n := sget 0 c.errors half + 1
  let old := sget [] c.symbols line
  let syms := if old.contains symbol then old else old ++ [symbol]
  let c := { c with ce := c.ce + 1, status := c.status ||| 2, errors := sput 0 c.errors half n,
                    symbols := sput [] c.symbols line syms }
  if (n < 4 && syms.length < 2) || c.copying.any (fun e => e.1 == half) then c
  else match c.freeSpare half with
    | some h => { c with copying := c.copying ++ [(half, h)] }
    | none => { c with status := c.status ||| 8 }

/-- Change a controller. -/
def State.onMc (s : State) (m : Fin 8) (g : Mc → Mc) : State := { s with mc := s.mc.set m (g s.mc[m]) }

/-! ### Reading a line (13 R303, 17 R403) -/

/-- The refetch entry whose image holds a visible line, with the scratchpad address of the line's copy (17 R400). -/
def imageOf (s : State) (a : Nat) : Option Nat :=
  (List.finRange 32).findSome? (fun p => (List.finRange 16).findSome? (fun e =>
    let src := s.integ.rfSrc[p][e]
    let base := s.integ.rfMst[p][e].toNat
    let n := (src.extractLsb' 32 17).toNat
    if src.getLsbD 63 && base ≤ a && a < base + 4096 * n then
      some (scratchAddr p (4096 * (src.extractLsb' 0 17).toNat + (a - base))) else none))

/-- What an uncorrectable visible line brings: the line is rewritten from the resident working copy of its refetch image, and
the read retries; any other line starts a rollback (17 R403). -/
def State.lineLost (s : State) (a : Nat) : State × Bool :=
  let a := a / 64 * 64
  match imageOf s a with
  | some w => ({ s.putBytes a (s.bytes w 64) with integ := { s.integ with rebuilt := s.integ.rebuilt + 1 } }, true)
  | none => (s.startRollback (.line (BitVec.ofNat 64 a)), false)

/-- The symbols of a line that are in error (13 R303): pin k mod 16 carries symbol k over beats 8 floor(k / 16) to 8 floor(k / 16) + 7; the
check bytes are symbols 64 to 67. -/
def symbolsOf (e : LineErrs) : List Nat :=
  let data : List Nat := e.data.map (fun x => x.1.val + 16 * (x.2.val / 8))
  let check : List Nat := e.check.map (fun b => 64 + b.val / 8)
  (data ++ check).eraseDups

/-- What the code makes of a line (13 R303): it corrects one symbol and detects errors in up to three; what it makes of more is free
(DESIGN CHOICE, log entry 62). -/
def lineEcc (e : LineErrs) (open_ : U64) : Ecc :=
  match symbolsOf e with
  | [] => .clean
  | [y] => .corrected (BitVec.ofNat 7 y)
  | [_, _] => .uncorrectable
  | [_, _, _] => .uncorrectable
  | _ => if open_.getLsbD 0 then .uncorrectable else .miscorrected

/-- A controller opens the row of a line in its bank, and retries link errors (13 R299, R300, R302). -/
def Mc.open_ (c : Mc) (l : Loc) (retries : Nat) : Mc :=
  { c with rows := sput 0 c.rows l.bank ((cellOf l.stripe).row + 1), linkRetry := c.linkRetry + BitVec.ofNat 64 retries }

/-- Free bytes, as a code that is fooled lets through. -/
def freeBytes (ix n : Nat) : List Byte := (List.range n).map (fun i => (Config.freeWord (ix + i)).setWidth 8)

/-- A controller reads and checks a line: whether its data are at hand, and the state with the counts, the sparing and the
repair of 13 R303, R306 and 17 R403. A failed channel makes every line uncorrectable (13 R307). -/
def State.readLine (s : State) (m : Fin 8) (l : Loc) (e : LineErrs) : State × Bool :=
  let c := s.mc[m]
  let half := c.servedHalf (l.id / 16)
  let dead := c.failed.any (fun n => n.val == (locOf (16 * half)).chan)
  let s := s.onMc m (fun c => c.open_ (locOf (16 * half)) e.retries)
  match if dead then Ecc.uncorrectable else lineEcc e (Config.freeWord s.freeIx) with
  | .clean => (s, true)
  | .corrected y => (s.onMc m (fun c => c.corrected half (l.id % 16) y), true)
  | .miscorrected =>
    let y := BitVec.ofNat 7 ((Config.freeWord (s.freeIx + 1)).toNat % 68)
    let t := s.onMc m (fun c => c.corrected half (l.id % 16) y)
    let t := { t with freeIx := t.freeIx + 66 }
    match addrOf m l with
    | some a => (t.putBytes (a / 64 * 64) (freeBytes (s.freeIx + 2) 64), true)
    | none => (t, true)
  | .uncorrectable =>
    let s := s.onMc m (fun c => { c with ue := c.ue + 1, status := c.status ||| 4 })
    match addrOf m l with
    | some a => s.lineLost a
    | none => (s, false)

/-- Whether a line waits for a sparing copy (13 R306). -/
def lineWaits (s : State) (m : Fin 8) (l : Loc) : Bool :=
  s.mc[m].copying.any (fun e => e.1 == s.mc[m].servedHalf (l.id / 16))

/-! ### Memory-side caches (13 R295-R298) -/

/-- Change a memory-side cache. -/
def State.onMsc (s : State) (k : Fin 4) (g : Msc → Msc) : State := { s with msc := s.msc.set k (g s.msc[k]) }

/-- The set of a visible block: (b XOR 128 T) mod 8,192. -/
def cacheSet (B : Nat) : Nat := ((B / 64) ^^^ (128 * channelSet B)) % 8192

def Msc.way (c : Msc) (set w : Nat) : MscWay := sget {} c.ways (16 * set + w)
def Msc.setWay (c : Msc) (set w : Nat) (x : MscWay) : Msc := { c with ways := sput {} c.ways (16 * set + w) x }

/-- The way that holds a block. -/
def Msc.find (c : Msc) (B : Nat) : Option Nat :=
  (List.range 16).find? (fun w => (c.way (cacheSet B) w).valid != 0 && (c.way (cacheSet B) w).block == B)

/-- Mark a way as used: the tree bits on its path point away from it. -/
def plruTouch (t : BitVec 15) (w : Nat) : BitVec 15 :=
  (List.range 4).foldl (fun t d =>
    let node := 2 ^ d - 1 + w / 2 ^ (4 - d)
    setField t node 1 (1 - w / 2 ^ (3 - d) % 2)) t

/-- The way the tree points to among those that `ok` admits. -/
def plruPick (t : BitVec 15) (ok : Nat → Bool) : Nat :=
  (List.range 4).foldl (fun lead d =>
    let want := 2 * lead + (if t.getLsbD (2 ^ d - 1 + lead) then 1 else 0)
    let span := 2 ^ (3 - d)
    if (List.range span).any (fun i => ok (want * span + i)) then want else 2 * lead + (1 - want % 2)) 0

/-- The victim of a set: a way that holds no block, else the tree's choice among the unpinned ways (DEDUCED, log entry 31). -/
def Msc.victim (c : Msc) (set : Nat) : Nat :=
  match (List.range 16).find? (fun w => (c.way set w).valid == 0) with
  | some w => w
  | none => plruPick (sget 0 c.tree set) (fun w => !(c.way set w).pinned)

/-- The sectors set in a mask. -/
def popcount (x : U32) : Nat := ((List.range 32).filter (fun i => x.getLsbD i)).length

/-- Whether an enabled range covers a block, and its policy (13 R297). -/
def Msc.policy (c : Msc) (B : Nat) : Nat :=
  match (List.finRange 16).find? (fun n => c.lim[n].getLsbD 61 && (c.base[n].extractLsb' 11 28).toNat ≤ B
      && B ≤ (c.lim[n].extractLsb' 11 28).toNat) with
  | some n => (c.lim[n].extractLsb' 62 2).toNat
  | none => 0

/-- Allocate a block: the victim's dirty sectors are written back, and the block is pinned in a PINNED range unless its set
holds 12 pinned ways. -/
def Msc.allocate (c : Msc) (B : Nat) : Msc × Nat :=
  let set := cacheSet B
  let w := c.victim set
  let c := { c with writebacks := c.writebacks + BitVec.ofNat 64 (popcount (c.way set w).dirty) }
  let wants := c.policy B == 1
  let full := 12 ≤ ((List.range 16).filter (fun v => v != w && (c.way set v).pinned)).length
  let c := if wants && full then { c with status := c.status ||| 4, pinOver := c.pinOver + 1 } else c
  (c.setWay set w { block := B, pinned := wants && !full }, w)

/-- Use a way for a sector. -/
def Msc.touch (c : Msc) (B w sector : Nat) (dirty : Bool) : Msc :=
  let set := cacheSet B
  let x := c.way set w
  let bit := 1#32 <<< sector
  let c := c.setWay set w { x with valid := x.valid ||| bit, dirty := if dirty then x.dirty ||| bit else x.dirty }
  { c with tree := sput 0 c.tree set (plruTouch (sget 0 c.tree set) w) }

/-- The dirty lines that an allocation of a block writes back, as places of the set's controllers (13 R295). -/
def victimLines (c : Msc) (B : Nat) : List (Fin 8 × Loc) :=
  let x := c.way (cacheSet B) (c.victim (cacheSet B))
  ((List.range 32).filter (fun i => x.dirty.getLsbD i)).map (fun i => locate (2048 * x.block + 64 * i))

/-- Whether an access to a cache that does not hit waits on a sparing copy (13 R306): of the line that it fetches or writes through, or of
one that its allocation writes back. -/
def missWaits (s : State) (c : Msc) (a : Nat) (kind : MscKind) : Bool :=
  let (m, l) := locate a
  let B := a / 2048
  let through := c.find B = none && c.policy B = 2
  ((kind ≠ .writeWhole || through) && lineWaits s m l)
  || (c.find B = none && c.policy B ≠ 2 && (victimLines c B).any (fun x => lineWaits s x.1 x.2))

/-- One access at its home cache: a sector hit is served; a read or partial write that misses fetches its line first; a miss of a block
allocates unless its range says NO_ALLOCATE (13 R295, R297). None where the access waits on a sparing copy. -/
def State.mscServe (s : State) (x : MscAcc) : Option State :=
  let a := x.addr.toNat
  let kind := x.kind
  if 2 ^ 39 ≤ a then some s else
  let B := a / 2048
  let sector := a / 64 % 32
  let (m, l) := locate a
  let k : Fin 4 := Fin.ofNat 4 (m.val / 2)
  let dirty := decide (kind ≠ .read)
  let c := s.msc[k]
  let held := c.find B
  let hit := match held with
    | some w => (c.way (cacheSet B) w).valid.getLsbD sector
    | none => false
  if hit then
    some (s.onMsc k (fun c => { c.touch B (held.getD 0) sector dirty with hits := c.hits + 1 }))
  else
    let fetch := decide (kind ≠ .writeWhole)
    if missWaits s c a kind then none else
    let s := s.onMsc k (fun c => { c with misses := c.misses + 1 })
    let (s, got) := if fetch then s.readLine m l x.errs else (s, true)
    if !got then some s
    else match held with
      | some w => some (s.onMsc k (fun c => c.touch B w sector dirty))
      | none =>
        if c.policy B = 2 then some s
        else some (s.onMsc k (fun c => let (c, w) := c.allocate B; c.touch B w sector dirty))

/-- The order in which accesses of one fabric cycle are served: by attachment site, the embankment's own link ports last (13 R296). -/
def siteRank (x : MscAcc) : Nat := match x.site with | some n => n.val | none => 36

/-- Put an access behind those that come before it. -/
def rankAcc (x : MscAcc) : List MscAcc → List MscAcc
  | [] => [x]
  | y :: t => if siteRank x < siteRank y then x :: y :: t else y :: rankAcc x t

/-- Serve accesses in order; one that waits holds back those to its line that come after it (13 R296, R306). -/
def State.mscAll (s : State) (waiting : List Nat) : List MscAcc → State
  | [] => s
  | x :: t =>
    let line := x.addr.toNat / 64
    if waiting.contains line then s.mscAll waiting t
    else match s.mscServe x with
      | some s' => s'.mscAll waiting t
      | none => s.mscAll (line :: waiting) t

/-- MSC_ACCESS: the accesses that arrive at the caches in one fabric cycle (13 R295, R296). -/
def execMscAccess (addr : U64) (kind : MscKind) (x : MscArrival) (s : State) : Outcome State Fault Refusal := whenRunning s fun s =>
  .next (s.mscAll [] ((⟨x.site, addr, kind, x.errs⟩ :: x.others).foldl (fun l x => rankAcc x l) []))

/-- A write of MSC_CTL with FLUSH: every line dirty now is to be written back and becomes clean (13 R298). -/
def State.mscFlush (s : State) (k : Fin 4) : State :=
  s.onMsc k (fun c =>
    let n := (c.ways.map (fun e => popcount e.2.dirty)).sum
    { c with ways := c.ways.map (fun e => (e.1, { e.2 with dirty := 0 })),
             flushing := some (c.flushing.getD 0 + n) })

/-- MSC_CTL_FLUSH (13 R298). -/
def execMscCtlFlush (k : Fin 4) (s : State) : Outcome State Fault Refusal :=
  .next (if s.running then s.mscFlush k else s)

/-- FLUSH_DONE: the last such line is visible in LPDDR5X, and FLUSH_BUSY clears (13 R298). -/
def execFlushDone (k : Fin 4) (s : State) : Outcome State Fault Refusal :=
  match s.msc[k].flushing with
  | none => .next s
  | some n => .next (s.onMsc k (fun c =>
      { c with flushing := none, writebacks := c.writebacks + BitVec.ofNat 64 n }))

/-- The implemented bits of MSC_RANGE_BASE_n and MSC_RANGE_LIM_n (13). -/
def rangeBaseMask : U64 := 0x0000007FFFFFF800
def rangeLimMask : U64 := 0xE000007FFFFFF800

/-- Two block ranges meet. -/
def rangesMeet (b1 l1 b2 l2 : U64) : Bool :=
  (b1.extractLsb' 11 28).toNat ≤ (l2.extractLsb' 11 28).toNat && (b2.extractLsb' 11 28).toNat ≤ (l1.extractLsb' 11 28).toNat

/-- A write of a range register (13 R297): an enabled range changes only by clearing EN, a range that is enabled may not
overlap another, and POLICY 3 is refused; clearing EN of a pinned range unpins its blocks. -/
def Msc.rangeWrite (c : Msc) (n : Fin 16) (lim : Bool) (v : U64) : Msc :=
  let refuse := { c with status := c.status ||| 2 }
  let on := c.lim[n].getLsbD 61
  if !lim then
    let v := v &&& rangeBaseMask
    if on then (if v = c.base[n] then c else refuse) else { c with base := c.base.set n v }
  else
    let v := v &&& rangeLimMask
    let meets := (List.finRange 16).any (fun j => j != n && c.lim[j].getLsbD 61 && rangesMeet c.base[n] v c.base[j] c.lim[j])
    if v.extractLsb' 62 2 = 3 then refuse
    else if on && v.getLsbD 61 && v ≠ c.lim[n] then refuse
    else if !on && v.getLsbD 61 && meets then refuse
    else
      let inside := fun (B : Nat) => (c.base[n].extractLsb' 11 28).toNat ≤ B && B ≤ (c.lim[n].extractLsb' 11 28).toNat
      let ways := if on && !v.getLsbD 61 && c.lim[n].extractLsb' 62 2 = 1 then
        c.ways.map (fun e => (e.1, if inside e.2.block then { e.2 with pinned := false } else e.2)) else c.ways
      { c with lim := c.lim.set n v, ways := ways }

/-- MSC_RANGE_WRITE (13 R297). -/
def execMscRangeWrite (k : Fin 4) (n : Fin 16) (lim : Bool) (v : U64) (s : State) : Outcome State Fault Refusal :=
  .next (if s.running then s.onMsc k (fun c => c.rangeWrite n lim v) else s)

/-! ### Controllers (13 R300-R307) -/

/-- REFPB: the controller issues a per-bank refresh, which closes its own bank only; in S1 and S2 the devices refresh
themselves (13 R300). -/
def execRefpb (m : Fin 8) (ch : Fin 72) (bank : Fin 16) (s : State) : Outcome State Fault Refusal :=
  if !s.running || !s.mc[m].trained then .next s else
  let key := 16 * ch.val + bank.val
  .next (s.onMc m (fun c =>
    { c with refreshes := sput 0 c.refreshes key (sget 0 c.refreshes key + 1), rows := sput 0 c.rows key 0 }))

/-- TEMP_REPORT_POLL: every 16 ms the controller reads each device's report (13 R300). -/
def execTempReportPoll (m : Fin 8) (reports : List Byte) (s : State) : Outcome State Fault Refusal :=
  let c := s.mc[m]
  if !s.running || !c.trained || s.tb - c.reportAt < 16000000 then .next s
  else .next (s.onMc m (fun c => { c with reports, reportAt := s.tb }))

/-- WCK_DRIFT_TRACKING: once every 1 ms a channel pauses to track its clock (13 R301). -/
def execWckDriftTracking (m : Fin 8) (ch : Fin 72) (s : State) : Outcome State Fault Refusal :=
  let c := s.mc[m]
  if !s.running || !c.trained || s.tb - sget 0 c.drift ch.val < 1000000 then .next s
  else .next (s.onMc m (fun c => { c with drift := sput 0 c.drift ch.val s.tb }))

/-- Lines of a controller, reserve halves included. -/
def linesPerMc : Nat := 1207959552

/-- PATROL_SCRUB_READ: the controller checks the next line, writes a corrected line back, and counts a pass when it has read
every line (13 R305; DESIGN CHOICE, log entry 32: in ascending order). -/
def execPatrolScrubRead (m : Fin 8) (errs : LineErrs) (s : State) : Outcome State Fault Refusal :=
  let c := s.mc[m]
  if !s.running || !c.trained || lineWaits s m (locOf c.scrubPos) then .next s else
  let (s, _) := s.readLine m (locOf c.scrubPos) errs
  let next := (c.scrubPos + 1) % linesPerMc
  .next (s.onMc m (fun c => { c with scrubPos := next, scrubs := if next = 0 then c.scrubs + 1 else c.scrubs }))

/-- SPARE_COPY_DONE: the copy is done and the pair enters the remap table (13 R306). -/
def execSpareCopyDone (m : Fin 8) (s : State) : Outcome State Fault Refusal :=
  match s.mc[m].copying with
  | [] => .next s
  | e :: rest => .next (s.onMc m (fun c => { c with copying := rest, remap := c.remap ++ [e] }))

/-- CHANNEL_FAILURE: the channel stops responding; every line it holds is uncorrectable from here on, and the module goes out of
service at the next rollback point (13 R307). -/
def execChannelFailure (m : Fin 8) (ch : Fin 72) (s : State) : Outcome State Fault Refusal :=
  .next (if !s.running || s.mc[m].failed.contains ch then s else s.onMc m (fun c => { c with failed := c.failed ++ [ch] }))

end Sys2Proof.Machine
end

