-- ==== Sys2Proof/Machine/Weir.lean ====
section
/-! DEFINITION. The wr class, the waits of a task and the weir registers (10 R224; 11 R250-R260). -/

namespace Sys2Proof.Machine

open Host (Outcome)

/-- The weir a wr instruction names: (sRA + IMM[15:0]) mod 65,536 (10 R224). -/
def weirOperand (t : Task) (f : Fields) : Nat := ((t.sreg f.ra).toNat + (f.imm.extractLsb' 0 16).toNat) % 65536

/-- The increment field (10 Table 10-5). -/
def incOf (f : Fields) : Nat := (f.imm.extractLsb' 16 12).toNat

/-- A weir outside the task's claim faults (11 R248). -/
def needWeir (s : State) (p : Pid) (w : Nat) : Res Unit := need (weirGranted s.polders[p].terp.bnd w) 0x17 w

/-- The slot a wr instruction names: sRA + IMM[16:0] (10 R224). -/
def slotOperand (t : Task) (f : Fields) : Nat := (t.sreg f.ra + (f.imm.extractLsb' 0 17).setWidth 64).toNat

/-- A slot outside the task's base and bound faults (10 R224). -/
def needSlot (s : State) (p : Pid) (n : Nat) : Res Unit :=
  let a := scratchAddr p (4096 * n)
  need (n < 90112 && (bounds s.polders[p].terp.bnd).any (fun b => b.covers false a 4096 || b.covers true a 4096)) 0x09 a

def execWrSignal (p : Pid) (f : Fields) (s : State) : Outcome State Fault Refusal :=
  issue p { ra := .any, imm := 0x0FFFFFFF } f s (fun t => do
    need (incOf f != 0) 0x01 0
    let w := weirOperand t f
    needWeir s p w
    return s.weirSend p w (BitVec.ofNat 32 (incOf f)))

/-- A weir that another polder or the control complex holds is watched there; a threshold it meets already sends the notice
(11 R258). -/
def State.watch (s : State) (p : Pid) (w : Nat) (t : U32) : State :=
  if weirHome w = some p then s
  else { s with watches := s.watches.filter (fun x => x.p != p) ++ [⟨p, w, t, meets (s.weir w).count t⟩] }

/-- wr.wait: a met threshold of an own weir completes at once; otherwise the task waits, for the notice of a watch where the
weir lies elsewhere (11 R258). -/
def execWrWait (p : Pid) (f : Fields) (s : State) : Outcome State Fault Refusal :=
  issue p { ra := .any, rb := .any, imm := 0xFFFF } f s (fun t => do
    let w := weirOperand t f
    let thr := (t.sreg f.rb).setWidth 32
    needWeir s p w
    if weirHome w = some p ∧ meets (s.weir w).count thr then return s
    else
      let s := s.watch p w thr
      let s := s.onPolder p (fun P => { P with weir := { P.weir with waited := true } })
      .error (.held (s.onTask p (fun t => { t with wait := some ⟨.weir (BitVec.ofNat 16 w) thr, s.tb⟩ }))))

def execWrRead (p : Pid) (f : Fields) (s : State) : Outcome State Fault Refusal :=
  issue p { rd := .any, ra := .any, imm := 0xFFFF } f s (fun t => do
    let w := weirOperand t f
    needWeir s p w
    return s.onTask p (fun t => t.setS f.rd ((s.weir w).count.setWidth 64)))

/-- Whether a peer address lies in an open weir window of this module (11 R261, R262). -/
def weirWindowOpen (s : State) (a : Nat) : Bool :=
  match place a with
  | .peer _ p w off =>
    let x := s.polders[p].terp.windows[w]
    x.isOpen && x.weirs && off < 4 * x.size.toNat
  | _ => false

/-- wr.rsignal: an increment goes out to the peer weir at sRA (10 Table 10-5, 11 R261). -/
def execWrRsignal (p : Pid) (f : Fields) (s : State) : Outcome State Fault Refusal :=
  issue p { ra := .any, imm := 0x0FFF0000 } f s (fun t => do
    need (incOf f != 0) 0x01 0
    let a := (t.sreg f.ra).toNat
    need (a % 4 == 0) 0x0A a
    need (place a != .unmapped) 0x08 a
    need (weirWindowOpen s a) 0x19 a
    return { s with sent := s.sent ++ [(t.sreg f.ra, .signal (BitVec.ofNat 12 (incOf f)))] })

/-- wr.swait: a full slot completes at once, else the task waits (11 Table 11-5). -/
def execWrSwait (p : Pid) (f : Fields) (s : State) : Outcome State Fault Refusal :=
  issue p { ra := .any, imm := 0x1FFFF } f s (fun t => do
    let n := slotOperand t f
    needSlot s p n
    if s.tag p n then return s
    else .error (.held (s.onTask p (fun t => { t with wait := some ⟨.slot (BitVec.ofNat 17 n), s.tb⟩ }))))

/-- Set a tag by wr.sfree or wr.sfill; one that changes nothing sets TAG_REDUNDANT (11 Table 11-5). Where a slot
end has filled the slot in the same nanosecond, wr.sfill may fall in its cycle, and TAG_REDUNDANT is free (11 R252; DESIGN CHOICE, log
entry 59). -/
def setSlot (full : Bool) (p : Pid) (f : Fields) (s : State) : Outcome State Fault Refusal :=
  issue p { ra := .any, imm := 0x1FFFF } f s (fun t => do
    let n := slotOperand t f
    needSlot s p n
    if s.tag p n = full then
      if full ∧ n ∈ s.polders[p].terp.ended then
        let (x, s) := s.fresh
        return s.terpFlag p 2 (x.getLsbD 0)
      else return s.terpFlag p 2 true
    else return s.setTag p n full)

def execWrSfree (p : Pid) (f : Fields) (s : State) : Outcome State Fault Refusal := setSlot false p f s
def execWrSfill (p : Pid) (f : Fields) (s : State) : Outcome State Fault Refusal := setSlot true p f s

/-! ### Waits (10 R229; 11 R253, R258) -/

/-- The array work of the polder is done: no load or pass is queued or running, no group holds a frame, and the OC has written
every tile (10 R229). -/
def arrayIdle (P : Polder) : Bool :=
  P.arr.loads.isEmpty && P.arr.loading.isNone && P.arr.passes.isEmpty && P.sump.opened.isNone && P.sump.closed.isEmpty
  && P.sump.shadow.isNone && P.oc.recv.isNone && P.oc.ready.isNone

/-- Whether a wait's condition holds; a weir that lies elsewhere is judged by the notice of its watch (11 R258). -/
def waitMet (s : State) (p : Pid) (k : WaitKind) : Bool :=
  match k with
  | .weir w t =>
    if weirHome w.toNat = some p then meets (s.weir w.toNat).count t else s.watches.any (fun x => x.p == p && x.sent)
  | .slot n => s.tag p n.toNat
  | .fence => arrayIdle s.polders[p]
  | .access q n full => s.tag q n.toNat == full

/-- The waiting task goes on past its instruction, one word long, and its watch is gone. -/
def State.waitDone (s : State) (p : Pid) : State :=
  { s.onTask p (fun t => { t with pc := t.pc + 8, wait := none }) with watches := s.watches.filter (fun x => x.p != p) }

/-- A waiting wr.wait or wr.swait whose condition holds completes (11 R258). -/
def execWaitComplete (p : Pid) (s : State) : Outcome State Fault Refusal := whenArith s fun s =>
  match s.polders[p].task.bind Task.wait with
  | none => .next s
  | some w =>
    match w.kind with
    | .weir _ _ => if waitMet s p w.kind then .next (s.waitDone p) else .next s
    | .slot _ => if waitMet s p w.kind then .next (s.waitDone p) else .next s
    | _ => .next s

/-- A fence whose work is all done and visible completes (10 R229). -/
def execFenceComplete (p : Pid) (s : State) : Outcome State Fault Refusal := whenArith s fun s =>
  match s.polders[p].task.bind Task.wait with
  | none => .next s
  | some w => if w.kind = .fence ∧ waitMet s p w.kind then .next (s.waitDone p) else .next s

/-- Whether a wait has passed its limit (11 R253); intervals stand still while a HALT holds them (14 R335). -/
def waitOver (s : State) (t : Task) (w : Wait) : Bool :=
  !s.holdWaits && t.stage.waitLimit.toNat != 0 && w.start.toNat + 1000 * t.stage.waitLimit.toNat ≤ s.tb.toNat

/-- Whether a condition is met in the cycle that a timeout judges (11 R253). The notice of a watch comes with WAIT_COMPLETE. -/
def waitNow (s : State) (p : Pid) (k : WaitKind) : Bool :=
  match k with
  | .weir w _ => weirHome w.toNat == some p && waitMet s p k
  | _ => waitMet s p k

/-- A wait longer than WAIT_LIMIT faults with WAIT_TIMEOUT; a condition met in the same cycle completes it instead (11 R253), and an
access that waited then goes on with its instruction.
A fence has no weir or slot number, so its INFO is a free value (DESIGN CHOICE, log entry 3). -/
def execWaitTimeout (p : Pid) (s : State) : Outcome State Fault Refusal := whenArith s fun s =>
  match s.polders[p].task with
  | none => .next s
  | some t =>
    match t.wait with
    | none => .next s
    | some w =>
      if !waitOver s t w then .next s
      else if waitNow s p w.kind then
        match w.kind with
        | .access _ _ _ => .next (s.onTask p (fun t => { t with wait := none }))
        | _ => .next (s.waitDone p)
      else match w.kind with
        | .weir n _ => .next (s.taskFault p 0x18 (n.setWidth 32))
        | .slot n => .next (s.taskFault p 0x18 (n.setWidth 32))
        | .access _ n _ => .next (s.taskFault p 0x18 (n.setWidth 32))
        | .fence => .next (s.fresh.2.taskFault p 0x18 (s.fresh.1.setWidth 32))

/-! ### Weir registers (11 R255-R260) -/

/-- A write of WEIR_ADD_i (11 Table 11-6). -/
def State.weirAddReg (s : State) (w : Nat) (v : U32) : State := s.weirAdd w v

/-- A write of WEIR_SET_i (11 R257). -/
def State.weirSetReg (s : State) (w : Nat) (v : U32) : State :=
  (s.countSignal w).putWeir w { s.weir w with count := v }

/-- A write of WEIR_THRESH_i (11 R260). -/
def State.weirThreshReg (s : State) (w : Nat) (v : U32) : State := s.putWeir w { s.weir w with thresh := v }

/-- A write of WEIR_CTL_i: NOTIFIED is W1C and NOTIFY_EN RW; enabling while the weir meets THRESH sets NOTIFIED, and the
hardware set wins over the clear (11 R260, 00 R8). -/
def State.weirCtlReg (s : State) (w : Nat) (v : U32) : State :=
  let x := s.weir w
  let hit := v.getLsbD 0 && meets x.count x.thresh
  { s with weirs := sput {} s.weirs w { x with notifyEn := v.getLsbD 0, notified := (x.notified && !v.getLsbD 1) || hit },
           notices := if hit then s.notices ++ [w] else s.notices }

/-- A register access at a weir: in a polder it brings the quadrant out of A1 (16 R383). -/
def atWeir (s : State) (w : Nat) (k : State → Outcome State Fault Refusal) : Outcome State Fault Refusal :=
  match weirHome w with
  | some p => atPolder s p k
  | none => whenRunning s k

def execWeirAddWrite (w : Fin 16384) (v : U32) (s : State) : Outcome State Fault Refusal :=
  atWeir s w.val fun s => .next (s.weirAddReg w.val v)
def execWeirSetWrite (w : Fin 16384) (v : U32) (s : State) : Outcome State Fault Refusal :=
  atWeir s w.val fun s => .next (s.weirSetReg w.val v)
def execWeirThreshWrite (w : Fin 16384) (v : U32) (s : State) : Outcome State Fault Refusal :=
  atWeir s w.val fun s => .next (s.weirThreshReg w.val v)
def execWeirCtlWrite (w : Fin 16384) (v : U32) (s : State) : Outcome State Fault Refusal :=
  atWeir s w.val fun s => .next (s.weirCtlReg w.val v)

/-- The first update in flight towards a weir passes its synchroniser and applies (11 R257); the weirs of a polder lie in its
quadrant's arithmetic domain, which a trip stops (16 R367, R390). -/
def execWeirUpdateArrival (w : Fin 16384) (s : State) : Outcome State Fault Refusal :=
  match s.flight.find? (fun x => x.1 == w.val) with
  | none => .next s
  | some x =>
    if (weirHome w.val).isSome && s.pm.halted then .next s
    else atWeir s w.val fun s => .next ({ s with flight := s.flight.erase x }.weirAdd w.val x.2)

end Sys2Proof.Machine
end

