-- ==== Sys2Proof/Machine/Sys.lean ====
section
/-! DEFINITION. Operations the system families share: Herd's event log and frames to the node, announcements, the needs behind the
member's CAP, the operating point, the pins, and what ends a job. -/

namespace Sys2Proof.Machine

open Host (Outcome)

/-! ### Frames and events to the node (14 R311, R313; 15 R344, R345) -/

/-- A payload padded with 0 to a multiple of 4 (14 Table 14-1). -/
def padTo (n : Nat) (bs : List Byte) : List Byte := bs ++ List.replicate ((n - bs.length % n) % n) 0

/-- The place of a control lane: C0 or C1. -/
def laneIx (b : Bool) : Fin 2 := if b then 1 else 0

/-- A frame of the module leaves on its active lane and stays in the send buffer until it is acknowledged (14 R313). -/
def State.sendFrame (s : State) (type cls : Byte) (tag : BitVec 16) (payload : List Byte) : State :=
  let q := s.pnx
  let bs := padTo 4 payload
  let f : Frame := { type, lane := if q.txLane then 1 else 0, len := BitVec.ofNat 16 bs.length, seq := q.txNext, cls, tag,
                     payload := bs }
  { s with pnx := { q with txBuf := q.txBuf ++ [(f.seal, s.tb)], txNext := q.txNext + 1,
                           lastTx := q.lastTx.set (laneIx q.txLane) s.tb } }

/-- Whether the send buffer has room (14 R313). -/
def State.sendRoom (s : State) : Bool := s.pnx.txBuf.length < 64

/-- An event enters the event log, or is discarded and counted where the log is full; the first that fits after a loss is
preceded by EVENTS_LOST (15 R345). -/
def State.herdEvent (s : State) (code : Byte) (payload : List Byte) : State :=
  let h := s.herd
  if h.lostNow = 0 then
    if h.events.length < 4096 then { s with herd := { h with events := h.events ++ [(code, payload)] } }
    else { s with herd := { h with lostNow := 1, lost := h.lost + 1 } }
  else if h.events.length + 1 < 4096 then
    { s with herd := { h with events := h.events ++ [(0x13, leBytes 8 h.lostNow.toNat), (code, payload)], lostNow := 0 } }
  else { s with herd := { h with lostNow := h.lostNow + 1, lost := h.lost + 1 } }

/-! ### Coordinates (14 R322, R327) -/

/-- X, Y and Z of a coordinate. -/
def coordX (c : BitVec 12) : Nat := (c.extractLsb' 8 4).toNat
def coordY (c : BitVec 12) : Nat := (c.extractLsb' 4 4).toNat
def coordZ (c : BitVec 12) : Nat := (c.extractLsb' 0 4).toNat
def mkCoord (x y z : Nat) : BitVec 12 := BitVec.ofNat 12 (x % 16 * 256 + y % 16 * 16 + z % 16)

/-- The extents (DX, DY, DZ). -/
def Cad.extent (c : Cad) (d : Nat) : Nat :=
  1 + (if d = 0 then coordX c.extents else if d = 1 then coordY c.extents else coordZ c.extents)

/-- The coordinate in one dimension. -/
def coordIn (c : BitVec 12) (d : Nat) : Nat := if d = 0 then coordX c else if d = 1 then coordY c else coordZ c

/-- The port of a direction (14 R322): W0 +X, W1 -X, W2 +Y, W3 -Y, W4 +Z, W5 -Z. -/
def dirPort (d : Nat) (minus : Bool) : Fin 6 := Fin.ofNat 6 (2 * d + (if minus then 1 else 0))

/-- Whether a job uses a port: its dimension has more than one member (14 R322). -/
def Cad.uses (c : Cad) (w : Fin 6) : Bool := 1 < c.extent (w.val / 2)

/-- Whether this member leads: it stands at (0, 0, 0), or no job is open (14 R327, 16 R370). -/
def State.leads (s : State) : Bool := s.pnx.job.isNone || s.cad.coord == 0

/-! ### Announcements (14 R330-R332) -/

/-- The first epoch boundary at or after STAMP + 8,000 ns. -/
def effectAt (stamp : Nat) : Nat := (stamp + 8000 + 19999) / 20000 * 20000

/-- The ports on which an announcement leaves: trained, used by the job, and other than `except` (14 R331). -/
def State.floodPorts (s : State) (except : Option (Fin 6)) : List (Fin 6) :=
  (List.finRange 6).filter (fun w => s.wlv[w].trained && !s.wlv[w].miscabled && s.cad.uses w && some w != except)

/-- Send or forward an announcement; it counts once. -/
def State.flood (s : State) (a : Announce) (except : Option (Fin 6)) : State :=
  { s with cad := { s.cad with announces := s.cad.announces + 1, seen := s.cad.seen ++ [(a.origin, a.seq)],
                               sent := s.cad.sent ++ [(a, s.floodPorts except)] } }

/-- Hold an announcement until the boundary at which it takes effect here (14 R332); one that comes after that boundary takes
effect at the next and counts in CAD_LATE. -/
def State.holdAnnounce (s : State) (a : Announce) : State :=
  let due := effectAt a.stamp.toNat
  let late := due < s.tb.toNat
  let at_ := if late then (s.tb.toNat + 19999) / 20000 * 20000 else due
  { s with cad := { s.cad with held := s.cad.held ++ [(a, at_)], late := if late then s.cad.late + 1 else s.cad.late } }

/-- This member announces: kind, point. -/
def State.announce (s : State) (kind : BitVec 4) (point : Nat) : State :=
  let a : Announce := { kind, point := BitVec.ofNat 8 point, origin := s.cad.coord, seq := s.cad.seq, stamp := s.tb }
  let s := { s with cad := { s.cad with seq := s.cad.seq + 1 } }
  let s := s.flood a none
  if kind = 5 ∨ kind = 6 then s else s.holdAnnounce a

/-! ### Holds of wait intervals (14 R335, 11 R253) -/

/-- A HALT of an origin begins a hold. -/
def State.haltFrom (s : State) (o : BitVec 12) : State :=
  let c := s.cad
  let first := c.haltsHeld.isEmpty
  { s with cad := { c with haltsHeld := if c.haltsHeld.contains o then c.haltsHeld else c.haltsHeld ++ [o],
                           haltAt := if first then s.tb else c.haltAt },
           holdWaits := true }

/-- The matching RESUME; when the last hold ends, every wait's interval is counted without the time held. -/
def State.resumeFrom (s : State) (o : BitVec 12) : State :=
  let rest := s.cad.haltsHeld.filter (fun x => x != o)
  let ended := s.holdWaits && rest.isEmpty
  let from_ := s.cad.haltAt
  let shift := fun (w : Wait) => { w with start := w.start + (s.tb - (if w.start ≤ from_ then from_ else w.start)) }
  let s := { s with cad := { s.cad with haltsHeld := rest }, holdWaits := !rest.isEmpty }
  if ended then
    { s with polders := s.polders.map (fun P => { P with task := P.task.map (fun t => { t with wait := t.wait.map shift }) }) }
  else s

/-! ### Needs and the member's CAP (16 R373) -/

/-- Whether a comparator's CAP0 action applies: it is enabled and active, and is not G7 in the hands of wake-on-voltage. -/
def Gander.cap0 (g : Gander) : Bool :=
  (List.finRange 8).any (fun n => g.active[n] && g.cmp[n].getLsbD 27 && g.cmp[n].getLsbD 22 && !(n == 7 && g.wovHolds))

/-- The lower of two needs, where `none` asks for nothing. -/
def lower (a b : Option Nat) : Option Nat :=
  match a, b with
  | none, y => y
  | x, none => x
  | some x, some y => some (min x y)

/-- The lowest need in force. -/
def State.lowestNeed (s : State) : Option Nat :=
  let m := s.pm
  lower (lower (lower (lower m.nSluice m.nDroop) m.nThrottle) m.nPrealarm) (if s.gander.cap0 then some 0 else none)

/-- The highest operating point of the sampled class (18 Table 18-4). -/
def classOpMax (c : BitVec 2) : Nat := if c = 0 then 4 else if c = 1 then 6 else if c = 2 then 5 else 0

/-- The member announces its combined CAP whenever the lowest need changes, or RELEASE when no need lies below OP_MAX. -/
def State.refreshCap (s : State) : State :=
  let opMax := classOpMax s.pm.coolClass
  let cap := match s.lowestNeed with
    | some n => if n < opMax then some n else none
    | none => none
  if cap = s.cad.myCap then s
  else
    let s := { s with cad := { s.cad with myCap := cap } }
    match cap with
    | some n => s.announce 3 n
    | none => s.announce 4 0

/-! ### Operating points (16 Table 16-2, R370) -/

/-- The arithmetic clock of a point, MHz. -/
def opMhz (p : Nat) : Nat :=
  if p = 0 then 300 else if p = 1 then 500 else if p = 2 then 650 else if p = 3 then 750 else if p = 4 then 850
  else if p = 5 then 925 else 1000

/-- The nominal arithmetic voltage of a point, mV. -/
def opMv (p : Nat) : Nat := 600 + 40 * p

/-- Run at a point from here on: DISC_CLOCK reports it. -/
def State.setPoint (s : State) (p : Nat) : State :=
  { s with disc := { s.disc with opNow := BitVec.ofNat 8 p, arithMhz := BitVec.ofNat 16 (opMhz p) } }

/-! ### Clock stretches (16 R372, R374, R389, R391) -/

/-- Whether the quadrant's clock is stretched. -/
def State.stretched (s : State) (q : Quad) : Bool :=
  s.pm.sluiceMhz[q].isSome || s.pm.hardMhz || s.pm.droop[q]

/-- The frequency of a quadrant's arithmetic clock, in units of 1/2 MHz: the lowest that a stretch asks for, halved while a droop
holds; 0 while a trip halts it or the quadrant is in A1. -/
def State.clockOf (s : State) (q : Quad) : Nat :=
  if !s.arithOn || s.pm.a1[q] then 0 else
  let f := opMhz s.disc.opNow.toNat
  let f := match s.pm.sluiceMhz[q] with
    | some (x, _) => min f x
    | none => f
  let f := if s.pm.hardMhz then min f 300 else f
  if s.pm.droop[q] then f else 2 * f

/-! ### Pins (18 R429-R431) -/

/-- ALERT_N is asserted while any source asks for it: a limit alert, an active comparator with its ALERT action, refused
straps. -/
def State.alert (s : State) : Bool :=
  s.pm.alertAt.isSome || s.mgt.strapRefused
  || (List.finRange 8).any (fun n => s.gander.active[n] && s.gander.cmp[n].getLsbD 27 && s.gander.cmp[n].getLsbD 24)

/-- No job is open and no program is bound (16 R383). -/
def State.unused (s : State) : Bool := s.pnx.job.isNone && s.herd.progs.toList.all Option.isNone

/-- The owner of a resource entry. -/
def State.ownerOf (s : State) (e : Nat) : BitVec 4 := if h : e < 96 then s.res.owner[e] else 0

end Sys2Proof.Machine
end

