-- ==== Sys2Proof/Machine/Palnex.lean ====
section
/-! DEFINITION. The Palnex port (14 R310-R320): the ack engine, the send buffer and its lanes, and the sending side of the stream
channel. Sequence numbers compare modulo 2^32 (14 R312). -/

namespace Sys2Proof.Machine

open Host (Outcome)

/-! ### Control frames (14 R311-R315) -/

/-- Whether a control lane is trained. -/
def Pnx.laneUp (q : Pnx) (lane : Bool) : Bool := if lane then q.c1Up else q.c0Up

/-- Whether a frame is intact: a good CRC, a type that is not reserved, and a payload of LEN bytes in range, none in an ACK or a HEARTBEAT
(14 R311). -/
def frameIntact (f : Frame) : Bool :=
  f.crcOk && 1 ≤ f.type.toNat && f.type.toNat ≤ 5 && f.len.toNat ≤ 1024 && f.len.toNat % 4 == 0
  && f.payload.length == f.len.toNat && (f.len == 0 || (f.type != 2 && f.type != 3))

/-- Sequence number a lies before b. -/
def seqBefore (a b : U32) : Bool := decide (2 ^ 31 ≤ (a - b).toNat)

/-- An intact frame came in: the link is not lost (14 R315). -/
def State.frameIn (s : State) : State := { s with pnx := { s.pnx with lastRx := s.tb, lost := false } }

/-- The ack engine answers on the lane the frame came on (14 R312): STATUS and the SEQ acknowledged. -/
def State.ackOn (s : State) (lane : Bool) (seq : U32) (status : Byte) : State :=
  let q := s.pnx
  { s with pnx := { q with lastTx := q.lastTx.set (laneIx lane) s.tb },
           reply := .frame (Frame.seal { type := 2, lane := if q.txLane then 1 else 0, len := 0, seq := 0, ackSeq := seq, status,
                                         cls := 0, tag := 0, payload := [] }) }

/-- A frame that is not intact is discarded without acknowledgement; a bad CRC counts (14 R311). An intact one of another type is not for
this engine, but the link has delivered it (R315). -/
def State.frameDropped (s : State) (f : Frame) : State :=
  if frameIntact f then s.frameIn else if f.crcOk then s else { s with pnx := { s.pnx with crcDrop := s.pnx.crcDrop + 1 } }

/-- Whether Herd runs (18 Table 18-6). -/
def State.herdUp (s : State) : Bool := s.running && s.herd.ready

/-- Herd answers a command with one RESPONSE of its CLASS and TAG whose first byte is the status (14 R316); status 1 counts
(15 R366). -/
def State.respond (s : State) (f : Frame) (status : Byte) (rest : List Byte) : State :=
  let s := s.sendFrame 4 f.cls f.tag (status :: rest)
  if status = 1 then { s with herd := { s.herd with refused := s.herd.refused + 1 } } else s

/-- The classes of 14 Table 14-2 and 15 Table 15-2. -/
def knownClass (c : Byte) : Bool :=
  [0x01, 0x02, 0x03, 0x04, 0x10, 0x11, 0x12, 0x13, 0x20, 0x21, 0x28, 0x29, 0x30, 0x40].contains c.toNat

/-- Herd takes commands of reserved classes from the head of the buffer and answers them with status 2 (14 Table 14-2,
15 R344), while the send buffer has room. -/
def skipReserved : Nat → State → State
  | 0, s => s
  | n + 1, s =>
    match s.pnx.cmds with
    | f :: rest =>
      if s.herdUp && s.sendRoom && !knownClass f.cls then
        skipReserved n ({ s with pnx := { s.pnx with cmds := rest } }.respond f 2 [])
      else s
    | [] => s

/-- COMMAND_FRAME: stored and ACCEPTed in order, BUSY where the buffer of 256 is full, GAP beyond and DUP before the next expected
SEQ (14 R312, Table 14-3). -/
def execCommandFrame (lane : Bool) (f : Frame) (s : State) : Outcome State Fault Refusal :=
  if !s.running || !s.pnx.laneUp lane then .next s
  else if !frameIntact f || f.type ≠ 1 then .next (s.frameDropped f)
  else
    let s := s.frameIn
    let q := s.pnx
    if f.seq = q.rxNext then
      if q.cmds.length < 256 then
        let s := { s with pnx := { q with cmds := q.cmds ++ [f], rxNext := q.rxNext + 1, accepted := q.accepted + 1,
                                          active := lane } }
        .next (skipReserved 256 (s.ackOn lane f.seq 0))
      else .next ({ s with pnx := { q with ackBusy := q.ackBusy + 1 } }.ackOn lane f.seq 3)
    else if seqBefore f.seq q.rxNext then .next (s.ackOn lane f.seq 1)
    else .next (s.ackOn lane f.seq 2)

/-- HEARTBEAT_FRAME: acknowledged HB and not stored (14 R312). -/
def execHeartbeatFrame (lane : Bool) (f : Frame) (s : State) : Outcome State Fault Refusal :=
  if !s.running || !s.pnx.laneUp lane then .next s
  else if !frameIntact f || f.type ≠ 3 then .next (s.frameDropped f)
  else .next (s.frameIn.ackOn lane f.seq 4)

/-- Send frames of the send buffer again from the i-th on (14 R312, R313). -/
def State.resendFrom (s : State) (i : Nat) (lane : Bool) : State :=
  let q := s.pnx
  let again := (q.txBuf.drop i).map (fun x => (Frame.seal { x.1 with lane := if lane then 1 else 0 }, s.tb))
  { s with pnx := { q with txBuf := q.txBuf.take i ++ again, txLane := lane, resent := q.resent + BitVec.ofNat 64 again.length,
                           lastTx := if again.isEmpty then q.lastTx else q.lastTx.set (laneIx lane) s.tb } }

/-- ACK_FRAME: an ACCEPT or a DUP releases every frame up to its ACK_SEQ; after a GAP or a BUSY the module sends again from the first
frame not accepted (14 R312, R313). -/
def execAckFrame (lane : Bool) (f : Frame) (s : State) : Outcome State Fault Refusal :=
  if !s.running || !s.pnx.laneUp lane then .next s
  else if !frameIntact f || f.type ≠ 2 then .next (s.frameDropped f)
  else
    let s := s.frameIn
    let q := s.pnx
    if f.status = 0 ∨ f.status = 1 then
      let keep := q.txBuf.filter (fun x => !(x.1.seq == f.ackSeq || seqBefore x.1.seq f.ackSeq))
      .next (skipReserved 256 { s with pnx := { q with txBuf := keep } })
    else if f.status = 2 ∨ f.status = 3 then .next (s.resendFrom 0 q.txLane)
    else .next s

/-- FRAME_RESEND_TIMEOUT: a frame unacknowledged for 6 µs goes again on the other lane with every later frame (14 R313). -/
def execFrameResendTimeout (s : State) : Outcome State Fault Refusal :=
  if !s.running then .next s else
  match s.pnx.txBuf.findIdx? (fun x => 6000 ≤ (s.tb - x.2).toNat) with
  | none => .next s
  | some i => .next (s.resendFrom i !s.pnx.txLane)

/-- HEARTBEAT_IDLE_TIMEOUT: a lane on which nothing was sent for 5 µs carries a HEARTBEAT with the next SEQ of each direction
(14 R311, R314). -/
def execHeartbeatIdleTimeout (lane : Bool) (s : State) : Outcome State Fault Refusal :=
  let q := s.pnx
  if !s.running || !q.laneUp lane || (s.tb - q.lastTx[laneIx lane]).toNat < 5000 then .next s
  else .next { s with pnx := { q with lastTx := q.lastTx.set (laneIx lane) s.tb },
                      reply := .frame (Frame.seal { type := 3, lane := if q.txLane then 1 else 0, len := 0, seq := q.txNext,
                                                    ackSeq := q.rxNext, cls := 0, tag := 0, payload := [] }) }

/-- CONTROL_LINK_LOST: no intact frame for 30 µs sets LINK_LOST and posts an event to Herd; programs and streams go on (14 R315). -/
def execControlLinkLost (s : State) : Outcome State Fault Refusal :=
  let q := s.pnx
  if !s.running || q.lost || (s.tb - q.lastRx).toNat < 30000 then .next s
  else .next { s with pnx := { q with lost := true, status := q.status ||| 0x10 }, herd := { s.herd with linkEvent := true } }

/-! ### Sending a stream (14 R317-R320) -/

/-- Credits of a payload: one per 512 bytes (14 R317). -/
def creditsOf (n : Nat) : Nat := (n + 511) / 512

/-- The type of an open stream. -/
def Pnx.find (q : Pnx) (id : Byte) : Option Stream := q.streams.find? (fun x => x.id == id)

/-- Types a module receives: TOKENS, WEIGHTS, CHECKPOINT (14 Table 14-4). -/
def inboundType (t : Byte) : Bool := t == 1 || t == 4 || t == 5
/-- Types a module sends: SAMPLES, OUTPUT, CHECKPOINT (14 Table 14-4). -/
def outboundType (t : Byte) : Bool := t == 2 || t == 3 || t == 5

/-- The credits of the module's receive side (14 Table 14-4). -/
def poolOf (t : Nat) : Nat := if t = 1 then 128 else if t = 4 ∨ t = 5 then 256 else 0

/-- The credits that the node holds of a pool of the module: those not taken by packets whose credits have yet to go back (14 R317, R318). -/
def Pnx.rxFree (q : Pnx) (t : Fin 8) : Nat := poolOf t.val - q.rxHeld[t]

/-- The CRED field of the next packet, with the credits it returns taken (14 R318). -/
def Pnx.takeCred (q : Pnx) : U32 × Pnx :=
  match (List.finRange 8).find? (fun t => q.rxHeld[t] ≠ 0) with
  | none => (0, q)
  | some t => (BitVec.ofNat 32 (t.val * 2 ^ 29 + q.rxHeld[t] % 2 ^ 29), { q with rxHeld := q.rxHeld.set t 0 })

/-- Bytes that wait in the retry buffer. -/
def retryBytes (q : Pnx) : Nat := (q.retry.map (fun x => x.data.length)).sum

/-- The bytes of an outbound stream from `n` on. -/
def sendBytes (s : State) (x : Sending) (n len : Nat) : List Byte :=
  match x.data with
  | some bs => (bs.drop n).take len
  | none => s.bytes (x.addr + n) len

/-- Send the next packet of the outbound stream while credits and the retry buffer of 512 KiB allow it; packets of 16,384 bytes,
the last of the rest, padded to a multiple of 64 (14 R318, R319; DEDUCED, log entry 35). -/
def pump : Nat → State → State
  | 0, s => s
  | fuel + 1, s =>
    let q := s.pnx
    match q.sending with
    | none => s
    | some x =>
      if x.len ≤ x.sent then s else
      let n := min 16384 (x.len - x.sent)
      let bs := padTo 64 (sendBytes s x x.sent n)
      let type := match q.find x.stream with | some y => y.type | none => 0
      let t : Fin 8 := Fin.ofNat 8 type.toNat
      if q.credits[t] < creditsOf bs.length || 524288 < retryBytes q + bs.length then s else
      let (cred, q) := q.takeCred
      let k : StreamPacket := { type, stream := x.stream, len := BitVec.ofNat 16 bs.length, lseq := q.txLseq,
                                offset := BitVec.ofNat 64 (x.off + x.sent), cred, flags := 0, data := bs }
      let k := k.seal
      let q := { q with credits := q.credits.set t (q.credits[t] - creditsOf bs.length), txLseq := q.txLseq + 1,
                        retry := q.retry ++ [k], sending := some { x with sent := x.sent + n } }
      pump fuel { s with pnx := q, reply := .stream k }

/-- Send what may be sent. -/
def State.pumpAll (s : State) : State :=
  match s.pnx.sending with
  | none => s
  | some x => if s.pnx.sWidth = 0 then s else pump (x.len / 16384 + 1) s

/-- A write of PNX_SEND: STREAM and LEN are written; GO starts an open outbound stream, or is refused while one is sent
(14 R319, R342). -/
def State.sendWrite (s : State) (v : U64) : State :=
  let q := { s.pnx with send := v &&& 0x00FFFFFFFFFFFFFF }
  if !v.getLsbD 63 then { s with pnx := q }
  else if q.sending.isSome then { s with pnx := { q with status := q.status ||| 0x20 } }
  else
    let id := v.extractLsb' 48 8
    match q.find id with
    | none => { s with pnx := q }
    | some x =>
      if !outboundType x.type then { s with pnx := q } else
      let job : Sending := { stream := id, off := 0, data := none, addr := q.sendAddr.toNat, len := (v.extractLsb' 0 48).toNat,
                             sent := 0 }
      { s with pnx := { q with sending := some job } }.pumpAll

/-- PNX_SEND_GO (14 R319). -/
def execPnxSendGo (v : U64) (s : State) : Outcome State Fault Refusal :=
  whenRunning s fun s => .next (s.sendWrite (v ||| 0x8000000000000000))

/-- Packets of a type whose credits came back leave the retry buffer, oldest first. -/
def dropAcked (type : Byte) : Nat → List StreamPacket → List StreamPacket
  | _, [] => []
  | n, k :: rest =>
    if k.type = type ∧ creditsOf k.data.length ≤ n then dropAcked type (n - creditsOf k.data.length) rest
    else k :: dropAcked type n rest

/-- Credits come back to a pool: the packets they covered are acknowledged, and sending goes on (14 R318, R320). -/
def State.creditBack (s : State) (type : Nat) (n : Nat) : State :=
  let q := s.pnx
  let t : Fin 8 := Fin.ofNat 8 type
  ({ s with pnx := { q with credits := q.credits.set t (q.credits[t] + n),
                            retry := dropAcked (BitVec.ofNat 8 type) n q.retry } }).pumpAll

/-- STREAM_CREDIT (14 R318). -/
def execStreamCredit (type : BitVec 3) (count : BitVec 29) (s : State) : Outcome State Fault Refusal :=
  if !s.running || s.pnx.sWidth = 0 then .next s else .next (s.creditBack type.toNat count.toNat)

/-- Packets from a link sequence number on go again (14 R320). -/
def State.replayFrom (s : State) (lseq : U32) : State :=
  let again := s.pnx.retry.filter (fun k => !seqBefore k.lseq lseq)
  { s with pnx := { s.pnx with replays := s.pnx.replays + BitVec.ofNat 64 again.length },
           reply := match again.getLast? with | some k => .stream k | none => s.reply }

/-- STREAM_NAK: the sender replays from the LSEQ named, out of its retry buffer (14 R320). -/
def execStreamNak (lseq : U32) (s : State) : Outcome State Fault Refusal :=
  if !s.running || s.pnx.sWidth = 0 then .next s else .next (s.replayFrom lseq)

/-- The widest working group of stream lanes: all 8, S0-S3 or S4-S7, or an adjacent pair (14 R320). -/
def laneWidth (working : Byte) : Nat :=
  if working = 0xFF then 8
  else if working &&& 0x0F = 0x0F ∨ working &&& 0xF0 = 0xF0 then 4
  else if (List.range 7).any (fun i => working.getLsbD i && working.getLsbD (i + 1)) then 2
  else 0

/-- STREAM_LANE_RETRAIN: the channel retrains on the widest working group and replays from the first unacknowledged packet
(14 R320). -/
def execStreamLaneRetrain (working : Byte) (s : State) : Outcome State Fault Refusal :=
  if !s.running then .next s else
  let s := { s with pnx := { s.pnx with sWidth := laneWidth working } }
  .next (match s.pnx.retry with
    | k :: _ => s.replayFrom k.lseq
    | [] => s).pumpAll

end Sys2Proof.Machine
end

