-- ==== Sys2Proof/Machine/Bf16.lean ====
section
/-! DEFINITION. Exact arithmetic behind the number formats: rounding of exact rationals, BF16 (02 R32, 08 R160, R163) and the
correctly rounded functions, all on integers. -/

namespace Sys2Proof.Machine

/-! ### Exact rounding -/

/-- n / d rounded to nearest, ties to even (00 R5). -/
def rneDiv (n d : Nat) : Nat :=
  let q := n / d
  let r := n % d
  if 2 * r < d then q else if d < 2 * r then q + 1 else if q % 2 = 0 then q else q + 1

/-- The rounding shift RSH(x, s) = x / 2^s to nearest, ties to even (02 R38). -/
def rsh (x : Int) (s : Nat) : Int := if x < 0 then -(rneDiv x.natAbs (2 ^ s) : Int) else rneDiv x.natAbs (2 ^ s)

/-- floor(log2(n / d)) for n, d > 0. -/
def floorLog2 (n d : Nat) : Int :=
  let e : Int := (Nat.log2 n : Int) - Nat.log2 d
  let ge := if 0 ≤ e then d * 2 ^ e.toNat ≤ n else d ≤ n * 2 ^ (-e).toNat
  if ge then e else e - 1

/-- One bit of an integer square root. -/
def isqrtStep (n : Nat) : Nat → Nat → Nat
  | 0, r => r
  | k + 1, r => if (r + 2 ^ k) * (r + 2 ^ k) ≤ n then isqrtStep n k (r + 2 ^ k) else isqrtStep n k r

/-- floor(sqrt n). -/
def isqrt (n : Nat) : Nat := isqrtStep n (Nat.log2 n / 2 + 1) 0

/-! ### BF16 codes (02 R32) -/

/-- The canonical NaN. -/
def bfNan : BitVec 16 := 0x7FC0
/-- Infinity of a sign. -/
def bfInf (neg : Bool) : BitVec 16 := if neg then 0xFF80 else 0x7F80
/-- Zero of a sign. -/
def bfZero (neg : Bool) : BitVec 16 := if neg then 0x8000 else 0x0000

/-- The biased exponent. -/
def bfExp (c : BitVec 16) : Nat := (c.extractLsb' 7 8).toNat
/-- The fraction. -/
def bfFrac (c : BitVec 16) : Nat := (c.extractLsb' 0 7).toNat
/-- The sign. -/
def bfNeg (c : BitVec 16) : Bool := c.getLsbD 15

def bfIsNan (c : BitVec 16) : Bool := bfExp c == 255 && bfFrac c != 0
def bfIsInf (c : BitVec 16) : Bool := bfExp c == 255 && bfFrac c == 0
/-- Zero; subnormal inputs read as zero (02 R32). -/
def bfIsZero (c : BitVec 16) : Bool := bfExp c == 0

/-- An exact dyadic value m 2^e. -/
structure Dy where
  m : Int
  e : Int
deriving DecidableEq, Repr

/-- The exact value of a finite BF16 code. -/
def bfDy (c : BitVec 16) : Dy :=
  if bfIsZero c then ⟨0, 0⟩
  else
    let m : Int := 128 + bfFrac c
    ⟨if bfNeg c then -m else m, (bfExp c : Int) - 134⟩

/-- num / den, of a sign, rounded to BF16 (02 R32): nearest, ties to even, subnormal results flushed after rounding, overflow
to infinity. -/
def roundBf (neg : Bool) (num den : Nat) : BitVec 16 :=
  if num = 0 then bfZero neg
  else
    let e := floorLog2 num den
    let q := if 7 ≤ e then rneDiv num (den * 2 ^ (e - 7).toNat) else rneDiv (num * 2 ^ (7 - e).toNat) den
    let (q, e) := if q = 256 then (128, e + 1) else (q, e)
    if e < -126 then bfZero neg
    else if 127 < e then bfInf neg
    else (if neg then 0x8000 else 0) ||| (BitVec.ofInt 16 (e + 127) <<< 7) ||| BitVec.ofNat 16 (q - 128)

/-- m 2^e as a fraction of naturals, its magnitude. -/
def Dy.frac (x : Dy) : Nat × Nat :=
  if 0 ≤ x.e then (x.m.natAbs * 2 ^ x.e.toNat, 1) else (x.m.natAbs, 2 ^ (-x.e).toNat)

/-- A dyadic value rounded to BF16; `zneg` is the sign of an exact zero. -/
def Dy.toBf (x : Dy) (zneg : Bool) : BitVec 16 :=
  if x.m = 0 then bfZero zneg else roundBf (x.m < 0) x.frac.1 x.frac.2

def Dy.add (x y : Dy) : Dy :=
  let e := min x.e y.e
  ⟨x.m * 2 ^ (x.e - e).toNat + y.m * 2 ^ (y.e - e).toNat, e⟩
def Dy.mul (x y : Dy) : Dy := ⟨x.m * y.m, x.e + y.e⟩
def Dy.neg (x : Dy) : Dy := ⟨-x.m, x.e⟩
def Dy.lt (x y : Dy) : Bool :=
  let e := min x.e y.e
  decide (x.m * 2 ^ (x.e - e).toNat < y.m * 2 ^ (y.e - e).toNat)
def Dy.eq (x y : Dy) : Bool := !x.lt y && !y.lt x
def Dy.abs (x : Dy) : Dy := ⟨x.m.natAbs, x.e⟩
/-- An integer as a dyadic value. -/
def Dy.ofInt (x : Int) : Dy := ⟨x, 0⟩

/-- A dyadic value rounded to an integer, ties to even. -/
def Dy.toIntRne (x : Dy) : Int := if 0 ≤ x.e then x.m * 2 ^ x.e.toNat else rsh x.m (-x.e).toNat

/-- An integer rounded to BF16 (02 Table 2-4). -/
def intToBf (x : Int) : BitVec 16 := (Dy.ofInt x).toBf false

/-! ### BF16 operations (08 R160) -/

def bfNegate (c : BitVec 16) : BitVec 16 := if bfIsNan c then bfNan else (if bfIsZero c then bfZero (!bfNeg c) else c ^^^ 0x8000)
def bfAbs (c : BitVec 16) : BitVec 16 := if bfIsNan c then bfNan else (if bfIsZero c then 0 else c &&& 0x7FFF)

/-- A × B + C with one rounding; A × B is exact, and a zero sum follows 08 R160. -/
def bfFma (a b c : BitVec 16) : BitVec 16 :=
  if bfIsNan a || bfIsNan b || bfIsNan c then bfNan
  else if (bfIsInf a && bfIsZero b) || (bfIsZero a && bfIsInf b) then bfNan
  else
    let pneg := bfNeg a ^^ bfNeg b
    if bfIsInf a || bfIsInf b then (if bfIsInf c && bfNeg c != pneg then bfNan else bfInf pneg)
    else if bfIsInf c then bfInf (bfNeg c)
    else
      let p := (bfDy a).mul (bfDy b)
      (p.add (bfDy c)).toBf (p.m = 0 && bfIsZero c && pneg && bfNeg c)

def bfAdd (a b : BitVec 16) : BitVec 16 :=
  if bfIsNan a || bfIsNan b then bfNan
  else if bfIsInf a then (if bfIsInf b && bfNeg b != bfNeg a then bfNan else bfInf (bfNeg a))
  else if bfIsInf b then bfInf (bfNeg b)
  else ((bfDy a).add (bfDy b)).toBf (bfIsZero a && bfIsZero b && bfNeg a && bfNeg b)

def bfSub (a b : BitVec 16) : BitVec 16 := bfAdd a (if bfIsNan b then b else b ^^^ 0x8000)

def bfMul (a b : BitVec 16) : BitVec 16 :=
  let neg := bfNeg a ^^ bfNeg b
  if bfIsNan a || bfIsNan b then bfNan
  else if (bfIsInf a && bfIsZero b) || (bfIsZero a && bfIsInf b) then bfNan
  else if bfIsInf a || bfIsInf b then bfInf neg
  else ((bfDy a).mul (bfDy b)).toBf neg

/-- A < B for codes that are no NaN; the zeros compare equal (08 R160). -/
def bfLt (a b : BitVec 16) : Bool :=
  if bfIsInf a then bfNeg a && !(bfIsInf b && bfNeg b)
  else if bfIsInf b then !bfNeg b
  else (bfDy a).lt (bfDy b)

def bfMin (a b : BitVec 16) : BitVec 16 :=
  if bfIsNan a || bfIsNan b then bfNan
  else if bfIsZero a && bfIsZero b then bfZero (bfNeg a || bfNeg b)
  else if bfLt b a then (if bfIsZero b then bfZero (bfNeg b) else b) else (if bfIsZero a then bfZero (bfNeg a) else a)
def bfMax (a b : BitVec 16) : BitVec 16 :=
  if bfIsNan a || bfIsNan b then bfNan
  else if bfIsZero a && bfIsZero b then bfZero (bfNeg a && bfNeg b)
  else if bfLt a b then (if bfIsZero b then bfZero (bfNeg b) else b) else (if bfIsZero a then bfZero (bfNeg a) else a)

/-- A BF16 code as a conversion to its own format leaves it (02 Table 2-4). -/
def bfCanon (c : BitVec 16) : BitVec 16 := if bfIsNan c then bfNan else if bfIsZero c then bfZero (bfNeg c) else c

/-! ### Correctly rounded functions (08 R163) -/

/-- 1 / A. -/
def bfRcp (a : BitVec 16) : BitVec 16 :=
  if bfIsNan a then bfNan
  else if bfIsInf a then bfZero (bfNeg a)
  else if bfIsZero a then bfInf (bfNeg a)
  else let (n, d) := (bfDy a).frac; roundBf (bfNeg a) d n

/-- sqrt(n / d) as 2 floor + sticky over 2^41: exact enough that rounding it rounds the root. -/
def sqrtFrac (n d : Nat) : Nat × Nat :=
  let z := n * 2 ^ 400 / d
  let t := isqrt z
  (2 * t + (if t * t = z ∧ n * 2 ^ 400 % d = 0 then 0 else 1), 2 ^ 201)

/-- sqrt of a fraction, rounded once to BF16. -/
def bfSqrtFrac (n d : Nat) : BitVec 16 := let (a, b) := sqrtFrac n d; roundBf false a b

/-- 1 / sqrt(A). -/
def bfRsq (a : BitVec 16) : BitVec 16 :=
  if bfIsNan a then bfNan
  else if bfIsZero a then 0x7F80
  else if bfNeg a then bfNan
  else if bfIsInf a then 0
  else let (n, d) := (bfDy a).frac; bfSqrtFrac d n

/-- m / 2^k in lowest terms, by at most `fuel` halvings. -/
def lowest : Nat → Nat → Nat → Nat × Nat
  | 0, m, k => (m, k)
  | fuel + 1, m, k => if k ≠ 0 ∧ m % 2 = 0 then lowest fuel (m / 2) (k - 1) else (m, k)

/-- The number of t in the search range with (2 (128 + t) - 1) / 256 at or below 2^(j / 2^k): the 8-bit significand of a
value in [1, 2). -/
def pow2Sig (j k : Nat) : Nat → Nat → Nat
  | 0, q => q
  | b + 1, q =>
    let t := q + 2 ^ b
    if (2 * t - 1) ^ (2 ^ k) ≤ 2 ^ (8 * 2 ^ k + j) then pow2Sig j k b t else pow2Sig j k b q

/-- 2^A. -/
def bfEx2 (a : BitVec 16) : BitVec 16 :=
  if bfIsNan a then bfNan
  else if bfIsInf a then (if bfNeg a then 0 else 0x7F80)
  else if bfExp a < 117 then 0x3F80
  else if 135 ≤ bfExp a then (if bfNeg a then 0 else 0x7F80)
  else
    let m := 128 + bfFrac a
    let (m, k) := if 134 ≤ bfExp a then (m * 2 ^ (bfExp a - 134), 0) else lowest 8 m (134 - bfExp a)
    let n : Int := if bfNeg a then -(m : Int) else m
    let i := n / (2 ^ k : Nat)
    let j := (n % (2 ^ k : Nat)).toNat
    let q := if j = 0 then 128 else pow2Sig j k 7 128
    let q := if j ≠ 0 ∧ q = 255 ∧ 511 ^ (2 ^ k) ≤ 2 ^ (8 * 2 ^ k + j) then 256 else q
    (Dy.mk q (i - 7)).toBf false

/-- log2 A. -/
def bfLg2 (a : BitVec 16) : BitVec 16 :=
  if bfIsNan a then bfNan
  else if bfIsZero a then 0xFF80
  else if bfNeg a then bfNan
  else if bfIsInf a then 0x7F80
  else
    let e := (bfExp a : Int) - 134
    let m := 128 + bfFrac a
    if m = 128 then intToBf (e + 7)
    else
      let fl := (Nat.log2 (m ^ 65536) : Int) + 65536 * e
      if 0 ≤ fl then roundBf false (2 * fl.toNat + 1) (2 ^ 17) else roundBf true (2 * (-fl - 1).toNat + 1) (2 ^ 17)

end Sys2Proof.Machine
end

