-- ==== Sys2Proof/Machine/Encoding.lean ====
section
/-! DEFINITION. Instruction words (10 R212-R214, Tables 10-1, 10-2): the fields of word 0, the class and operation codes, and the
instruction that a pair of words spells. A task instruction comes as a command that carries its fields (log entry 42); these words are
what the tiler writes and what a fetch meets. -/

namespace Sys2Proof.Machine

/-- CLASS of word 0 (10 Table 10-1). -/
def wordClass (w : U64) : Nat := (w.extractLsb' 60 4).toNat
/-- OP of word 0. -/
def wordOp (w : U64) : Nat := (w.extractLsb' 53 6).toNat

/-- The other fields of word 0, and word 1 (10 R212, Table 10-1). -/
def wordFields (w0 w1 : U64) : Fields :=
  { long := w0.getLsbD 59, mask := w0.extractLsb' 50 3, z := w0.getLsbD 49, rd := w0.extractLsb' 44 5, ra := w0.extractLsb' 39 5,
    rb := w0.extractLsb' 34 5, rc := w0.extractLsb' 29 5, imm := w0.extractLsb' 0 29, w1 := if w0.getLsbD 59 then w1 else 0 }

/-- Word 0 of a class, an operation and fields (10 Table 10-1). -/
def wordOf (cls : BitVec 4) (op : BitVec 6) (f : Fields) : U64 :=
  cls ++ BitVec.ofBool f.long ++ op ++ f.mask ++ BitVec.ofBool f.z ++ f.rd ++ f.ra ++ f.rb ++ f.rc ++ f.imm

/-- The words of an instruction: word 1 only of a 128-bit one (10 R212). -/
def wordsOf (cls : BitVec 4) (op : BitVec 6) (f : Fields) : List U64 := wordOf cls op f :: (if f.long then [f.w1] else [])

/-- The ctl operations (10 Table 10-3); the action of ctl.timer stands in IMM[5:4]. -/
def ctlOps : Nat → Option (Pid → Fields → Instr)
  | 0x00 => some .ctlNop
  | 0x01 => some .ctlEnd
  | 0x02 => some .ctlJmp
  | 0x03 => some .ctlBeq
  | 0x04 => some .ctlBne
  | 0x05 => some .ctlBlt
  | 0x06 => some .ctlBge
  | 0x07 => some .ctlBltu
  | 0x08 => some .ctlBgeu
  | 0x10 => some .ctlAdd
  | 0x11 => some .ctlSub
  | 0x12 => some .ctlMul
  | 0x13 => some .ctlAnd
  | 0x14 => some .ctlOr
  | 0x15 => some .ctlXor
  | 0x16 => some .ctlShl
  | 0x17 => some .ctlShr
  | 0x18 => some .ctlSra
  | 0x20 => some .ctlAddi
  | 0x21 => some .ctlShli
  | 0x22 => some .ctlShri
  | 0x23 => some .ctlAndi
  | 0x28 => some .ctlLi
  | 0x30 => some .ctlTime
  | 0x31 => some (fun p f =>
    match (f.imm.extractLsb' 4 2).toNat with
    | 0 => .ctlTimerClaim p f
    | 1 => .ctlTimerArm p f
    | 2 => .ctlTimerRelease p f
    | _ => .ctlTimerRead p f)
  | _ => none

/-- The mv operations (10 Table 10-4). -/
def mvOps : Nat → Option (Pid → Fields → Instr)
  | 0x00 => some .mvLd
  | 0x01 => some .mvSt
  | 0x02 => some .mvLane
  | 0x03 => some .mvSplat
  | 0x04 => some .mvDget
  | 0x05 => some .mvDput
  | 0x07 => some .mvMand
  | 0x08 => some .mvMor
  | 0x09 => some .mvMnot
  | 0x0A => some .mvMset
  | 0x10 => some .mvCopy
  | 0x11 => some .mvBytes
  | _ => none

/-- The wr operations (10 Table 10-5). -/
def wrOps : Nat → Option (Pid → Fields → Instr)
  | 0x00 => some .wrSignal
  | 0x01 => some .wrWait
  | 0x02 => some .wrRead
  | 0x03 => some .wrRsignal
  | 0x04 => some .wrSwait
  | 0x05 => some .wrSfree
  | 0x06 => some .wrSfill
  | _ => none

/-- The mm operations (10 Table 10-6). -/
def mmOps : Nat → Option (Pid → Fields → Instr)
  | 0x00 => some .mmLd
  | 0x01 => some .mmBp
  | 0x02 => some .mmFence
  | _ => none

/-- The ee operations (08 Table 8-1, 10 Table 10-10). -/
def eeOps : Nat → Option (Pid → Fields → Instr)
  | 0x00 => some .eePass
  | 0x01 => some .eeAdd
  | 0x02 => some .eeSub
  | 0x03 => some .eeMul
  | 0x04 => some .eeFma
  | 0x05 => some .eeMin
  | 0x06 => some .eeMax
  | 0x07 => some .eeCmpEq
  | 0x08 => some .eeCmpNe
  | 0x09 => some .eeCmpLt
  | 0x0A => some .eeCmpLe
  | 0x0B => some .eeSel
  | 0x0C => some .eeAbs
  | 0x0D => some .eeNeg
  | 0x0E => some .eeRsh
  | 0x0F => some .eeCvt
  | 0x10 => some .eeRcp
  | 0x11 => some .eeRsq
  | 0x12 => some .eeEx2
  | 0x13 => some .eeLg2
  | 0x14 => some .eeLmul
  | 0x15 => some .eeLdiv
  | 0x16 => some .eeLexp
  | 0x30 => some .eeGather
  | 0x31 => some .eeChain
  | 0x32 => some .eeUload
  | _ => none

/-- The ru operations (10 Table 10-11). -/
def ruOps : Nat → Option (Pid → Fields → Instr)
  | 0x00 => some .ruCount
  | 0x01 => some .ruSum
  | 0x02 => some .ruSumsq
  | 0x03 => some .ruMv
  | 0x04 => some .ruMvp
  | 0x05 => some .ruMvf
  | 0x06 => some .ruMax
  | 0x07 => some .ruMin
  | 0x08 => some .ruArgmax
  | 0x09 => some .ruArgmin
  | 0x0A => some .ruLsum
  | _ => none

/-- The qz operations (10 Table 10-12). -/
def qzOps : Nat → Option (Pid → Fields → Instr)
  | 0x00 => some .qzCbk
  | 0x01 => some .qzSurvey
  | 0x02 => some .qzQuant
  | 0x03 => some .qzOpt
  | _ => none

/-- The pw operations (10 Table 10-16). -/
def pwOps : Nat → Option (Pid → Fields → Instr)
  | 0x00 => some .pwHint
  | 0x01 => some .pwPref
  | 0x02 => some .pwEnergy
  | _ => none

/-- The cx operations (10 Table 10-15). -/
def cxOps : Nat → Option (Pid → Fields → Instr)
  | 0x00 => some .cxAllreduce
  | 0x01 => some .cxReducescatter
  | 0x02 => some .cxAllgather
  | 0x03 => some .cxBroadcast
  | 0x04 => some .cxBarrier
  | _ => none

/-- The sp operations (10 Table 10-14). -/
def spOps : Nat → Option (Pid → Fields → Instr)
  | 0x00 => some .spOpen
  | 0x01 => some .spAdd
  | 0x02 => some .spFlush
  | 0x03 => some .spMerge
  | _ => none

/-- The operations of a class (10 Table 10-2); none of a reserved one. -/
def classOps : Nat → Option (Nat → Option (Pid → Fields → Instr))
  | 0x0 => some ctlOps
  | 0x1 => some mvOps
  | 0x2 => some wrOps
  | 0x3 => some mmOps
  | 0x4 => some eeOps
  | 0x5 => some ruOps
  | 0x6 => some qzOps
  | 0x7 => some pwOps
  | 0x8 => some cxOps
  | 0x9 => some spOps
  | _ => none

/-- The level at which a class first exists (10 Table 10-2). -/
def classLevel (c : Nat) : Nat := if c ≤ 4 then 1 else if c ≤ 7 then 2 else 3

/-- The instruction of a polder that words 0 and 1 spell, or the fault that a reserved CLASS or OP raises: ILLEGAL_INSTR, and EE_FORMAT
of the ee class, where the class exists at the declared level (10 R214, R231). -/
def decodeInstr (p : Pid) (level : Nat) (w0 w1 : U64) : Except Byte Instr :=
  match classOps (wordClass w0) with
  | none => .error 0x01
  | some ops =>
    if level < classLevel (wordClass w0) then .error 0x01
    else match ops (wordOp w0) with
      | some i => .ok (i p (wordFields w0 w1))
      | none => .error (if wordClass w0 = 4 then 0x13 else 0x01)

end Sys2Proof.Machine
end

