-- ==== Sys2Proof/Machine/Tiler.lean ====
section
/-! DEFINITION. The tiler (12 R268-R285): the decisions of Table 12-1 from the stage list and its shapes, the code of the nests, the
parameter blocks and the stage records that they give, and whether a program fits. What the manual leaves open comes with the plan
(log entry 33). -/

namespace Sys2Proof

open Machine

/-! ### Decisions for one layer (12 R272; 04 R73, R85; 06 R107, R111) -/

/-- a / b, rounded up. -/
def ceilDiv (a b : Nat) : Nat := (a + b - 1) / b

/-- The accumulator format of a layer: ACCX on the log path (05 R95), and where no order of additions is sure to stay in ACC32
(04 R85). -/
def Layer.accX (L : Layer) : Bool :=
  L.logPath || 2 ^ 31 - 1 < (if L.xnor then L.k else L.k * (2 ^ L.aWidth - 1) * (2 ^ L.wWidth - 1))

/-- The sump entries of a column and set, which are also the largest M (04 Table 4-3, 12 Table 12-2). -/
def Layer.entries (L : Layer) : Nat := if L.accX then 2048 else 4096

/-- Row tiles of Y rows: t = ceil(Y / M_max) (12 R272). -/
def Layer.rowTiles (L : Layer) (rows : Nat) : Nat := ceilDiv rows L.entries

/-- Rows per tile: M = ceil(Y / t), raised to a multiple of G where the OC surveys along columns (12 R272). -/
def Layer.tileRows (L : Layer) (rows : Nat) : Nat :=
  let m := ceilDiv rows (L.rowTiles rows)
  if L.survey = 0 then m else ceilDiv m L.survey * L.survey

/-- Row tiles of a block: up to min(floor(E / M), t) (12 R272). -/
def Layer.blockTiles (L : Layer) (rows : Nat) : Nat := min (L.entries / L.tileRows rows) (L.rowTiles rows)

/-- Positions of a full chunk (12 R271, R272). -/
def Layer.chunkLen (L : Layer) : Nat := if L.two4 then 65536 else 32768

/-- The chunks of the reduction, as first position and length: every one full but the last (12 R272). -/
def Layer.chunks (L : Layer) : List (Nat × Nat) :=
  (List.range (ceilDiv L.k L.chunkLen)).map (fun i => (i * L.chunkLen, min L.chunkLen (L.k - i * L.chunkLen)))

/-- The column tiles of a layer. -/
def Layer.colTiles (L : Layer) : Nat := ceilDiv L.cols 128

/-- The ratios of a column tile: the layer's one ratio, or those of its columns. -/
def Layer.tileRatios (L : Layer) (c : Nat) : List (Nat × Nat) :=
  if L.ratios.length ≤ 1 then L.ratios else (L.ratios.drop (128 * c)).take 128

/-- M_j = RNE(ρ_j 2^s) (06 R107). -/
def multiplier (s : Nat) (r : Nat × Nat) : Nat := rneDiv (r.1 * 2 ^ s) r.2

/-- The rescale shift of a column tile: the largest up to 63 that keeps every multiplier below 2^32 (06 R107). -/
def shiftOf (rs : List (Nat × Nat)) : Nat :=
  ((List.range 64).reverse.find? (fun s => rs.all (fun r => decide (multiplier s r < 2 ^ 32)))).getD 0

/-- Whether the scales of a layer's weight are streamed: where it holds too many elements for the two-level form (06 R111). -/
def Layer.streams (L : Layer) : Bool := 2 ^ 28 ≤ L.elements

/-! ### The order of blocks (12 R278) -/

/-- The smallest power of two at least n, by its exponent. -/
def log2Up (n : Nat) : Nat := ((List.range 64).find? (fun e => decide (n ≤ 2 ^ e))).getD 64

/-- The Hilbert key of block row b and column tile c in a square of side 2^e. -/
def hilbertKey (e b c : Nat) : Nat :=
  let n := 2 ^ e
  ((List.range e).reverse.foldl (fun (x : Nat × Nat × Nat) i =>
    let s := 2 ^ i
    let rx := bif x.1.testBit i then 1 else 0
    let ry := bif x.2.1.testBit i then 1 else 0
    let d := x.2.2 + s * s * ((3 * rx) ^^^ ry)
    if ry = 0 then
      if rx = 1 then (n - 1 - x.2.1, n - 1 - x.1, d) else (x.2.1, x.1, d)
    else (x.1, x.2.1, d)) (c, b, 0)).2.2

/-- Put a block among those in ascending key. -/
def keyIns (x : Nat × Nat × Nat) : List (Nat × Nat × Nat) → List (Nat × Nat × Nat)
  | [] => [x]
  | y :: t => if x.1 < y.1 then x :: y :: t else y :: keyIns x t

/-- The blocks of a grid of br block rows by cs column tiles in the order in which the tiler visits them, as (b, c). -/
def visitOrder (br cs : Nat) : List (Nat × Nat) :=
  let e := log2Up (max br cs)
  let keyed := (List.range br).flatMap (fun b => (List.range cs).map (fun c => (hilbertKey e b c, b, c)))
  (keyed.foldl (fun l x => keyIns x l) []).map (·.2)

/-! ### The split across a reach (12 R281, R282) -/

/-- The most output tiles of a polder under a split into pr row ranges and pc column ranges. -/
def splitLoad (rowTiles colTiles : Nat) (x : Nat × Nat) : Nat := ceilDiv rowTiles x.1 * ceilDiv colTiles x.2

/-- Pr and Pc: Pr Pc = P, neither above its tiles, with the least load, and the smaller Pr among equals. -/
def chooseSplit (P rowTiles colTiles : Nat) : Option (Nat × Nat) :=
  let all := ((List.range P).map (· + 1)).filterMap (fun pr =>
    if P % pr = 0 ∧ pr ≤ rowTiles ∧ P / pr ≤ colTiles then some (pr, P / pr) else none)
  all.foldl (fun best x =>
    match best with
    | none => some x
    | some y => if splitLoad rowTiles colTiles x < splitLoad rowTiles colTiles y then some x else some y) none

/-- The i-th of n contiguous ranges of a total, as first and count: they differ by at most one, the larger first. -/
def dealt (total n i : Nat) : Nat × Nat :=
  (i * (total / n) + min i (total % n), total / n + (if i < total % n then 1 else 0))

/-- A polder's share of a layer: its rows and its column tiles, each as first and count. -/
structure Share where
  row  : Nat
  rows : Nat
  tile : Nat
  tiles : Nat
deriving DecidableEq, Repr

/-- The share of the i-th polder of a reach of P (12 R281): row ranges of whole tiles and column ranges, dealt to the polders row range by
row range (DESIGN CHOICE, log entry 63); an attention block by whole heads with their column tiles. -/
def Layer.share (L : Layer) (P i rows : Nat) : Option Share :=
  if L.heads ≠ 0 then
    let (h, n) := dealt L.heads P i
    let width := L.cols / L.heads
    if L.heads < P then none
    else some { row := 0, rows, tile := h * width / 128, tiles := ceilDiv ((h + n) * width) 128 - h * width / 128 }
  else
    match chooseSplit P (L.rowTiles rows) L.colTiles with
    | none => none
    | some (pr, pc) =>
      let (r, rn) := dealt (L.rowTiles rows) pr (i / pc)
      let (c, cn) := dealt L.colTiles pc (i % pc)
      let m := L.tileRows rows
      some { row := r * m, rows := min (rn * m) (rows - r * m), tile := c, tiles := cn }

/-! ### Rows, micro-batches and fill counts (12 R275, R282, R283) -/

/-- m: the smallest power of two at least the reach visits of a token (12 R283). -/
def microBatchesOf (b : BindPlan) : Nat := 2 ^ log2Up (max 1 b.visits.length)

/-- The folded row bound of a stage: S U for the slots of a micro-batch, or the rows of a prefill chunk (12 R275, R283; 15 R353). -/
def StagePlan.bound (t : StagePlan) (slots m prefill : Nat) : Nat := (if t.prefill then prefill else slots / m) * t.rowsPer

/-- The layer whose rows are those of the launch: the first whose heads are not folded into rows. -/
def StagePlan.rowLayer (t : StagePlan) : Option Layer := t.layers.find? (fun L => L.folded ≤ 1)

/-- The rows of a stage that the i-th polder of a reach of P runs, as first and count (12 R281, R282). -/
def StagePlan.rowsOf (t : StagePlan) (P i bound : Nat) : Nat × Nat :=
  match t.rowLayer.bind (fun L => L.share P i bound) with
  | some x => (x.row, x.rows)
  | none => (0, bound)

/-- FILL = min(max(F - r_start, 0), Y) (12 R282). -/
def fillShare (F : Nat) (x : Nat × Nat) : Nat := min (F - x.1) x.2

/-- The reach of a stage and the place of a polder in it. -/
def placeIn (b : BindPlan) (t : StagePlan) (p : Pid) : Option (Reach × Nat) :=
  match b.reaches[t.reach]? with
  | none => none
  | some R => (R.polders.findIdx? (· == p)).map (fun i => (R, i))

/-- The rows that a launch covers: those of its stage on its polder. -/
def launchRows (b : BindPlan) (slots m prefill : Nat) (x : LaunchPlan) : Nat × Nat :=
  let n := lField x.record 4 2
  match b.stages.find? (fun t => t.number.toNat == n) with
  | none => (0, 2 ^ 32)
  | some t => match placeIn b t x.polder with
    | none => (0, 2 ^ 32)
    | some (R, i) => t.rowsOf R.polders.length i (t.bound slots m prefill)

/-- Every logical polder of a plan's reaches. -/
def planPolders (b : BindPlan) : List Pid := b.reaches.flatMap (·.polders)

/-- Every holding of a plan with its polder. -/
def planHolds (b : BindPlan) : List (Pid × Holding) := b.reaches.flatMap (fun R => R.polders.zip R.holds)

/-! ### Code (12 R277, R280, R284; 10 Table 10-1) -/

/-- ctl.li. -/
def liWords (r : BitVec 5) (v : Nat) : List U64 := wordsOf 0 0x28 { long := true, rd := r, w1 := BitVec.ofNat 64 v }
/-- mv.dput of word k. -/
def dputWords (d : BitVec 4) (k : Nat) (r : BitVec 5) : List U64 :=
  wordsOf 1 0x05 { rd := d.setWidth 5, ra := r, imm := BitVec.ofNat 29 k }
/-- mv.copy with its weir. -/
def copyWords (dst src : BitVec 4) (weir : BitVec 16) : List U64 :=
  wordsOf 1 0x10 { long := true, rd := dst.setWidth 5, ra := src.setWidth 5, w1 := weir.setWidth 64 }
/-- wr.wait of a weir until it meets the threshold in a register. -/
def waitWords (weir : BitVec 16) (r : BitVec 5) : List U64 := wordsOf 2 0x01 { rb := r, imm := weir.setWidth 29 }
/-- A ctl operation on three registers, or on two and an immediate. -/
def aluWords (op : BitVec 6) (d a b : BitVec 5) (imm : BitVec 29 := 0) : List U64 := wordsOf 0 op { rd := d, ra := a, rb := b, imm }

/-- mm.ld of a chunk of a column tile (10 R226). -/
def loadWords (r : NestRefs) (half ncols klen : Nat) : List U64 :=
  wordsOf 3 0x00 { long := true, ra := r.dWeight.setWidth 5, rb := r.sPos, rc := r.sCol, imm := BitVec.ofNat 29 half,
                   w1 := BitVec.ofNat 64 ((ncols - 1) * 2 ^ 17 + klen) }

/-- mm.bp of a frame (10 R227). -/
def passWords (r : NestRefs) (half : Nat) (close : Bool) (m chunks chunk frame : Nat) : List U64 :=
  wordsOf 3 0x01 { long := true, rd := r.dOut.setWidth 5, ra := r.dAct.setWidth 5, rb := r.sRow, rc := r.sTpb,
                   imm := BitVec.ofNat 29 (half + (if close then 2 else 0) + 4 * r.trunc.toNat),
                   w1 := BitVec.ofNat 64 ((m - 1) * 2 ^ 44 + chunks * 2 ^ 28 + chunk * 2 ^ 12 + frame) }

/-- The bytes of a column tile of a staged weight, and where it lies in the operand. -/
def stagedBytes (L : Layer) : Nat := ceilDiv (128 * L.k * L.wWidth) 8

/-- The copy of a column tile into one of the two staging buffers (12 R280). -/
def stageIn (g : Staging) (L : Layer) (n c : Nat) : List U64 :=
  liWords g.sAddr (g.src.toNat + c * stagedBytes L) ++ dputWords g.dSrc 0 g.sAddr
  ++ liWords g.sAddr (if n % 2 = 0 then g.buf0.toNat else g.buf1.toNat) ++ dputWords g.dDst 0 g.sAddr
  ++ copyWords g.dDst g.dSrc g.weir

/-- The first load's latch half alternates for weights of 8 bits or fewer (04 R70). -/
def halfOf (L : Layer) (n : Nat) : Nat := if 8 < L.wWidth then 0 else n % 2

/-- The nest of a share (12 R277): for each block in the order of R278, for each chunk a load, and for each frame a pass; an operand that
is not resident is staged one block ahead (R280). -/
def nestWords (L : Layer) (x : Share) (r : NestRefs) : List U64 :=
  let m := L.tileRows x.rows
  let t := L.rowTiles x.rows
  let fb := L.blockTiles x.rows
  let order := visitOrder (ceilDiv t fb) x.tiles
  let chunks := L.chunks
  let before := match r.staging, order.head? with
    | some g, some (_, c) => stageIn g L 0 (x.tile + c)
    | _, _ => []
  before ++ order.zipIdx.flatMap (fun ((b, c), n) =>
    let staged := match r.staging with
      | none => []
      | some g =>
        (match order[n + 1]? with
          | some (_, c') => stageIn g L (n + 1) (x.tile + c')
          | none => [])
        ++ liWords g.sThr (n + 1) ++ waitWords g.weir g.sThr
        ++ liWords g.sAddr (if n % 2 = 0 then g.buf0.toNat else g.buf1.toNat) ++ dputWords r.dWeight 0 g.sAddr
    let col := if r.staging.isSome then 0 else 128 * (x.tile + c)
    let ncols := min 128 (L.cols - 128 * (x.tile + c))
    let frames := min fb (t - b * fb)
    staged ++ liWords r.sTpb (r.tpb.toNat + 32 * (x.tile + c)) ++ liWords r.sCol col
    ++ chunks.zipIdx.flatMap (fun ((k0, klen), k) =>
      let half := halfOf L (n * chunks.length + k)
      liWords r.sPos k0 ++ loadWords r half ncols klen
      ++ (List.range frames).flatMap (fun f =>
        liWords r.sRow (x.row + (b * fb + f) * m)
        ++ passWords r half (k + 1 = chunks.length && f + 1 = frames) m chunks.length k f)))

/-- The parameter block of a column tile (10 Table 10-8), with the multipliers of its columns where they differ. -/
def tpbBytes (L : Layer) (r : NestRefs) (c : Nat) : List Byte :=
  let rs := L.tileRatios c
  let s := shiftOf rs
  let vec := 1 < rs.length
  leBytes 4 (if vec then 0 else ((rs.head?.map (multiplier s)).getD 0)) ++ leBytes 1 s ++ leBytes 1 (if L.accX then 1 else 0)
  ++ leBytes 1 r.chain ++ leBytes 1 r.nc ++ leBytes 2 r.budget ++ leBytes 1 r.sigma
  ++ leBytes 1 ((if vec then 1 else 0) + (if r.sr then 2 else 0)) ++ leBytes 1 r.gen ++ leBytes 3 0
  ++ leBytes 8 (if vec then r.mvec.toNat + 512 * c else 0) ++ leBytes 4 r.sid.toNat ++ leBytes 4 0

/-- What the nest of a share places in memory: its parameter blocks and multiplier vectors. -/
def nestImages (L : Layer) (x : Share) (r : NestRefs) : List (Nat × List Byte) :=
  (List.range x.tiles).flatMap (fun i =>
    let c := x.tile + i
    let rs := L.tileRatios c
    let s := shiftOf rs
    (r.tpb.toNat + 32 * c, tpbBytes L r c)
    :: (if 1 < rs.length then
          [(r.mvec.toNat + 512 * c, ((List.range 128).map (fun j => leBytes 4 ((rs[j]?.map (multiplier s)).getD 0))).flatten)]
        else []))

/-- The words of a part of a stage's code on the i-th of P polders. -/
def partWords (t : StagePlan) (P i bound : Nat) : CodePart → List U64
  | .words ws => ws
  | .nest n r =>
    match t.layers[n]? with
    | none => []
    | some L => match L.share P i (bound * L.folded) with
      | some x => nestWords L x r
      | none => []
  | .gather dSrc dDst sAddr dests => dests.flatMap (fun d =>
      liWords sAddr d.1.toNat ++ dputWords dDst 0 sAddr ++ copyWords dDst dSrc d.2)
  | .send dSrc dDst sAddr sTmp dests => dests.flatMap (fun d =>
      aluWords 0x23 sTmp 2 0 1 ++ liWords sAddr (d.2.1 - d.1).toNat ++ aluWords 0x12 sTmp sTmp sAddr
      ++ liWords sAddr d.1.toNat ++ aluWords 0x10 sAddr sAddr sTmp ++ dputWords dDst 0 sAddr ++ copyWords dDst dSrc d.2.2)
  | .await weir producers sThr sTmp =>
      aluWords 0x20 sThr 2 0 1 ++ liWords sTmp producers ++ aluWords 0x12 sThr sThr sTmp ++ waitWords weir sThr

/-- The code of a stage on a polder. -/
def stageCode (t : StagePlan) (P i bound : Nat) (x : StageShare) : List Byte :=
  (x.code.flatMap (partWords t P i bound)).flatMap (fun w => leBytes 8 w.toNat)

/-! ### Stage records (09 Table 9-2; 11 Table 11-4) -/

/-- A base-and-bound image. -/
def boundBytes (h : Holding) : List Byte :=
  (List.range 2).flatMap (fun i =>
    let w := h.weirs.getD i (0, 0)
    leBytes 2 w.1.toNat ++ leBytes 2 w.2.toNat)
  ++ (List.range 6).flatMap (fun i =>
    let r := h.regions.getD i ⟨0, 0, 0⟩
    leBytes 8 r.base.toNat ++ leBytes 4 r.pages.toNat ++ leBytes 1 r.perm.toNat ++ leBytes 3 0)

/-- A weight descriptor says whether its scales are streamed (06 R111). -/
def descriptorsOf (t : StagePlan) (x : StageShare) : List DescWord :=
  x.code.foldl (fun ds c => match c with
    | .nest n r => match t.layers[n]?, ds[r.dWeight.toNat]? with
      | some L, some d => if L.streams then ds.set r.dWeight.toNat (setField d 110 1 1) else ds
      | _, _ => ds
    | _ => ds) x.desc

/-- A stage record (09 Table 9-2). -/
def stageBytes (level : Byte) (prog : Nat) (t : StagePlan) (h : Holding) (code len fillBound : Nat) (ds : List DescWord) : List Byte :=
  leBytes 8 code ++ leBytes 4 len ++ leBytes 4 fillBound ++ leBytes 1 level.toNat ++ leBytes 1 prog ++ leBytes 2 t.number.toNat
  ++ leBytes 4 t.waitLimit.toNat ++ boundBytes h ++ (List.range 16).flatMap (fun k => leBytes 64 ((ds.getD k 0).toNat))

/-- What the tiler places on the i-th polder of a reach for the stages of that reach, whose code lies end to end from `at_` on. -/
def stagesOn (level : Byte) (prog P i slots m prefill : Nat) (h : Holding) : Nat → List StagePlan → List (Nat × List Byte)
  | _, [] => []
  | at_, t :: rest =>
    let bound := t.bound slots m prefill
    match t.shares[i]? with
    | none => stagesOn level prog P i slots m prefill h at_ rest
    | some x =>
      let code := stageCode t P i bound x
      let blocks := x.code.flatMap (fun c => match c with
        | .nest n r => match t.layers[n]? with
          | some L => match L.share P i (bound * L.folded) with
            | some y => nestImages L y r
            | none => []
          | none => []
        | _ => [])
      (at_, code)
      :: (h.stageBase.toNat + 1152 * t.number.toNat,
          stageBytes level prog t h at_ code.length (t.rowsOf P i bound).2 (descriptorsOf t x))
      :: blocks ++ stagesOn level prog P i slots m prefill h (at_ + code.length) rest

/-- Everything that the tiler places in memory for a program (12 R269). -/
def planImages (b : BindPlan) (prog slots prefill : Nat) : List (Nat × List Byte) :=
  let m := microBatchesOf b
  b.reaches.zipIdx.flatMap (fun (R, n) =>
    let stages := b.stages.filter (fun t => t.reach == n)
    (R.polders.zip R.holds).zipIdx.flatMap (fun ((_, h), i) =>
      stagesOn b.level prog R.polders.length i slots m prefill h h.codeBase.toNat stages))

/-! ### Whether a program fits (12 R271, R276, R280, R284, R285) -/

/-- Whether the shapes of a layer are legal (12 Table 12-2, R276) and every polder of a reach of P has a share. -/
def Layer.fits (L : Layer) (P rows : Nat) : Bool :=
  1 ≤ L.k && 1 ≤ L.cols && 1 ≤ L.wWidth && L.wWidth ≤ 16 && 1 ≤ L.aWidth && L.aWidth ≤ 16 && L.chunks.length ≤ 65535
  && (L.folded ≤ 1 || !L.uint) && (rows = 0 || (List.range P).all (fun i => (L.share P i rows).isSome))

/-- Whether `len` bytes at an address lie in a polder's own scratchpad. -/
def ownBytes (p : Pid) (a len : Nat) : Bool := scratchAddr p 0 ≤ a && a + len ≤ scratchAddr p 0 + scratchBytes

/-- Whether staging buffers lie in the polder's scratchpad, apart, and hold the largest block (12 R280). -/
def Staging.fits (g : Staging) (p : Pid) (L : Layer) : Bool :=
  stagedBytes L ≤ g.size && ownBytes p g.buf0.toNat g.size && ownBytes p g.buf1.toNat g.size
  && (g.buf0.toNat + g.size ≤ g.buf1.toNat || g.buf1.toNat + g.size ≤ g.buf0.toNat)

/-- Whether a weir lies in one of a polder's ranges. -/
def Holding.hasWeir (h : Holding) (w : BitVec 16) : Bool := h.weirs.any (fun x => x.1.toNat ≤ w.toNat && w.toNat < x.1.toNat + x.2.toNat)

/-- Whether a part of a stage's code fits: its layer exists, its staging buffers hold a block, an all-gather goes to every other member of
the reach with a weir of its own each, and every weir is the program's (12 R280, R284, R285). -/
def CodePart.fits (t : StagePlan) (P : Nat) (p : Pid) (h : Holding) : CodePart → Bool
  | .words _ => true
  | .nest n r => match t.layers[n]? with
    | none => false
    | some L => match r.staging with
      | none => true
      | some g => g.fits p L && h.hasWeir g.weir
  | .gather _ _ _ dests => dests.length + 1 == P && decide (dests.map (·.2)).Nodup && dests.all (fun d => h.hasWeir d.2)
  | .send _ _ _ _ dests => dests.all (fun d => d.1 != d.2.1 && h.hasWeir d.2.2)
  | .await w _ _ _ => h.hasWeir w

/-- Whether a stage fits on its reach at FILL_BOUND: its layers agree in their rows, and every polder has a share that fits. -/
def StagePlan.fits (t : StagePlan) (b : BindPlan) (slots m prefill : Nat) : Bool :=
  match b.reaches[t.reach]? with
  | none => false
  | some R =>
    let P := R.polders.length
    let bound := t.bound slots m prefill
    t.shares.length == P && t.layers.all (fun L => L.fits P (bound * L.folded))
    && t.layers.all (fun L => 1 < L.folded || (List.range P).all (fun i =>
        (L.share P i bound).map (fun x => (x.row, x.rows)) == some (t.rowsOf P i bound)))
    && ((t.shares.zip (R.polders.zip R.holds)).all (fun (x, p, h) => x.desc.length ≤ 16 && x.code.all (CodePart.fits t P p h)))

/-- The bytes that a polder's stages place in it lie in its own scratchpad and apart. -/
def holdFits (b : BindPlan) (n P i slots m prefill : Nat) (p : Pid) (h : Holding) : Bool :=
  let stages := b.stages.filter (fun t => t.reach == n)
  let len := (stages.map (fun t => match t.shares[i]? with
    | some x => (stageCode t P i (t.bound slots m prefill) x).length
    | none => 0)).sum
  let table := 1152 * ((stages.map (fun t => t.number.toNat + 1)).foldl max 0)
  let a := h.codeBase.toNat
  let s := h.stageBase.toNat
  h.regions.length ≤ 6 && h.weirs.length ≤ 2 && h.weirs.all (fun w => w.1.toNat + w.2.toNat ≤ 16384)
  && (stages.isEmpty || (a % 8 == 0 && ownBytes p a len && ownBytes p s table && (a + len ≤ s || s + table ≤ a)))

/-- Whether a program fits its reaches at FILL_BOUND in every stage (12 R285). -/
def planFits (b : BindPlan) (slots prefill : Nat) : Bool :=
  let m := microBatchesOf b
  b.reaches.all (fun R => !R.polders.isEmpty && R.holds.length == R.polders.length && R.polders.Pairwise (· < ·))
  && b.visits.all (fun n => n < b.reaches.length) && decide (b.stages.map (·.number)).Nodup
  && b.stages.all (fun t => t.fits b slots m prefill)
  && b.reaches.zipIdx.all (fun (R, n) => (R.polders.zip R.holds).zipIdx.all (fun ((p, h), i) =>
      holdFits b n R.polders.length i slots m prefill p h))

/-! ### Cost estimates (12 R269; 03 Table 3-4; 04 R70) -/

/-- The cycles of a load of n positions (04 Table 4-1; 07 R144). -/
def Layer.loadCycles (L : Layer) (n : Nat) : Nat :=
  if L.two4 then (L.wWidth + 2) * ceilDiv n 512 + 24 else L.wWidth * ceilDiv n 256 + 24

/-- The issue cycles of a row over n positions at declared width, with no skipping and no truncation (03 Table 3-4; 05 R96). -/
def Layer.rowCycles (L : Layer) (n : Nat) : Nat :=
  if L.xnor then 1 else if L.logPath then ceilDiv n 32 else L.wWidth * L.aWidth

/-- The estimate of a sequence of loads and passes: loads of 8 bits or fewer hide behind the passes before them, wider ones add their time
(04 R70, 12 R277). -/
def overlapCycles (wide : Bool) : Nat → List (Nat × Nat) → Nat
  | before, [] => before
  | before, (load, issue) :: t => (if wide then before + load else max before load) + overlapCycles wide issue t

/-- The estimated cycles of a share. -/
def Layer.shareCycles (L : Layer) (x : Share) : Nat :=
  let fb := L.blockTiles x.rows
  let m := L.tileRows x.rows
  let t := L.rowTiles x.rows
  overlapCycles (decide (8 < L.wWidth)) 0 ((visitOrder (ceilDiv t fb) x.tiles).flatMap (fun (b, _) =>
    L.chunks.map (fun (_, n) => (L.loadCycles n, min fb (t - b * fb) * m * L.rowCycles n))))

/-- The estimated cycles of each polder for one run of every stage bound on it. -/
def planCycles (b : BindPlan) (slots prefill : Nat) : List (Pid × Nat) :=
  let m := microBatchesOf b
  b.reaches.zipIdx.flatMap (fun (R, n) => R.polders.zipIdx.map (fun (p, i) =>
    (p, ((b.stages.filter (fun t => t.reach == n)).map (fun t =>
      (t.layers.map (fun L => match L.share R.polders.length i (t.bound slots m prefill * L.folded) with
        | some x => L.shareCycles x
        | none => 0)).sum)).sum)))

end Sys2Proof
end

