-- ==== Sys2Proof/Machine/Wilvar.lean ====
section
/-! DEFINITION. The Wilvar ports (14 R321-R326): training, peer exchange, routing and delivery; and the timebase discipline
(R327-R329). An output sends one packet in the
tick of a nanosecond; cables, their delays and the sizes of buffers lie outside the state (DESIGN CHOICE, log entry 37). -/

namespace Sys2Proof.Machine

open Host (Outcome)

/-- Change a Wilvar port. -/
def State.onWlv (s : State) (w : Fin 6) (g : Wlv → Wlv) : State := { s with wlv := s.wlv.set w (g s.wlv[w]) }

/-! ### Routes (14 R323) -/

/-- The direction in one dimension: none at the destination, else whether it is the minus direction; a tie goes plus. -/
def stepIn (d src dst : Nat) : Option Bool :=
  let f := (dst + d - src % d) % d
  if f = 0 then none else some (decide (d - f < f))

/-- The first hop of a route that resolves dimensions in the order given. -/
def firstHop (c : Cad) (src dst : BitVec 12) (order : List Nat) : Option (Fin 6) :=
  order.findSome? (fun d => (stepIn (c.extent d) (coordIn src d) (coordIn dst d)).map (fun m => dirPort d m))

/-- The hop of a packet: X, then Y, then Z. -/
def nextHop (c : Cad) (dst : BitVec 12) : Option (Fin 6) := firstHop c c.coord dst [0, 1, 2]

/-- Whether a hop through a port crosses the wrap between D - 1 and 0. -/
def crossesWrap (c : Cad) (w : Fin 6) : Bool :=
  let d := w.val / 2
  if w.val % 2 = 0 then coordIn c.coord d + 1 == c.extent d else coordIn c.coord d == 0

/-! ### Ports -/

/-- Whether a port is up. -/
def State.portUp (s : State) (w : Fin 6) : Bool := s.wlv[w].trained

/-- The parent of a member: the port of the first hop to the leader, if it is up; else those of the next routes, Y, Z, X, and then
their other directions (14 R327, R329; DEDUCED, log entry 34). -/
def chooseParent (s : State) : Option (Fin 6) :=
  let c := s.cad
  let hops := [0, 1, 2].filterMap (fun d => (stepIn (c.extent d) (coordIn c.coord d) 0).map (fun m => dirPort d m))
  let next := [1, 2, 0].filterMap (fun d => (stepIn (c.extent d) (coordIn c.coord d) 0).map (fun m => dirPort d m))
  let back := [1, 2, 0].filterMap (fun d => (stepIn (c.extent d) (coordIn c.coord d) 0).map (fun m => dirPort d !m))
  (hops.take 1 ++ next ++ back).find? (fun w => s.portUp w)

/-- WILVAR_TRAIN: a port trains at 16, 8 or 4 working lanes; with fewer it stays down (14 R321). -/
def execWilvarTrain (w : Fin 6) (lanes : Nat) (s : State) : Outcome State Fault Refusal :=
  if !s.running then .next s else
  let width : BitVec 2 := if 16 ≤ lanes then 3 else if 8 ≤ lanes then 2 else if 4 ≤ lanes then 1 else 0
  let s := s.onWlv w (fun x => { x with trained := width != 0, width, wakeAt := if width = 0 then x.wakeAt else none })
  let c := s.cad
  if s.pnx.job.isSome && !s.leads && c.parent.isNone then .next { s with cad := { c with parent := chooseParent s } } else .next s

/-- The coordinate that the cabling rules put behind a port (14 R322). -/
def expectedPeer (c : Cad) (w : Fin 6) : BitVec 12 :=
  let d := w.val / 2
  let D := c.extent d
  let x := if w.val % 2 = 0 then (coordIn c.coord d + 1) % D else (coordIn c.coord d + D - 1) % D
  mkCoord (if d = 0 then x else coordX c.coord) (if d = 1 then x else coordY c.coord) (if d = 2 then x else coordZ c.coord)

/-- WILVAR_PEER_EXCHANGE: after JOB_OPEN a port learns its peer; one that the rules do not predict sets MISCABLED, and Herd reports
it (14 R322). -/
def execWilvarPeerExchange (w : Fin 6) (jobId : U64) (coord : BitVec 12) (s : State) : Outcome State Fault Refusal :=
  if !s.running || s.pnx.job.isNone || !s.portUp w || !s.cad.uses w then .next s else
  let ok := s.pnx.job == some jobId && coord == expectedPeer s.cad w
  let s := s.onWlv w (fun x => { x with peer := coord, peerValid := true, miscabled := !ok })
  .next (if ok then s
    else s.herdEvent 0x03 (BitVec.ofNat 8 w.val :: leBytes 3 coord.toNat))

/-- The flits of a Wilvar packet, each 512 bytes of payload (14 R321). -/
def wilvarFlits (k : WilvarPacket) : U64 :=
  match k.op with
  | .write d _ => BitVec.ofNat 64 (max 1 ((d.length + 511) / 512))
  | .read _ => 1
  | .signal _ => 1
  | .refused _ _ _ => 1

/-- The address of a peer's offset (09 R209). -/
def peerAddr (c : BitVec 12) (offset : BitVec 48) : Nat := 2 ^ 63 + c.toNat * 2 ^ 48 + offset.toNat

/-! ### Output ports (14 R325) -/

/-- What a send takes from a counter of 13 R292: the payload bytes, 64 for none. -/
def wilvarCost (k : WilvarPacket) : Nat :=
  match k.op with
  | .write [] _ => 64
  | .write d _ => d.length
  | _ => 64

/-- The virtual channel of a packet at an output: its network and its dateline channel (14 R323). -/
def wilvarChannel (k : WilvarPacket) : Fin 4 :=
  match k.net, k.dateline with
  | .request, false => 0
  | .request, true => 1
  | .response, false => 2
  | .response, true => 3

/-- A time of the timebase in cycles of the fabric's 1.4 GHz clock (13 R287). -/
def fabricCycles (t : U64) : Nat := t.toNat * 7 / 5

/-- A packet waits at the output of a port, by its input: the port it came by, or 6 for the module's own. -/
def State.queueAt (s : State) (o : Fin 6) (inp : Fin 7) (k : WilvarPacket) : State :=
  s.onWlv o (fun x =>
    { x with nets := x.nets.set (wilvarChannel k) (x.nets[wilvarChannel k].join inp k (fabricCycles s.tb)) })

/-- The next packet of one virtual channel of an output, with its input and the output after the send: it carries as WSRC what the inputs give
(13 R291, R292; 14 R325). -/
def Wlv.send (x : Wlv) (now : Nat) (net : Fin 4) : Option (WilvarPacket × Fin 7 × Wlv) :=
  match pickSender (fun k => k.wsrc.toNat) wilvarCost (x.nets[net].promote now) with
  | none => none
  | some (i, N) =>
    match N.queues[i] with
    | [] => none
    | (k, _, _) :: rest =>
      let x := { x with last := x.last.set i (some (k.wsrc, now + 1024)), nets := x.nets.set net (N.sendHead i rest (wilvarCost k)),
                        lastNet := net }
      some ({ k with wsrc := sourcesOf x.last now }, i, x)

/-- A port that is up sends the packet whose turn it is, the virtual channels by turns (14 R323). -/
def State.portSend (s : State) (o : Fin 6) : State :=
  let x := s.wlv[o]
  if !x.trained || x.miscabled then s else
  match [x.lastNet + 1, x.lastNet + 2, x.lastNet + 3, x.lastNet].findSome? (x.send (fabricCycles s.tb)) with
  | none => s
  | some (k, i, x) =>
    let x := { x with tx := x.tx + wilvarFlits k, forwarded := if i = 6 then x.forwarded else x.forwarded + 1 }
    { s with wlv := s.wlv.set o x, wlvOut := s.wlvOut ++ [(o, k)] }

/-- A request for this module reaches the landing port of the polder that its offset names (11 R261, R263). -/
def State.deliver (s : State) (k : WilvarPacket) : State :=
  let p : Pid := Fin.ofNat 32 (k.offset.toNat / 2 ^ 43)
  let l : Landing := { window := Fin.ofNat 4 (k.offset.toNat / 2 ^ 41), offset := k.offset.setWidth 41, op := k.op,
                       sender := some (peerAddr k.source 0), tag := k.tag }
  s.onTerp p (fun T => { T with landing := T.landing ++ [l] })

/-- A packet of this module goes to the output of its first hop, with WSRC 1, or to its own landing port (14 R323, R325). -/
def State.ownPacket (s : State) (x : U64 × RemoteOp) : State :=
  let k : WilvarPacket := { dest := x.1.extractLsb' 48 12, source := s.cad.coord, offset := x.1.extractLsb' 0 48, op := x.2, net := .request }
  match nextHop s.cad k.dest with
  | some o => s.queueAt o 6 { k with dateline := crossesWrap s.cad o }
  | none => s.deliver k

/-- The outputs' turn: what this module has sent since joins its queues, and every port sends one packet. -/
def State.wilvarTurn (s : State) : State :=
  if !s.running || s.pnx.job.isNone then s
  else
    let s := { (s.sent.drop s.handed).foldl State.ownPacket s with handed := s.sent.length }
    (List.finRange 6).foldl State.portSend s

/-- A peer refused a packet of the instruction at a pc: the task it belongs to faults with REMOTE_WINDOW against it, and a transfer of
its move engine ends there (10 R219, 11 R262). -/
def State.refusedBy (s : State) (p : Pid) (pc info : U32) : State :=
  ({ s with transfers := s.transfers.filter (fun t => !(t.p == p && t.pc == pc)) } : State).taskFaultAt p pc 0x19 info

/-- WILVAR_PACKET_ARRIVAL: a request for this module goes to the landing port of the polder it names; a packet for another member
waits at the output of its next hop (14 R323-R325). A refusal faults the instruction that sent the packet (11 R262). Any other
response brings the data of an access of this module, which are
free values (DESIGN CHOICE, log entry 3). A miscabled port carries no job traffic (R322), and a port that is down holds the packet. -/
def execWilvarPacketArrival (w : Fin 6) (k : WilvarPacket) (s : State) : Outcome State Fault Refusal :=
  if !s.running || s.pnx.job.isNone || !s.portUp w || s.wlv[w].miscabled then .next s
  else if k.dest = s.cad.coord then
    let s := s.onWlv w (fun x => { x with rx := x.rx + wilvarFlits k })
    match k.net with
    | .response =>
      match k.op with
      | .refused p pc info => .next (s.refusedBy p pc info)
      | _ => .next s
    | .request => .next (s.deliver k)
  else
    match nextHop s.cad k.dest with
    | none => .next s
    | some o =>
      if !s.portUp o || s.wlv[o].miscabled then .next s else
      let along := o.val / 2 == w.val / 2
      let k := { k with dateline := (along && k.dateline) || crossesWrap s.cad o }
      .next ((s.onWlv w (fun x => { x with rx := x.rx + wilvarFlits k })).queueAt o w.castSucc k)

/-- WILVAR_FLIT_REPLAY: a flit that FEC cannot correct is replayed (14 R325). -/
def execWilvarFlitReplay (w : Fin 6) (s : State) : Outcome State Fault Refusal :=
  if !s.running || !s.portUp w then .next s
  else .next (s.onWlv w (fun x => { x with replays := x.replays + 1 }))

/-- WAKE_PATTERN_REPEAT: the pattern goes out at first and every 100 µs until the link trains (14 R326). -/
def execWakePatternRepeat (w : Fin 6) (s : State) : Outcome State Fault Refusal :=
  let x := s.wlv[w]
  let due := match x.wakeAt with
    | none => true
    | some t => 100000 ≤ (s.tb - t).toNat
  if !s.running || x.trained || !due then .next s
  else .next (s.onWlv w (fun x => { x with wakeAt := some s.tb }))

/-- WILVAR_PORT_DOWN: TRAINED and WIDTH clear until the port retrains (18 R424). -/
def execWilvarPortDown (w : Fin 6) (s : State) : Outcome State Fault Refusal :=
  .next (if s.running then s.onWlv w (fun x => { x with trained := false, width := 0 }) else s)

/-! ### Timebase discipline (14 R327-R329) -/

/-- Multiples of 2,000 ns at or after a time. -/
def nextInterval (t : Nat) : U64 := BitVec.ofNat 64 ((t + 1999) / 2000 * 2000)

/-- The one step of the timebase, at the first exchange after JOB_OPEN: it closes the estimation interval in progress, and the next
starts at the first multiple of 2,000 ns of the new timebase (14 R327, 16 R377). -/
def State.stepTimebase (s : State) (t : U64) : State :=
  { s with tb := t, cad := { s.cad with stepped := true, epoch := t.toNat / 20000 },
           pm := { s.pm with estCut := some s.pm.estStart, estStart := nextInterval t.toNat } }

/-- SYNC_EXCHANGE: every 10 µs a member computes its offset to its parent and steers by slewing, at most 200 ppm; 100 exchanges
within 0.8 ns in a row lock it, and one outside ends that (14 R327, R328). -/
def execSyncExchange (t : SyncStamps) (s : State) : Outcome State Fault Refusal :=
  let c := s.cad
  match c.parent with
  | none => .next s
  | some w =>
    if !s.running || s.pnx.job.isNone || s.leads || !s.portUp w || (s.tb - c.exchangeAt).toNat < 10000 then .next s else
    let off := ((t.t2 - t.t1) - (t.t4 - t.t3)) / 2
    let s := if c.stepped then s else s.stepTimebase t.parentTb
    let ok := decide (-800 ≤ off) && decide (off ≤ 800)
    let n := if ok then c.inBand + 1 else 0
    let becomes := ok && !c.locked && 100 ≤ n
    let slew := if c.stepped then max (-2000) (min 2000 off) else 0
    let s := { s with cad := { s.cad with
      offset := BitVec.ofInt 32 off, exchangeAt := s.tb, inBand := n, locked := ok && (c.locked || 100 ≤ n), slew, slewTick := 0,
      rateHeld := false } }
    .next (if becomes then s.announce 1 (classOpMax s.pm.coolClass) else s)

/-- PARENT_PORT_DOWN: the member holds its rate and takes the next route's first hop as its parent; with none it is not locked
(14 R329). -/
def execParentPortDown (s : State) : Outcome State Fault Refusal :=
  let c := s.cad
  match c.parent with
  | none => .next s
  | some w =>
    if !s.running || s.pnx.job.isNone || s.leads || s.portUp w then .next s else
    match chooseParent s with
    | some v => .next { s with cad := { c with parent := some v, rateHeld := true, reparent := c.reparent + 1 } }
    | none => .next { s with cad := { c with parent := none, rateHeld := true, locked := false } }

end Sys2Proof.Machine
end

