-- ==== Sys2Proof/Machine/Cadence.lean ====
section
/-! DEFINITION. Cadence (14 R330-R335): announcements that arrive, and what the member does at an epoch boundary (14 R333; 16 R370,
R373, R374, R380, R381, R388). -/

namespace Sys2Proof.Machine

open Host (Outcome)

/-! ### Announcements that arrive (14 R331, R332, R335) -/

/-- An announcement of a kind arrives: the first copy is flooded and handed to `k`; a later copy is discarded. -/
def announced (kind : BitVec 4) (port : Fin 6) (a : Announce) (s : State) (k : State → State) :
    Outcome State Fault Refusal :=
  if !s.running || s.pnx.job.isNone || !s.portUp port || a.kind ≠ kind then .next s
  else if s.cad.seen.contains (a.origin, a.seq) then .next s
  else .next (k (s.flood a (some port)))

/-- ANNOUNCE_LOCKED -/
def execAnnounceLocked (port : Fin 6) (a : Announce) (s : State) : Outcome State Fault Refusal :=
  announced 1 port a s (fun s => s.holdAnnounce a)
/-- ANNOUNCE_TARGET -/
def execAnnounceTarget (port : Fin 6) (a : Announce) (s : State) : Outcome State Fault Refusal :=
  announced 2 port a s (fun s => s.holdAnnounce a)
/-- ANNOUNCE_CAP -/
def execAnnounceCap (port : Fin 6) (a : Announce) (s : State) : Outcome State Fault Refusal :=
  announced 3 port a s (fun s => s.holdAnnounce a)
/-- ANNOUNCE_RELEASE -/
def execAnnounceRelease (port : Fin 6) (a : Announce) (s : State) : Outcome State Fault Refusal :=
  announced 4 port a s (fun s => s.holdAnnounce a)
/-- ANNOUNCE_HALT: it counts, and every wait's interval stands from its arrival on (14 R335). -/
def execAnnounceHalt (port : Fin 6) (a : Announce) (s : State) : Outcome State Fault Refusal :=
  announced 5 port a s (fun s => { s with cad := { s.cad with halts := s.cad.halts + 1 } }.haltFrom a.origin)
/-- ANNOUNCE_RESUME: the matching hold ends (14 R335). -/
def execAnnounceResume (port : Fin 6) (a : Announce) (s : State) : Outcome State Fault Refusal :=
  announced 6 port a s (fun s => s.resumeFrom a.origin)

/-! ### What takes effect at a boundary (14 R332, R333) -/

/-- Set the value an origin holds. -/
def setOrigin (l : List (BitVec 12 × Nat)) (o : BitVec 12) (v : Nat) : List (BitVec 12 × Nat) :=
  l.filter (fun e => e.1 != o) ++ [(o, v)]

/-- Apply one announcement: a LOCKED cap is permanent, a later CAP of an origin replaces its earlier one, and among TARGETs the
one with the highest SEQ is in force (compared modulo 2^16). -/
def Cad.apply (c : Cad) (a : Announce) : Cad :=
  let v := a.point.toNat
  if a.kind = 1 then { c with lockCaps := setOrigin c.lockCaps a.origin v }
  else if a.kind = 2 then
    let newer := match c.targetSeq with
      | none => true
      | some q => decide ((a.seq - q).toNat < 2 ^ 15)
    if newer then { c with targetOp := v, targetSeq := some a.seq, cadence := true } else c
  else if a.kind = 3 then { c with caps := setOrigin c.caps a.origin v }
  else if a.kind = 4 then { c with caps := c.caps.filter (fun e => e.1 != a.origin) }
  else c

/-- Apply every announcement that is due at a time. -/
def Cad.applyDue (c : Cad) (t : Nat) : Cad :=
  let due := c.held.filter (fun e => e.2 ≤ t)
  due.foldl (fun c e => c.apply e.1) { c with held := c.held.filter (fun e => !(e.2 ≤ t)) }

/-- The lowest CAP in force, LOCKED caps among them; 7 when there is none. -/
def Cad.capOp (c : Cad) : Nat := ((c.caps ++ c.lockCaps).map (·.2)).foldl min 7

/-- The point of the epoch that begins (14 R333): the TARGET lowered to the lowest CAP, OP0 before the first TARGET, at most one
point above the epoch before (16 R370), and never above the class (18 R428). -/
def nextPoint (s : State) : Nat :=
  let c := s.cad
  let p := if c.cadence then min c.targetOp c.capOp else 0
  min (min p (s.disc.opNow.toNat + 1)) (classOpMax s.pm.coolClass)

/-! ### Needs at a boundary (16 R373, R374, R388) -/

/-- A need that rises one point, withdrawn where that point would reach OP_MAX. -/
def riseNeed (opMax : Nat) (n : Option Nat) : Option Nat :=
  match n with
  | none => none
  | some x => if x + 1 < opMax then some (x + 1) else none

/-- The thermal throttle (16 R388); temperatures in 0.125 °C. -/
def Pm.throttle (m : Pm) (opMax point : Nat) (i : EpochInputs) : Pm :=
  let m := { m with coolEpochs := if i.tjMax ≤ 776 then m.coolEpochs + 1 else 0 }
  if 800 < i.tjMean then { m with nThrottle := some (point - 1) }
  else if m.nThrottle.isSome && 250 ≤ m.coolEpochs then { m with nThrottle := riseNeed opMax m.nThrottle }
  else m

/-- The sluice need rises after 50 consecutive epochs with headroom (16 R373). -/
def Pm.sluiceRise (m : Pm) (opMax : Nat) : Pm :=
  let n := if m.headroom then m.sluiceQuiet + 1 else 0
  if m.nSluice.isSome && 50 ≤ n then { m with sluiceQuiet := 0, nSluice := riseNeed opMax m.nSluice }
  else { m with sluiceQuiet := n }

/-- The droop need (16 R374): more than 8 droops of a quadrant in an epoch, or 50 consecutive epochs without. -/
def Pm.droopRule (m : Pm) (opMax point : Nat) : Pm :=
  let bad := m.droopEpoch.toList.any (fun n => decide (8 < n))
  let quiet := if bad then 0 else m.droopQuiet + 1
  let m := { m with droopEpoch := Vector.replicate 4 0, droopQuiet := quiet }
  if bad then { m with nDroop := some (point - 1) }
  else if m.nDroop.isSome && 50 ≤ quiet then { m with droopQuiet := 0, nDroop := riseNeed opMax m.nDroop }
  else m

/-- Stretches that end at the boundary where their point takes effect (16 R372, R389). -/
def Pm.endStretches (m : Pm) (point : Nat) : Pm :=
  { m with sluiceMhz := m.sluiceMhz.map (fun x => match x with
      | some (f, p) => if point ≤ p then none else some (f, p)
      | none => none),
           hardMhz := m.hardMhz && point != 0 }

/-! ### Phases (10 R238, 16 R380, R381) -/

/-- The phase of a program in force: of its hints the one with the latest stamp; for equal stamps the later one of the higher
logical polder. -/
def phaseInForce (s : State) (g : Fin 4) : Option (BitVec 6) :=
  let hints := (s.polders.toList.flatMap (fun P => P.hints)).filter (fun h => h.1 == g)
  (hints.foldl (fun best h => match best with
    | none => some h
    | some b => if b.2.2.1 ≤ h.2.2.1 then some h else some b) none).map (fun h => h.2.1)

/-- Change a phase record. -/
def State.onPhase (s : State) (g : Fin 4) (k : BitVec 6) (f : Phase → Phase) : State :=
  let row := s.pm.phases[g]
  { s with pm := { s.pm with phases := s.pm.phases.set g (row.set k.toFin (f row[k.toFin])) } }

/-- The record of a phase. -/
def State.phase (s : State) (g : Fin 4) (k : BitVec 6) : Phase := s.pm.phases[g][k.toFin]

/-- The input power limit of the class, W (16 Table 16-3). -/
def classWatts (c : BitVec 2) : Nat := if c = 0 then 1200 else if c = 1 then 1800 else if c = 2 then 1500 else 0

/-- PERFORMANCE: the highest sampled point within 95% of the input limit (an epoch is 20 µs, so 1 W is 20,000 nJ) and below every
point at which a sluice CAP arose; then the next point up is tried. -/
def Phase.performance (x : Phase) (watts opMax : Nat) : Phase :=
  let ok := fun (p : Fin 7) =>
    let l := x.samples[p]
    !l.isEmpty && 100 * (l.map (·.1)).sum ≤ 95 * watts * 20000 * l.length && x.sluiced.all (fun q => p.val < q)
  let best := ((List.finRange 7).filter ok).getLast?
  let trial := match best with
    | some p =>
      if 8 ≤ x.samples[p].length ∧ p.val + 1 ≤ opMax ∧ ((x.samples[Fin.ofNat 7 (p.val + 1)]).isEmpty) ∧ p.val < 6
      then some (p.val + 1) else none
    | none => none
  { x with learned := best.map (·.val), trial }

/-- EFFICIENCY: among points with 8 samples or more the one with the least mean energy per pair, a tie to the higher; then its
unsampled neighbours are tried, the lower first. -/
def Phase.efficiency (x : Phase) (opMax : Nat) : Phase :=
  let tot := fun (p : Fin 7) => ((x.samples[p].map (·.1)).sum, (x.samples[p].map (·.2)).sum)
  let best := ((List.finRange 7).filter (fun p => 8 ≤ x.samples[p].length)).foldl (fun best p => match best with
    | none => some p
    | some b => if (tot p).1 * (tot b).2 ≤ (tot b).1 * (tot p).2 then some p else some b) none
  let trial := match best with
    | some p =>
      if p.val ≠ 0 ∧ (x.samples[Fin.ofNat 7 (p.val - 1)]).isEmpty then some (p.val - 1)
      else if p.val + 1 ≤ min opMax 6 ∧ (x.samples[Fin.ofNat 7 (p.val + 1)]).isEmpty then some (p.val + 1) else none
    | none => none
  { x with learned := best.map (·.val), trial }

/-- A phase's learned point is valid once one point holds 8 samples (16 R381). -/
def Phase.valid (x : Phase) : Bool := x.samples.toList.any (fun l => 8 ≤ l.length)

/-- The program that issued the most plane pairs in the epoch, the lowest of equals. -/
def busiest (pairs : List Nat) : Option (Fin 4) :=
  (List.finRange 4).foldl (fun best g => match best with
    | none => if pairs.getD g.val 0 = 0 then none else some g
    | some b => if pairs.getD b.val 0 < pairs.getD g.val 0 then some g else some b) none

/-- The plane pairs that each program has issued in the epoch (16 R381). -/
def epochPairs (s : State) : List Nat :=
  s.herd.progs.toList.map (fun x => match x with
    | some P => ((planPolders P.plan).map (fun p => (s.polders[p].bpe.issued - s.pm.pairsAt[p]).toNat)).sum
    | none => 0)

/-- One sample for the phase in force of the busiest program (16 R381), unless the epoch held a stretch, a droop, a HALT or a
change of that phase; then the policy decides the learned point. -/
def State.learn (s : State) (point : Nat) : State :=
  if !s.leads || !s.pm.ctl.getLsbD 5 || s.pm.spoiled then s else
  let pairs := epochPairs s
  match busiest pairs with
  | none => s
  | some g =>
    match phaseInForce s g with
    | none => s
    | some k =>
      if s.pm.lastPhases[g] ≠ some k then s else
      let opMax := classOpMax s.pm.coolClass
      let p : Fin 7 := Fin.ofNat 7 point
      s.onPhase g k (fun x =>
        let l := x.samples[p] ++ [(s.pm.epochNj, pairs.sum)]
        let x := { x with taken := min 255 (x.taken + 1), samples := x.samples.set p (l.drop (l.length - 32)) }
        if s.pm.ctl.extractLsb' 16 2 = 1 then x.efficiency opMax else x.performance (classWatts s.pm.coolClass) opMax)

/-- The point a program asks for (10 R238): the one learned for its phase, else the preferred one, else the point in force. -/
def programPoint (s : State) (g : Fin 4) : Nat :=
  match phaseInForce s g with
  | none => s.disc.opNow.toNat
  | some k =>
    let x := s.phase g k
    if s.pm.ctl.getLsbD 5 && x.valid && x.learned.isSome then (x.trial.getD (x.learned.getD 0))
    else x.pref.getD s.disc.opNow.toNat

/-- The leader requests the highest point of the bound programs (16 R380). -/
def request (s : State) : Option Nat :=
  let ps := (List.finRange 4).filterMap (fun g => if s.herd.progs[g].isSome then some (programPoint s g) else none)
  if ps.isEmpty then none else some (ps.foldl max 0)

/-- Whether the leader holds LOCKED from every member (14 R333). -/
def allLocked (s : State) : Bool :=
  let c := s.cad
  decide (c.extent 0 * c.extent 1 * c.extent 2 ≤ c.lockCaps.length) || s.pnx.job.isNone

/-- The leader announces one TARGET where its request differs from the TARGET in force (14 R333, 16 R380). -/
def State.target (s : State) : State :=
  if !s.leads || !allLocked s then s else
  match request s with
  | none => s
  | some p => if s.cad.cadence && s.cad.targetOp == p then s else s.announce 2 p

/-- EPOCH_BOUNDARY: at the first boundary after the epoch last begun, the member applies the announcements due, steps its point,
ends the stretches it ends, applies throttle, sluice and droop rules, learns, announces, and begins the epoch. -/
def execEpochBoundary (i : EpochInputs) (s : State) : Outcome State Fault Refusal :=
  let k := s.tb.toNat / 20000
  if !s.running || k = s.cad.epoch then .next s else
  let old := s.disc.opNow.toNat
  let s := { s with cad := { s.cad.applyDue (20000 * k) with epoch := k } }
  let p := nextPoint s
  let s := s.setPoint p
  let opMax := classOpMax s.pm.coolClass
  let s := s.learn old
  let m := (((s.pm.endStretches p).throttle opMax p i).sluiceRise opMax).droopRule opMax p
  let s := { s with pm := { m with headroom := true, epochNj := 0, pairsAt := s.polders.map (fun (P : Polder) => P.bpe.issued) } }
  let s := s.refreshCap.target
  let phases : Vector (Option (BitVec 6)) 4 := Vector.ofFn (fun g => phaseInForce s g)
  let spoiled := (List.finRange 4).any (fun q => s.stretched q) || !s.cad.haltsHeld.isEmpty
  .next { s with pm := { s.pm with spoiled, lastPhases := phases } }

end Sys2Proof.Machine
end

