-- ==== Sys2Proof/Machine/Power.lean ====
section
/-! DEFINITION. The power block (16 R371-R391): sluice controllers, droops, estimates, the berm, entry into power states, wake
sources, gander comparators, the pre-alarm and the trip. -/

namespace Sys2Proof.Machine

open Host (Outcome)

/-! ### Rails and the sluice controller (16 R371-R373) -/

/-- The voltage of a rail, mV (16 Table 16-3); the arithmetic rails run at their point's set point (R369). -/
def railMv (s : State) (r : Nat) : Nat :=
  if r < 4 then opMv s.disc.opNow.toNat + s.sec.offsets[Fin.ofNat 4 r]
  else if r ≤ 6 then 750 else if r = 7 then 900 else if r = 8 then 1800 else if r = 9 then 1050 else if r = 10 then 900
  else if r = 11 then 500 else 750

/-- An energy of 2 µs as the mean current of a rail, mA, or as mean power of the module input, mW. -/
def meanOf (s : State) (r nj : Nat) : Nat := if r = 13 then nj / 2 else nj * 500 / railMv s r

/-- Accumulate nJ into a µJ counter with its fraction. -/
def addNj (uj : U64) (frac nj : Nat) : U64 × Nat := (uj + BitVec.ofNat 64 ((frac + nj) / 1000), (frac + nj) % 1000)

/-- The limit of a rail in its unit (16 Table 16-3), by class. -/
def railLimit (c : BitVec 2) (r : Nat) : U32 :=
  let by3 := fun (a l i : Nat) => if c = 0 then a else if c = 1 then l else if c = 2 then i else 0
  BitVec.ofNat 32 (1000 * (if r < 4 then by3 300 420 360 else if r = 4 then 160 else if r = 5 then 200 else if r = 6 then 120
    else if r = 7 then 60 else if r = 8 then 20 else if r = 9 then 180 else if r = 10 then 120 else if r = 11 then 260
    else if r = 12 then 2 else by3 1200 1800 1500))

/-- The stretch that a projection over the limit asks for: the highest point not above the one in force whose clock brings the
projection within the limit, with its clock in MHz; 150 MHz and OP0 where none does (16 R372). `total` and `limit10` are
sums over the window. -/
def sluicePoint (opNow total limit10 : Nat) : Nat × Nat :=
  match ((List.range (opNow + 1)).filter (fun p => total * opMhz p ≤ limit10 * opMhz opNow)).getLast? with
  | some p => (opMhz p, p)
  | none => (150, 0)

/-- Two stretches of a clock combine to the lower frequency (16 R374). -/
def combine (a : Option (Nat × Nat)) (b : Nat × Nat) : Nat × Nat :=
  match a with
  | none => b
  | some x => if b.1 < x.1 then b else x

/-- A sluice CAP arises: the phase in force of every bound program remembers the point (16 R381). -/
def State.noteSluice (s : State) : State :=
  (List.finRange 4).foldl (fun s g =>
    if s.herd.progs[g].isNone then s else
    match phaseInForce s g with
    | none => s
    | some k => s.onPhase g k (fun x => { x with sluiced := x.sluiced ++ [s.disc.opNow.toNat] })) s

/-- The window that the microsecond before a time belongs to (16 R371). -/
def windowOf (t : Nat) : Nat := (t / 1000 - 1) / 10

/-- A window of a rail closes: its mean is kept; one over its limit sets LIMIT_OVER, counts and asserts ALERT_N (16 R372). -/
def State.closeWindow (s : State) (r : Fin 14) (next : Nat) : State :=
  let x := s.pm.rails[r]
  let excess := decide (10 * x.limit.toNat < x.reports.sum)
  let y := { x with mean := BitVec.ofNat 32 (x.reports.sum / 10), reports := [], window := next }
  let m := { s.pm with rails := s.pm.rails.set r y }
  { s with pm := if excess then { m with limitOver := true, limitOvers := m.limitOvers + 1, alertAt := some s.tb } else m }

/-- CURRENT_REPORT: a regulator reports 1 µs; the controller projects the mean of the window, and over the limit it stretches the
clocks, lowers the sluice need and announces the CAP (16 R372, R373). The first report of a window closes the one before. -/
def execCurrentReport (r : Fin 14) (mean : U32) (s : State) : Outcome State Fault Refusal :=
  if !s.running then .next s else
  let k := windowOf s.tb.toNat
  let s := if s.pm.rails[r].window = k then s else s.closeWindow r k
  let x := s.pm.rails[r]
  let reports := x.reports ++ [mean.toNat]
  let x := { x with reports, window := k }
  let s := { s with pm := { s.pm with rails := s.pm.rails.set r x } }
  let s := if r.val = 13 then
      let (e, f) := addNj s.pm.energyInput s.pm.fracInput mean.toNat
      { s with pm := { s.pm with energyInput := e, fracInput := f } }
    else s
  let total := reports.sum + s.pm.estimate[r] * (10 - reports.length)
  let limit10 := 10 * x.limit.toNat
  if total ≤ limit10 then .next s else
  let op := s.disc.opNow.toNat
  let st := sluicePoint op total limit10
  let hits := fun (q : Fin 4) => decide (4 ≤ r.val) || r.val == q.val
  let mhz : Vector (Option (Nat × Nat)) 4 :=
    Vector.ofFn (fun q => if hits q then some (combine s.pm.sluiceMhz[q] st) else s.pm.sluiceMhz[q])
  let fresh := match s.pm.nSluice with
    | none => true
    | some n => decide (st.2 < n)
  let s := { s with pm := { s.pm with sluiceMhz := mhz, sluiceQuiet := 0, spoiled := true,
                                      nSluice := if fresh then some st.2 else s.pm.nSluice } }
  .next (if fresh then s.noteSluice.refreshCap else s)

/-- LIMIT_WINDOW_CLOSE: a window that is over closes (16 R372). -/
def execLimitWindowClose (r : Fin 14) (s : State) : Outcome State Fault Refusal :=
  let k := s.tb.toNat / 10000
  if !s.running || k ≤ s.pm.rails[r].window then .next s else .next (s.closeWindow r k)

/-- ALERT_PULSE_END: the 1 ms of a limit alert end (16 R372). -/
def execAlertPulseEnd (s : State) : Outcome State Fault Refusal :=
  match s.pm.alertAt with
  | none => .next s
  | some t => if (s.tb - t).toNat < 1000000 then .next s else .next { s with pm := { s.pm with alertAt := none } }

/-! ### Droops (16 R374) -/

/-- DROOP_DETECT: the stretcher swallows every second pulse; the event counts (16 R374). -/
def execDroopDetect (q : Quad) (s : State) : Outcome State Fault Refusal :=
  if !s.running || s.pm.droop[q] then .next s
  else
    let m := s.pm
    .next { s with pm := { m with droop := m.droop.set q true, droops := m.droops + 1, spoiled := true,
                                  droopEpoch := m.droopEpoch.set q (m.droopEpoch[q] + 1) } }

/-- DROOP_RELEASE (16 R374). -/
def execDroopRelease (q : Quad) (s : State) : Outcome State Fault Refusal :=
  .next (if s.running then { s with pm := { s.pm with droop := s.pm.droop.set q false } } else s)

/-! ### Estimation (16 R375-R377) -/

/-- Whether an interval that starts at `t` belongs to the job (16 R377). -/
def inJob (m : Pm) (t : U64) : Bool :=
  match m.jobFrom with
  | none => false
  | some a => a ≤ t && (match m.jobTo with | none => true | some b => decide (t < b))

/-- Whether estimates scaled to the next point up, by f and by the square of VARITH, stay at or below 90% of every limit (16 R373). -/
def hasHeadroom (s : State) (est : Vector Nat 14) : Bool :=
  let p := s.disc.opNow.toNat
  (List.finRange 14).all (fun r =>
    10 * est[r] * opMhz (p + 1) * opMv (p + 1) ^ 2 ≤ 9 * s.pm.rails[r].limit.toNat * opMhz p * opMv p ^ 2)

/-- ESTIMATE_INTERVAL_CLOSE: an interval's estimate is published and accumulated, with fractions carried; an interval that the
timebase's step has cut closes first (16 R375-R377). -/
def execEstimateIntervalClose (railNj : List Nat) (inputNj : Nat) (s : State) : Outcome State Fault Refusal :=
  let m := s.pm
  let start := m.estCut.getD m.estStart
  if !s.running || (m.estCut.isNone && s.tb.toNat < m.estStart.toNat + 2000) then .next s else
  let (tot, ft) := addNj m.energyTotal m.fracTotal inputNj
  let (job, fj) := if inJob m start then addNj m.energyJob m.fracJob inputNj else (m.energyJob, m.fracJob)
  let est : Vector Nat 14 := Vector.ofFn (fun r => meanOf s r.val (if r.val = 13 then inputNj else railNj.getD r.val 0))
  .next { s with pm := { m with powerEst := BitVec.ofNat 16 (min 65535 (inputNj / 250)), energyTotal := tot, fracTotal := ft,
                                energyJob := job, fracJob := fj, estimate := est, estCut := none,
                                headroom := m.headroom && hasHeadroom s est, epochNj := m.epochNj + inputNj,
                                estStart := if m.estCut.isNone then m.estStart + 2000 else m.estStart } }

/-! ### The berm and A1 (16 R378, R379, R383) -/

/-- One unit towards a demand. -/
def towards (level demand : Nat) : Nat := if level < demand then level + 1 else if demand < level then level - 1 else level

/-- BERM_STEP: at the start of a step of 125 ns the level moves one unit towards the demand; cycles withheld and filler cycles of the
step before count (16 R378, R379). -/
def execBermStep (q : Quad) (b : BermInputs) (s : State) : Outcome State Fault Refusal :=
  let m := s.pm
  let k := s.tb.toNat / 125
  if !s.arithOn || m.bermStep[q] = k then .next s else
  .next { s with pm := { m with berm := m.berm.set q (towards m.berm[q] (min 64 b.demand.toNat)), bermStep := m.bermStep.set q k,
                                bermGaps := m.bermGaps + b.gaps.setWidth 64, bermFills := m.bermFills + b.fills.setWidth 64 } }

/-- Whether no polder of a quadrant has a task, a queued record, a pass or a drain (16 Table 16-4). -/
def quadIdle (s : State) (q : Quad) : Bool :=
  (List.finRange 32).all (fun p => quadOf p != q ||
    (s.polders[p].task.isNone && s.polders[p].seq.queue.isEmpty && arrayIdle s.polders[p]))

/-- A1_ENTRY: after 1 µs idle at berm level 0 the quadrant's clock is gated (16 Table 16-4). -/
def execA1Entry (q : Quad) (s : State) : Outcome State Fault Refusal :=
  let m := s.pm
  if !s.arithOn || m.a1[q] || m.berm[q] ≠ 0 || !quadIdle s q || (s.tb - m.idleAt[q]).toNat < 1000 then .next s
  else .next { s with pm := { m with a1 := m.a1.set q true } }

/-! ### Entry into S1 and S2 (16 R383, R384) -/

/-- Entry into S1 or S2 begins: GANDER_WAKE_SRC no longer describes a wake; before S2 the caches flush, and the grant ends
(16 R383, R384; 17 R421). -/
def State.enter (s : State) (goal : PowerState) : State :=
  let s := { s with pm := { s.pm with entering := some goal, wakeLatched := false },
                    gander := { s.gander with wakeSrc := 0 } }
  if goal = .s2 then
    let s := (List.finRange 4).foldl (fun s k => s.mscFlush k) s
    { s with sec := { s.sec with granted := if s.sec.granted = 1 then 2 else s.sec.granted, rights := 0 } }
  else s

/-- A Herd request to enter a state is refused unless no job is open and no program is bound (16 R383). -/
def State.request (s : State) (goal : PowerState) : State :=
  if !s.running || s.pm.entering.isSome then s
  else if !s.unused then { s with reply := .status 1 }
  else s.enter goal

/-- PM_CTL_S1_REQ (16 R383). -/
def execPmCtlS1Req (s : State) : Outcome State Fault Refusal := .next (s.request .s1)
/-- PM_CTL_S2_REQ (16 R383). -/
def execPmCtlS2Req (s : State) : Outcome State Fault Refusal := .next (s.request .s2)

/-- S1_IDLE_TIMEOUT: S1_IDLE_MS with no job and no program; 0 means never (16 Table 16-4). -/
def execS1IdleTimeout (s : State) : Outcome State Fault Refusal :=
  let ms := (s.pm.ctl.extractLsb' 8 8).toNat
  if !s.running || s.pm.entering.isSome || !s.unused || ms = 0 || (s.tb - s.pm.idleSince).toNat < 1000000 * ms then .next s
  else .next (s.enter .s1)

/-- POWER_STATE_ENTRY_COMPLETE: the state holds; before S2 the saved set of 16 Table 16-5 is written and the terps lose power
(R245). A wake latched meanwhile can follow at once (R383). -/
def execPowerStateEntryComplete (s : State) : Outcome State Fault Refusal :=
  match s.pm.entering with
  | none => .next s
  | some goal =>
    let s := { s with pm := { s.pm with entering := none, state := goal } }
    if goal = .s2 then
      let owners : Vector (BitVec 4) 32 := Vector.ofFn (fun k => s.ownerOf (64 + k.val))
      .next { s with pm := { s.pm with saved := some (s.disc.siteOf, s.disc.state, s.disc.mapGen, owners) },
                     sec := { s.sec with savedMeas := s.sec.measured },
                     mem := s.mem.filter (fun c => c.1 < 0x8000000000),
                     msc := s.msc.map (fun c => { c with ways := [], tree := [], flushing := none }) }
    else .next s

/-! ### Wake sources (16 R385, R386) -/

/-- A wake source fires: in S1, S2 or on the way there it is recorded, and the first is stamped (16 R385). -/
def State.wakeSource (s : State) (bits : U32) : State :=
  let asleep := decide (s.pm.state = .s1) || decide (s.pm.state = .s2) || s.pm.entering.isSome
  if !asleep then s else
  { s with pm := { s.pm with wakeLatched := true },
           gander := { s.gander with wakeSrc := s.gander.wakeSrc ||| bits ||| 1,
                                     wakeTime := if s.gander.wakeSrc.getLsbD 0 then s.gander.wakeTime else s.tb } }

/-- WAKE_N_ASSERT (16 R385). -/
def execWakeNAssert (s : State) : Outcome State Fault Refusal := .next (s.wakeSource 8)

/-- LINK_SIGNAL_DETECT: signal energy wakes; a received wake pattern sets WAKE_SEEN of its port (14 R326, 16 R385). -/
def execLinkSignalDetect (src : LinkDetector) (pattern : Bool) (s : State) : Outcome State Fault Refusal :=
  if decide (s.pm.state = .off) || decide (s.pm.state = .refused) then .next s else
  match src with
  | .palnex _ => .next (s.wakeSource 4)
  | .wilvar w =>
    let s := if pattern then s.onWlv w (fun x => { x with wakeSeen := true }) else s
    .next (s.wakeSource 2)

/-! ### Gander comparators, the pre-alarm and the trip (16 R389-R393) -/

/-- Whether a channel is valid in the present state (16 Table 16-7). -/
def channelValid (s : State) (src : Nat) : Bool :=
  let on := s.running
  let s1 := decide (s.pm.state = .s1)
  if s.pm.state = .off then false
  else if src = 0 then on else if src ≤ 3 then true else if src = 4 then on || s1 else if src ≤ 8 then on
  else if src = 9 then on || s1 else false

/-- The trip: arithmetic stops with its state retained, TRIP_N goes out, HALT is announced, and the trip counts; a third within 1 s
locks the module out (16 R390). -/
def State.trip (s : State) : State :=
  if s.pm.halted then s else
  let times := s.pm.tripTimes ++ [s.tb]
  let recent := times.filter (fun t => (s.tb - t).toNat < 1000000000)
  let m := { s.pm with halted := true, trips := s.pm.trips + 1, tripTimes := recent, coolSince := none,
                       lockout := s.pm.lockout || 3 ≤ recent.length }
  ({ s with pm := m }.announce 5 0).haltFrom s.cad.coord

/-- The pre-alarm fires: every arithmetic clock is stretched to 300 MHz and its need becomes OP0 (16 R389). -/
def State.preAlarm (s : State) : State :=
  { s with pm := { s.pm with prealarm := true, hardMhz := true, nPrealarm := some 0, spoiled := true } }.refreshCap

/-- The pre-alarm clears: the throttle need is OP0 if it lay higher, and the pre-alarm need is withdrawn (16 R389). -/
def State.preAlarmClears (s : State) : State :=
  { s with pm := { s.pm with prealarm := false, nPrealarm := none, nThrottle := some 0 } }.refreshCap

/-- A comparator after a sample v in its channel's unit: rising or falling with hysteresis (16 R391). -/
def compare1 (falling : Bool) (thr hyst v : Int) (was : Bool) : Bool :=
  if falling then (if v ≤ thr then true else if thr + hyst ≤ v then false else was)
  else (if thr ≤ v then true else if v ≤ thr - hyst then false else was)

/-- A comparator becomes active or inactive: FIRED, and its actions (16 R391). -/
def State.comparator (s : State) (n : Fin 8) (now : Bool) : State :=
  let g := s.gander
  let was := g.active[n]
  let act := g.cmp[n].extractLsb' 22 4
  let wov := n == 7 && g.wovHolds
  let s := { s with gander := { g with active := g.active.set n now,
                                       fired := if now && !was then g.fired ||| (1#8 <<< n.val) else g.fired } }
  if now && !was then
    let s := if act.getLsbD 3 || wov then s.wakeSource (1#32 <<< (8 + n.val)) else s
    let s := if act.getLsbD 1 then { s with pm := { s.pm with ganderEvents := s.pm.ganderEvents ++ [n] } } else s
    let s := if act.getLsbD 0 && !wov then
      { s with pm := { s.pm with hardMhz := true, spoiled := true } }.refreshCap else s
    if n = 0 then s.trip
    else if n = 7 ∧ wov = false then s.preAlarm else s
  else if was && !now then
    if n = 7 ∧ wov = false then s.preAlarmClears else s.refreshCap
  else s

/-- The holder of G7 at a sample (16 R393): wake-on-voltage in S1 and S2, or where the pre-alarm is off; the pre-alarm takes it back
at a valid TJ_MAX sample. A change of holder resets G7. -/
def State.holdG7 (s : State) (src : Nat) : State :=
  let asleep := decide (s.pm.state = .s1) || decide (s.pm.state = .s2)
  let wov := s.pm.ctl.getLsbD 7
  let pre := s.pm.ctl.getLsbD 6
  let next := if wov && (asleep || !pre) then true
    else if pre && src = 0 && channelValid s 0 then false
    else if !wov then false else s.gander.wovHolds
  if next = s.gander.wovHolds then s
  else { s with gander := { s.gander with wovHolds := next, active := s.gander.active.set 7 false } }

/-- GANDER_SAMPLE: the comparator takes a sample of its channel; a channel that is not valid, and a comparator that is not enabled,
is inactive (16 R391-R393). A sample of another channel is no sample of this comparator. TJ_MAX at 115.0 °C trips whatever G0 is set to:
firmware cannot mask the trip (R390). -/
def execGanderSample (n : Fin 8) (src : BitVec 4) (value : U32) (s : State) : Outcome State Fault Refusal :=
  if s.pm.state = .off then .next s else
  let s := if n = 0 ∧ src = 0 ∧ channelValid s 0 ∧ 920 ≤ value.toInt then s.trip else s
  let s := if n = 7 then s.holdG7 src.toNat else s
  let c := s.gander.cmp[n]
  let wov := n == 7 && s.gander.wovHolds
  if src ≠ (if wov then 3 else c.extractLsb' 18 4) then .next s else
  let valid := channelValid s src.toNat
  let s := { s with gander := { s.gander with value := s.gander.value.set n (if valid then value else 0x80000000) },
                    pm := { s.pm with sensors := s.pm.sensors.set src.toFin (if valid then some value else none) } }
  let on := valid && c.getLsbD 27 && (n != 7 || wov || s.pm.ctl.getLsbD 6)
  let thr : Int := if wov then s.gander.wov.toNat else (s.gander.thr[n].extractLsb' 0 28).toInt
  let now := on && compare1 (!wov && c.getLsbD 26) thr (c.extractLsb' 0 16).toNat value.toInt s.gander.active[n]
  let s := if n = 0 ∧ valid then
      { s with pm := { s.pm with coolSince :=
          if s.pm.halted && value.toInt ≤ 760 then (if s.pm.coolSince.isSome then s.pm.coolSince else some s.tb) else none } }
    else s
  .next (s.comparator n now)

/-- TRIP_RESTART: after 1 ms at or below 95.0 °C the arithmetic clocks restart at 300 MHz, the throttle need is OP0, TRIP_N is
released and RESUME announced; a lockout stays until it is cleared (16 R390). -/
def execTripRestart (s : State) : Outcome State Fault Refusal :=
  match s.pm.coolSince with
  | none => .next s
  | some t =>
    if !s.running || !s.pm.halted || s.pm.lockout || (s.tb - t).toNat < 1000000 then .next s else
    let s := { s with pm := { s.pm with halted := false, coolSince := none, hardMhz := true, nThrottle := some 0 } }
    .next ((s.refreshCap.announce 6 0).resumeFrom s.cad.coord)

/-- A write of GANDER_CMP_n or GANDER_THR_n: refused with RESOURCE_HELD where OWNER differs from the owner of entry 64 + n
(16 R392). -/
def State.ganderWrite (s : State) (n : Fin 8) (thr : Bool) (v : U32) : State :=
  if v.extractLsb' 28 4 ≠ s.ownerOf (64 + n.val) then
    { s with gander := { s.gander with refused := true }, reply := .status 5 }
  else
    let g := s.gander
    if thr then { s with gander := { g with thr := g.thr.set n v } }
    else
      let s := { s with gander := { g with cmp := g.cmp.set n (v &&& 0xFFFCFFFF) } }
      if v.getLsbD 27 then s else s.comparator n false

/-- GANDER_CMP_WRITE (16 R392). -/
def execGanderCmpWrite (n : Fin 8) (v : U32) (s : State) : Outcome State Fault Refusal :=
  whenRunning s fun s => .next (s.ganderWrite n false v)
/-- GANDER_THR_WRITE (16 R392). -/
def execGanderThrWrite (n : Fin 8) (v : U32) (s : State) : Outcome State Fault Refusal :=
  whenRunning s fun s => .next (s.ganderWrite n true v)

end Sys2Proof.Machine
end

