-- ==== Sys2Proof/Machine/Integrity.lean ====
section
/-! DEFINITION. Scratchpad protection and the checkpoint copy engines (17 R399-R401, R409; 13 R304). -/

namespace Sys2Proof.Machine

open Host (Outcome)

/-! ### Scratchpad words (17 R399-R401) -/

/-- The refetch entry of a polder that covers a slot: the slot's image (17 R400). -/
def refetchImage (s : State) (p : Pid) (n : Nat) : Option Nat :=
  (List.finRange 16).findSome? (fun e =>
    let src := s.integ.rfSrc[p][e]
    let first := (src.extractLsb' 0 17).toNat
    if src.getLsbD 63 && first ≤ n && n < first + (src.extractLsb' 32 17).toNat then
      some (s.integ.rfMst[p][e].toNat + 4096 * (n - first)) else none)

/-- The nanoseconds of 24 hours. -/
def dayNs : Nat := 86400000000000

/-- An uncorrectable word (17 R400, R401): in a weight bank whose slot the refetch table covers, the reader waits for a refetch; any
other counts and starts a rollback, and a second within 24 hours of the first plans the site's replacement. -/
def State.wordLost (s : State) (p : Pid) (n : Nat) : State :=
  let weight := s.polders[p].terp.banks[bankIx n].prot
  if weight && (refetchImage s p n).isSome then
    if s.integ.refetching.contains (p, n) then s
    else { s with integ := { s.integ with refetching := s.integ.refetching ++ [(p, n)] } }
  else
    let x := s.integ.sites[s.siteOf p]
    let again := match x.firstUe with
      | some t => decide ((s.tb - t).toNat < dayNs)
      | none => false
    let s := s.onSite (s.siteOf p) (fun x => { x with ue := x.ue + 1, firstUe := if again then x.firstUe else some s.tb })
    let s := if again then s.planSite (s.siteOf p) else s
    s.startRollback .uncorrectable

/-- TERP_PATROL_SCRUB: a word of an ON bank is read and checked; a corrected word counts and is written back (17 R399). -/
def execTerpPatrolScrub (p : Pid) (addr : BitVec 29) (ecc : Ecc) (s : State) : Outcome State Fault Refusal :=
  let n := addr.toNat / 4096
  let b := s.polders[p].terp.banks[bankIx n]
  if !s.running || scratchBytes ≤ addr.toNat || b.busy || b.power ≠ 0 || s.integ.refetching.contains (p, n) then .next s
  else match ecc with
    | .clean => .next s
    | .corrected _ => .next (s.onSite (s.siteOf p) (fun x => { x with ce := x.ce + 1 }))
    | .uncorrectable | .miscorrected => .next (s.wordLost p n)

/-- REFETCH_DONE: the slot is rewritten from its image, and the readers that waited retry (17 R400). -/
def execRefetchDone (p : Pid) (slot : BitVec 17) (s : State) : Outcome State Fault Refusal :=
  let n := slot.toNat
  if !s.running || !s.integ.refetching.contains (p, n) then .next s else
  let s := { s with integ := { s.integ with refetching := s.integ.refetching.erase (p, n) } }
  match refetchImage s p n with
  | none => .next s
  | some a =>
    let s := s.putBytes (scratchAddr p (4096 * n)) (s.bytes a 4096)
    .next (s.onSite (s.siteOf p) (fun x => { x with refetch := x.refetch + 1 }))

/-! ### The copy engines (17 R409) -/

/-- One past the last unit of the checkpoint reserve (13 R304). -/
def reserveUnits : Nat := 33521664

/-- Set a run of reserve bytes. -/
def putReserve : Sparse Byte → Nat → List Byte → Sparse Byte
  | r, _, [] => r
  | r, a, b :: t => putReserve (sput 0 r a b) (a + 1) t

/-- A write of CKPT_CTL: DIR is written; GO starts a copy with what the registers hold then, is ignored while one runs, and sets ERR
where the range passes the last unit (00 R8, 17 R409). -/
def State.ckptWrite (s : State) (v : U32) : State :=
  let c := { s.ckpt with ctl := v &&& 0x40000000 }
  if !v.getLsbD 31 || c.busy then { s with ckpt := c }
  else if reserveUnits < c.unit.toNat + c.units.toNat then { s with ckpt := { c with status := c.status ||| 8 } }
  else { s with ckpt := { c with busy := true, job := { restore := v.getLsbD 30, addr := c.addr.toNat, unit := c.unit.toNat,
                                                         units := c.units.toNat } } }

/-- CKPT_CTL_GO (17 R409). -/
def execCkptCtlGo (v : U32) (s : State) : Outcome State Fault Refusal :=
  whenRunning s fun s => .next (s.ckptWrite (v ||| 0x80000000))

/-- The bytes of a unit: the payload in lines 0 to 14, and in line 15 the check bytes of those lines (13 R304). -/
def unitBytes (payload : List Byte) : List Byte :=
  payload ++ (List.range 15).flatMap (fun j => leBytes 4 (Config.rsCheck ((payload.drop (64 * j)).take 64)).toNat) ++ List.replicate 4 0

/-- The units of a copy whose bytes come with it. -/
def putUnits (r : Sparse Byte) (first : Nat) (bs : List Byte) : Nat → Sparse Byte
  | 0 => r
  | k + 1 => putReserve (putUnits r first bs k) (1024 * (first + k)) (unitBytes ((bs.drop (960 * k)).take 960))

/-- The payload of a run of units. -/
def readUnits (r : Sparse Byte) (first n : Nat) : List Byte :=
  (List.range n).flatMap (fun k => (List.range 960).map (fun i => sget 0 r (1024 * (first + k) + i)))

/-- Whether a run of units has one on a channel that has failed (13 R304, R307). -/
def unitsDead (s : State) (first n : Nat) : Bool :=
  s.mc.any (fun c => !c.failed.isEmpty) && (List.range n).any (fun k =>
    let (m, l) := unitLine (first + k) 0
    s.mc[m].failed.any (fun x => x.val == (locOf (16 * s.mc[m].servedHalf (l.id / 16))).chan))

/-- CKPT_COPY_DONE: 960 bytes per unit have moved, and DONE is set; a restore that met an uncorrectable unit sets UE and passes on
no value (17 R402, R403, R409). -/
def execCkptCopyDone (ue : Bool) (s : State) : Outcome State Fault Refusal :=
  let c := s.ckpt
  if !s.running || !c.busy then .next s else
  let ue := ue || unitsDead s c.job.unit c.job.units
  let n := 960 * c.job.units
  let restore := c.job.restore
  let done := { c with busy := false, status := c.status ||| 2 ||| (if restore && ue then 4 else 0) }
  if !restore then .next { s with ckpt := { done with reserve := putUnits c.reserve c.job.unit (s.bytes c.job.addr n) c.job.units } }
  else if ue then .next { s with ckpt := done }
  else .next ({ s with ckpt := done }.putBytes c.job.addr (readUnits c.reserve c.job.unit c.job.units))

end Sys2Proof.Machine
end

