-- ==== Sys2Proof/Machine/Security.lean ====
section
/-! DEFINITION. Secure boot, identity, attestation and debug access (17 R411-R421). SHA3-256, SHAKE256 and ML-DSA-65 are constants
without a body (DESIGN CHOICE, log entry 5). -/

namespace Sys2Proof.Machine

open Host (Outcome)

/-! ### Images (17 R411-R413) -/

/-- A field of an image header. -/
def headerNum (h : List Byte) (off n : Nat) : Nat := leNat ((h.drop off).take n)

/-- The first check that an image fails, 1 to 5 (17 R412); none where it passes them all. -/
def imageCheck (ctr : BitVec 6) (i : FwImage) : Option Nat :=
  let h := i.header
  let key := (h.drop 64).take 1952
  if h.length ≠ 8192 ∨ headerNum h 0 4 ≠ 0x4A584631 ∨ headerNum h 12 4 ≠ i.payload.length ∨ 50323456 < i.payload.length then
    some 1
  else if Config.sha3 key ≠ Config.fwKeyHash then some 2
  else if headerNum h 8 4 < ctr.toNat then some 3
  else if Config.sha3 i.payload ≠ (h.drop 32).take 32 then some 4
  else if !Config.verifies key (Config.sha3 (h.take 2016)) ((h.drop 2016).take 3309) then some 5
  else none

/-- The image of slot A or B. -/
def Flash.slot (f : Flash) (b : Bool) : FwImage := f.images[if b then (1 : Fin 2) else 0]

/-- The boot control record as a boot finds it: a pending slot without tries left loses its mark, and the other slot is preferred
(17 R413). -/
def Flash.settle (f : Flash) : Flash :=
  match f.pending with
  | some b => if f.tries = 0 then { f with pending := none, preferB := !b } else f
  | none => f

/-- The slot that boots, the preferred one first (17 R412). -/
def Flash.bootable (f : Flash) (ctr : BitVec 6) : Option Bool :=
  [f.preferB, !f.preferB].find? (fun b => (imageCheck ctr (f.slot b)).isNone)

/-! ### Identity and the calibration set (17 R415, R417, R418) -/

/-- The bytes of an ASCII label. -/
def label (cs : List Nat) : List Byte := cs.map (BitVec.ofNat 8)

/-- The seed of the device identity key: SHAKE256(UDS, "RARAL-DEVID"). -/
def deviceSeed : List Byte := Config.shake256 (Config.uds ++ label [82, 65, 82, 65, 76, 45, 68, 69, 86, 73, 68])

/-- DEVICE_ID: SHA3-256 of the device identity public key. -/
def deviceId : List Byte := Config.sha3 (Config.keyOf deviceSeed)

/-- Measurement block 2: the running image's header digest, slot and SVN. -/
def Measured.m2 (m : Measured) : List Byte := m.header ++ [if m.slotB then 1 else 0, m.svn]

/-- The seed of the alias key: SHAKE256(UDS, M2, SVN, "RARAL-ALIAS"). -/
def aliasSeed (m : Measured) : List Byte :=
  Config.shake256 (Config.uds ++ m.m2 ++ [m.svn] ++ label [82, 65, 82, 65, 76, 45, 65, 76, 73, 65, 83])

/-- The certificate chain of slot 0: the chain in flash, and the alias key signed with the device identity key. -/
def certificate (m : Measured) : List Byte :=
  let k := Config.keyOf (aliasSeed m)
  Config.certChain ++ k ++ Config.sign deviceSeed k

/-- The origin of a calibration set: 1 FACTORY, 2 USER, 0 NONE (17 R418). -/
def calOrigin (c : List Byte) : BitVec 2 :=
  let n := headerNum c 0 4
  let body := (c.drop 40).take n
  let sig := (c.drop (40 + n)).take 3309
  if n > 640000 ∨ headerNum c 4 4 ≠ 1 ∨ sig.length ≠ 3309 then 0
  else if (c.drop 8).take 32 = deviceId ∧ Config.verifies Config.calKey (Config.sha3 (c.take (40 + n))) sig then 1
  else if sig.all (· == 0) ∧ Config.calInRange body then 2
  else 0

/-! ### The boot ROM (17 R412-R414) -/

/-- The first nonce that is not all zero (17 R420). -/
def freshNonce (old : BitVec 256) (draws : List (BitVec 256)) : BitVec 256 := (draws.find? (fun n => n != 0)).getD old

/-- The VARITH offsets in force, 0 to 30 mV: those of the set, and 30 mV for a set of no origin (16 R369, 17 R418). -/
def offsetsOf (origin : BitVec 2) (cal : List Byte) : Vector Nat 4 :=
  Vector.ofFn (fun q => if origin = 0 then 30 else Config.varithOffset cal q.val % 31)

/-- The boot ROM runs: it boots the first slot that passes, uses one try of a pending slot, decides the calibration set's origin,
records the measurements and draws a nonce; with no valid slot the module enters recovery. -/
def State.bootRom (s : State) (entropy : List (BitVec 256)) : State :=
  let f := s.flash.settle
  let nonce := freshNonce 0 entropy
  match f.bootable s.sec.fuseCtr with
  | none =>
    { s with flash := f, sec := { s.sec with recovery := true, measured := none, nonce, granted := 0, rights := 0 },
             pm := { s.pm with state := .recovery } }
  | some b =>
    let h := (f.slot b).header
    let svn := BitVec.ofNat 8 (headerNum h 8 4)
    let org := calOrigin f.cal
    let m : Measured := { rom := Config.sha3 Config.bootRom, header := Config.sha3 h, slotB := b, svn, ctr := s.sec.fuseCtr,
                          cal := Config.sha3 f.cal, origin := org }
    let mine := decide (f.pending = some b)
    { s with flash := if mine then { f with tries := f.tries - 1 } else f,
             sec := { s.sec with recovery := false, svn, slotB := b, unconfirmed := mine, calOrigin := org, measured := some m, offsets := offsetsOf org f.cal,
                                 nonce, granted := 0, rights := 0 } }

/-- Firmware confirms the image when Herd is ready: the pending mark goes, and the counter, which never decreases, burns up to a higher
SVN; 63 is its last value (17 R413, R422; DESIGN CHOICE, log entry 5). -/
def State.confirm (s : State) : State :=
  let ctr := s.sec.fuseCtr
  let up := if ctr.toNat < s.sec.svn.toNat then BitVec.ofNat 6 (min 63 s.sec.svn.toNat) else ctr
  { s with flash := if s.sec.unconfirmed then { s.flash with pending := none } else s.flash,
           sec := { s.sec with unconfirmed := false, fuseCtr := up } }

/-! ### Attestation (17 R416) -/

/-- An in-band interrupt tells the controller that an MCTP packet waits, unless its events are disabled (18 R432). -/
def State.interrupt (s : State) : State :=
  if s.mgt.events.getLsbD 0 then { s with mgt := { s.mgt with ibis := s.mgt.ibis + 1 } } else s

/-- SPDM is answered in A0, A1 and S1 once the boot measurements are recorded (18 Table 18-9). -/
def attested (s : State) (k : Measured → State) : Outcome State Fault Refusal :=
  match s.sec.measured with
  | some m => if s.running || decide (s.pm.state = .s1) then .next (k m).interrupt else .next s
  | none => .next s

/-- An ERROR response: its code and its data (PRESUMED, log entry 38: the codes of SPDM). -/
def State.spdmError (s : State) (code data : Byte) : State := { s with reply := .bytes [0x7F, code, data] }

/-- A response. -/
def State.answer (s : State) (bs : List Byte) : State := { s with reply := .bytes bs }

/-- GET_VERSION -/
def execGetVersion (s : State) : Outcome State Fault Refusal := attested s fun _ => s.answer [0x04]

/-- GET_CAPABILITIES: CERT_CAP, CHAL_CAP and MEAS_CAP with signature, and no other (17 Table 17-7). -/
def execGetCapabilities (s : State) : Outcome State Fault Refusal := attested s fun _ => s.answer [0x61, 0x16, 0, 0, 0]

/-- NEGOTIATE_ALGORITHMS: ML-DSA-65 and SHA3-256 are the only algorithms offered; a requester without them receives ERROR
(17 R416). Bit 1 of `asym` and bit 3 of `hash` name them (PRESUMED, log entry 38). -/
def execNegotiateAlgorithms (asym hash : U32) (s : State) : Outcome State Fault Refusal :=
  attested s fun _ =>
    if asym.getLsbD 1 && hash.getLsbD 3 then
      { s with mgt := { s.mgt with negotiated := true } }.answer ([0x63] ++ leBytes 4 2 ++ leBytes 4 8)
    else s.spdmError 1 0

/-- GET_DIGESTS: the digest of slot 0's chain. -/
def execGetDigests (s : State) : Outcome State Fault Refusal :=
  attested s fun m => s.answer ([0x01, 0x01] ++ Config.sha3 (certificate m))

/-- GET_CERTIFICATE: a portion of slot 0's chain; no other slot exists. -/
def execGetCertificate (slot : BitVec 4) (offset len : BitVec 16) (s : State) : Outcome State Fault Refusal :=
  attested s fun m =>
    if slot ≠ 0 then s.spdmError 1 0
    else s.answer ([0x02, 0x00] ++ ((certificate m).drop offset.toNat).take len.toNat)

/-- CHALLENGE: the chain digest and the nonce, signed with the alias key. -/
def execChallenge (slot : BitVec 4) (nonce : BitVec 256) (s : State) : Outcome State Fault Refusal :=
  attested s fun m =>
    if slot ≠ 0 then s.spdmError 1 0
    else
      let body := Config.sha3 (certificate m) ++ leBytes 32 nonce.toNat
      s.answer ([0x03, 0x00] ++ body ++ Config.sign (aliasSeed m) body)

/-- A measurement block (17 Table 17-8): blocks 5 and 6 as they stand, the others as the boot recorded them. -/
def measurement (s : State) (m : Measured) (i : Nat) : Option (List Byte) :=
  if i = 1 then some m.rom else if i = 2 then some m.m2 else if i = 3 then some [m.ctr.setWidth 8]
  else if i = 4 then some (m.cal ++ [m.origin.setWidth 8]) else if i = 5 then some [s.sec.granted.setWidth 8]
  else if i = 6 then some (s.flash.retired.map (fun n => BitVec.ofNat 8 n.val) ++ [s.disc.mapGen]) else none

/-- GET_MEASUREMENTS: one block, or all of them, signed with the alias key on request. -/
def execGetMeasurements (index : Byte) (signed : Bool) (nonce : BitVec 256) (s : State) : Outcome State Fault Refusal :=
  attested s fun m =>
    let all := (List.range 6).flatMap (fun i => (measurement s m (i + 1)).getD [])
    match if index = 0 then some [6] else if index = 0xFF then some all else measurement s m index.toNat with
    | none => s.spdmError 1 0
    | some bs =>
      let body := bs ++ leBytes 32 nonce.toNat
      s.answer ([0x60, index] ++ (if signed then body ++ Config.sign (aliasSeed m) body else bs))

/-- UNSUPPORTED_REQUEST: every other request is answered with ERROR UnsupportedRequest (17 R416). -/
def execUnsupportedRequest (code : Byte) (s : State) : Outcome State Fault Refusal := attested s fun _ => s.spdmError 7 code

/-! ### Debug access (17 R420, R421) -/

/-- Whether a token is accepted (17 R420). -/
def tokenOk (s : State) (t : List Byte) : Bool :=
  t.length == 3381 && t.take 32 == deviceId && s.sec.nonce != 0 && leNat ((t.drop 32).take 32) == s.sec.nonce.toNat
  && leNat ((t.drop 64).take 4) < 8 && leNat ((t.drop 68).take 4) == 0 && !s.sec.debugLock
  && Config.verifies Config.dbgKey (Config.sha3 (t.take 72)) (t.drop 72)

/-- DEBUG_TOKEN: an accepted token grants its rights and consumes the nonce, and a fresh one is drawn; a refused token changes
nothing. -/
def execDebugToken (tok : List Byte) (entropy : List (BitVec 256)) (s : State) : Outcome State Fault Refusal :=
  if !s.running || !tokenOk s tok then .next s
  else .next { s with sec := { s.sec with granted := 1, rights := BitVec.ofNat 32 (headerNum tok 64 4),
                                          nonce := freshNonce 0 entropy } }

/-- SEC_DBG_CTL.REVOKE ends the grant (17 R421). -/
def State.revoke (s : State) : State :=
  { s with sec := { s.sec with granted := if s.sec.granted = 1 then 2 else s.sec.granted, rights := 0 } }

/-- SEC_DBG_REVOKE: the grant ends (17 R421). -/
def execSecDbgRevoke (s : State) : Outcome State Fault Refusal := whenRunning s fun s => .next s.revoke

/-- SEC_DBG_NEW_NONCE: a fresh nonce replaces the one in force (17 R420). -/
def execSecDbgNewNonce (entropy : List (BitVec 256)) (s : State) : Outcome State Fault Refusal :=
  whenRunning s fun s => .next { s with sec := { s.sec with nonce := freshNonce s.sec.nonce entropy } }

end Sys2Proof.Machine
end

