-- ==== Sys2Proof/Machine/Board.lean ====
section
/-! DEFINITION. Module hardware (18): power-up, power-down and reset, wake, the I3C target, PLDM services, sideband pins and the
test access port. -/

namespace Sys2Proof.Machine

open Host (Outcome)

/-! ### Power-up (18 R427-R429, R436, R438) -/

/-- What outlives the loss of every powered register: the command queue and the order of free values, the flash and the fuses. -/
def State.unpowered (s : State) : State :=
  { State.reset with
    pending := s.pending, freeIx := s.freeIx, flash := s.flash,
    sec := { State.reset.sec with fuseCtr := s.sec.fuseCtr, debugLock := s.sec.debugLock } }

/-- The map in force at power-down, from flash; the factory map where none was stored (09 R191). -/
def State.restoreMap (s : State) : State :=
  match s.flash.map with
  | some (m, st, g) => { s with disc := { s.disc with siteOf := m, state := st, mapGen := g } }
  | none => s

/-- The remap tables from flash (13 R306). -/
def State.restoreRemaps (s : State) : State :=
  { s with mc := Vector.ofFn (fun m => { s.mc[m] with remap := s.flash.remaps.getD m.val [] }) }

/-- A quadrant has its spare while one of its nine sites is a spare (17 R406). -/
def spareLeft (d : Disc) : BitVec 4 :=
  BitVec.ofNat 4 (((List.finRange 4).map (fun q =>
    if (List.finRange 36).any (fun n => d.state[n] == 1 && siteQuad n == q.val)
    then 2 ^ q.val else 0)).sum)

/-- The steps after the rails are up (18 Table 18-6): the boot ROM; then links, LPDDR5X, map and remap tables, clocks at OP0, and
Herd ready, which confirms the image. A controller that cannot be trained keeps the module out of service (13 R301). -/
def State.powerUp (s : State) (b : BootInputs) : State :=
  let s := { s with pm := { s.pm with state := .run, rails := Vector.ofFn (fun r => { s.pm.rails[r] with
                              limit := railLimit s.pm.coolClass r.val }) },
                    mgt := { s.mgt with modPg := true } }
  let s := s.bootRom b.entropy
  if s.sec.recovery then s else
  let s := s.restoreMap.restoreRemaps
  let s := { s with
    mc := Vector.ofFn (fun m => { s.mc[m] with trained := b.trained.getD m.val false }),
    pnx := { s.pnx with c0Up := b.c0Up, c1Up := b.c1Up, sWidth := laneWidth b.sLanes,
                        credits := Vector.ofFn (fun t => Config.nodeCredits t.val) },
    disc := { s.disc with opMax := BitVec.ofNat 8 (classOpMax s.pm.coolClass), fabMhz := 1400 },
    herd := { s.herd with ready := true, noJobs := s.flash.log.contains 1, outOfService := s.herd.outOfService || !(List.range 8).all (fun m => b.trained.getD m false) },
    integ := { s.integ with spareLeft := spareLeft s.disc },
    pm := { s.pm with idleSince := s.tb, estStart := nextInterval s.tb.toNat },
    cad := { s.cad with locked := true, epoch := s.tb.toNat / 20000 } }
  (s.setPoint 0).confirm

/-- Power-up from the MGT step on: refused straps stop it there (18 R429). -/
def State.fromMgt (s : State) (b : BootInputs) : State :=
  if s.mgt.straps.coolClass = 3 then
    { s with mgt := { s.mgt with strapRefused := true }, pm := { s.pm with state := .refused } }
  else s.powerUp b

/-- INPUT_VALID: the straps are sampled once and power-up runs (18 R427, R428, R436). -/
def execInputValid (straps : Straps) (b : BootInputs) (s : State) : Outcome State Fault Refusal :=
  if s.pm.state ≠ .off || s.mgt.downWaits then .next s else
  let s := s.unpowered
  let s := { s with mgt := { s.mgt with straps, enIn := true }, pm := { s.pm with coolClass := straps.coolClass } }
  .next (s.fromMgt b)

/-! ### Power-down and reset (18 R437-R439) -/

/-- Step 1 of power-down: MOD_PG low, arithmetic stopped, no register access accepted. -/
def State.stopAll (s : State) : State := { s with mgt := { s.mgt with modPg := false, downWaits := true } }

/-- Power-down: a flash write in progress completes first; then every volatile state is lost (18 R437). -/
def State.powerDown (s : State) : State :=
  if s.pm.state = .off then s
  else if s.flash.writing then { s.stopAll with pm := { s.pm with state := .off, entering := none, wakeLatched := false } }
  else s.unpowered

/-- VIN_UNDERVOLTAGE (18 R427). -/
def execVinUndervoltage (s : State) : Outcome State Fault Refusal := .next s.powerDown
/-- VIN_OVERVOLTAGE (18 R427). -/
def execVinOvervoltage (s : State) : Outcome State Fault Refusal := .next s.powerDown
/-- EN_IN_FALL (18 R437). -/
def execEnInFall (s : State) : Outcome State Fault Refusal :=
  let s := s.powerDown
  .next { s with mgt := { s.mgt with enIn := false } }

/-- Reset by MRST_N: every domain but the input stage and the sampled straps; the timebase restarts at 0 (18 R438). -/
def State.mrst (s : State) (b : BootInputs) : State :=
  let t := s.unpowered
  let t := { t with mgt := { t.mgt with straps := s.mgt.straps, mrstSeen := true, enIn := s.mgt.enIn },
                    pm := { t.pm with coolClass := s.pm.coolClass } }
  t.fromMgt b

/-- MRST_N: it waits for a flash write in progress, and has no effect during power-down (18 R438, R439). -/
def execMrstN (b : BootInputs) (s : State) : Outcome State Fault Refusal :=
  if s.pm.state = .off then .next s
  else if s.flash.writing then .next { s with mgt := { s.mgt with mrstWaits := some b, modPg := false } }
  else .next (s.mrst b)

/-- FLASH_WRITE_COMPLETE: the write is done; a power-down that waits proceeds, and a deferred MRST_N takes effect (18 R437,
R438). -/
def execFlashWriteComplete (s : State) : Outcome State Fault Refusal :=
  if !s.flash.writing then .next s else
  let s := { s with flash := { s.flash with writing := false } }
  if s.mgt.downWaits then
    let e := s.mgt.enIn
    let s := s.unpowered
    .next { s with mgt := { s.mgt with enIn := e } }
  else match s.mgt.mrstWaits with
    | some b => .next (s.mrst b)
    | none => .next s

/-! ### Firmware update and wake (17 R413, R419; 16 R384, R386) -/

/-- Write an image to the slot that is not running; activation marks it pending with 3 tries (17 R413). In recovery no slot runs,
and the slot that the record does not prefer is written (DEDUCED, log entry 39). -/
def State.updateImage (s : State) (i : FwImage) : State :=
  let b := if s.sec.recovery then !s.flash.preferB else !s.sec.slotB
  let f := s.flash
  { s with flash := { f with images := f.images.set (if b then 1 else 0) i (by split <;> omega), pending := some b, tries := 3,
                             preferB := b, writing := true }, reply := .status 0 }

/-- Replace the calibration set; one that would read NONE is refused (17 R419). -/
def State.updateCal (s : State) (c : List Byte) : State :=
  if calOrigin c = 0 then { s with reply := .status 1 }
  else { s with flash := { s.flash with cal := c, writing := true }, reply := .status 0 }

/-- Serve the updates that waited for Herd (18 R433). -/
def State.serveUpdates (s : State) : State :=
  let us := s.mgt.updates
  us.foldl (fun s u => match u with
    | .image i => (s.updateImage i).interrupt
    | .calibration c => (s.updateCal c).interrupt) { s with mgt := { s.mgt with updates := [] } }

/-- The module leaves S1: every register kept its value; clocks come up at OP0 with the berm at 0 (16 R384, R386). -/
def State.wakeS1 (s : State) : State :=
  let m := { s.pm with state := .run, wakeLatched := false, idleSince := s.tb, berm := Vector.replicate 4 0,
                       a1 := Vector.replicate 4 false, idleAt := Vector.replicate 4 s.tb }
  ({ s with pm := m }.setPoint 0).serveUpdates

/-- The state from which the boot of a wake from S2 starts: the always-on blocks, the LPDDR5X contents, and the set of 16 Table
16-5; everything else at reset (16 R384). -/
def State.fromS2 (s : State) : State :=
  let t := s.unpowered
  let t := { t with
    tb := s.tb, timers := s.timers, gander := s.gander, mem := s.mem, reply := s.reply,
    mgt := { t.mgt with straps := s.mgt.straps, updates := s.mgt.updates, tap := s.mgt.tap, boundary := s.mgt.boundary },
    mc := Vector.ofFn (fun m => { t.mc[m] with remap := s.mc[m].remap, failed := s.mc[m].failed }),
    ckpt := { t.ckpt with reserve := s.ckpt.reserve },
    pm := { t.pm with coolClass := s.pm.coolClass, ctl := s.pm.ctl, energyTotal := s.pm.energyTotal, fracTotal := s.pm.fracTotal,
                      energyInput := s.pm.energyInput, fracInput := s.pm.fracInput, trips := s.pm.trips,
                      sensors := s.pm.sensors } }
  match s.pm.saved with
  | none => t
  | some (m, st, g, owners) =>
    { t with disc := { t.disc with siteOf := m, state := st, mapGen := g },
             res := { t.res with owner := Vector.ofFn (fun e =>
               if 64 ≤ e.val then owners[Fin.ofNat 32 (e.val - 64)] else t.res.owner[e]) } }

/-- The module leaves S2 through the boot ROM; where the measurements differ from the saved record it boots as from power-up
(17 R414). -/
def State.wakeS2 (s : State) (b : BootInputs) : State :=
  let kept := s.fromS2
  let boot := kept.bootRom b.entropy
  if boot.sec.measured = s.sec.savedMeas then
    let t := kept.powerUp { b with trained := (List.finRange 8).map (fun m => s.mc[m].trained) }
    let t := { t with disc := { t.disc with siteOf := kept.disc.siteOf, state := kept.disc.state, mapGen := kept.disc.mapGen },
                      mc := Vector.ofFn (fun m => { t.mc[m] with remap := s.mc[m].remap }) }
    t.serveUpdates
  else
    let t := s.unpowered
    ({ t with mgt := { t.mgt with straps := s.mgt.straps, enIn := s.mgt.enIn }, pm := { t.pm with coolClass := s.pm.coolClass },
              tb := s.tb, gander := s.gander, timers := s.timers }).fromMgt b

/-- WAKE: a latched wake source brings the module back to A0 (16 R385, R386). -/
def execWake (b : BootInputs) (s : State) : Outcome State Fault Refusal :=
  if !s.pm.wakeLatched then .next s
  else if s.pm.state = .s1 ∧ s.pm.entering = none then .next s.wakeS1
  else if s.pm.state = .s2 then .next (s.wakeS2 b) else .next s

/-! ### The I3C target (18 R432) -/

/-- The management block runs: in every state but off and S2. -/
def State.mgtRuns (s : State) : Bool :=
  match s.pm.state with
  | .off | .s2 => false
  | _ => true

/-- An access of the I3C target, which is absent where MGT does not run. -/
def whenMgt (s : State) (k : State) : Outcome State Fault Refusal := .next (if s.mgtRuns then k else s)

/-- A PLDM request and its answer, which waits for the controller (18 R432, R433). -/
def whenPldm (s : State) (k : State) : Outcome State Fault Refusal := whenMgt s k.interrupt

/-- I3C_SETDASA: the static address is 0x50 + ADDR_SEL. -/
def execI3cSetdasa (static dyn : BitVec 7) (s : State) : Outcome State Fault Refusal :=
  whenMgt s (if static = 0x50 + s.mgt.straps.addrSel.setWidth 7 ∧ s.mgt.dynAddr = none
    then { s with mgt := { s.mgt with dynAddr := some dyn } } else s)
/-- I3C_ENTDAA: a target without a dynamic address takes part. -/
def execI3cEntdaa (dyn : BitVec 7) (s : State) : Outcome State Fault Refusal :=
  whenMgt s (if s.mgt.dynAddr = none then { s with mgt := { s.mgt with dynAddr := some dyn } } else s)
/-- I3C_SETNEWDA -/
def execI3cSetnewda (dyn : BitVec 7) (s : State) : Outcome State Fault Refusal :=
  whenMgt s (if s.mgt.dynAddr = none then s else { s with mgt := { s.mgt with dynAddr := some dyn } })
/-- I3C_RSTDAA -/
def execI3cRstdaa (s : State) : Outcome State Fault Refusal :=
  whenMgt s { s with mgt := { s.mgt with dynAddr := none } }

/-- The provisional ID: 0x4736 in [31:16], ADDR_SEL in [15:12]; the bits the manual does not give are the part's (DESIGN CHOICE, log entry 5). -/
def provisionalId (s : State) : BitVec 48 :=
  (Config.i3cPid &&& 0xFFFF00000FFF) ||| 0x000047360000 ||| (s.mgt.straps.addrSel.setWidth 48 <<< 12)

/-- I3C_GETPID -/
def execI3cGetpid (s : State) : Outcome State Fault Refusal :=
  whenMgt s { s with reply := .value ((provisionalId s).setWidth 64) }
/-- I3C_GETBCR -/
def execI3cGetbcr (s : State) : Outcome State Fault Refusal := whenMgt s { s with reply := .value (Config.i3cBcr.setWidth 64) }
/-- I3C_GETDCR -/
def execI3cGetdcr (s : State) : Outcome State Fault Refusal := whenMgt s { s with reply := .value (Config.i3cDcr.setWidth 64) }
/-- I3C_GETSTATUS: the manual gives the status no layout; the answer is a free value (DESIGN CHOICE, log entry 3). -/
def execI3cGetstatus (s : State) : Outcome State Fault Refusal :=
  whenMgt s { s.fresh.2 with reply := .value (s.fresh.1 &&& 0xFFFF) }
/-- I3C_ENEC -/
def execI3cEnec (ev : Byte) (s : State) : Outcome State Fault Refusal :=
  whenMgt s { s with mgt := { s.mgt with events := s.mgt.events ||| ev } }
/-- I3C_DISEC -/
def execI3cDisec (ev : Byte) (s : State) : Outcome State Fault Refusal :=
  whenMgt s { s with mgt := { s.mgt with events := s.mgt.events &&& ~~~ ev } }
/-- I3C_GETMWL -/
def execI3cGetmwl (s : State) : Outcome State Fault Refusal := whenMgt s { s with reply := .value (s.mgt.mwl.setWidth 64) }
/-- I3C_SETMWL: at most 256 bytes. -/
def execI3cSetmwl (len : BitVec 16) (s : State) : Outcome State Fault Refusal :=
  whenMgt s { s with mgt := { s.mgt with mwl := if 256 < len.toNat then 256 else len } }
/-- I3C_GETMRL -/
def execI3cGetmrl (s : State) : Outcome State Fault Refusal := whenMgt s { s with reply := .value (s.mgt.mrl.setWidth 64) }
/-- I3C_SETMRL: at most 256 bytes. -/
def execI3cSetmrl (len : BitVec 16) (s : State) : Outcome State Fault Refusal :=
  whenMgt s { s with mgt := { s.mgt with mrl := if 256 < len.toNat then 256 else len } }

/-! ### PLDM (18 R433, Table 18-9) -/

/-- ERROR_NOT_READY, the completion code outside an item's states (PRESUMED, log entry 38: the code of PLDM). -/
def notReady (s : State) : State := { s with reply := .status 4 }

/-- The states in which a sensor is served (18 Table 18-9). -/
def sensorServed (s : State) : SensorId → Bool
  | .channel src => [0, 1, 2, 3, 4, 9].contains src.toNat && s.mgtRuns
  | .energyTotal => s.running || decide (s.pm.state = .s1)
  | .powerState | .coolClass | .strapFault => s.mgtRuns
  | .bootSlot | .recovery | .calOrigin | .integrityLost | .thermalLockout | .trainingFailure =>
    s.mgtRuns && decide (s.pm.state ≠ .refused)

/-- The code of the power state: 0 A0, 1 A1, 2 S1. -/
def powerCode (s : State) : Nat :=
  if s.pm.state = .s1 then 2 else if s.pm.a1.toList.all id then 1 else 0

/-- A numeric channel: its last sample, a free value where none was taken yet, and no reading while it is not valid. -/
def channelReading (s : State) (src : BitVec 4) : State :=
  if !channelValid s src.toNat then { s with reply := .none }
  else match s.pm.sensors[src.toFin] with
    | some v => { s with reply := .value (v.setWidth 64) }
    | none => { s.fresh.2 with reply := .value (s.fresh.1 &&& 0xFFFFFFFF) }

/-- What a sensor answers. -/
def sensorValue (s : State) : SensorId → State
  | .channel src => channelReading s src
  | .energyTotal => { s with reply := .value s.pm.energyTotal }
  | .powerState => { s with reply := .value (BitVec.ofNat 64 (powerCode s)) }
  | .coolClass => { s with reply := .value (s.mgt.straps.coolClass.setWidth 64) }
  | .strapFault => { s with reply := .value (if s.mgt.strapRefused then 1 else 0) }
  | .bootSlot => { s with reply := .value (if s.sec.slotB then 1 else 0) }
  | .recovery => { s with reply := .value (if s.sec.recovery then 1 else 0) }
  | .calOrigin => { s with reply := .value (s.sec.calOrigin.setWidth 64) }
  | .integrityLost => { s with reply := .value (if s.integ.lost then 1 else 0) }
  | .thermalLockout => { s with reply := .value (if s.pm.lockout then 1 else 0) }
  | .trainingFailure => { s with reply := .value (if s.mc.toList.all (fun c => c.trained && c.failed.isEmpty) then 0 else 1) }

/-- PLDM_SENSOR_READ -/
def execPldmSensorRead (id : SensorId) (s : State) : Outcome State Fault Refusal :=
  whenPldm s (if sensorServed s id then sensorValue s id else notReady s)

/-- PLDM_ENTER_S1: in A0 and A1 with no job open and no program bound. -/
def execPldmEnterS1 (s : State) : Outcome State Fault Refusal :=
  whenPldm s (if s.running && s.unused && s.pm.entering.isNone then s.enter .s1 else notReady s)
/-- PLDM_ENTER_S2: as S1, and also in S1. -/
def execPldmEnterS2 (s : State) : Outcome State Fault Refusal :=
  whenPldm s (if s.pm.entering.isNone && ((s.running && s.unused) || decide (s.pm.state = .s1)) then s.enter .s2
    else notReady s)

/-- PLDM_CLEAR_LOCKOUT: in A0 and A1 while LOCKOUT is 1 (16 R390). -/
def execPldmClearLockout (s : State) : Outcome State Fault Refusal :=
  whenPldm s (if s.running && s.pm.lockout then { s with pm := { s.pm with lockout := false, tripTimes := [] }, reply := .status 0 }
    else notReady s)

/-- The module serves requests of the management block in A0, A1 and recovery. -/
def State.runsOrRecovers (s : State) : Bool := s.running || decide (s.pm.state = .recovery)

/-- PLDM_BURN_DEBUG_LOCK: permanent (17 R420). -/
def execPldmBurnDebugLock (s : State) : Outcome State Fault Refusal :=
  whenPldm s (if s.runsOrRecovers then { s with sec := { s.sec with debugLock := true }, reply := .status 0 } else notReady s)

/-- An update in S1 wakes the module and waits until Herd is ready; elsewhere it is served or refused (18 Table 18-9). -/
def update (s : State) (u : FwUpdate) (now : State) : State :=
  if s.runsOrRecovers then now.interrupt
  else if s.pm.state = .s1 then { s with mgt := { s.mgt with updates := s.mgt.updates ++ [u] } }.wakeSource 0x10
  else (notReady s).interrupt

/-- PLDM_FW_UPDATE_IMAGE (17 R413). -/
def execPldmFwUpdateImage (i : FwImage) (s : State) : Outcome State Fault Refusal :=
  whenMgt s (update s (.image i) (s.updateImage i))
/-- PLDM_FW_UPDATE_CALIBRATION (17 R419). -/
def execPldmFwUpdateCalibration (c : List Byte) (s : State) : Outcome State Fault Refusal :=
  whenMgt s (update s (.calibration c) (s.updateCal c))

/-- PLDM_STEPPING_READ: the identity record of DISC_ID, from the management block's own copy (18 R442). -/
def execPldmSteppingRead (s : State) : Outcome State Fault Refusal :=
  whenPldm s { s with reply := .value 0x00004736A1030000 }

/-! ### Sideband pins (18 R430, R443) -/

/-- A write of MGT_SB_CFG_n: refused with RESOURCE_HELD where OWNER differs from the owner of entry 88 + n; pins 0 to 2 never
change, and FUNC 6 is ignored. -/
def State.sbWrite (s : State) (n : Fin 8) (v : U32) : State :=
  if v.extractLsb' 28 4 ≠ s.ownerOf (88 + n.val) then
    { s with mgt := { s.mgt with refused := true }, reply := .status 5 }
  else if n.val < 3 ∨ v.extractLsb' 0 3 = 6 then s
  else { s with mgt := { s.mgt with sbCfg := s.mgt.sbCfg.set n (v &&& 0xF0000017) } }

/-- MGT_SB_CFG_WRITE (18 R430). -/
def execMgtSbCfgWrite (n : Fin 8) (v : U32) (s : State) : Outcome State Fault Refusal :=
  whenRunning s fun s => .next (s.sbWrite n v)

/-- The level of a sideband pin (18 R430, R431): TRIP_N and ALERT_N as driven, WAKE_N and inputs as the chassis drives them, the
square wave of IDENTIFY by the timebase, and the chassis pull where the pin floats. EXTEST and CLAMP drive an output from its scan cell, and
HIGHZ floats it (R434). -/
def sbLevel (s : State) (n : Fin 8) : Bool :=
  let cell := s.mgt.boundary.getLsbD (Config.scanCell n.val % 64)
  let driven := fun (x : Bool) => match s.mgt.tap with
    | .extest | .clamp => cell
    | .highz => decide (n.val < 3)
    | _ => x
  if s.pm.state = .off then decide (n.val < 3)
  else if n = 0 then driven (!s.pm.halted) else if n = 1 then driven (!s.alert) else if n = 2 then s.mgt.sbIn.getLsbD 2
  else
    let c := s.mgt.sbCfg[n]
    let f := c.extractLsb' 0 3
    if !s.mgtRuns || f = 0 then false else if f = 1 then s.mgt.sbIn.getLsbD n.val else
    driven (if f = 2 then c.getLsbD 4 else if f = 3 then s.herd.ready else if f = 4 then s.pnx.job.isSome
      else if f = 5 then decide (s.tb.toNat / 500000000 % 2 = 1) else false)

/-! ### The test access port (18 R434) -/

/-- EXTEST, CLAMP and HIGHZ are accepted in the refused state, or with no job open and every quadrant in A1. -/
def tapPermits (s : State) : Bool :=
  decide (s.pm.state = .refused) || (s.running && s.pnx.job.isNone && s.pm.a1.toList.all id)

/-- Load a TAP instruction, while input is valid. -/
def tap (s : State) (i : TapIns) : Outcome State Fault Refusal :=
  .next (if s.pm.state = .off then s else { s with mgt := { s.mgt with tap := i } })

/-- TAP_BYPASS -/
def execTapBypass (s : State) : Outcome State Fault Refusal := tap s .bypass
/-- TAP_IDCODE: the register reads 0x1473_60FB. -/
def execTapIdcode (s : State) : Outcome State Fault Refusal :=
  if s.pm.state = .off then .next s else tap { s with reply := .value 0x147360FB } .idcode
/-- TAP_SAMPLE_PRELOAD: the pins are sampled and the boundary register takes the preload. -/
def execTapSamplePreload (pins preload : BitVec 64) (s : State) : Outcome State Fault Refusal :=
  if s.pm.state = .off then .next s
  else tap { s with reply := .value pins, mgt := { s.mgt with boundary := preload } } .samplePreload
/-- TAP_EXTEST -/
def execTapExtest (s : State) : Outcome State Fault Refusal := tap s (if tapPermits s then .extest else .bypass)
/-- TAP_CLAMP -/
def execTapClamp (s : State) : Outcome State Fault Refusal := tap s (if tapPermits s then .clamp else .bypass)
/-- TAP_HIGHZ -/
def execTapHighz (s : State) : Outcome State Fault Refusal := tap s (if tapPermits s then .highz else .bypass)

end Sys2Proof.Machine
end

