-- ==== Sys2Proof/Machine/Ctl.lean ====
section
/-! DEFINITION. The ctl class and the timebase timers (10 R220, R221, Table 10-3). -/

namespace Sys2Proof.Machine

open Host (Outcome)

/-- sRD = a function of sRA and sRB (10 Table 10-3). -/
def ctlOp (g : U64 → U64 → U64) (p : Pid) (f : Fields) (s : State) : Outcome State Fault Refusal :=
  issue p { rd := .any, ra := .any, rb := .any } f s (fun _ =>
    .ok (s.onTask p (fun t => t.setS f.rd (g (t.sreg f.ra) (t.sreg f.rb)))))

/-- sRD = a function of sRA and IMM (10 Table 10-3); `used` are the IMM bits the operation uses. -/
def ctlImm (used : BitVec 29) (g : U64 → BitVec 29 → U64) (p : Pid) (f : Fields) (s : State) :
    Outcome State Fault Refusal :=
  issue p { rd := .any, ra := .any, imm := used } f s (fun _ =>
    .ok (s.onTask p (fun t => t.setS f.rd (g (t.sreg f.ra) f.imm))))

/-- The target of a branch: its own address plus 8 times the sign-extended offset (10 R220). -/
def branchTarget (pc : U32) (imm : BitVec 29) : Int := (pc.toNat : Int) + 8 * imm.toInt

/-- A branch with its condition (10 R220): taken, its target must lie in the code, else ADDR_RANGE. -/
def branch (u : Use) (cond : U64 → U64 → Bool) (p : Pid) (f : Fields) (s : State) : Outcome State Fault Refusal :=
  issueTo p u f s (fun t =>
    if cond (t.sreg f.ra) (t.sreg f.rb) then
      let a := branchTarget t.pc f.imm
      if 0 ≤ a ∧ a < t.stage.codeLen.toNat then .ok (s, BitVec.ofInt 32 a)
      else .error (.fault 0x08 (BitVec.ofInt 32 ((t.stage.code.toNat : Int) + a)))
    else .ok (s, t.pc + BitVec.ofNat 32 (Fields.bytes f)))

/-- The fields of a conditional branch. -/
def branchUse : Use := { ra := .any, rb := .any, imm := BitVec.allOnes 29 }

def execCtlNop (p : Pid) (f : Fields) (s : State) : Outcome State Fault Refusal :=
  issue p {} f s (fun _ => .ok s)

/-- ctl.end: the task's end is requested and waits for its work (10 Table 10-3, 09 R202). -/
def execCtlEnd (p : Pid) (f : Fields) (s : State) : Outcome State Fault Refusal :=
  issueTo p {} f s (fun t => .ok (s.onTask p (fun u => { u with ending := true }), t.pc))

def execCtlJmp (p : Pid) (f : Fields) (s : State) : Outcome State Fault Refusal :=
  branch { imm := BitVec.allOnes 29 } (fun _ _ => true) p f s
def execCtlBeq (p : Pid) (f : Fields) (s : State) : Outcome State Fault Refusal :=
  branch branchUse (fun a b => a == b) p f s
def execCtlBne (p : Pid) (f : Fields) (s : State) : Outcome State Fault Refusal :=
  branch branchUse (fun a b => a != b) p f s
def execCtlBlt (p : Pid) (f : Fields) (s : State) : Outcome State Fault Refusal :=
  branch branchUse (fun a b => a.slt b) p f s
def execCtlBge (p : Pid) (f : Fields) (s : State) : Outcome State Fault Refusal :=
  branch branchUse (fun a b => !a.slt b) p f s
def execCtlBltu (p : Pid) (f : Fields) (s : State) : Outcome State Fault Refusal :=
  branch branchUse (fun a b => a.ult b) p f s
def execCtlBgeu (p : Pid) (f : Fields) (s : State) : Outcome State Fault Refusal :=
  branch branchUse (fun a b => !a.ult b) p f s

def execCtlAdd (p : Pid) (f : Fields) (s : State) : Outcome State Fault Refusal := ctlOp (· + ·) p f s
def execCtlSub (p : Pid) (f : Fields) (s : State) : Outcome State Fault Refusal := ctlOp (· - ·) p f s
def execCtlMul (p : Pid) (f : Fields) (s : State) : Outcome State Fault Refusal := ctlOp (· * ·) p f s
def execCtlAnd (p : Pid) (f : Fields) (s : State) : Outcome State Fault Refusal := ctlOp (· &&& ·) p f s
def execCtlOr (p : Pid) (f : Fields) (s : State) : Outcome State Fault Refusal := ctlOp (· ||| ·) p f s
def execCtlXor (p : Pid) (f : Fields) (s : State) : Outcome State Fault Refusal := ctlOp (· ^^^ ·) p f s
def execCtlShl (p : Pid) (f : Fields) (s : State) : Outcome State Fault Refusal :=
  ctlOp (fun a b => a <<< (b.toNat % 64)) p f s
def execCtlShr (p : Pid) (f : Fields) (s : State) : Outcome State Fault Refusal :=
  ctlOp (fun a b => a >>> (b.toNat % 64)) p f s
def execCtlSra (p : Pid) (f : Fields) (s : State) : Outcome State Fault Refusal :=
  ctlOp (fun a b => a.sshiftRight (b.toNat % 64)) p f s

def execCtlAddi (p : Pid) (f : Fields) (s : State) : Outcome State Fault Refusal :=
  ctlImm (BitVec.allOnes 29) (fun a i => a + i.signExtend 64) p f s
def execCtlShli (p : Pid) (f : Fields) (s : State) : Outcome State Fault Refusal :=
  ctlImm 0x3F (fun a i => a <<< (i.toNat % 64)) p f s
def execCtlShri (p : Pid) (f : Fields) (s : State) : Outcome State Fault Refusal :=
  ctlImm 0x3F (fun a i => a >>> (i.toNat % 64)) p f s
def execCtlAndi (p : Pid) (f : Fields) (s : State) : Outcome State Fault Refusal :=
  ctlImm (BitVec.allOnes 29) (fun a i => a &&& i.setWidth 64) p f s

/-- ctl.li: sRD = word 1 (10 Table 10-3). -/
def execCtlLi (p : Pid) (f : Fields) (s : State) : Outcome State Fault Refusal :=
  issue p { long := true, rd := .any, w1 := BitVec.allOnes 64 } f s (fun _ =>
    .ok (s.onTask p (fun t => t.setS f.rd f.w1)))

/-- ctl.time: sRD = the timebase (10 Table 10-3). -/
def execCtlTime (p : Pid) (f : Fields) (s : State) : Outcome State Fault Refusal :=
  issue p { rd := .any } f s (fun _ => .ok (s.onTask p (fun t => t.setS f.rd s.tb)))

/-! ### The resource table (09 R207, R208) -/

/-- The owner of a resource entry. -/
def State.owner (s : State) (e : Fin 96) : BitVec 4 := s.res.owner[e]

/-- Record an owner. -/
def State.setOwner (s : State) (e : Fin 96) (o : BitVec 4) : State :=
  { s with res := { s.res with owner := s.res.owner.set e.val o e.isLt } }

/-- A claim of a held entry fails and counts in RES_REFUSED (09 R208). -/
def State.claimRefused (s : State) : State := { s with res := { s.res with refused := s.res.refused + 1 } }

/-! ### Timers (10 R221) -/

/-- The fields of ctl.timer (10 Table 10-3). -/
def timerUse : Use := { rd := .any, ra := .any, imm := 0x3FFFFF }

/-- The timer an instruction names. -/
def timerIx (f : Fields) : Fin 16 := Fin.ofNat 16 f.imm.toNat

/-- The resource entry of a timer (09 Table 9-11). -/
def timerEntry (n : Fin 16) : Fin 96 := ⟨72 + n.val, by omega⟩

/-- Change a timer. -/
def State.onTimer (s : State) (n : Fin 16) (g : Timer → Timer) : State :=
  { s with timers := s.timers.set n.val (g s.timers[n]) n.isLt }

/-- Claim a timer for the task's program; a held one faults with RESOURCE_HELD and counts (09 R208, 10 R221). -/
def execCtlTimerClaim (p : Pid) (f : Fields) (s : State) : Outcome State Fault Refusal :=
  issue p timerUse f s (fun t =>
    let e := timerEntry (timerIx f)
    if s.owner e = 0 then .ok (s.setOwner e (progOwner t.stage.prog))
    else .error (.late s.claimRefused 0x05 (BitVec.ofNat 32 e.val)))

/-- An action on a timer that the task's program must hold (10 R221). -/
def timerHeld (p : Pid) (f : Fields) (s : State) (body : Task → Res State) : Outcome State Fault Refusal :=
  issue p timerUse f s (fun t => do
    let e := timerEntry (timerIx f)
    need (s.owner e == progOwner t.stage.prog) 0x05 e.val
    body t)

/-- Arm a timer: its deadline is sRA and its expiry weir IMM[21:6] (10 R221), which must be claimed (11 R248). -/
def execCtlTimerArm (p : Pid) (f : Fields) (s : State) : Outcome State Fault Refusal :=
  timerHeld p f s (fun t => do
    let w := f.imm.extractLsb' 6 16
    need (weirGranted s.polders[p].terp.bnd w.toNat) 0x17 w.toNat
    return s.onTimer (timerIx f) (fun _ =>
      { deadline := t.sreg f.ra, weir := w, armed := true, armedAt := s.tb, expired := false }))

/-- Release a timer and disarm it (10 R221). -/
def execCtlTimerRelease (p : Pid) (f : Fields) (s : State) : Outcome State Fault Refusal :=
  timerHeld p f s (fun _ =>
    .ok ((s.setOwner (timerEntry (timerIx f)) 0).onTimer (timerIx f) (fun T => { T with armed := false })))

/-- sRD = 1 if the timer has expired since it was last armed, else 0 (10 R221). -/
def execCtlTimerRead (p : Pid) (f : Fields) (s : State) : Outcome State Fault Refusal :=
  timerHeld p f s (fun _ =>
    .ok (s.onTask p (fun t => t.setS f.rd (if s.timers[timerIx f].expired then 1 else 0))))

/-- Whether an armed timer's expiry is due: at the first tick at or after its deadline, and not before the tick after it was
armed (10 R221, 00 R6). -/
def timerDue (s : State) (n : Fin 16) : Bool :=
  let T := s.timers[n]
  T.armed && T.deadline.toNat ≤ s.tb.toNat && T.armedAt.toNat < s.tb.toNat

/-- An armed timer expires and signals its weir once by 1 (10 R221, 11 Table 11-6); the signal leaves the timebase's domain and reaches
the weir through a synchroniser (11 R257). -/
def execTimerExpiry (n : Fin 16) (s : State) : Outcome State Fault Refusal :=
  if timerDue s n && decide (s.pm.state ≠ .off) then
    let w := s.timers[n].weir.toNat
    let s := s.onTimer n (fun T => { T with armed := false, expired := true })
    .next { s with flight := s.flight ++ [(w, 1)] }
  else .next s

end Sys2Proof.Machine
end

