-- ==== Sys2Proof/Machine/LogPath.lean ====
section
/-! DEFINITION. LG8 and the log path: codes and conversions (02 R31, R42), the correction table and log-addition (05 R92,
R93), the tree of a row (05 R96), the conversion at the drain (05 R99) and the LG8 operations (05 R101, R102). -/

namespace Sys2Proof.Machine

/-! ### LG8 codes (02 R31) -/

/-- An LG8 code from a sign and a rounded magnitude code: 0 below 1, E = 127 from 128 on (02 R42); the flag is SAT. -/
def lgClamp (neg : Bool) (e : Int) : BitVec 8 × Bool :=
  if e ≤ 0 then (0, false)
  else if 128 ≤ e then ((if neg then 0xFF else 0x7F), true)
  else ((if neg then 0x80 else 0) ||| BitVec.ofInt 8 e, false)

/-- 64 + 8 log2(n / d), rounded (02 R42). -/
def lgCode (n d : Nat) : Int := 64 + (floorLog2 (n ^ 16) (d ^ 16) + 1) / 2

/-- Conversion of an exact nonzero value of a sign, or zero, to LG8 (02 R42). -/
def fracToLg (neg : Bool) (n d : Nat) : BitVec 8 × Bool := if n = 0 then (0, false) else lgClamp neg (lgCode n d)

def dyToLg (x : Dy) : BitVec 8 × Bool := fracToLg (x.m < 0) x.frac.1 x.frac.2

/-- The magnitude code of an LG8 code. -/
def lgE (c : BitVec 8) : Int := (c.extractLsb' 0 7).toNat
/-- The sign of an LG8 code. -/
def lgNeg (c : BitVec 8) : Bool := c.getLsbD 7

/-! ### Powers of two at 256 bits (DEDUCED, log entry 12) -/

/-- floor(2^256 2^(1 / 2^i)) for i from 1 to 12. -/
def rootsOfTwo : List Nat :=
  [0x16a09e667f3bcc908b2fb1366ea957d3e3adec17512775099da2f590b0667322a,
   0x1306fe0a31b7152de8d5a46305c85edecbc27343629f502f1af16cb97df4f76df,
   0x1172b83c7d517adcdf7c8c50eb14a792035509ff7d758693f23c26bdd0947ee67,
   0x10b5586cf9890f6298b92b71842a98364291408b3ceb0a2a2ba8566c55e3dd0b2,
   0x1059b0d31585743ae7c548eb68ca417fe53e3495f7df4baf84a05e2a0ce6f142e,
   0x102c9a3e778060ee6f7caca4f7a29bde93d70a2cabc5cb89ba100eb583e401c98,
   0x10163da9fb33356d84a66ae336dcdfa4003ec04c360be24040786ab59749be9f3,
   0x100b1afa5abcbed6129ab13ec11dc954455b8187f0c9741eb3b8e02322a971f34,
   0x10058c86da1c09ea1ff19d294cf2f679c68bf05eb63f5c41c7a163180d2eb82c3,
   0x1002c605e2e8cec506d21bfc89a23a010806c0a42d5dae7e09371ee3b95492845,
   0x100162f3904051fa128bca9c55c31e5e06ddd31155fe06c40ed986fff2b099c2a,
   0x1000b175effdc76ba38e31671ca939726694630e2f50ba33128b6794c2416faa9]

/-- 2^256 2^(f / 4096) for f below 4096, as the product of the roots its bits name. -/
def pow2Frac (f : Nat) : Nat :=
  ((List.range 12).zip rootsOfTwo).foldl (fun acc (i, r) => if f.testBit (11 - i) then acc * r / 2 ^ 256 else acc) (2 ^ 256)

/-- 2^(l / 4096 + sigma) as a fraction. -/
def pow2Fix (l : Int) (sigma : Nat) : Nat × Nat :=
  let n := l / 4096 + sigma
  let y := pow2Frac (l % 4096).toNat
  if 0 ≤ n then (y * 2 ^ n.toNat, 2 ^ 256) else (y, 2 ^ (256 + (-n).toNat))

/-- A fraction rounded to an integer, ties to even. -/
def fracRne (x : Nat × Nat) : Nat := rneDiv x.1 x.2

/-- 2^((E - 64) / 8) as a fraction: the exact value of an LG8 magnitude at 256 bits. -/
def lgFrac (c : BitVec 8) : Nat × Nat := pow2Fix ((lgE c - 64) * 512) 0

/-- LG8 to BF16 (02 Table 2-4). -/
def lgToBf (c : BitVec 8) : BitVec 16 :=
  if c = 0x80 then bfNan else if c = 0 then 0 else let (n, d) := lgFrac c; roundBf (lgNeg c) n d

/-- LG8 to an integer, ties to even; none for the overflow code (02 Table 2-4). -/
def lgToInt (c : BitVec 8) : Option Int :=
  if c = 0x80 then none else if c = 0 then some 0
  else let x := fracRne (lgFrac c); some (if lgNeg c then -(x : Int) else x)

/-! ### Log-addition (05 R92, R93) -/

/-- The correction table C[i]. -/
def logTable : List Nat :=
  [65536, 63510, 61529, 59591, 57698, 55849, 54044, 52283, 50565, 48889, 47257, 45667, 44119, 42612, 41146, 39721]
  ++ [38336, 36990, 35684, 34415, 33184, 31990, 30832, 29710, 28623, 27570, 26551, 25564, 24610, 23687, 22794, 21931]
  ++ [21098, 20293, 19515, 18765, 18040, 17341, 16667, 16017, 15391, 14786, 14204, 13643, 13103, 12583, 12082, 11600]
  ++ [11136, 10690, 10260, 9847, 9450, 9068, 8700, 8347, 8008, 7682, 7369, 7068, 6778, 6501, 6234, 5978]
  ++ [5732, 5496, 5269, 5052, 4843, 4643, 4450, 4266, 4089, 3919, 3756, 3600, 3450, 3306, 3168, 3036]
  ++ [2909, 2788, 2671, 2560, 2452, 2350, 2251, 2157, 2066, 1980, 1897, 1817, 1741, 1668, 1597, 1530]
  ++ [1466, 1404, 1345, 1288, 1234, 1182, 1132, 1085, 1039, 995, 953, 913, 874, 837, 802, 768]
  ++ [736, 705, 675, 646, 619, 593, 568, 544, 521, 499, 478, 458, 438, 420, 402, 385]

/-- C[i], and 0 from 128 on (05 R93). -/
def logC (i : Nat) : Nat := logTable.getD i 0

/-- a ⊕ b (05 R93). -/
def logAdd (a b : LogAcc) : LogAcc :=
  match a, b with
  | .sentinel, _ => .sentinel
  | _, .sentinel => .sentinel
  | .empty, y => y
  | x, .empty => x
  | .fin x, .fin y =>
    let hi := max x y
    let d := (x - y).natAbs
    if 32768 ≤ d then .fin hi
    else
      let i := d / 256
      let phi := d % 256
      .fin (hi + rsh ((logC i * (256 - phi) + logC (i + 1) * phi : Nat) : Int) 12)

/-- Whether a ⊕ b takes the cheap path (05 R104). -/
def logCheap (a b : LogAcc) : Bool :=
  match a, b with
  | .fin x, .fin y => decide (32768 ≤ (x - y).natAbs)
  | _, _ => false

/-- One level of the tree: neighbours join, the lower positions first (05 R96); `n` counts the cheap adds. -/
def logLevel : List LogAcc → List LogAcc × Nat
  | a :: b :: t => let (r, n) := logLevel t; (logAdd a b :: r, n + (if logCheap a b then 1 else 0))
  | [a] => ([a], 0)
  | [] => ([], 0)

/-- The complete binary tree over a list, by levels (05 R96). -/
def logTreeAux : Nat → List LogAcc → LogAcc × Nat
  | 0, l => (l.headD .empty, 0)
  | h + 1, l =>
    let (l', n) := logLevel l
    let (x, m) := logTreeAux h l'
    (x, n + m)

/-- ceil(log2 n), 0 for n up to 1. -/
def clog2 (n : Nat) : Nat := if n ≤ 1 then 0 else Nat.log2 (n - 1) + 1

/-- The tree over all positions of a chunk, with the number of cheap adds. -/
def logTree (l : List LogAcc) : LogAcc × Nat := logTreeAux (clog2 l.length) l

/-- The product of two LG8 codes as its terms of P and N (05 R89-R91). -/
def lgTerm (a b : BitVec 8) : LogAcc × LogAcc :=
  if a = 0x80 ∨ b = 0x80 then (.sentinel, .sentinel)
  else if a = 0 ∨ b = 0 then (.empty, .empty)
  else
    let l := LogAcc.fin (512 * ((lgE a - 64) + (lgE b - 64)))
    if lgNeg a != lgNeg b then (.empty, l) else (l, .empty)

/-- X_P or X_N of a drain (05 R99). -/
def logInt (a : LogAcc) (sigma : Nat) : Nat :=
  match a with
  | .fin l => fracRne (pow2Fix l sigma)
  | _ => 0

/-- The ACCX value of a drained pair, and whether a conversion left the range (05 R99). -/
def logDrain (p n : LogAcc) (sigma : Nat) : Acc × Bool :=
  if p = .sentinel ∨ n = .sentinel then (.sentinel, false)
  else
    let x := logInt p sigma
    let y := logInt n sigma
    if 2 ^ 47 - 1 < x ∨ 2 ^ 47 - 1 < y then (.sentinel, true) else (.val ((x : Int) - y), false)

/-- The encoding of a log accumulator in a debug snapshot (05 R90). -/
def logCode (a : LogAcc) : U32 :=
  match a with
  | .fin l => (BitVec.ofInt 30 l).setWidth 32
  | .empty => 0x40000000
  | .sentinel => 0x80000000

/-! ### LG8 operations of the element engine (05 R101); the flag is SAT -/

def lgMul (a b : BitVec 8) : BitVec 8 × Bool :=
  if a = 0x80 ∨ b = 0x80 then (0x80, false)
  else if a = 0 ∨ b = 0 then (0, false)
  else lgClamp (lgNeg a != lgNeg b) (lgE a + lgE b - 64)

def lgDiv (a b : BitVec 8) : BitVec 8 × Bool :=
  if a = 0x80 ∨ b = 0x80 then (0x80, false)
  else if b = 0 then (0x80, false)
  else if a = 0 then (0, false)
  else lgClamp (lgNeg a != lgNeg b) (lgE a - lgE b + 64)

/-- floor(2^200 log2 e) (DEDUCED, log entry 12). -/
def log2e : Nat := 0x171547652b82fe1777d0ffda0d23a7d11d6aef551bad2b4b116

/-- LG8 of e^x (05 R101). -/
def lgExp (x : BitVec 16) : BitVec 8 × Bool :=
  if bfIsNan x then (0x80, false)
  else if bfIsInf x then (if bfNeg x then (0, false) else (0x7F, true))
  else if bfIsZero x then (0x40, false)
  else
    let (n, d) := (bfDy x).frac
    let y : Nat := 16 * n * log2e / (d * 2 ^ 200)
    lgClamp false (64 + (if bfNeg x then (-(y : Int) - 1 + 1) / 2 else ((y : Int) + 1) / 2))

/-- The bits of log2 y after the point for y in [1, 2) at 2^256, most significant first. -/
def logBits : Nat → Nat → Nat → Nat
  | 0, _, acc => acc
  | k + 1, y, acc =>
    let y2 := y * y / 2 ^ 256
    if 2 ^ 257 ≤ y2 then logBits k (y2 / 2) (2 * acc + 1) else logBits k y2 (2 * acc)

/-- floor(2^200 ln 2) (DEDUCED, log entry 12). -/
def ln2 : Nat := 0xb17217f7d1cf79abc9e3b39803f2f6af40f343267298b62d8a

/-- ln of a fraction, rounded to BF16 (DEDUCED, log entry 12). -/
def lnToBf (n d : Nat) : BitVec 16 :=
  if n = 0 then 0xFF80
  else if n = d then 0
  else
    let e := floorLog2 n d
    let y := if 0 ≤ e then n * 2 ^ 256 / (d * 2 ^ e.toNat) else n * 2 ^ (256 + (-e).toNat) / d
    let l : Int := e * 2 ^ 128 + (logBits 128 y 0 : Nat)
    let v : Int := l * ln2
    roundBf (v < 0) v.natAbs (2 ^ 328)

/-- The sign and the log magnitude of P - N where the difference is one power of 2^(1/4096): a term alone, or two terms a factor
of 2 apart. -/
def logPower (p n : LogAcc) : Option (Bool × Int) :=
  match p, n with
  | .fin a, .empty => some (false, a)
  | .empty, .fin b => some (true, b)
  | .fin a, .fin b => if a = b + 4096 then some (false, b) else if b = a + 4096 then some (true, a) else none
  | _, _ => none

/-- The two results of ru.lsum for accumulators P and N (05 R101): LG8 of their difference, its flag, and BF16 of the ln of its
magnitude. A difference that is one power has an exact E* = 64 + L / 512, whose ties go to even (02 R42). -/
def logSum (p n : LogAcc) : (BitVec 8 × Bool) × BitVec 16 :=
  if p = .sentinel ∨ n = .sentinel then ((0x80, false), bfNan)
  else
    let v := fun (a : LogAcc) => match a with
      | .fin l => let (x, d) := pow2Fix l 0; x * 2 ^ 400 / d
      | _ => 0
    let x := v p
    let y := v n
    let d := if x < y then y - x else x - y
    (match logPower p n with
      | some (neg, l) => lgClamp neg (64 + rsh l 9)
      | none => fracToLg (x < y) d (2 ^ 400), lnToBf d (2 ^ 400))

end Sys2Proof.Machine
end

