-- ==== Sys2Proof/Machine/Formats.lean ====
section
/-! DEFINITION. The number formats and their conversions (02), the stochastic rounding (06 R125-R128), accumulator sums
(02 R30) and the native operations of Table 8-1. -/

namespace Sys2Proof.Machine

/-! ### Element kinds (09 Table 9-5) -/

/-- The kinds a descriptor names. -/
inductive Kind where
  | int | uint | lg8 | bf16 | acc32 | accx | cb4 | cb8 | int1
deriving DecidableEq, Repr

/-- KIND of a format word; none for a reserved code. -/
def Kind.ofCode (k : BitVec 4) : Option Kind :=
  match k.toNat with
  | 0 => some .int | 1 => some .uint | 2 => some .lg8 | 3 => some .bf16 | 4 => some .acc32
  | 5 => some .accx | 6 => some .cb4 | 7 => some .cb8 | 8 => some .int1
  | _ => none

/-- The flags a conversion sets (02 R43). -/
structure Conv where
  code   : Nat
  sat    : Bool := false
  narrow : Bool := false
deriving DecidableEq, Repr

/-! ### Integer codes (02 R24-R27) -/

/-- The signed value of an n-bit code. -/
def sval (n : Nat) (c : Nat) : Int := if c < 2 ^ (n - 1) then c else (c : Int) - 2 ^ n

/-- Whether a code is its format's overflow code (02 Table 2-2). -/
def isOvf (k : Kind) (n c : Nat) : Bool :=
  match k with
  | .int => 4 ≤ n && c == 2 ^ (n - 1)
  | .uint => 4 ≤ n && c == 2 ^ n - 1
  | .lg8 => c == 0x80
  | .bf16 => bfIsNan (BitVec.ofNat 16 c)
  | _ => false

/-- The finite range of INTn or UINTn codes taken as integers (02 Table 2-2): for UINT the raw codes. -/
def intRange (k : Kind) (n : Nat) : Int × Int :=
  match k with
  | .uint => (0, if 4 ≤ n then 2 ^ n - 2 else 2 ^ n - 1)
  | _ => (-(2 ^ (n - 1) - 1), 2 ^ (n - 1) - 1)

/-- The overflow code of INTn or UINTn, or its most positive code with NARROW_OVF (02 R40). -/
def ovfCode (k : Kind) (n : Nat) : Conv :=
  if k = .int1 then { code := 1, narrow := true }
  else if 4 ≤ n then { code := if k = .uint then 2 ^ n - 1 else 2 ^ (n - 1) }
  else { code := (intRange k n).2.toNat, narrow := true }

/-- An integer, none for the sentinel, written to INTn or UINTn storage of width n with clamp width nc and zero point z
(02 R39 steps 4 and 5, R40; 06 R119). -/
def toIntCode (k : Kind) (n nc z : Nat) (x : Option Int) : Conv :=
  match x with
  | none => ovfCode k n
  | some x =>
    let v := if k = .uint then x + z else x
    let (lo, hi) := intRange k nc
    let c := max lo (min hi v)
    { code := (c % (2 ^ n : Nat)).toNat, sat := c != v }

/-- INT16 clamp of 08 R161. -/
def toInt16 (x : Int) : BitVec 16 × Bool :=
  if 32767 < x then (0x7FFF, true) else if x < -32767 then (0x8001, true) else (BitVec.ofInt 16 x, false)

/-! ### Accumulators (02 R28-R30) -/

/-- The largest finite magnitude of ACC32 or ACCX. -/
def accMax (accX : Bool) : Int := if accX then 2 ^ 47 - 1 else 2 ^ 31 - 1

/-- An exact result under 02 R30. -/
def accOf (accX : Bool) (x : Int) : Acc := if accMax accX < x ∨ x < -accMax accX then .sentinel else .val x

/-- Addition under 02 R30. -/
def accAdd (accX : Bool) (a b : Acc) : Acc :=
  match a, b with
  | .val x, .val y => accOf accX (x + y)
  | _, _ => .sentinel

/-- The container of an accumulator value (02 R28, R29). -/
def accCode (accX : Bool) (a : Acc) : Nat :=
  match a with
  | .val x => (x % (2 ^ (if accX then 64 else 32) : Nat)).toNat
  | .sentinel => if accX then 0xFFFF800000000000 else 0x80000000

/-- An accumulator from its container; a container whose upper bits do not copy bit 47 is the sentinel (02 R29). -/
def accRead (accX : Bool) (c : Nat) : Acc :=
  if accX then
    let x := sval 48 (c % 2 ^ 48)
    if sval 64 c = x then (if x = -(2 ^ 47) then .sentinel else .val x) else .sentinel
  else if c = 0x80000000 then .sentinel else .val (sval 32 c)

/-! ### Stochastic rounding (06 R125-R128) -/

def rngMix (z : U64) : U64 :=
  let z := (z ^^^ (z >>> 30)) * 0xBF58476D1CE4E5B9
  let z := (z ^^^ (z >>> 27)) * 0x94D049BB133111EB
  z ^^^ (z >>> 31)

/-- gen(key, sid, c) of 06 R125. -/
def rngGen (key : U64) (sid : U32) (c : U64) : U64 :=
  rngMix (rngMix (key ^^^ rngMix (sid.setWidth 64 + 0x9E3779B97F4A7C15)) + (c + 1) * 0x9E3779B97F4A7C15)

/-- U of an element (06 R126, R128): bits [31:0] of the stream's counter EPOCH × 2^32 + x. -/
def rngU (key : U64) (sid epoch : U32) (x : Nat) : Nat :=
  (rngGen key sid (BitVec.ofNat 64 (epoch.toNat * 2 ^ 32 + x))).toNat % 2 ^ 32

/-- Rounding shift with an optional draw (06 R128). -/
def rshSr (x : Int) (s : Nat) (u : Option Nat) : Int :=
  match u with
  | none => rsh x s
  | some u =>
    let q := x / (2 ^ s : Nat)
    let r := (x % (2 ^ s : Nat)).toNat
    let r32 := if s ≤ 32 then r * 2 ^ (32 - s) else r / 2 ^ (s - 32)
    if u < r32 then q + 1 else q

/-- A fraction of a sign rounded to an integer, with an optional draw (06 R128). -/
def fracSr (neg : Bool) (n d : Nat) (u : Option Nat) : Int :=
  match u with
  | none => if neg then -(rneDiv n d : Int) else rneDiv n d
  | some u =>
    let x : Int := if neg then -(n : Int) else n
    let q := x / (d : Int)
    let r32 := (x - q * d).toNat * 2 ^ 32 / d
    if u < r32 then q + 1 else q

/-! ### Native conversions between BF16, INT16 and LG8 (02 Table 2-4) -/

/-- A BF16 or LG8 code as an integer: a value, an infinity (with its sign) or a special. -/
inductive AsInt where
  | val (x : Int)
  | inf (neg : Bool)
  | special
deriving DecidableEq, Repr

def bfAsInt (c : BitVec 16) (u : Option Nat) : AsInt :=
  if bfIsNan c then .special
  else if bfIsInf c then .inf (bfNeg c)
  else if bfIsZero c then .val 0
  else let (n, d) := (bfDy c).frac; .val (fracSr (bfNeg c) n d u)

def lgAsInt (c : BitVec 8) (u : Option Nat) : AsInt :=
  if c = 0x80 then .special
  else if c = 0 then .val 0
  else let (n, d) := lgFrac c; .val (fracSr (lgNeg c) n d u)

/-- The integer formats of the element engine's lanes: 0 BF16, 1 INT16, 2 LG8 (10 Table 10-9). -/
abbrev Fmt := Nat

/-- A lane of a format taken as an integer. -/
def laneAsInt (fmt : Fmt) (c : BitVec 16) (u : Option Nat) : AsInt :=
  if fmt = 1 then (if c = 0x8000 then .special else .val c.toInt)
  else if fmt = 2 then lgAsInt (c.setWidth 8) u
  else bfAsInt c u

/-- BF16 to LG8, with SAT (02 R42, Table 2-4). -/
def bfToLg (c : BitVec 16) : BitVec 8 × Bool :=
  if bfIsNan c then (0x80, false)
  else if bfIsInf c then (if bfNeg c then 0xFF else 0x7F, true)
  else dyToLg (bfDy c)

/-- Conversion of a lane between the three lane formats (02 Table 2-4), with an optional draw; the flag is SAT. -/
def laneCvt (src dst : Fmt) (c : BitVec 16) (u : Option Nat) : BitVec 16 × Bool :=
  if dst = 1 then
    if src = 1 then (c, false)
    else match laneAsInt src c u with
      | .special => (0x8000, false)
      | .inf neg => (if neg then 0x8001 else 0x7FFF, true)
      | .val x => toInt16 x
  else if dst = 0 then
    if src = 0 then (bfCanon c, false)
    else if src = 1 then (if c = 0x8000 then bfNan else intToBf c.toInt, false)
    else (lgToBf (c.setWidth 8), false)
  else
    if src = 2 then (c &&& 0xFF, false)
    else if src = 1 then
      if c = 0x8000 then (0x80, false)
      else let (x, f) := dyToLg (Dy.ofInt c.toInt); (x.setWidth 16, f)
    else let (x, f) := bfToLg c; (x.setWidth 16, f)

/-! ### Native operations (08 R159-R163, Table 8-1) -/

/-- Whether an operation code is defined for a format: Table 8-1 of 08. -/
def opDefined (op : Nat) (fmt : Fmt) : Bool :=
  if op ≤ 0x0D ∨ op = 0x0F then fmt ≤ 1 || ((op == 0 || op == 0x0B || op == 0x0F) && fmt == 2)
  else if op = 0x0E then fmt == 1
  else if op ≤ 0x13 then fmt == 0
  else if op ≤ 0x15 then fmt == 2
  else if op = 0x16 then fmt == 0
  else false

/-- Whether an operation is a comparison. -/
def opCompares (op : Nat) : Bool := 7 ≤ op && op ≤ 0x0A

/-- Whether an operation uses A only (10 R230). -/
def opUnary (op : Nat) : Bool := op == 0 || (0x0C ≤ op && op ≤ 0x13) || op == 0x16

/-- The format of an operation's result (08 R171): target for ee.cvt, LG8 for the LG8 codes, else the source format. -/
def opResult (op : Nat) (fmt : Fmt) (target : Nat) : Fmt :=
  if op = 0x0F then target else if 0x14 ≤ op ∧ op ≤ 0x16 then 2 else fmt

/-- A comparison on two lanes (08 R160, R161). -/
def laneCmp (op : Nat) (fmt : Fmt) (a b : BitVec 16) : Bool :=
  let special := if fmt = 1 then a = 0x8000 ∨ b = 0x8000 else bfIsNan a ∨ bfIsNan b
  if special then op == 8
  else
    let lt := if fmt = 1 then decide (a.toInt < b.toInt) else bfLt a b
    let gt := if fmt = 1 then decide (b.toInt < a.toInt) else bfLt b a
    if op = 7 then !lt && !gt else if op = 8 then lt || gt else if op = 9 then lt else !gt

/-- An INT16 operation on lanes that may hold the overflow code (08 R161). -/
def int16Op (op : Nat) (imm : Nat) (a b c : BitVec 16) : BitVec 16 × Bool :=
  let ovf := a = 0x8000 ∨ ((1 ≤ op ∧ op ≤ 6) ∧ b = 0x8000) ∨ (op = 4 ∧ c = 0x8000)
  if ovf then (0x8000, false)
  else
    let x := a.toInt
    let y := b.toInt
    if op = 1 then toInt16 (x + y)
    else if op = 2 then toInt16 (x - y)
    else if op = 3 then toInt16 (x * y)
    else if op = 4 then toInt16 (x * y + c.toInt)
    else if op = 5 then (if y < x then b else a, false)
    else if op = 6 then (if x < y then b else a, false)
    else if op = 0x0C then toInt16 x.natAbs
    else if op = 0x0D then toInt16 (-x)
    else toInt16 (rsh x (imm % 16))

/-- A native operation on one element: the result and SAT. `cond` is the condition of ee.sel; a comparison gives all ones or
zeros (08 R162). -/
def native (op : Nat) (fmt : Fmt) (imm : Nat) (u : Option Nat) (cond : Bool) (a b c : BitVec 16) : BitVec 16 × Bool :=
  if op = 0 then (a, false)
  else if op = 0x0B then (if cond then a else b, false)
  else if opCompares op then (if laneCmp op fmt a b then 0xFFFF else 0, false)
  else if op = 0x0F then laneCvt fmt (imm % 4) a u
  else if op = 0x14 then let (x, f) := lgMul (a.setWidth 8) (b.setWidth 8); (x.setWidth 16, f)
  else if op = 0x15 then let (x, f) := lgDiv (a.setWidth 8) (b.setWidth 8); (x.setWidth 16, f)
  else if op = 0x16 then let (x, f) := lgExp a; (x.setWidth 16, f)
  else if fmt = 1 then int16Op op imm a b c
  else
    (if op = 1 then bfAdd a b
     else if op = 2 then bfSub a b
     else if op = 3 then bfMul a b
     else if op = 4 then bfFma a b c
     else if op = 5 then bfMin a b
     else if op = 6 then bfMax a b
     else if op = 0x0C then bfAbs a
     else if op = 0x0D then bfNegate a
     else if op = 0x10 then bfRcp a
     else if op = 0x11 then bfRsq a
     else if op = 0x12 then bfEx2 a
     else bfLg2 a, false)

end Sys2Proof.Machine
end

