-- ==== Sys2Proof/Machine/Operands.lean ====
section
/-! DEFINITION. Tensor operands: the descriptor and its side record (09 R197-R199, Tables 9-4 to 9-6, 9-15), the place of an
element in each layout (02 R36, 07 R131-R134, 09 R198), the walk of a tensor (08 R165) and the fill count (09 R200). -/

namespace Sys2Proof.Machine

/-- A tensor as its descriptor and side record give it. -/
structure Tensor where
  kind     : Kind
  width    : Nat          -- bits of a stored element
  entryW   : Nat          -- the WIDTH field
  layout   : Nat
  form     : Nat
  orient   : Bool
  group    : Nat          -- group size G, 0 none
  streamed : Bool
  cbank    : Fin 2
  filled   : Bool
  rank     : Nat
  zstride0 : Bool
  zp       : Nat
  base     : Nat
  e0 : Nat
  e1 : Nat
  e2 : Nat
  e3 : Nat
  st1 : Nat
  st2 : Nat
  st3 : Nat
  aux      : Nat
  hdr      : Nat
  tstride  : Nat
  tileM    : Nat
  scales   : Nat
  s2       : Nat
deriving DecidableEq, Repr

/-- Bits [lo, lo + n) of a descriptor. -/
def dbits (d : DescWord) (lo n : Nat) : Nat := (d.extractLsb' lo n).toNat
/-- Bits [lo, lo + n) of the format word (09 Table 9-5). -/
def fbits (d : DescWord) (lo n : Nat) : Nat := dbits d (64 + lo) n
/-- The address of the side record; 0 means none. -/
def descAux (d : DescWord) : Nat := dbits d 448 64
/-- The KIND code. -/
def descKind (d : DescWord) : BitVec 4 := d.extractLsb' 124 4

/-- The storage width of an element (09 Table 9-5). -/
def storedBits (k : Kind) (w : Nat) : Nat :=
  match k with
  | .int => w | .uint => w | .lg8 => 8 | .bf16 => 16 | .acc32 => 32 | .accx => 64 | .cb4 => 4 | .cb8 => 8 | .int1 => 1

/-- The tensor a descriptor and its side record describe. -/
def tensor (d : DescWord) (side : BitVec 256) : Tensor :=
  let k := (Kind.ofCode (descKind d)).getD .int
  { kind := k, width := storedBits k (fbits d 55 5), entryW := fbits d 55 5, layout := fbits d 53 2, form := fbits d 50 3,
    orient := fbits d 49 1 = 1, group := match fbits d 47 2 with | 0 => 0 | 1 => 32 | 2 => 64 | _ => 128,
    streamed := fbits d 46 1 = 1, cbank := Fin.ofNat 2 (fbits d 45 1), filled := fbits d 44 1 = 1,
    rank := fbits d 42 2 + 1, zstride0 := fbits d 41 1 = 1, zp := fbits d 16 16, base := dbits d 0 64,
    e0 := dbits d 128 32, e1 := dbits d 160 32, e2 := dbits d 192 32, e3 := dbits d 224 32,
    st1 := dbits d 256 64, st2 := dbits d 320 64, st3 := dbits d 384 64, aux := descAux d,
    hdr := (side.extractLsb' 0 64).toNat, tstride := (side.extractLsb' 64 32).toNat,
    tileM := (side.extractLsb' 96 16).toNat, scales := (side.extractLsb' 128 64).toNat,
    s2 := (side.extractLsb' 192 64).toNat }

/-- The side record of a descriptor (09 Table 9-6); all 0 without one. -/
def sideOf (s : State) (d : DescWord) : BitVec 256 := if descAux d = 0 then 0 else ofBytes 256 (s.bytes (descAux d) 32)

/-! ### The descriptor checks (09 R199, R444) -/

/-- The level a descriptor's values need (09 Table 9-15). -/
def descLevel (T : Tensor) : Nat :=
  if T.kind = .lg8 ∨ T.form = 3 ∨ T.orient ∨ T.filled then 3
  else if T.kind = .cb4 ∨ T.kind = .cb8 ∨ T.form = 2 ∨ T.group ≠ 0 ∨ T.streamed ∨ T.cbank = 1 ∨ T.scales ≠ 0 ∨ T.s2 ≠ 0 then 2
  else 1

/-- Whether a form exists for a kind (07 Table 7-1). -/
def formOk (k : Kind) (form : Nat) : Bool :=
  form == 0 || (form == 1 && (k == .int || k == .uint || k == .lg8))
  || ((form == 2 || form == 3) && (k == .int || k == .cb4 || k == .cb8))

/-- Whether a layout exists for a kind (09 R199). -/
def layoutOk (k : Kind) (layout : Nat) : Bool :=
  match layout with
  | 0 => true
  | 1 => k == .int || k == .uint || k == .cb4 || k == .cb8 || k == .int1
  | 2 => k == .int || k == .uint || k == .lg8 || k == .bf16 || k == .int1
  | _ => false

/-- The DESC_FORMAT conditions of 09 R199 do not hold. -/
def descWell (level : Nat) (d : DescWord) (side : BitVec 256) : Bool :=
  let T := tensor d side
  (Kind.ofCode (descKind d)).isSome && T.layout ≤ 2 && T.form ≤ 3 && fbits d 32 9 == 0 && fbits d 0 16 == 0
  && (T.kind == .uint || T.zp == 0) && (side.extractLsb' 112 16).toNat == 0
  && (match T.kind with
      | .int | .uint | .cb4 | .cb8 => 2 ≤ T.entryW && T.entryW ≤ 16
      | .lg8 => T.entryW == 8
      | .bf16 => T.entryW == 16
      | _ => true)
  && (2 ≤ T.rank || T.e1 == 1) && (3 ≤ T.rank || T.e2 == 1) && (4 ≤ T.rank || T.e3 == 1)
  && layoutOk T.kind T.layout && formOk T.kind T.form
  && (T.aux != 0 || (T.group == 0 && T.layout != 2))
  && (if T.layout = 2 then 1 ≤ T.tileM && T.tileM ≤ 4096 else T.tileM == 0 && T.tstride == 0)
  && descLevel T ≤ level

/-- The bytes an element counts for in the ALIGN check of packed layout (09 R199). -/
def alignBytes (n : Nat) : Nat := if n ≤ 8 then 1 else if n ≤ 16 then 2 else n / 8

/-- The first value of a descriptor that fails the ALIGN conditions of 09 R199. -/
def descMisaligned (T : Tensor) : Option Nat :=
  let unit := if T.layout = 0 then alignBytes T.width else 32
  let used := [T.base] ++ (if 2 ≤ T.rank ∧ T.layout ≠ 2 then [T.st1] else []) ++ (if 3 ≤ T.rank then [T.st2] else [])
    ++ (if 4 ≤ T.rank then [T.st3] else []) ++ (if T.layout = 2 then [T.tstride] else [])
  match used.find? (fun x => x % unit != 0) with
  | some x => some x
  | none => if T.aux % 32 != 0 then some T.aux else none

/-- The FORMAT_PARAM conditions of a descriptor by itself do not hold: the zero point (02 R25), the group size (06 R110), the
two-level form's size (06 R111), the stored-tile stride (07 R131). -/
def descParams (T : Tensor) : Bool :=
  (T.kind != .uint || (if 4 ≤ T.entryW then T.zp ≤ 2 ^ T.entryW - 2 else T.zp ≤ 2 ^ T.entryW - 1))
  && (T.group == 0 || (T.kind == .int && (T.entryW == 4 || T.entryW == 8)) || T.kind == .cb4 || T.kind == .cb8)
  && (T.group == 0 || T.streamed || T.e0 * T.e1 * T.e2 * T.e3 < 2 ^ 28)
  && (T.layout != 2 || 8 + 16 * T.width * T.tileM ≤ T.tstride)

/-- Read and check a descriptor register (09 R199): the tensor it describes, or the first fault. A side record that the task may
read is read under the tag rules (11 R250). -/
def readDesc (s : State) (p : Pid) (t : Task) (r : BitVec 5) : Res Tensor := do
  let d := t.dreg (dnum r)
  let aux : List Run := if descAux d = 0 then [] else [(descAux d, 32)]
  match checkRuns s p false aux with
  | .ok _ => gate s false (slotsOf aux)
  | .error _ => .ok ()
  let side := sideOf s d
  need (descWell t.stage.level.toNat d side) 0x0B r.toNat
  let T := tensor d side
  match descMisaligned T with
  | some x => Except.error (.fault 0x0A (BitVec.ofNat 32 x))
  | none => Except.ok ()
  need (descParams T) 0x0C r.toNat
  return T

/-! ### Places of elements -/

/-- An element's indices, dimension 0 first. -/
structure Ix where
  i0 : Nat
  i1 : Nat := 0
  i2 : Nat := 0
  i3 : Nat := 0
deriving DecidableEq, Repr

/-- Stored tiles across a row of a tensor. -/
def Tensor.segs (T : Tensor) : Nat := (T.e0 + 127) / 128

/-- Whether an element exists. -/
def Tensor.has (T : Tensor) (i : Ix) : Bool := i.i0 < T.e0 && i.i1 < T.e1 && i.i2 < T.e2 && i.i3 < T.e3

/-- The linear index of an element (06 R126). -/
def Tensor.linear (T : Tensor) (i : Ix) : Nat := i.i0 + T.e0 * (i.i1 + T.e1 * (i.i2 + T.e2 * i.i3))

/-- Whether an element lies below the fill count (09 R200). -/
def Tensor.live (T : Tensor) (fill : Nat) (i : Ix) : Bool :=
  !T.filled || (match T.rank with | 1 => i.i0 | 2 => i.i1 | 3 => i.i2 | _ => i.i3) < fill

/-- The address of the stored tile of an element (09 R198). -/
def Tensor.tileAt (T : Tensor) (i : Ix) : Nat :=
  T.base + (i.i1 / T.tileM * T.segs + i.i0 / 128) * T.tstride + i.i2 * T.st2 + i.i3 * T.st3

/-- The address of the row of an element outside stored tiles (09 R197). -/
def Tensor.rowAt (T : Tensor) (i : Ix) : Nat := T.base + i.i1 * T.st1 + i.i2 * T.st2 + i.i3 * T.st3

/-- The bits of an element, plane 0 first, each as (byte address, bit number) (02 R36, 07 R133). -/
def Tensor.bitsAt (T : Tensor) (i : Ix) : List (Nat × Nat) :=
  let n := T.width
  if T.layout = 2 then
    let body := T.tileAt i + 8 + 16 * n * (i.i1 % T.tileM)
    let c := i.i0 % 128
    (List.range n).map (fun p =>
      if T.kind = .lg8 ∨ T.kind = .bf16 then (body + (n * c + p) / 8, (n * c + p) % 8) else (body + 16 * p + c / 8, c % 8))
  else
    let row := T.rowAt i
    let j := if T.zstride0 then 0 else i.i0
    if T.layout = 1 then
      (List.range n).map (fun p => (row + 32 * (n * (j / 256) + p) + j % 256 / 8, j % 8))
    else (List.range n).map (fun p => (row + (n * j + p) / 8, (n * j + p) % 8))

/-- A number from bits at places, the first the least significant. -/
def State.bitsNum (s : State) : List (Nat × Nat) → Nat
  | [] => 0
  | (a, b) :: t => (if (s.byte a).getLsbD b then 1 else 0) + 2 * s.bitsNum t

/-- Store bits of a number at places. -/
def State.storeBits (s : State) : List (Nat × Nat) → Nat → State
  | [], _ => s
  | (a, b) :: t, x => (s.putByte a (setField (s.byte a) b 1 x)).storeBits t (x / 2)

/-- A byte of a peer with bits of a number put into it: its other bits are as this module sent them last, else free
(DESIGN CHOICE, log entry 47). -/
def peerByteWith (s : State) (bits : List (Nat × Nat)) (x a : Nat) : Byte :=
  bits.zipIdx.foldl (fun b y => if y.1.1 = a then setField b y.1.2 1 (x / 2 ^ y.2) else b) ((s.lastSent a).getD (s.byte a))

/-- Store bits of a number at places, which lie in this module or in a peer. -/
def State.putBits (s : State) (bits : List (Nat × Nat)) (x : Nat) : State :=
  if bits.all (fun y => y.1 < 2 ^ 63) then s.storeBits bits x
  else { s with sent := s.sent ++ ((bits.map (·.1)).eraseDups).map (fun a =>
    (BitVec.ofNat 64 a, .write [peerByteWith s bits x a] false)) }

/-! ### Stored tiles (07 R131-R134) -/

/-- A tile header (07 Table 7-2). -/
structure TileHdr where
  packed : Bool
  rows   : Nat
  cols   : Nat
  width  : Nat
  kind   : Nat
  cmax   : Nat
  len    : Nat
deriving DecidableEq, Repr

def tileHdr (s : State) (a : Nat) : TileHdr :=
  let h := s.num a 8
  { packed := h / 2 ^ 63 % 2 = 1, rows := h / 2 ^ 48 % 2 ^ 13, cols := h / 2 ^ 40 % 2 ^ 8, width := h / 2 ^ 35 % 2 ^ 5,
    kind := h / 2 ^ 32 % 8, cmax := h / 2 ^ 24 % 2 ^ 8, len := h % 2 ^ 24 }

/-- The nonzero count of packed row `i`: the popcount of its bitmap (07 R134). -/
def packedCount (s : State) (body i : Nat) : Nat :=
  ((List.range 128).filter (fun c => (s.byte (body + 16 * i + c / 8)).getLsbD (c % 8))).length

/-- The offset of packed row `i`'s values in the body (07 R134). -/
def packedOffset (s : State) (body n rows i : Nat) : Nat :=
  16 * rows + ((List.range i).map (fun r => 4 * ((packedCount s body r * n + 31) / 32))).sum

/-- Whether a consumer accepts a tile header (07 R132), the expander's check of LEN included. -/
def TileHdr.ok (h : TileHdr) (s : State) (T : Tensor) (a : Nat) : Bool :=
  let kindOk := match T.kind with
    | .int => h.kind == 0 | .uint => h.kind == 1 | .lg8 => h.kind == 2 | .bf16 => h.kind == 3
    | .int1 => h.kind == 0
    | _ => false
  let n := T.width
  kindOk && h.width == n && 1 ≤ h.rows && h.rows ≤ T.tileM && 1 ≤ h.cols && h.cols ≤ 128
  && (if h.packed then h.len % 4 == 0 && 16 * h.rows ≤ h.len && h.len ≤ 16 * n * h.rows
        && h.len == packedOffset s (a + 8) n h.rows h.rows
      else h.len == 16 * n * h.rows)
  && h.len + 8 ≤ T.tstride

/-- The zero code of a tensor's format (07 R134). -/
def Tensor.zeroCode (T : Tensor) : Nat := if T.kind = .uint then T.zp else 0

/-- The code of an element of a packed tile (07 R134). -/
def packedCode (s : State) (T : Tensor) (a : Nat) (h : TileHdr) (r c : Nat) : Nat :=
  let body := a + 8
  let bit := fun (k : Nat) => (s.byte (body + 16 * r + k / 8)).getLsbD (k % 8)
  if bit c then
    let rank := ((List.range c).filter bit).length
    let off := body + packedOffset s body T.width h.rows r
    s.bitsNum ((List.range T.width).map (fun p => (off + (T.width * rank + p) / 8, (T.width * rank + p) % 8)))
  else T.zeroCode

/-- The bytes of a 2:4 segment or of a transposable block (07 R142, R146). -/
def Tensor.unitBytes (T : Tensor) : Nat := if T.form = 2 then 8 * T.width + 16 else 2 + T.width

/-- The address of the 2:4 segment of a position and column (07 R142), or of its transposable block (07 R146). -/
def Tensor.unitAt (T : Tensor) (i : Ix) : Nat :=
  if T.form = 2 then T.rowAt i + i.i0 / 128 * T.unitBytes
  else T.base + i.i2 * T.st2 + i.i3 * T.st3 + (i.i1 / 4 * ((T.e0 + 3) / 4) + i.i0 / 4) * T.unitBytes

/-- The index pair of group `g` of a 2:4 segment (07 R142). -/
def pairOf (s : State) (T : Tensor) (a g : Nat) : Nat × Nat :=
  let b := (s.byte (a + 8 * T.width + g / 2)).toNat / 16 ^ (g % 2)
  (b % 4, b / 4 % 4)

/-- The code of a position of a 2:4 tensor; none where it is dropped (07 R142). -/
def code24 (s : State) (T : Tensor) (i : Ix) : Option Nat :=
  let a := T.unitAt i
  let g := i.i0 % 128 / 4
  let (x, y) := pairOf s T a g
  let val := fun k => s.bitsNum ((List.range T.width).map (fun p => (a + 8 * p + k / 8, k % 8)))
  if i.i0 % 4 = x then some (val (2 * g)) else if i.i0 % 4 = y then some (val (2 * g + 1)) else none

/-- The mask of a transposable block (07 R146). -/
def blockMask (s : State) (a : Nat) : BitVec 16 := BitVec.ofNat 16 (s.num a 2)

/-- Whether a block mask holds exactly two 1 bits in every row and every column (07 R146). -/
def maskOk (m : BitVec 16) : Bool :=
  (List.range 4).all (fun r =>
    ((List.range 4).filter (fun c => m.getLsbD (4 * r + c))).length == 2
    && ((List.range 4).filter (fun c => m.getLsbD (4 * c + r))).length == 2)

/-- The code of a position and column of a transposable tensor; none where it is dropped (07 R146). -/
def codeT24 (s : State) (T : Tensor) (i : Ix) : Option Nat :=
  let a := T.unitAt i
  let m := blockMask s a
  let k := 4 * (i.i0 % 4) + i.i1 % 4
  if m.getLsbD k then
    let rank := ((List.range k).filter (fun j => m.getLsbD j)).length
    some (s.bitsNum ((List.range T.width).map (fun p => (a + 2 + (T.width * rank + p) / 8, (T.width * rank + p) % 8))))
  else none

/-- The stored code of an element, in any layout and form; a dropped position reads 0, and a row of a stored tile at or beyond ROWS reads 0 bits (07 R132). -/
def Tensor.code (T : Tensor) (s : State) (i : Ix) : Nat :=
  if T.form = 2 then (code24 s T i).getD 0
  else if T.form = 3 then (codeT24 s T i).getD 0
  else if T.layout = 2 then
    let a := T.tileAt i
    let h := tileHdr s a
    let r := i.i1 % T.tileM
    if h.rows ≤ r then 0
    else if h.packed then packedCode s T a h r (i.i0 % 128)
    else s.bitsNum (T.bitsAt i)
  else s.bitsNum (T.bitsAt i)

/-- The bits that pad the last planar group of an element's line, where the element is the line's last (02 R36). -/
def Tensor.padBits (T : Tensor) (i : Ix) : List (Nat × Nat) :=
  if T.layout = 1 ∧ i.i0 + 1 = T.e0 ∧ T.e0 % 256 ≠ 0 ∧ T.zstride0 = false then
    (List.range (256 - T.e0 % 256)).flatMap (fun k => T.bitsAt { i with i0 := T.e0 + k })
  else []

/-- The places that a store of an element writes: its own bits, and the padding after the last element of a line (02 R36). -/
def Tensor.putAt (T : Tensor) (i : Ix) : List (Nat × Nat) := T.bitsAt i ++ T.padBits i

/-- Store the code of an element in its layout, a dense body for stored tiles; padding takes 0 bits (02 R36). -/
def Tensor.put (T : Tensor) (s : State) (i : Ix) (c : Nat) : State := s.putBits (T.putAt i) (c % 2 ^ T.width)

/-- The address of the row header of row i1 and segment g (07 R131). -/
def Tensor.hdrAt (T : Tensor) (i : Ix) (g : Nat) : Nat :=
  T.hdr + 4 * ((i.i1 + T.e1 * (i.i2 + T.e2 * i.i3)) * T.segs + g)

/-- A free word as a code that a device block may write to the tensor (02 R24, R29, R32). -/
def Tensor.freeCode (T : Tensor) (x : U64) : Nat :=
  let c := x.toNat % 2 ^ T.width
  match T.kind with
  | .int => if T.width < 4 ∧ c = 2 ^ (T.width - 1) then 0 else c
  | .bf16 => (bfCanon (x.setWidth 16)).toNat
  | .accx => accCode true (accRead true (BitVec.signExtend 64 (x.setWidth 48)).toNat)
  | _ => c

/-! ### Walks (08 R165) -/

/-- The outer indices, dimension 1 innermost. -/
def Tensor.outer (T : Tensor) : List Ix :=
  (List.range T.e3).flatMap (fun i3 => (List.range T.e2).flatMap (fun i2 =>
    (List.range T.e1).map (fun i1 => ⟨0, i1, i2, i3⟩)))

/-- The vectors of a walk: the index of lane 0 of each. -/
def Tensor.vectors (T : Tensor) : List Ix :=
  T.outer.flatMap (fun o => (List.range T.segs).map (fun v => { o with i0 := 128 * v }))

/-- Lane `l` of a vector. -/
def Ix.lane (i : Ix) (l : Nat) : Ix := { i with i0 := i.i0 + l }

/-- The runs of bytes that the walk may touch (10 R218): rows, 2:4 columns or blocks, or whole stored tiles. -/
def Tensor.runs (T : Tensor) : List Run :=
  if T.e0 = 0 then []
  else if T.form = 2 then T.outer.map (fun o => (T.rowAt o, (T.e0 + 127) / 128 * T.unitBytes))
  else if T.form = 3 then
    (List.range T.e3).flatMap (fun i3 => (List.range T.e2).map (fun i2 =>
      (T.unitAt ⟨0, 0, i2, i3⟩, (T.e1 + 3) / 4 * ((T.e0 + 3) / 4) * T.unitBytes)))
  else if T.layout = 2 then
    (List.range T.e3).flatMap (fun i3 => (List.range T.e2).flatMap (fun i2 =>
      (List.range ((T.e1 + T.tileM - 1) / T.tileM)).flatMap (fun r =>
        (List.range T.segs).map (fun g =>
          (T.tileAt ⟨128 * g, r * T.tileM, i2, i3⟩, 8 + 16 * T.width * T.tileM)))))
  else
    let len := if T.layout = 1 then 32 * T.width * ((T.e0 + 255) / 256)
      else if T.zstride0 then (T.width + 7) / 8 else (T.width * T.e0 + 7) / 8
    T.outer.map (fun o => (T.rowAt o, len))

/-- The side record as a run, where the descriptor has one. -/
def Tensor.auxRun (T : Tensor) : List Run := if T.aux = 0 then [] else [(T.aux, 32)]

/-- The accesses of a tensor operand: its side record, and the bytes of its walk. -/
def Tensor.parts (T : Tensor) (write : Bool) : List Part := [(false, T.auxRun), (write, T.runs)]

/-- What a consumer of the stored tile at an address waits for: its header, then the LEN bytes of its body (07 R131). -/
def Tensor.tileRuns (s : State) (T : Tensor) (a : Nat) : List Run := [(a, 8), (a + 8, min (tileHdr s a).len (T.tstride - 8))]

/-- The bytes that a read of one element waits for: of a stored tile, all of it. -/
def Tensor.elemRuns (s : State) (T : Tensor) (i : Ix) : List Run :=
  if 2 ≤ T.form then [(T.unitAt i, T.unitBytes)]
  else if T.layout = 2 then T.tileRuns s (T.tileAt i)
  else (T.bitsAt i).map (fun x => (x.1, 1))

/-- Elements of a walk that are neither tail, masked by lane nor beyond the fill count (08 R157, R165; 09 R200). -/
def Tensor.liveIx (T : Tensor) (fill : Nat) (mask : BitVec 128) : List Ix :=
  T.vectors.flatMap (fun v =>
    ((List.range 128).filter (fun l => mask.getLsbD l && T.has (v.lane l) && T.live fill (v.lane l))).map v.lane)

/-- The slots that a walk over the elements given of a tensor reads (11 R250). -/
def Tensor.readSlots (T : Tensor) (s : State) (ixs : List Ix) : List (Pid × Nat) := slotsOf (ixs.flatMap (T.elemRuns s))

/-- The slots that a walk over the elements given of a tensor writes (11 R250). -/
def Tensor.writeSlots (T : Tensor) (ixs : List Ix) : List (Pid × Nat) :=
  slotsOf (ixs.flatMap (fun i => (T.putAt i).map (fun x => (x.1, 1))))

end Sys2Proof.Machine
end

