-- ==== Sys2Proof/Machine/Terp.lean ====
section
/-! DEFINITION. Banks, bulk tag operations and remote windows (11 R239-R245, R261-R267). -/

namespace Sys2Proof.Machine

open Host (Outcome)

/-- Change one bank. -/
def Terp.onBank (T : Terp) (b : Fin 44) (g : Bank → Bank) : Terp :=
  { T with banks := T.banks.set b.val (g T.banks[b]) b.isLt }

/-- Change one window. -/
def Terp.onWindow (T : Terp) (w : Fin 4) (g : Window → Window) : Terp :=
  { T with windows := T.windows.set w.val (g T.windows[w]) w.isLt }

/-! ### Bulk tags (11 R267) -/

/-- A run of tags set to one value; slots beyond 90,111 are ignored. -/
def setTags (x : BitVec 90112) (first count : Nat) (full : Bool) : BitVec 90112 :=
  let m := BitVec.ofNat 90112 ((2 ^ count - 1) * 2 ^ first)
  if full then x ||| m else x &&& ~~~ m

/-- A write of TERP_TAG_OP starts an operation, or is refused while one runs (11 R267). -/
def State.tagOpWrite (s : State) (p : Pid) (v : U64) : State :=
  match s.polders[p].terp.tagOp with
  | some _ => s.terpFlag p 1 true
  | none => s.onTerp p (fun T => { T with tagOp := some v })

def execTerpTagOp (p : Pid) (v : U64) (s : State) : Outcome State Fault Refusal := atPolder s p fun s => .next (s.tagOpWrite p v)

/-- The operation in progress has set its last tag and BUSY clears (11 R267; DESIGN CHOICE, log entry 13: its tags change together). -/
def execTagOpDone (p : Pid) (s : State) : Outcome State Fault Refusal := whenRunning s fun s =>
  match s.polders[p].terp.tagOp with
  | none => .next s
  | some v => .next (s.onTerp p (fun T =>
      { T with tagOp := none,
               slots := setTags T.slots (v.extractLsb' 0 17).toNat (v.extractLsb' 32 17).toNat (v.getLsbD 63) }))

/-! ### Banks (11 R242, R245) -/

/-- Whether two runs of bytes meet. -/
def overlap (a n b m : Nat) : Bool := 0 < n && 0 < m && a < b + m && b < a + n

/-- Whether a region of a bound program or an open scratchpad window covers a byte of a range of a scratchpad (11 R242). -/
def rangeHeld (s : State) (p : Pid) (off len : Nat) : Bool :=
  s.claimedRegions.any (fun r => overlap r.2.base.toNat (r.2.pages.toNat * 4096) (scratchAddr p off) len)
  || s.polders[p].terp.windows.any (fun w =>
      w.isOpen && !w.weirs && overlap (4096 * w.base.toNat) (4096 * w.size.toNat) off len)

/-- Zero a range of memory: its cells leave the list (DESIGN CHOICE, log entry 1: unlisted bytes read 0). -/
def State.zero (s : State) (a n : Nat) : State := { s with mem := s.mem.filter (fun c => c.1 < a || a + n ≤ c.1) }

/-- Zero-fill bank b and set its tags empty (11 R242, R245). -/
def State.clearBank (s : State) (p : Pid) (b : Fin 44) : State :=
  (s.zero (scratchAddr p (0x800000 * b.val)) 0x800000).onTerp p (fun T =>
    { T with slots := setTags T.slots (2048 * b.val) 2048 false })

/-- A write of TERP_BANK_CTL_b (11 R242, Table 11-3). A refused write changes nothing, sets REFUSED and returns RESOURCE_HELD;
an OFF bank's contents are lost at once. -/
def State.bankWrite (s : State) (p : Pid) (b : Fin 44) (v : U32) : State :=
  let x := s.polders[p].terp.banks[b]
  let prot := v.getLsbD 0
  let tags := v.getLsbD 1
  let power := v.extractLsb' 2 2
  if (prot != x.prot || tags != x.tags || power == 2) && rangeHeld s p (0x800000 * b.val) 0x800000 then
    { s.terpFlag p 1 true with reply := .status 0x05 }
  else
    let wakes := x.power == 2 && power ≤ 1
    let fills := wakes || (prot != x.prot && x.power != 2 && power != 2)
    let s := if fills || power == 2 then s.clearBank p b else s
    let s := if tags != x.tags then s.onTerp p (fun T => { T with slots := setTags T.slots (2048 * b.val) 2048 false }) else s
    s.onTerp p (fun T => T.onBank b (fun y =>
      { y with prot := prot, tags := tags, busy := y.busy || fills,
               power := if power == 3 then x.power else if wakes then 0 else power }))

def execTerpBankCtlWrite (p : Pid) (b : Fin 44) (v : U32) (s : State) : Outcome State Fault Refusal := atPolder s p fun s =>
  .next (s.bankWrite p b v)

/-- A bank's zero-fill, power-up or wake completes (11 R245). -/
def execBankReady (p : Pid) (b : Fin 44) (s : State) : Outcome State Fault Refusal := whenRunning s fun s =>
  if s.polders[p].terp.banks[b].busy then .next (s.onTerp p (fun T => T.onBank b (fun y => { y with busy := false })))
  else .next s

/-! ### Remote windows (11 R261-R265) -/

/-- Whether window w may open with the type given (11 R265). -/
def mayOpen (s : State) (p : Pid) (w : Fin 4) (weirs : Bool) : Bool :=
  let T := s.polders[p].terp
  let x := T.windows[w]
  let base := x.base.toNat
  let size := x.size.toNat
  let clash := (List.finRange 4).any (fun i =>
    let y := T.windows[i]
    i != w && y.isOpen && y.weirs == weirs && overlap y.base.toNat y.size.toNat base size)
  let banksOk := weirs || (List.finRange 44).all (fun b =>
    !(overlap (2048 * b.val) 2048 base size) || (T.banks[b].power != 2 && !T.banks[b].busy))
  (weirs || base + size ≤ 90112) && !clash && banksOk

/-- A write of TERP_RWIN_CTL_w (11 R265); opening clears the arrival counter (11 R264). -/
def State.windowWrite (s : State) (p : Pid) (w : Fin 4) (v : U32) : State :=
  let x := s.polders[p].terp.windows[w]
  let isOpen := v.getLsbD 31
  let weirs := v.getLsbD 30
  let wr := v.getLsbD 29
  let rd := v.getLsbD 28
  let refused := (x.isOpen && (weirs != x.weirs || wr != x.wr || rd != x.rd)) || (isOpen && !x.isOpen && !mayOpen s p w weirs)
  if refused then s.terpFlag p 1 true
  else s.onTerp p (fun T => T.onWindow w (fun y =>
    { y with isOpen, weirs, wr, rd, arrWeir := v.extractLsb' 0 16, arr := if isOpen && !x.isOpen then 0 else y.arr }))

def execTerpRwinCtlWrite (p : Pid) (w : Fin 4) (v : U32) (s : State) : Outcome State Fault Refusal := atPolder s p fun s =>
  .next (s.windowWrite p w v)

/-- A write of TERP_RWIN_BASE_w, SIZE_w or STEP_w (fields 0, 1, 2): one that would change it while the window is open is
refused (11 R265). -/
def State.windowField (s : State) (p : Pid) (w : Fin 4) (field : Nat) (v : U32) : State :=
  let x := s.polders[p].terp.windows[w]
  let y : Window := match field with
    | 0 => { x with base := v.setWidth 17 }
    | 1 => { x with size := v.setWidth 17 }
    | _ => { x with step := v }
  if x.isOpen && y != x then s.terpFlag p 1 true else s.onTerp p (fun T => T.onWindow w (fun _ => y))

/-- Whether the receiving module takes a packet (11 R261, R262): it judges it once, on arrival (R265). -/
def packetOk (s : State) (p : Pid) (l : Landing) : Bool :=
  let x := s.polders[p].terp.windows[l.window]
  let o := l.offset.toNat
  l.base.isSome || (x.isOpen && (match l.op with
    | .write data _ => !x.weirs && x.wr && o + data.length ≤ x.size.toNat * 4096
    | .read len => !x.weirs && x.rd && o + len.toNat ≤ x.size.toNat * 4096
    | .signal _ => x.weirs && o % 4 == 0 && o < 4 * x.size.toNat
    | .refused _ _ _ => false))

/-- The first slot or weir of the window that a packet met (11 R261, R265). -/
def landingBase (s : State) (p : Pid) (l : Landing) : Nat := l.base.getD s.polders[p].terp.windows[l.window].base.toNat

/-- The scratchpad address a packet names (11 R261). -/
def landingAddr (s : State) (p : Pid) (l : Landing) : Nat := scratchAddr p (4096 * landingBase s p l + l.offset.toNat)

/-- Bytes land in a window: they are written, the last packet into the slot sets its tag full, then the arrival counter adds
the multiples of STEP crossed to ARR_WEIR (11 R250, R263, R264). -/
def State.land (s : State) (p : Pid) (l : Landing) (data : List Byte) (slotEnd : Bool) : State :=
  let a := landingAddr s p l
  let x := s.polders[p].terp.windows[l.window]
  let s := s.putBytes a data
  let n := (4096 * landingBase s p l + l.offset.toNat + data.length - 1) / 4096
  let s := if slotEnd then s.slotEnd p n else s
  let total := x.arr + BitVec.ofNat 64 data.length
  let s := s.onTerp p (fun T => T.onWindow l.window (fun y => { y with arr := total }))
  let crossed := if x.step = 0 then 0 else total.toNat / x.step.toNat - x.arr.toNat / x.step.toNat
  if crossed = 0 ∨ x.arrWeir = 0xFFFF then s else s.weirSend p x.arrWeir.toNat (BitVec.ofNat 32 crossed)

/-- A packet leaves the landing port. -/
def State.popLanding (s : State) (p : Pid) : State := s.onTerp p (fun T => { T with landing := T.landing.tail })

/-- A packet that was accepted waits at the head of the landing port; a later change of its window does not touch it (11 R265). -/
def State.keepLanding (s : State) (p : Pid) (l : Landing) : State :=
  s.onTerp p (fun T => { T with landing := { l with base := some (landingBase s p l) } :: T.landing.tail })

/-- A refused packet lands nowhere and counts, and the refusal goes back to the instruction that sent it (11 R262). -/
def State.refuseLanding (s : State) (p : Pid) (l : Landing) : State :=
  let s := (s.onTerp p (fun T => { T with refused := T.refused + 1, status := stick T.status 4 true })).popLanding p
  match l.sender with
  | some a => { s with sent := s.sent ++ [(BitVec.ofNat 64 a, .refused l.tag.1 l.tag.2 (l.offset.setWidth 32))] }
  | none => s

/-- The packet at the head of a landing port is checked and lands, waits on a tag or a bank, or is refused (11 R262, R263). -/
def execRemotePacketArrival (p : Pid) (s : State) : Outcome State Fault Refusal := atPolder s p fun s =>
  match s.polders[p].terp.landing with
  | [] => .next s
  | l :: _ =>
    if !packetOk s p l then .next (s.refuseLanding p l)
    else match l.op with
      | .write data slotEnd =>
        match gate s true (slotsOf [(landingAddr s p l, data.length)]) with
        | .ok () => .next ((s.land p l data slotEnd).popLanding p)
        | .error (.held s') => .next (s'.keepLanding p l)
        | .error _ => .next (s.keepLanding p l)
      | .read len =>
        match gate s false (slotsOf [(landingAddr s p l, len.toNat)]) with
        | .ok () =>
          .next ({ s with sent := s.sent ++ [(BitVec.ofNat 64 (l.sender.getD 0),
            RemoteOp.write (s.bytes (landingAddr s p l) len.toNat) false)] }.popLanding p)
        | .error (.held s') => .next (s'.keepLanding p l)
        | .error _ => .next (s.keepLanding p l)
      | .signal inc =>
        .next ((s.weirSend p (landingBase s p l + l.offset.toNat / 4) (inc.setWidth 32)).popLanding p)
      | .refused _ _ _ => .next (s.popLanding p)

end Sys2Proof.Machine
end

