-- ==== Sys2Proof/Machine/Seq.lean ====
section
/-! DEFINITION. The sequencer: launch records, the start and the end of a task (09 R193-R206, R211), and the resource table's
register (09 R207, R208). -/

namespace Sys2Proof.Machine

open Host (Outcome)

/-- Change the SEQ block of a polder. -/
def State.onSeq (s : State) (p : Pid) (g : Seq → Seq) : State :=
  s.onPolder p (fun P => { P with seq := g P.seq })

/-- A number from eight words, word 0 the least significant. -/
def ofWords (ws : List U64) : BitVec 512 := BitVec.ofNat 512 (ws.foldr (fun x acc => x.toNat + 2 ^ 64 * acc) 0)

/-- A write of SEQ_LAUNCH word k; word 7 commits the record, refused by a full queue (09 R211); none is accepted while the TAP holds
the pins (18 R434). -/
def State.launchWord (s : State) (p : Pid) (k : Fin 8) (v : U64) : State :=
  let held := s.tapHolds
  s.onSeq p (fun Q =>
    let ws := Q.words.set k.val v k.isLt
    if k = 7 && !held then
      if 8 ≤ Q.queue.length then { Q with words := ws, refused := true }
      else { Q with words := ws, queue := Q.queue ++ [ofWords ws.toList] }
    else { Q with words := ws })

/-- LAUNCH_COMMIT: a write of SEQ_LAUNCH word 7. -/
def execLaunchCommit (p : Pid) (w7 : U64) (s : State) : Outcome State Fault Refusal := atPolder s p fun s => .next (s.launchWord p 7 w7)

/-! ### Starting a task (09 R195, R196, R200, R201) -/

/-- The address of a stage record (09 R195). -/
def stageAddr (s : State) (p : Pid) (t : Nat) : Nat := s.polders[p].seq.stageBase.toNat + 1152 * t

/-- A stage record (09 Table 9-2). -/
def stageRec (s : State) (a : Nat) : StageRec :=
  { code := BitVec.ofNat 64 (s.num a 8), codeLen := BitVec.ofNat 32 (s.num (a + 8) 4),
    fillBound := BitVec.ofNat 32 (s.num (a + 12) 4), level := BitVec.ofNat 8 (s.num (a + 16) 1),
    prog := Fin.ofNat 4 (s.num (a + 17) 1), stage := BitVec.ofNat 16 (s.num (a + 18) 2),
    waitLimit := BitVec.ofNat 32 (s.num (a + 20) 4) }

/-- The byte offset of the first field of a launch record that fails LAUNCH_FORMAT, if any (09 R201). -/
def launchFormat (s : State) (p : Pid) (l : BitVec 512) (r : StageRec) : Option Nat :=
  let prog := lField l 1 1
  if lField l 0 1 ≠ 1 then some 0
  else if 4 ≤ prog then some 1
  else if 2 ≤ lField l 3 1 then some 3
  else if lField l 6 2 ≠ 0 then some 6
  else if s.owner ⟨p.val, by have := p.isLt; omega⟩ ≠ progOwner (Fin.ofNat 4 prog) then some 1
  else if r.codeLen = 0 then some 4
  else if r.codeLen.toNat ≤ lField l 8 4 ∨ lField l 8 4 % 8 ≠ 0 then some 8
  else if lField l 24 8 % 32 ≠ 0 then some 24
  else if lField l 2 1 ≠ p.val then some 2
  else none

/-- The effective fill count (09 R200). -/
def launchFill (l : BitVec 512) (r : StageRec) : U32 :=
  if lField l 3 1 % 2 = 1 then BitVec.ofNat 32 (lField l 12 4) else r.fillBound

/-- The registers of a task at its start (09 Table 9-3). -/
def newTask (s : State) (p : Pid) (l : BitVec 512) (r : StageRec) (a : Nat) : Task :=
  let arg := fun k => BitVec.ofNat 64 (lField l (32 + 8 * k) 8)
  { launch := l, stage := r, fill := launchFill l r, pc := BitVec.ofNat 32 (lField l 8 4),
    s := ((((((((Vector.replicate 32 (0 : U64)).set 1 ((launchFill l r).setWidth 64)).set 2
          (BitVec.ofNat 64 (lField l 20 4))).set 3 (arg 0)).set 4 (arg 1)).set 5 (arg 2)).set 6 (arg 3)).set 7
          (BitVec.ofNat 64 p.val)).set 8 (r.stage.setWidth 64),
    d := ⟨((List.range 16).map (fun k => ofBytes 512 (s.bytes (a + 128 + 64 * k) 64))).toArray, by simp⟩,
    v := Vector.replicate 32 0,
    m := Vector.replicate 8 (BitVec.allOnes 128) }

/-- A record refused under 09 R201: the faults of R205 with FAULT_PC 0xFFFF_FFFF, no instruction issued. -/
def State.launchFault (s : State) (p : Pid) (l : BitVec 512) (code : Byte) (info : Nat) : State :=
  let record := completionRecord code.toNat 2 0xFFFFFFFF 0 0 0 0 info
  let s := s.onSeq p (fun Q =>
    { Q with fault := (code.setWidth 64 <<< 56) ||| (BitVec.ofNat 32 info).setWidth 64, faultPc := 0xFFFFFFFF,
             faultTime := s.tb, faults := Q.faults + 1, halted := true, record })
  s.completeSoon p l record

/-- Step 3 of 09 R202: WEIR_A is signalled once, then WEIR_B once; 0xFFFF names none. -/
def State.signalEnd (s : State) (p : Pid) (l : BitVec 512) : State :=
  let one := fun (s : State) (w : Nat) => if w = 0xFFFF then s else s.weirSend p w 1
  one (one s (lField l 16 2)) (lField l 18 2)

/-- Whether work of the polder is still outstanding: its array work, a transfer of its move engine or a completion record (09 R202,
11 R246). -/
def workLeft (s : State) (p : Pid) : Bool :=
  !arrayIdle s.polders[p] || s.transfers.any (fun t => t.p == p) || !s.polders[p].seq.owed.isEmpty

/-- The record at the head of the queue is checked and its task starts, is refused, or ends at once with no work
(09 R194, R201; 11 R246). A record that earlier work still owes is written first, and the completion record of a launch with no work
waits as any write does (11 R242, R250). -/
def execTaskStart (p : Pid) (s : State) : Outcome State Fault Refusal := whenArith s fun s =>
  let Q := s.polders[p].seq
  match Q.queue with
  | [] => .next (s.payRecord p)
  | l :: rest =>
    if s.polders[p].task.isSome || Q.halted || workLeft s p then .next (s.payRecord p)
    else
      let s0 := s
      let s := s.onSeq p (fun Q => { Q with queue := rest })
      let a := stageAddr s p (lField l 4 2)
      let r := stageRec s a
      match launchFormat s p l r with
      | some b => .next (s.launchFault p l 0x03 b)
      | none =>
        if lField l 3 1 % 2 = 1 ∧ r.fillBound.toNat < lField l 12 4 then .next (s.launchFault p l 0x04 (lField l 12 4))
        else if launchFill l r = 0 then
          match gate s0 true (compSlots l) with
          | .error (.held s') => .next s'
          | .error _ => .next s0
          | .ok () =>
            .next ((((s.complete l (completionRecord 0 1 0xFFFFFFFF 0 0 0 0 0)).onSeq p (fun Q => { Q with tasks := Q.tasks + 1 })).signalEnd p l))
        else
          .next (s.onPolder p (fun P =>
            { P with task := some (newTask s p l r a), terp := { P.terp with bnd := ofBytes 832 (s.bytes (a + 24) 104) } }))

/-! ### Ending a task (09 R202, R206) -/

/-- A task that asked for its end, and whose work is done, ends; a frame still in use faults (04 R76). The completion record
waits on the tag of its slot as any write does (11 R250). -/
def execTaskEnd (p : Pid) (s : State) : Outcome State Fault Refusal := whenArith s fun s =>
  match s.polders[p].task with
  | none => .next s
  | some t =>
    let P := s.polders[p]
    let idle := arrayIdle { P with sump := { P.sump with opened := none } } && !s.transfers.any (fun x => x.p == p)
    if !t.ending || !idle then .next s
    else if P.sump.opened.isSome then .next (s.taskFaultAt p t.pc 0x10 0)
    else
      match gate s true (compSlots t.launch) with
      | .error (.held s') => .next s'
      | .error _ => .next s
      | .ok () =>
        let (cyc, s) := s.fresh
        let s := s.complete t.launch (t.record 0 1 0xFFFFFFFF cyc.toNat 0)
        let s := s.onSeq p (fun Q => { Q with tasks := Q.tasks + 1 })
        .next ((s.dropTask p).signalEnd p t.launch)

/-- SEQ_CTL.FLUSH discards every queued record that has not started (09 R206). -/
def State.seqFlush (s : State) (p : Pid) : State := s.onSeq p (fun Q => { Q with queue := [] })

/-- SEQ_CTL.ABORT: the running task's work is discarded, its completion record says aborted and no weir is signalled
(09 R206). -/
def State.seqAbort (s : State) (p : Pid) : State :=
  match s.polders[p].task with
  | none => s
  | some t =>
    let (cyc, s) := s.fresh
    let s := s.discardArray p
    let s := s.completeSoon p t.launch (t.record 0 3 0xFFFFFFFF cyc.toNat 0)
    s.dropTask p

/-- SEQ_CTL.RESUME clears HALTED (09 R205). -/
def State.seqResume (s : State) (p : Pid) : State := s.onSeq p (fun Q => { Q with halted := false })

def execSeqCtlFlush (p : Pid) (s : State) : Outcome State Fault Refusal := atPolder s p fun s => .next (s.seqFlush p)
def execSeqCtlAbort (p : Pid) (s : State) : Outcome State Fault Refusal := atPolder s p fun s => .next (s.seqAbort p)
def execSeqCtlResume (p : Pid) (s : State) : Outcome State Fault Refusal := atPolder s p fun s => .next (s.seqResume p)

/-! ### The resource table's register (09 R208) -/

/-- Set RES_RESULT. -/
def State.resResult (s : State) (r : BitVec 2) : State := { s with res := { s.res with result := r } }

/-- A claim through RES_CLAIM: RESULT 0 done, 1 RESOURCE_HELD, 3 invalid entry. -/
def State.resClaim (s : State) (owner : BitVec 4) (entry : Byte) : State :=
  if h : entry.toNat < 96 then
    if s.owner ⟨entry.toNat, h⟩ = 0 then (s.setOwner ⟨entry.toNat, h⟩ owner).resResult 0
    else s.claimRefused.resResult 1
  else s.resResult 3

/-- A release through RES_CLAIM: only the owner's is done, any other is refused with RESULT 2; hardware, owner 15, never
releases what it holds. -/
def State.resRelease (s : State) (owner : BitVec 4) (entry : Byte) : State :=
  if h : entry.toNat < 96 then
    if s.owner ⟨entry.toNat, h⟩ = owner ∧ owner ≠ 0 ∧ owner ≠ 15 then (s.setOwner ⟨entry.toNat, h⟩ 0).resResult 0
    else s.resResult 2
  else s.resResult 3

def execResClaimClaim (owner : BitVec 4) (entry : Byte) (s : State) : Outcome State Fault Refusal := whenRunning s fun s =>
  .next (s.resClaim owner entry)
def execResClaimRelease (owner : BitVec 4) (entry : Byte) (s : State) : Outcome State Fault Refusal := whenRunning s fun s =>
  .next (s.resRelease owner entry)

end Sys2Proof.Machine
end

