-- ==== Sys2Proof/Machine/Regs.lean ====
section
/-! DEFINITION. The register window of a polder (09 Table 9-14): what each offset reads as and what a write does, by the
register tables of 03 to 11. Counters of cycles lost to contention or waiting advance by a free value when a task reads them, if
what they count can have happened since the last read (DESIGN CHOICE, log entry 3). -/

namespace Sys2Proof.Machine

/-- A register as it reads: whether it is 64 bits wide, its value, and whether the offset holds a register at all. -/
structure RegVal where
  wide : Bool
  val  : U64
  real : Bool := true
deriving DecidableEq, Repr

def r32 (x : U32) : RegVal := { wide := false, val := x.setWidth 64 }
def r64 (x : U64) : RegVal := { wide := true, val := x }
/-- A reserved offset reads 0 (00 R8). -/
def rsv : RegVal := { wide := false, val := 0, real := false }
def bit (b : Bool) (n : Nat) : Nat := if b then 2 ^ n else 0

/-! ### Status registers read off the machine -/

/-- The frames not yet drained of a polder: latched tiles (04 R75, 08 R174). -/
def undrained (P : Polder) : List SumpFrame :=
  let fs := fun (g : Option Group) => match g with | some g => g.frames.map (·.2) | none => []
  fs P.sump.opened ++ P.sump.closed.flatMap (fun g => g.frames.map (·.2))
  ++ (match P.sump.shadow with | some (g, k, _) => (g.frames.drop k).map (·.2) | none => [])

/-- EE_CHAIN_BUSY (08 R174). -/
def chainBusy (P : Polder) : U32 :=
  BitVec.ofNat 32 (((List.range 16).filter (fun n => (undrained P).any (fun f => f.tile.tpb.chain.val == n))).map (2 ^ ·)).sum

/-- SUMP_STATUS (04 R88). -/
def sumpStatus (S : Sump) : U32 :=
  let n := match S.opened with | some g => g.frames.length | none => 0
  let x := match S.opened with | some g => g.accX && !g.frames.isEmpty | none => false
  BitVec.ofNat 32 (n % 2 ^ 13 * 2 ^ 16 + bit S.shadow.isSome 4 + bit x 3 + bit (!S.closed.isEmpty) 2 + bit S.ovfSeen 1 + bit S.wait 0)

/-- SEQ_STATUS (09 R211). -/
def seqStatus (P : Polder) : U32 :=
  BitVec.ofNat 32 ((8 - P.seq.queue.length) * 16 + bit P.seq.refused 3 + bit P.seq.halted 1 + bit P.task.isSome 0)

/-- TERP_STATUS (11 R267). -/
def terpStatus (T : Terp) : U32 :=
  T.status ||| BitVec.ofNat 32 (bit (T.tagOp.isSome || T.banks.any (fun b => b.busy)) 0)

/-- TERP_BANK_CTL_b (11). -/
def bankCtl (b : Bank) : U32 := BitVec.ofNat 32 (bit b.busy 4 + 4 * b.power.toNat + bit b.tags 1 + bit b.prot 0)

/-- TERP_RWIN_CTL_w (11). -/
def windowCtl (w : Window) : U32 :=
  BitVec.ofNat 32 (bit w.isOpen 31 + bit w.weirs 30 + bit w.wr 29 + bit w.rd 28 + w.arrWeir.toNat)

/-! ### Reads, block by block -/

def seqReg (P : Polder) (o : Nat) : RegVal :=
  let Q := P.seq
  if o = 0x00 then r32 0 else if o = 0x04 then r32 (seqStatus P) else if o = 0x08 then r64 Q.fault else if o = 0x10 then r32 Q.faultPc
  else if o = 0x18 then r64 Q.faultTime else if o = 0x20 then r64 Q.stageBase else if o = 0x28 then r64 Q.tasks
  else if o = 0x30 then r64 Q.faults else if 0x40 ≤ o ∧ o < 0x80 ∧ o % 8 = 0 then r64 0 else rsv

def bpeReg (B : Bpe) (o : Nat) : RegVal :=
  if o = 0 then r32 B.ctl else if o = 4 then r32 B.status else if o = 8 then r64 B.issued else if o = 0x10 then r64 B.skipped
  else if o = 0x18 then r64 B.trunc else if o = 0x20 then r64 B.stall else rsv

def sumpReg (S : Sump) (o : Nat) : RegVal :=
  if o = 0 then r32 (BitVec.ofNat 32 (bit S.hold 0)) else if o = 4 then r32 (sumpStatus S) else if o = 8 then r64 S.drainWait
  else if o = 0x10 then r64 S.swaps else if o = 0x18 then r64 S.ovfCount else if o = 0x20 then r64 S.drained
  else if o = 0x40 then r32 S.dbgAddr else if o = 0x44 then r32 S.dbgStat else if o = 0x48 then r64 S.dbgData else rsv

def logReg (L : LogBlk) (o : Nat) : RegVal :=
  if o = 0 then r32 L.status else if o = 8 then r64 L.products else if o = 0x10 then r64 L.cheap
  else if o = 0x18 then r64 L.depthOver else if o = 0x20 then r64 L.convOvf
  else if 0x100 ≤ o ∧ o < 0x300 ∧ o % 4 = 0 then r32 (BitVec.ofNat 32 (logC ((o - 0x100) / 4))) else rsv

def qzReg (q : Qz) (o : Nat) : RegVal :=
  if o = 0 then r32 q.status else if o = 8 then r64 q.clipped else if o = 0x10 then r64 q.elements
  else if o = 0x18 then r64 q.widened else if o = 0x20 then r64 q.excess else if o = 0x28 then r64 q.shared
  else if o = 0x30 then r64 q.gradOvf
  else if 0x100 ≤ o ∧ o < 0x180 ∧ o % 8 = 0 then r64 q.keys[Fin.ofNat 16 ((o - 0x100) / 8)] else rsv

def ocReg (q : Oc) (o : Nat) : RegVal :=
  if o = 0 then r32 q.status else if o = 8 then r64 q.dense else if o = 0x10 then r64 q.packed else if o = 0x18 then r64 q.hotrow
  else if o = 0x20 then r64 q.zeros else if o = 0x28 then r64 q.bytes else rsv

def spwReg (q : Spw) (o : Nat) : RegVal :=
  if o = 0 then r32 (q.status ||| BitVec.ofNat 32 (bit q.isOpen 3)) else if o = 4 then r32 q.salt else if o = 8 then r32 q.count
  else if o = 0xC then r32 q.spilled else if o = 0x10 then r64 q.updates else if o = 0x18 then r64 q.conflicts
  else if o = 0x20 then r64 q.spills else rsv

def eeReg (P : Polder) (o : Nat) : RegVal :=
  let q := P.ee
  if o = 0 then r32 q.status else if o = 4 then r32 (chainBusy P) else if o = 8 then r64 q.rows else if o = 0x10 then r64 q.hold
  else if o = 0x18 then r64 q.suppressed else if o = 0x20 then r64 q.stride0 else if o = 0x28 then r64 q.portWait else rsv

def ruReg (q : Ru) (o : Nat) : RegVal :=
  if o = 0 then r32 q.status else if o = 8 then r64 q.lines else if o = 0x10 then r64 q.emptied
  else if o = 0x18 then r64 q.tapWait else rsv

def windowReg (w : Window) (o : Nat) : RegVal :=
  if o = 0 then r32 (windowCtl w) else if o = 4 then r32 (w.base.setWidth 32) else if o = 8 then r32 (w.size.setWidth 32)
  else if o = 0xC then r32 w.step else if o = 0x10 then r64 w.arr else rsv

def terpReg (T : Terp) (o : Nat) : RegVal :=
  if o = 0 then r32 (terpStatus T) else if o = 8 then r64 0 else if o = 0x10 then r64 T.narrow else if o = 0x18 then r64 T.tagWaits
  else if o = 0x20 then r64 T.refused
  else if 0x100 ≤ o ∧ o < 0x1B0 ∧ o % 4 = 0 then r32 (bankCtl T.banks[Fin.ofNat 44 ((o - 0x100) / 4)])
  else if 0x200 ≤ o ∧ o < 0x268 ∧ o % 8 = 0 then r64 (T.bnd.extractLsb' (8 * (o - 0x200)) 64)
  else if 0x400 ≤ o ∧ o < 0x480 then windowReg T.windows[Fin.ofNat 4 ((o - 0x400) / 0x20)] (o % 0x20)
  else if 0x8000 ≤ o ∧ o < 0xAC00 ∧ o % 8 = 0 then r64 (T.slots.extractLsb' (8 * (o - 0x8000)) 64) else rsv

/-- The registers of one weir (11). -/
def weirReg (x : Weir) (o : Nat) : RegVal :=
  if o = 0 then r32 x.count else if o = 4 then r32 x.thresh else if o = 8 ∨ o = 0xC then r32 0
  else if o = 0x10 then r32 (BitVec.ofNat 32 (bit x.notified 1 + bit x.notifyEn 0)) else rsv

/-- A WEIR block of `n` weirs numbered from `first`. -/
def weirBlkReg (s : State) (B : WeirBlk) (first n o : Nat) : RegVal :=
  if o < 0x20 * n then weirReg (s.weir (first + o / 0x20)) (o % 0x20)
  else if o = 0xF000 then r64 B.waits else if o = 0xF008 then r64 B.signals else rsv

/-- The register at an offset of a polder's window; a reserved offset reads 0. -/
def windowRead (s : State) (p : Pid) (o : Nat) : RegVal :=
  let P := s.polders[p]
  let x := o % 0x1000
  if o < 0x1000 then seqReg P x else if o < 0x2000 then bpeReg P.bpe x else if o < 0x3000 then sumpReg P.sump x
  else if o < 0x4000 then logReg P.logb x else if o < 0x5000 then qzReg P.qz x else if o < 0x6000 then ocReg P.oc x
  else if o < 0x7000 then spwReg P.spw x else if o < 0x8000 then eeReg P x else if o < 0x9000 then ruReg P.ru x
  else if o < 0x20000 then terpReg P.terp (o - 0x10000) else weirBlkReg s P.weir (480 * p.val) 480 (o - 0x20000)

/-- Whether the counter at an offset of a polder's window counts cycles that the model does not time, and may have moved. -/
def countsCycles (P : Polder) (o : Nat) : Bool :=
  (o == 0x1020 && P.bpe.ran) || (o == 0x2008 && P.sump.waited) || (o == 0x7010 && P.ee.held) || (o == 0x7028 && P.ee.met)
  || (o == 0x8018 && P.ru.met) || (o == 0x2F000 && P.weir.waited)

/-- The counter at an offset of a polder's window advances by a free number of cycles, if it counts cycles that the model does
not time and what it counts can have happened since it was last read (DESIGN CHOICE, log entry 3); the state before a read of it. -/
def State.moveCounter (s : State) (p : Pid) (o : Nat) : State :=
  if countsCycles s.polders[p] o then
    let (x, s) := s.fresh
    s.onPolder p (fun P =>
      if o = 0x1020 then { P with bpe := { P.bpe with stall := P.bpe.stall + x, ran := false } }
      else if o = 0x2008 then { P with sump := { P.sump with drainWait := P.sump.drainWait + x, waited := P.sump.wait } }
      else if o = 0x7010 then { P with ee := { P.ee with hold := P.ee.hold + x, held := false } }
      else if o = 0x7028 then { P with ee := { P.ee with portWait := P.ee.portWait + x, met := false } }
      else if o = 0x8018 then { P with ru := { P.ru with tapWait := P.ru.tapWait + x, met := false } }
      else { P with weir := { P.weir with waits := P.weir.waits + x, waited := false } })
  else s

/-! ### DISC (09 R191) -/

/-- The spare sites not yet in service. -/
def spares (d : Disc) : Nat := (d.state.toList.filter (fun x => x == 1)).length

/-- The logical number of a site, 0xFF for a spare or retired one. -/
def logicalOf (d : Disc) (n : Fin 36) : Nat :=
  if d.state[n] = 0 then ((d.siteOf.toList.findIdx? (fun x => x == n)).getD 0xFF) else 0xFF

/-- The DISC block; every register is read-only and 64 bits wide. -/
def discReg (d : Disc) (o : Nat) : RegVal :=
  let w := fun (n : Nat) => r64 (BitVec.ofNat 64 n)
  if o = 0x00 then w 0x00004736A1030000
  else if o = 0x08 then w (128 * 2 ^ 48 + 128 * 2 ^ 32 + 256 * 2 ^ 16 + 16 * 2 ^ 8 + 140)
  else if o = 0x10 then w (4096 * 2 ^ 48 + 2048 * 2 ^ 32 + 32768 * 2 ^ 16 + 65535)
  else if o = 0x18 then w (369098752 * 2 ^ 32 + 4096 * 2 ^ 16 + 44 * 2 ^ 8)
  else if o = 0x20 then w (480 * 2 ^ 48 + 1024 * 2 ^ 32 + 16 * 2 ^ 24 + 16 * 2 ^ 16 + 32 * 2 ^ 8 + 16)
  else if o = 0x28 then w (65536 * 2 ^ 32 + 256 * 2 ^ 16 + 128 * 2 ^ 8 + 32)
  else if o = 0x30 then w 0x0000008000000000
  else if o = 0x38 then
    w (32 * 2 ^ 56 + 36 * 2 ^ 48 + 4 * 2 ^ 40 + spares d * 2 ^ 32 + 256 * 2 ^ 16 + 4 * 2 ^ 8 + d.mapGen.toNat)
  else if o = 0x40 then
    w (d.opNow.toNat * 2 ^ 56 + d.opMax.toNat * 2 ^ 48 + d.arithMhz.toNat * 2 ^ 32 + d.fabMhz.toNat * 2 ^ 16)
  else if 0x100 ≤ o ∧ o < 0x200 ∧ o % 8 = 0 then
    let n : Fin 32 := Fin.ofNat 32 ((o - 0x100) / 8)
    w (d.siteOf[n].val * 2 ^ 8 + n.val / 8)
  else if 0x200 ≤ o ∧ o < 0x320 ∧ o % 8 = 0 then
    let n : Fin 36 := Fin.ofNat 36 ((o - 0x200) / 8)
    w (logicalOf d n * 2 ^ 8 + d.state[n].toNat)
  else rsv

/-! ### Writes -/

/-- A task's or core's write of SUMP_CTL (04 R87): a hold needs debug access, else it sets DENIED. -/
def State.holdWrite (s : State) (p : Pid) (v : U32) : State :=
  if v.getLsbD 0 && !s.sumpDebug then
    s.onPolder p (fun P => { P with sump := { P.sump with dbgStat := stick P.sump.dbgStat 3 true } })
  else s.onPolder p (fun P => { P with sump := { P.sump with hold := v.getLsbD 0 } })

/-- A write of SUMP_DBG_ADDR (04 R87): START takes a snapshot of the entry named, unless one is outstanding; without debug
access the write only sets DENIED. -/
def State.dbgAddrWrite (s : State) (p : Pid) (v : U32) : State :=
  s.onPolder p (fun P =>
    let S := P.sump
    if !s.sumpDebug then { P with sump := { S with dbgStat := stick S.dbgStat 3 true } }
    else
      let S := { S with dbgAddr := v &&& 0x4FFF007F }
      if v.getLsbD 31 && S.snap.isNone then
        { P with sump := { S with
            dbgStat := S.dbgStat &&& ~~~ 1#32,
            snap := some ⟨v.getLsbD 30, (v.extractLsb' 16 12).toNat, (v.extractLsb' 0 7).toNat⟩ } }
      else { P with sump := S })

/-- A write of a weir's register. -/
def State.weirWrite (s : State) (w o : Nat) (v : U32) : State :=
  if o = 4 then s.weirThreshReg w v else if o = 8 then s.weirAddReg w v else if o = 0xC then s.weirSetReg w v
  else if o = 0x10 then s.weirCtlReg w v else s

/-- A write of SEQ_CTL (09 R205, R206). -/
def State.seqCtl (s : State) (p : Pid) (v : U32) : State :=
  let s := if v.getLsbD 2 then s.seqFlush p else s
  let s := if v.getLsbD 1 then s.seqAbort p else s
  if v.getLsbD 0 then s.seqResume p else s

/-- A write at an offset of a polder's window; a read-only or reserved place ignores it (00 R8). -/
def State.windowStore (s : State) (p : Pid) (o : Nat) (v : U64) : State :=
  let v32 := v.setWidth 32
  let onP := s.onPolder p
  if o = 0 then s.seqCtl p v32
  else if o = 4 then s.onSeq p (fun Q => { Q with refused := Q.refused && !v.getLsbD 3 })
  else if o = 0x20 then s.onSeq p (fun Q => { Q with stageBase := v })
  else if 0x40 ≤ o ∧ o < 0x80 ∧ o % 8 = 0 then s.launchWord p (Fin.ofNat 8 ((o - 0x40) / 8)) v
  else if o = 0x1000 then onP (fun P => { P with bpe := { P.bpe with ctl := v32 &&& 3 } })
  else if o = 0x1004 then onP (fun P => { P with bpe := { P.bpe with status := w1c P.bpe.status v32 7 } })
  else if o = 0x2000 then s.holdWrite p v32
  else if o = 0x2004 then onP (fun P => { P with sump := { P.sump with ovfSeen := P.sump.ovfSeen && !v.getLsbD 1 } })
  else if o = 0x2040 then s.dbgAddrWrite p v32
  else if o = 0x2044 then onP (fun P => { P with sump := { P.sump with dbgStat := w1c P.sump.dbgStat v32 0xC } })
  else if o = 0x3000 then onP (fun P => { P with logb := { P.logb with status := w1c P.logb.status v32 7 } })
  else if o = 0x4000 then onP (fun P => { P with qz := { P.qz with status := w1c P.qz.status v32 0x3F } })
  else if 0x4100 ≤ o ∧ o < 0x4180 ∧ o % 8 = 0 then
    onP (fun P => { P with qz := { P.qz with keys := P.qz.keys.set ((o - 0x4100) / 8 % 16) v (by omega) } })
  else if o = 0x5000 then onP (fun P => { P with oc := { P.oc with status := w1c P.oc.status v32 3 } })
  else if o = 0x6000 then onP (fun P => { P with spw := { P.spw with status := w1c P.spw.status v32 7 } })
  else if o = 0x7000 then onP (fun P => { P with ee := { P.ee with status := w1c P.ee.status v32 3 } })
  else if o = 0x8000 then onP (fun P => { P with ru := { P.ru with status := w1c P.ru.status v32 7 } })
  else if o = 0x10000 then s.onTerp p (fun T => { T with status := w1c T.status v32 0x1E })
  else if o = 0x10008 then s.tagOpWrite p v
  else if 0x10100 ≤ o ∧ o < 0x101B0 ∧ o % 4 = 0 then s.bankWrite p (Fin.ofNat 44 ((o - 0x10100) / 4)) v32
  else if 0x10400 ≤ o ∧ o < 0x10480 then
    let w : Fin 4 := Fin.ofNat 4 ((o - 0x10400) / 0x20)
    let x := o % 0x20
    if x = 0 then s.windowWrite p w v32
    else if x = 4 then s.windowField p w 0 v32
    else if x = 8 then s.windowField p w 1 v32
    else if x = 0xC then s.windowField p w 2 v32
    else s
  else if 0x20000 ≤ o ∧ o < 0x23C00 then s.weirWrite (480 * p.val + (o - 0x20000) / 0x20) (o % 0x20) v32
  else s

/-! ### Access by a task (00 R10, 09 R210, 10 R218) -/

/-- Whether a task of polder p may access an offset of polder q's window: BPE to RU and WEIR of its own polder (09 R210). -/
def taskMay (p q : Pid) (o : Nat) : Bool := p == q && ((0x1000 ≤ o && o < 0x9000) || 0x20000 ≤ o)

/-- A weir's register outside the task's claim, if the offset is one (11 R266). -/
def weirOutside (s : State) (p : Pid) (o : Nat) : Option Nat :=
  if 0x20000 ≤ o ∧ o < 0x23C00 then
    let w := 480 * p.val + (o - 0x20000) / 0x20
    if weirGranted s.polders[p].terp.bnd w then none else some w
  else none

/-- Whether an address fits the register it names: a multiple of 4 at a 32-bit register, and the start of a 64-bit one. -/
def regAligned (o : Nat) (wide : RegVal → Bool) (read : Nat → RegVal) : Bool :=
  o % 4 == 0 && !(o % 8 == 4 && wide (read (o - 4)) && !wide (read o))

end Sys2Proof.Machine
end

