-- ==== Sys2Proof/Machine/Chain.lean ====
section
/-! DEFINITION. Fused chains and micro-programs (08 R171-R177): the checks of their images, and one element's way through
them. -/

namespace Sys2Proof.Machine

/-! ### Micro-instructions (08 R176, Table 8-5) -/

def muOp (w : U32) : Nat := (w.extractLsb' 26 6).toNat
def muFmt (w : U32) : Fmt := (w.extractLsb' 25 1).toNat
def muDst (w : U32) : Nat := (w.extractLsb' 22 3).toNat
def muA (w : U32) : Nat := (w.extractLsb' 19 3).toNat
def muB (w : U32) : Nat := (w.extractLsb' 16 3).toNat
def muC (w : U32) : Nat := (w.extractLsb' 13 3).toNat
def muImm (w : U32) : Nat := (w.extractLsb' 6 7).toNat

/-- The format an operation of a stage or micro-instruction reads: FMT, but the LG8 codes read LG8 and ee.lexp BF16, and
ee.pass and ee.sel copy bits (08 R171). -/
def opFmt (op : Nat) (fmt : Fmt) : Fmt := if op = 0x14 ∨ op = 0x15 then 2 else if op = 0x16 ∨ op = 0 ∨ op = 0x0B then 0 else fmt

/-- Whether an operation may stand in a stage or micro-instruction with this FMT and IMM (08 R159, R171). -/
def opUsable (op : Nat) (fmt : Fmt) (imm : Nat) : Bool :=
  opDefined op (opFmt op fmt) && (op != 0x0F || imm % 4 != 3) && (op != 0x0E || imm ≤ 15)

/-- Whether a micro-instruction is neither reserved nor undefined (08 R175). -/
def muOk (w : U32) : Bool :=
  opUsable (muOp w) (muFmt w) (muImm w) && muDst w ≤ 3 && w.extractLsb' 0 6 == 0

/-- The state of a micro-program: x and the temporaries t0 to t2. -/
abbrev MuRegs := Vector (BitVec 16) 4

/-- An operand of a micro-instruction: x, t0 to t2, the row vector's lane, the column broadcast, K0 or K1. -/
def muOperand (r : MuRegs) (rv cb k0 k1 : BitVec 16) (n : Nat) : BitVec 16 :=
  match n with
  | 0 => r[0] | 1 => r[1] | 2 => r[2] | 3 => r[3] | 4 => rv | 5 => cb | 6 => k0 | _ => k1

/-- Run a micro-program on one element (08 R176); `draw` gives the draw of micro-instruction k. -/
def muRun (rv cb k0 k1 : BitVec 16) (draw : Nat → Nat) : Nat → MuRegs → Bool → List U32 → BitVec 16 × Bool
  | _, r, sat, [] => (r[0], sat)
  | k, r, sat, w :: t =>
    let op := muOp w
    let imm := muImm w
    let a := muOperand r rv cb k0 k1 (muA w)
    let b := muOperand r rv cb k0 k1 (muB w)
    let c := muOperand r rv cb k0 k1 (muC w)
    let u := if op = 0x0F ∧ imm / 4 % 2 = 1 then some (draw k) else none
    let (y, f) := native op (opFmt op (muFmt w)) imm u (c != 0) a b c
    muRun rv cb k0 k1 draw (k + 1) (r.set (muDst w % 4) y) (sat || f) t

/-- The format that a micro-program leaves x in: that of the last instruction that writes x (08 R171). -/
def muResult (fin : Fmt) : List U32 → Fmt
  | [] => fin
  | w :: t =>
    muResult (if muDst w = 0 then
      (if muOp w = 0 ∨ muOp w = 0x0B then fin else opResult (muOp w) (muFmt w) (muImm w % 4)) else fin) t

/-! ### Chain entries (08 R172, Tables 8-2 to 8-4) -/

def Chain.count (c : Chain) : Nat := (c.header.extractLsb' 60 4).toNat
def Chain.wfmt (c : Chain) : Fmt := (c.header.extractLsb' 59 1).toNat
def Chain.cbEn (c : Chain) : Bool := c.header.getLsbD 58
def Chain.tapEn (c : Chain) : Bool := c.header.getLsbD 57
def Chain.tapF (c : Chain) : Nat := (c.header.extractLsb' 51 6).toNat
def Chain.tapK (c : Chain) : BitVec 16 := c.header.extractLsb' 35 16

def stOp (w : U64) : Nat := (w.extractLsb' 58 6).toNat
def stFmt (w : U64) : Fmt := (w.extractLsb' 57 1).toNat
def stB (w : U64) : Nat := (w.extractLsb' 54 3).toNat
def stC (w : U64) : Nat := (w.extractLsb' 51 3).toNat
def stRvec (w : U64) : Fin 8 := Fin.ofNat 8 (w.extractLsb' 48 3).toNat
def stUprog (w : U64) : Fin 32 := Fin.ofNat 32 (w.extractLsb' 43 5).toNat
def stMask (w : U64) : BitVec 3 := w.extractLsb' 40 3
def stImm (w : U64) : Nat := (w.extractLsb' 32 8).toNat
def stK1 (w : U64) : BitVec 16 := w.extractLsb' 16 16
def stK0 (w : U64) : BitVec 16 := w.extractLsb' 0 16

/-- The stages in force. -/
def Chain.live (c : Chain) : List U64 := c.stages.toList.take c.count

/-- Whether a stage may stand in a chain (08 R159, R172, R173): known selectors, the column broadcast only under CB_EN, an
operation defined for its format, FMT equal to WFMT where it must be, and no level 3 feature at level 2. -/
def stageOk (c : Chain) (level : Nat) (w : U64) : Bool :=
  let op := stOp w
  stB w ≤ 4 && stC w ≤ 4 && (c.cbEn || (stB w != 2 && stC w != 2))
  && (if op = 0x3F then 3 ≤ level
      else opUsable op (stFmt w) (stImm w)
        && (op == 0x0F || op == 0 || op == 0x0B || (0x14 ≤ op && op ≤ 0x16) || stFmt w == c.wfmt)
        && (3 ≤ level || !((0x14 ≤ op && op ≤ 0x16) || (op == 0x0F && stImm w % 4 == 2))))

/-- The result format of each stage in turn (08 R171). -/
def stageResult (uprogs : Vector (List U32) 32) (prev : Fmt) (w : U64) : Fmt :=
  if stOp w = 0x3F then muResult prev uprogs[stUprog w]
  else if stOp w = 0 ∨ stOp w = 0x0B then prev
  else opResult (stOp w) (stFmt w) (stImm w % 4)

/-- The result format of a chain: that of its last stage, W without one. -/
def Chain.result (c : Chain) (uprogs : Vector (List U32) 32) : Fmt :=
  c.live.foldl (stageResult uprogs) c.wfmt

/-- An operand source of a stage (08 Table 8-4); nothing reads +0. -/
def stSource (rv cb k0 k1 : BitVec 16) (n : Nat) : BitVec 16 :=
  match n with
  | 1 => rv | 2 => cb | 3 => k0 | 4 => k1 | _ => 0

/-- One element through the stages of a chain (08 R171): `masks` are the latched stage masks, `draw s j` the draw of stage s
at place j (08 R159). -/
def chainRun (c : Chain) (uprogs : Vector (List U32) 32) (masks : List (BitVec 128)) (col : Nat) (cb : BitVec 16)
    (draw : Nat → Nat → Nat) : Nat → BitVec 16 → Bool → List U64 → BitVec 16 × Bool
  | _, x, sat, [] => (x, sat)
  | k, x, sat, w :: t =>
    if !(masks.getD k 0).getLsbD col then chainRun c uprogs masks col cb draw (k + 1) x sat t
    else
      let rv := lane c.rowVec[stRvec w] col
      let b := stSource rv cb (stK0 w) (stK1 w) (stB w)
      let d := stSource rv cb (stK0 w) (stK1 w) (stC w)
      let op := stOp w
      let (y, f) :=
        if op = 0x3F then muRun rv cb (stK0 w) (stK1 w) (fun j => draw k (1 + j)) 0 #v[x, 0, 0, 0] false uprogs[stUprog w]
        else native op (opFmt op (stFmt w)) (stImm w) (if op = 0x0F ∧ stImm w / 4 % 2 = 1 then some (draw k 0) else none)
          (d != 0) x b d
      chainRun c uprogs masks col cb draw (k + 1) y (sat || f) t

/-- The stochastic steps of a chain, as (stage, place): an ee.cvt with SR from BF16 to INT16, the only one of a chain that
holds a step of 06 R128. -/
def chainDraws (c : Chain) (uprogs : Vector (List U32) 32) : List (Nat × Nat) :=
  let srCvt := fun (fmt : Fmt) (imm : Nat) => fmt == 0 && imm % 4 == 1 && imm / 4 % 2 == 1
  (c.live.zipIdx).flatMap (fun (w, k) =>
    if stOp w = 0x3F then
      ((uprogs[stUprog w]).zipIdx.filter (fun (m, _) => muOp m == 0x0F && srCvt (muFmt m) (muImm m))).map (fun (_, j) => (k, 1 + j))
    else if stOp w = 0x0F ∧ srCvt (stFmt w) (stImm w) then [(k, 0)] else [])

/-- Whether a latched, undrained tile names chain entry n (08 R174). -/
def chainHeld (P : Polder) (n : Fin 16) : Bool := (undrained P).any (fun f => f.tile.tpb.chain == n)

/-- Whether a chain of a latched, undrained tile calls micro-program slot n (08 R175). -/
def uprogHeld (P : Polder) (n : Fin 32) : Bool :=
  (undrained P).any (fun f => (P.ee.chains[f.tile.tpb.chain]).live.any (fun w => stOp w == 0x3F && stUprog w == n))

end Sys2Proof.Machine
end

