-- ==== Sys2Proof/Machine/Mv.lean ====
section
/-! DEFINITION. The mv class and the copies of the move engine (10 R222, R223, Table 10-4). -/

namespace Sys2Proof.Machine

open Host (Outcome)

/-- The register file an mv.ld or mv.st names: 0 scalar, 1 mask, 2 descriptor, 3 vector (10 R222). -/
def fileOf (f : Fields) : Nat := (f.imm.extractLsb' 27 2).toNat

/-- Bytes of a register of the file. -/
def fileBytes (k : Nat) : Nat := match k with | 0 => 8 | 1 => 16 | 2 => 64 | _ => 256

/-- The use of the register field for the file. -/
def fileUse (k : Nat) : RegUse := match k with | 1 => .mask | 2 => .desc | _ => .any

/-- The address of mv.ld and mv.st: sRA + sext(IMM[26:0]) (10 R222). -/
def mvAddr (t : Task) (f : Fields) : Nat := (t.sreg f.ra + (f.imm.extractLsb' 0 27).signExtend 64).toNat

/-- A register of a file as a number. -/
def Task.fileGet (t : Task) (k : Nat) (r : BitVec 5) : Nat :=
  match k with
  | 0 => (t.sreg r).toNat
  | 1 => (t.mreg (mnum r)).toNat
  | 2 => (t.dreg (dnum r)).toNat
  | _ => (t.vreg r).toNat

/-- Set a register of a file from a number. -/
def Task.fileSet (t : Task) (k : Nat) (r : BitVec 5) (x : Nat) : Task :=
  match k with
  | 0 => t.setS r (BitVec.ofNat 64 x)
  | 1 => t.setM (mnum r) (BitVec.ofNat 128 x)
  | 2 => t.setD (dnum r) (BitVec.ofNat 512 x)
  | _ => t.setV r (BitVec.ofNat 2048 x)

/-- Where a register access of a task lands: the window of a polder, or DISC; else why it may not be made. An access of a
file other than the scalar one faults with REG_WIDTH (00 R10); then the order of 10 R218 holds. -/
def taskReg (s : State) (p : Pid) (k a : Nat) : Res (Option (Pid × Nat)) := do
  match place a with
  | .window q o =>
    need (k == 0) 0x06 o
    need (regAligned o (·.wide) (windowRead s q)) 0x0A a
    need (taskMay p q o) 0x07 a
    match weirOutside s p o with
    | some w => Except.error (.fault 0x17 (BitVec.ofNat 32 w))
    | none => return some (q, o)
  | .control o =>
    need (k == 0) 0x06 o
    need (if o < 0x1000 then regAligned o (·.wide) (discReg s.disc) else a % 4 == 0) 0x0A a
    need (decide (o < 0x1000)) 0x07 a
    return none
  | _ =>
    need (k == 0) 0x06 (a % 2 ^ 24)
    need (a % 4 == 0) 0x0A a
    .error (.fault 0x07 (BitVec.ofNat 32 a))

/-- Whether an address lies in a register range. -/
def isRegister (a : Nat) : Bool :=
  match place a with
  | .window _ _ => true
  | .control _ => true
  | .edge _ _ => true
  | .system _ => true
  | _ => false

/-- mv.ld: a register from memory or from a register window (10 Table 10-4). -/
def execMvLd (p : Pid) (f : Fields) (s : State) : Outcome State Fault Refusal :=
  let k := fileOf f
  issue p { rd := fileUse k, ra := .any, imm := BitVec.allOnes 29 } f s (fun t => do
    let a := mvAddr t f
    if isRegister a then
      match (← taskReg s p k a) with
      | some (q, o) =>
        let s := s.moveCounter q o
        return s.onTask p (fun t => t.fileSet 0 f.rd (windowRead s q o).val.toNat)
      | none => return s.onTask p (fun t => t.fileSet 0 f.rd (discReg s.disc (a % 0x1000)).val.toNat)
    else
      let n := fileBytes k
      need (a % n == 0) 0x0A a
      access s p false [(a, n)] [(a, n)]
      let s' := s.onTask p (fun t => t.fileSet k f.rd (s.num a n))
      return (if a < 2 ^ 63 then s' else s'.fresh.2))

/-- mv.st: memory or a register window from a register (10 Table 10-4). -/
def execMvSt (p : Pid) (f : Fields) (s : State) : Outcome State Fault Refusal :=
  let k := fileOf f
  issue p { ra := .any, rb := fileUse k, imm := BitVec.allOnes 29 } f s (fun t => do
    let a := mvAddr t f
    if isRegister a then
      match (← taskReg s p k a) with
      | some (q, o) => return s.windowStore q o (t.sreg f.rb)
      | none => return s
    else
      let n := fileBytes k
      need (a % n == 0) 0x0A a
      access s p true [(a, n)] [(a, n)]
      return s.putBytes a (leBytes n (t.fileGet k f.rb)))

def execMvLane (p : Pid) (f : Fields) (s : State) : Outcome State Fault Refusal :=
  issue p { rd := .any, ra := .any, imm := 0x7F } f s (fun _ =>
    .ok (s.onTask p (fun t => t.setS f.rd ((lane (t.vreg f.ra) f.imm.toNat).setWidth 64))))

/-- A vector built lane by lane under the governing mask: a masked lane keeps its value, or takes zero with .z (08 R157). -/
def mergeLanes (mask : BitVec 128) (z : Bool) (old : BitVec 2048) (new : Nat → BitVec 16) : BitVec 2048 :=
  ofLanes ((List.range 128).map (fun l => if mask.getLsbD l then new l else if z then 0 else lane old l))

def execMvSplat (p : Pid) (f : Fields) (s : State) : Outcome State Fault Refusal :=
  issue p { rd := .any, ra := .any, mask := true, z := true } f s (fun _ =>
    .ok (s.onTask p (fun t =>
      t.setV f.rd (mergeLanes (t.mreg f.mask) f.z (t.vreg f.rd) (fun _ => (t.sreg f.ra).setWidth 16)))))

def execMvDget (p : Pid) (f : Fields) (s : State) : Outcome State Fault Refusal :=
  issue p { rd := .any, ra := .desc, imm := 7 } f s (fun _ =>
    .ok (s.onTask p (fun t => t.setS f.rd (dword (t.dreg (dnum f.ra)) f.imm.toNat))))

def execMvDput (p : Pid) (f : Fields) (s : State) : Outcome State Fault Refusal :=
  issue p { rd := .desc, ra := .any, imm := 7 } f s (fun _ =>
    .ok (s.onTask p (fun t =>
      t.setD (dnum f.rd) (setField (t.dreg (dnum f.rd)) (64 * f.imm.toNat) 64 (t.sreg f.ra).toNat))))

def execMvMand (p : Pid) (f : Fields) (s : State) : Outcome State Fault Refusal :=
  issue p { rd := .mask, ra := .mask, rb := .mask } f s (fun _ =>
    .ok (s.onTask p (fun t => t.setM (mnum f.rd) (t.mreg (mnum f.ra) &&& t.mreg (mnum f.rb)))))

def execMvMor (p : Pid) (f : Fields) (s : State) : Outcome State Fault Refusal :=
  issue p { rd := .mask, ra := .mask, rb := .mask } f s (fun _ =>
    .ok (s.onTask p (fun t => t.setM (mnum f.rd) (t.mreg (mnum f.ra) ||| t.mreg (mnum f.rb)))))

def execMvMnot (p : Pid) (f : Fields) (s : State) : Outcome State Fault Refusal :=
  issue p { rd := .mask, ra := .mask } f s (fun _ =>
    .ok (s.onTask p (fun t => t.setM (mnum f.rd) (~~~ t.mreg (mnum f.ra)))))

/-- mv.mset: bit l is 1 for l below min(sRA, 128) (10 Table 10-4). -/
def execMvMset (p : Pid) (f : Fields) (s : State) : Outcome State Fault Refusal :=
  issue p { rd := .mask, ra := .any } f s (fun _ =>
    .ok (s.onTask p (fun t => t.setM (mnum f.rd) (BitVec.ofNat 128 (2 ^ (min (t.sreg f.ra).toNat 128) - 1)))))

/-! ### Asynchronous copies (10 R222, R223) -/

/-- The weir field of a copy; 0xFFFF names no weir, any other must be claimed (10 R222, 11 R248). -/
def needWeirField (s : State) (p : Pid) (w : BitVec 16) : Res Unit :=
  if w = 0xFFFF then .ok () else needWeir s p w.toNat

/-- Start a transfer on the move engine. -/
def State.startWork (s : State) (p : Pid) (t : Task) (w : Work) (weir : BitVec 16) : State :=
  { s with transfers := s.transfers ++ [{ id := s.nextId, p, pc := t.pc, prog := t.stage.prog, fill := t.fill, work := w, weir }],
           nextId := s.nextId + 1 }

/-- Signal a transfer's weir once by 1. -/
def State.signalWork (s : State) (p : Pid) (weir : BitVec 16) : State :=
  if weir = 0xFFFF then s else s.weirSend p weir.toNat 1

/-- The row-header array of a tensor as a run (07 R131). -/
def Tensor.hdrRun (T : Tensor) : List Run := if T.hdr = 0 then [] else [(T.hdr, 4 * T.segs * T.e1 * T.e2 * T.e3)]

/-- A tensor up to index F of dimension d. -/
def Tensor.cutDim (T : Tensor) (d F : Nat) : Tensor :=
  match d with
  | 0 => { T with e0 := min T.e0 F }
  | 1 => { T with e1 := min T.e1 F }
  | 2 => { T with e2 := min T.e2 F }
  | _ => { T with e3 := min T.e3 F }

/-- What the fill count leaves of a tensor, where `z`, of the same extents, is FILLED (09 R200). -/
def Tensor.cutBy (T : Tensor) (fill : Nat) (z : Tensor) : Tensor := if z.filled then T.cutDim (z.rank - 1) fill else T

/-- The parts of source and destination below the fill count. -/
def cutPair (fill : Nat) (x y : Tensor) : Tensor × Tensor := ((x.cutBy fill x).cutBy fill y, (y.cutBy fill x).cutBy fill y)

/-- Whether a copy goes element by element: one side alone has stride 0 in dimension 0, or the fill count cuts a line (DEDUCED, log
entry 60). -/
def copyByElement (fill : Nat) (x y : Tensor) : Bool :=
  x.form == 0 && x.layout != 2 && (x.zstride0 != y.zstride0 || (cutPair fill x y).1.e0 != x.e0)

/-- The source and destination bytes of a tensor copy, run by run: stored tiles move 8 + LEN bytes, unexpanded, a dense one without its
masked rows (07 R130, R131; 10 R223). -/
def copyRuns (s : State) (fill : Nat) (x y : Tensor) : List (Nat × Nat × Nat) :=
  let (x', y') := cutPair fill x y
  let rows := (x'.e1 + x.tileM - 1) / x.tileM * x.segs
  (x'.runs.zip y'.runs).zipIdx.map (fun ((a, b), k) =>
    if x.layout = 2 then
      let h := tileHdr s a.1
      let left := x'.e1 - k % rows / x.segs * x.tileM
      (a.1, b.1, min a.2 (if h.packed then 8 + h.len else min (8 + h.len) (8 + 16 * x.width * left)))
    else (a.1, b.1, a.2))

/-- The header arrays move whole when both side records name one (10 R223). -/
def copyHdrs (x y : Tensor) : List (Nat × Nat × Nat) :=
  if x.hdr ≠ 0 ∧ y.hdr ≠ 0 then (x.hdrRun.zip y.hdrRun).map (fun (a, b) => (a.1, b.1, a.2)) else []

/-- Whether two descriptors agree for a copy (10 R223). -/
def copyAgrees (x y : Tensor) : Bool :=
  x.kind == y.kind && x.entryW == y.entryW && x.layout == y.layout && x.form == y.form && x.e0 == y.e0 && x.e1 == y.e1
  && x.e2 == y.e2 && x.e3 == y.e3 && (x.layout != 2 || (x.tstride == y.tstride && x.tileM == y.tileM))

def execMvCopy (p : Pid) (f : Fields) (s : State) : Outcome State Fault Refusal :=
  issue p { rd := .desc, ra := .desc, long := true, w1 := 0xFFFF } f s (fun t => do
    let x ← readDesc s p t f.ra
    let y ← readDesc s p t f.rd
    let both := x.hdr != 0 && y.hdr != 0
    checkParts s p (x.parts false ++ [(false, if both then x.hdrRun else [])] ++ y.parts true
      ++ [(true, if both then y.hdrRun else [])])
    need (copyAgrees x y) 0x0C f.rd.toNat
    let w := f.w1.setWidth 16
    needWeirField s p w
    if x.e0 * x.e1 * x.e2 * x.e3 = 0 then return s.signalWork p w
    else return s.startWork p t (.tensor (t.dreg (dnum f.ra)) (t.dreg (dnum f.rd)) (sideOf s (t.dreg (dnum f.ra)))
      (sideOf s (t.dreg (dnum f.rd)))) w)

def execMvBytes (p : Pid) (f : Fields) (s : State) : Outcome State Fault Refusal :=
  issue p { rd := .any, ra := .any, rb := .any, long := true, w1 := 0xFFFF } f s (fun t => do
    let src := (t.sreg f.ra).toNat
    let dst := (t.sreg f.rd).toNat
    let n := (t.sreg f.rb).toNat
    checkParts s p [(false, [(src, n)]), (true, [(dst, n)])]
    let w := f.w1.setWidth 16
    needWeirField s p w
    if n = 0 then return s.signalWork p w
    else return s.startWork p t (.bytes src dst n) w)

/-- Copy byte runs. -/
def State.copy (s : State) : List (Nat × Nat × Nat) → State
  | [] => s
  | (a, b, n) :: t => (s.putBytes b (s.bytes a n)).copy t

/-- Copy elements; which element of a line a destination of stride 0 keeps is free where the source has a line of them (DESIGN CHOICE,
log entry 60). -/
def State.copyElems (s : State) (x y : Tensor) : List Ix → State
  | [] => s
  | i :: t =>
    if y.zstride0 && !x.zstride0 && 1 < x.e0 then
      let (w, s) := s.fresh
      (y.put s i (y.freeCode w)).copyElems x y t
    else (y.put s i (x.code s i)).copyElems x y t

/-- The runs of a transfer that copies bytes. -/
def workRuns (s : State) (fill : Nat) (w : Work) : List (Nat × Nat × Nat) :=
  match w with
  | .bytes a b n => [(a, b, n)]
  | .tensor x y xs ys => copyRuns s fill (tensor x xs) (tensor y ys)
  | .collective _ _ _ _ _ _ _ _ => []

/-- The row-header bytes of a transfer; their accesses ignore tags (11 Table 11-5). -/
def workHdrs (w : Work) : List (Nat × Nat × Nat) :=
  match w with
  | .tensor x y xs ys => copyHdrs (tensor x xs) (tensor y ys)
  | _ => []

/-- The tensors and the elements of a transfer that copies by element. -/
def workElems (fill : Nat) (w : Work) : Option (Tensor × Tensor × List Ix) :=
  match w with
  | .tensor x y xs ys =>
    let x := tensor x xs
    let y := tensor y ys
    if copyByElement fill x y then some (x, y, (cutPair fill x y).1.liveIx fill (BitVec.allOnes 128)) else none
  | _ => none

/-- The slots that a copy reads and writes. -/
def workSlots (s : State) (t : Transfer) : List (Pid × Nat) × List (Pid × Nat) :=
  match workElems t.fill.toNat t.work with
  | some (x, y, ixs) => (x.readSlots s ixs, y.writeSlots ixs)
  | none =>
    let rs := workRuns s t.fill.toNat t.work
    (slotsOf (rs.map (fun r => (r.1, r.2.2))), slotsOf (rs.map (fun r => (r.2.1, r.2.2))))

/-- All the writes of a copy become visible, with their slot ends, and its weir is signalled once by 1 (10 R223, 11 R250). -/
def State.copyWork (s : State) (t : Transfer) (dst : List (Pid × Nat)) : State :=
  let n := s.sent.length
  let rs := workHdrs t.work
  let s := match workElems t.fill.toNat t.work with
    | some (x, y, ixs) => (s.copy rs).copyElems x y ixs
    | none => s.copy (rs ++ workRuns s t.fill.toNat t.work)
  let s := ((s.markEnds n).fresh.2).slotEnds dst
  ({ s with transfers := s.transfers.filter (fun x => x.id != t.id) } : State).signalWork t.p t.weir

/-- Finish a copy: it waits while a slot it reads is empty, a slot it writes is full, or a bank is busy (11 R242, R250). -/
def State.finishCopy (s : State) (t : Transfer) : Res State :=
  let (src, dst) := workSlots s t
  let hdrs := workHdrs t.work
  do
    gate s false src
    gate s true dst
    gateBusy s (slotsOf (hdrs.map (fun r => (r.1, r.2.2)) ++ hdrs.map (fun r => (r.2.1, r.2.2))))
    return s.copyWork t dst

/-- Whether a transfer is a collective. -/
def Work.isCx : Work → Bool
  | .collective _ _ _ _ _ _ _ _ => true
  | _ => false

/-- A copy makes all its writes visible, with their slot ends, and signals its weir once by 1, when its banks and tags let it (10 R223,
11 R250). -/
def execMoveComplete (id : Nat) (s : State) : Outcome State Fault Refusal := whenRunning s fun s =>
  match s.transfers.find? (fun t => t.id == id) with
  | none => .next s
  | some t =>
    if t.work.isCx then .next s else
    let (src, dst) := workSlots s t
    let s := s.wakeSlots (src ++ dst)
    match s.finishCopy t with
    | .ok s' => .next s'
    | .error (.held s') => .next s'
    | .error _ => .next s

end Sys2Proof.Machine
end

