-- ==== Sys2Proof/Machine/Ee.lean ====
section
/-! DEFINITION. The ee class (08 R156-R168, R172-R176; 10 R230, R231, Tables 10-9, 10-10). -/

namespace Sys2Proof.Machine

open Host (Outcome)

/-! ### Streams (06 R125-R127) -/

/-- One polder's draw of an element: U of 06 R128 on generator n. -/
def State.drawU (s : State) (p : Pid) (gen : BitVec 4) (sid epoch : U32) (x : Nat) : Nat :=
  rngU s.polders[p].qz.keys[gen.toFin] sid epoch x

/-- Record `n` draws on a pair by a destination in the claim table: a pair claimed by another destination is shared, each draw
counting; a seventeenth pair evicts the entry opened first (06 R127). -/
def State.claim (s : State) (p : Pid) (gen : BitVec 4) (sid : U32) (dest n : Nat) : State :=
  if n = 0 then s else
  match s.polders[p].task with
  | none => s
  | some t =>
    match t.claims.find? (fun c => c.gen == gen && c.sid == sid) with
    | some c =>
      if c.dest = dest then s
      else (s.qzFlag p 4 true).onPolder p (fun P => { P with qz := { P.qz with shared := P.qz.shared + BitVec.ofNat 64 n } })
    | none =>
      let cs := if 16 ≤ t.claims.length then t.claims.tail else t.claims
      s.onTask p (fun t => { t with claims := cs ++ [⟨gen, sid, dest⟩] })

/-- A destination's number in the claim table: a tensor's base, or a vector register. -/
def regDest (r : BitVec 5) : Nat := 2 ^ 64 + r.toNat

/-! ### The fields of an ee instruction (10 Table 10-9) -/

def eeFmt (f : Fields) : Fmt := (f.imm.extractLsb' 0 2).toNat
def eeForm (f : Fields) : Nat := (f.imm.extractLsb' 2 2).toNat
def eeSub (f : Fields) : Nat := (f.imm.extractLsb' 4 8).toNat
/-- SR of ee.cvt. -/
def eeSr (op : Nat) (f : Fields) : Bool := op == 0x0F && f.imm.getLsbD 6

/-- The fields an ee operation uses in its form, and the level of the form (10 R230, R231). -/
def eeUse (op : Nat) (f : Fields) : Use :=
  let form := eeForm f
  let three := op == 4 || op == 0x0B
  let vd := if form = 0 then RegUse.any else RegUse.desc
  { level := if eeFmt f = 2 ∨ (0x14 ≤ op ∧ op ≤ 0x16) then 3 else if 2 ≤ form then 2 else 1,
    long := eeSr op f,
    rd := if form = 0 then (if opCompares op then .mask else .any) else .desc,
    ra := vd,
    rb := if opUnary op then .unused else if form = 2 then .any else vd,
    rc := if !three then .unused else if form = 0 ∧ op = 0x0B then .mask else vd,
    mask := true, z := form = 0, checked := true,
    imm := if op = 0x0E then 0xFF else if op = 0x0F then 0x7F else 0xF,
    w1 := if eeSr op f then 0xFFFFFFFFF else 0 }

/-- Whether the operation exists for FMT and for the form, else EE_FORMAT (08 R159, 10 R231). -/
def eeOpOk (op : Nat) (f : Fields) : Bool :=
  let form := eeForm f
  opDefined op (eeFmt f) && (op != 0x0F || eeSub f % 4 != 3)
  && !((opCompares op || op == 0x0B) && form != 0) && !(opUnary op && 2 ≤ form)

/-- Whether ee.cvt with SR has a step of 06 R128, and so draws for each element: a BF16 or LG8 source to INT16. -/
def cvtDraws (op : Nat) (f : Fields) : Bool := eeSr op f && eeSub f % 4 == 1 && eeFmt f != 1

/-- The generator and stream of an instruction's word 1. -/
def w1Gen (f : Fields) : BitVec 4 := f.w1.extractLsb' 32 4
def w1Sid (f : Fields) : U32 := f.w1.setWidth 32

/-- EPOCH: s2 at issue (10 R231). -/
def epochOf (t : Task) : U32 := (t.sreg 2).setWidth 32

/-- An LG8 lane holds its code in bits [7:0]; bits [15:8] are written 0 (08 R156). -/
def laneOut (fmt : Fmt) (x : BitVec 16) : BitVec 16 := if fmt = 2 then x &&& 0xFF else x

/-- The element operation of an instruction: the lane's result and SAT. -/
def eeElem (s : State) (p : Pid) (t : Task) (op : Nat) (f : Fields) (x : Nat) (cond : Bool) (a b c : BitVec 16) :
    BitVec 16 × Bool :=
  let u := if cvtDraws op f then some (s.drawU p (w1Gen f) (w1Sid f) (epochOf t) x) else none
  let (y, sat) := native op (eeFmt f) (eeSub f) u cond a b c
  (laneOut (opResult op (eeFmt f) (eeSub f % 4)) y, sat)

/-! ### Register form -/

/-- One vector (08 R157, R164): masked lanes keep their value, or take zero with .z, and flag nothing. -/
def eeRegister (op : Nat) (p : Pid) (f : Fields) (s : State) (t : Task) : State :=
  let mask := t.mreg f.mask
  let a := t.vreg f.ra
  let b := t.vreg f.rb
  let c := t.vreg f.rc
  let cond := fun l => (t.mreg (mnum f.rc)).getLsbD l
  let res := fun l => eeElem s p t op f l (cond l) (lane a l) (lane b l) (lane c l)
  let lanes := (List.range 128).filter (fun l => mask.getLsbD l)
  let sat := lanes.any (fun l => (res l).2)
  let draws := if cvtDraws op f then lanes.length else 0
  let s := (s.eeFlags p sat false).claim p (w1Gen f) (w1Sid f) (regDest f.rd) draws
  if opCompares op then
    let old := t.mreg (mnum f.rd)
    let keep := if f.z then 0 else old &&& ~~~ mask
    let hits := (lanes.filter (fun l => (res l).1 != 0)).map (2 ^ ·)
    s.onTask p (fun t => t.setM (mnum f.rd) (keep ||| BitVec.ofNat 128 hits.sum))
  else s.onTask p (fun t => t.setV f.rd (mergeLanes mask f.z (t.vreg f.rd) (fun l => (res l).1)))

/-! ### Descriptor and tile forms (08 R164-R166) -/

/-- Whether a tensor's elements have a lane format (10 R231). -/
def isFmt (T : Tensor) (fmt : Fmt) : Bool :=
  match fmt with
  | 0 => T.kind == .bf16
  | 1 => T.kind == .int && T.entryW == 16
  | 2 => T.kind == .lg8
  | _ => false

/-- Whether two tensors have the same extents. -/
def sameShape (x y : Tensor) : Bool := x.e0 == y.e0 && x.e1 == y.e1 && x.e2 == y.e2 && x.e3 == y.e3

/-- Where an operand of a walk comes from: a tensor element, a lane of a vector, an element of a column broadcast. -/
inductive Source where
  | none
  | tensor (r : BitVec 5) (T : Tensor)
  | row (v : BitVec 2048)
  | column (r : BitVec 5) (T : Tensor)

/-- The row of a walk, counted over the outer dimensions. -/
def rowIx (D : Tensor) (i : Ix) : Nat := i.i1 + D.e1 * (i.i2 + D.e2 * i.i3)

/-- The operand's element for an index of the destination's walk. -/
def Source.at (src : Source) (s : State) (D : Tensor) (i : Ix) : BitVec 16 :=
  match src with
  | .none => 0
  | .tensor _ T => BitVec.ofNat 16 (T.code s i)
  | .row v => lane v (i.i0 % 128)
  | .column _ T => BitVec.ofNat 16 (T.code s ⟨rowIx D i, 0, 0, 0⟩)

/-- The accesses of a source (10 R218). -/
def Source.parts (src : Source) : List Part :=
  match src with
  | .tensor _ T => T.parts false
  | .column _ T => T.parts false
  | _ => []

/-- Whether a source's format matches FMT (10 R231). -/
def Source.isFmt (src : Source) (fmt : Fmt) : Bool :=
  match src with
  | .tensor _ T => Machine.isFmt T fmt
  | .column _ T => Machine.isFmt T fmt
  | _ => true

/-- The descriptor register of a source whose extents do not fit the destination's (08 R164, R165). -/
def Source.misfit (src : Source) (D : Tensor) : Option (BitVec 5) :=
  match src with
  | .tensor r T => if sameShape T D then Option.none else some r
  | .column r T => if T.rank = 1 ∧ T.e0 = D.e1 * D.e2 * D.e3 then Option.none else some r
  | _ => Option.none

/-- The slots that a source's live elements lie in. -/
def Source.slots (src : Source) (s : State) (D : Tensor) (live : List Ix) : List (Pid × Nat) :=
  match src with
  | .tensor _ T => T.readSlots s live
  | .column _ T => T.readSlots s (live.map (fun i => ⟨rowIx D i, 0, 0, 0⟩))
  | _ => []

/-- The vectors of a walk that hold a live element. -/
def liveVectors (live : List Ix) : Nat := ((live.map (fun i => { i with i0 := i.i0 / 128 })).eraseDups).length

/-- Reads made for stride-0 dimensions of a source (08 R166): one for each vector that holds a live lane, and one for each such
row of a column broadcast, which reads one element a row (R164; DEDUCED, log entry 48). -/
def Source.stride0 (src : Source) (live : List Ix) : Nat :=
  match src with
  | .tensor _ T =>
    if T.zstride0 || (T.layout != 2 && 2 ≤ T.rank && T.st1 == 0) || (3 ≤ T.rank && T.st2 == 0) || (4 ≤ T.rank && T.st3 == 0)
    then liveVectors live else 0
  | .column _ T => if T.zstride0 then liveVectors (live.map (fun i => { i with i0 := 0 })) else 0
  | _ => 0

/-- The live elements of a walk: neither tail nor masked, nor beyond the fill count in the destination or in a source (08 R157,
R165; 09 R200). -/
def eeLive (D : Tensor) (srcs : List Source) (fill : Nat) (mask : BitVec 128) : List Ix :=
  (D.liveIx fill mask).filter (fun i => srcs.all (fun x =>
    match x with
    | .tensor _ T => T.live fill i
    | .column _ T => T.live fill ⟨rowIx D i, 0, 0, 0⟩
    | _ => true))

/-- Walk the destination, element by element in vector order (08 R165). -/
def eeWalk (op : Nat) (p : Pid) (f : Fields) (t : Task) (D : Tensor) (a b c : Source) : State → List Ix → State × Bool
  | s, [] => (s, false)
  | s, i :: rest =>
    let (y, sat) := eeElem s p t op f (D.linear i) false (a.at s D i) (b.at s D i) (c.at s D i)
    let (s', sats) := eeWalk op p f t D a b c (D.put s i y.toNat) rest
    (s', sat || sats)

/-- Descriptor form, row broadcast and column broadcast (10 R231): every operand's descriptor and bytes, then every format, then
every shape is checked before any wait (09 R204). -/
def eeTensor (op : Nat) (p : Pid) (f : Fields) (s : State) (t : Task) : Res State := do
  let form := eeForm f
  let fmt := eeFmt f
  let ta ← readDesc s p t f.ra
  let a := Source.tensor f.ra ta
  let b ← (if opUnary op then pure Source.none
    else if form = 2 then pure (Source.row (t.vreg f.rb))
    else do
      let T ← readDesc s p t f.rb
      pure (if form = 3 then Source.column f.rb T else Source.tensor f.rb T))
  let c ← (if op = 4 then do pure (Source.tensor f.rc (← readDesc s p t f.rc)) else pure Source.none)
  let D ← readDesc s p t f.rd
  checkParts s p (a.parts ++ b.parts ++ c.parts ++ D.parts true)
  need (a.isFmt fmt && b.isFmt fmt && c.isFmt fmt && isFmt D (opResult op fmt (eeSub f % 4))) 0x13 0
  match [a, b, c].findSome? (fun x => x.misfit D) with
  | some r => Except.error (.fault 0x14 (BitVec.ofNat 32 r.toNat))
  | none => Except.ok ()
  let live := eeLive D [a, b, c] t.fill.toNat (t.mreg f.mask)
  gate s false (a.slots s D live)
  gate s false (b.slots s D live)
  gate s false (c.slots s D live)
  gate s true (D.writeSlots live)
  let n0 := a.stride0 live + b.stride0 live + c.stride0 live
  let (s, sat) := eeWalk op p f t D a b c s live
  let draws := if cvtDraws op f then live.length else 0
  let s := (s.eeFlags p sat false).claim p (w1Gen f) (w1Sid f) D.base draws
  return s.onPolder p (fun P => { P with ee := { P.ee with stride0 := P.ee.stride0 + BitVec.ofNat 64 n0 } })

/-- An ee operation of Table 8-1; one that does not exist for its format and form reads no operand. -/
def eeInstr (op : Nat) (p : Pid) (f : Fields) (s : State) : Outcome State Fault Refusal :=
  issue p (eeUse op f) f s (fun t => do
    need (eeOpOk op f) 0x13 0
    if eeForm f = 0 then return eeRegister op p f s t else eeTensor op p f s t)

def execEePass (p : Pid) (f : Fields) (s : State) : Outcome State Fault Refusal := eeInstr 0x00 p f s
def execEeAdd (p : Pid) (f : Fields) (s : State) : Outcome State Fault Refusal := eeInstr 0x01 p f s
def execEeSub (p : Pid) (f : Fields) (s : State) : Outcome State Fault Refusal := eeInstr 0x02 p f s
def execEeMul (p : Pid) (f : Fields) (s : State) : Outcome State Fault Refusal := eeInstr 0x03 p f s
def execEeFma (p : Pid) (f : Fields) (s : State) : Outcome State Fault Refusal := eeInstr 0x04 p f s
def execEeMin (p : Pid) (f : Fields) (s : State) : Outcome State Fault Refusal := eeInstr 0x05 p f s
def execEeMax (p : Pid) (f : Fields) (s : State) : Outcome State Fault Refusal := eeInstr 0x06 p f s
def execEeCmpEq (p : Pid) (f : Fields) (s : State) : Outcome State Fault Refusal := eeInstr 0x07 p f s
def execEeCmpNe (p : Pid) (f : Fields) (s : State) : Outcome State Fault Refusal := eeInstr 0x08 p f s
def execEeCmpLt (p : Pid) (f : Fields) (s : State) : Outcome State Fault Refusal := eeInstr 0x09 p f s
def execEeCmpLe (p : Pid) (f : Fields) (s : State) : Outcome State Fault Refusal := eeInstr 0x0A p f s
def execEeSel (p : Pid) (f : Fields) (s : State) : Outcome State Fault Refusal := eeInstr 0x0B p f s
def execEeAbs (p : Pid) (f : Fields) (s : State) : Outcome State Fault Refusal := eeInstr 0x0C p f s
def execEeNeg (p : Pid) (f : Fields) (s : State) : Outcome State Fault Refusal := eeInstr 0x0D p f s
def execEeRsh (p : Pid) (f : Fields) (s : State) : Outcome State Fault Refusal := eeInstr 0x0E p f s
def execEeCvt (p : Pid) (f : Fields) (s : State) : Outcome State Fault Refusal := eeInstr 0x0F p f s
def execEeRcp (p : Pid) (f : Fields) (s : State) : Outcome State Fault Refusal := eeInstr 0x10 p f s
def execEeRsq (p : Pid) (f : Fields) (s : State) : Outcome State Fault Refusal := eeInstr 0x11 p f s
def execEeEx2 (p : Pid) (f : Fields) (s : State) : Outcome State Fault Refusal := eeInstr 0x12 p f s
def execEeLg2 (p : Pid) (f : Fields) (s : State) : Outcome State Fault Refusal := eeInstr 0x13 p f s
def execEeLmul (p : Pid) (f : Fields) (s : State) : Outcome State Fault Refusal := eeInstr 0x14 p f s
def execEeLdiv (p : Pid) (f : Fields) (s : State) : Outcome State Fault Refusal := eeInstr 0x15 p f s
def execEeLexp (p : Pid) (f : Fields) (s : State) : Outcome State Fault Refusal := eeInstr 0x16 p f s

/-! ### Gather (08 R167) -/

/-- The index a lane holds in a vector pair. -/
def pairLane (t : Task) (r : BitVec 5) (l : Nat) : Nat :=
  (lane (t.vreg r) l).toNat + 65536 * (lane (t.vreg (r + 1)) l).toNat

def execEeGather (p : Pid) (f : Fields) (s : State) : Outcome State Fault Refusal :=
  let fmt := (f.imm.extractLsb' 0 2).toNat
  issue p { level := if fmt = 2 then 3 else 1, rd := .any, ra := .pair, rc := .desc, mask := true, z := true, imm := 3, checked := true } f s
    (fun t => do
      let T ← readDesc s p t f.rc
      checkParts s p (T.parts false)
      need (isFmt T fmt) 0x13 0
      let ix := fun l => pairLane t f.ra l
      let mask := t.mreg f.mask
      match (List.range 128).find? (fun l => mask.getLsbD l && T.e0 ≤ ix l) with
      | some l => Except.error (.fault 0x15 (BitVec.ofNat 32 l))
      | none => Except.ok ()
      let on := fun l => mask.getLsbD l && T.live t.fill.toNat ⟨ix l, 0, 0, 0⟩
      let lanes := (List.range 128).filter on
      gate s false (T.readSlots s (lanes.map (fun l => ⟨ix l, 0, 0, 0⟩)))
      let hidden := ((List.range 128).filter (fun l => !mask.getLsbD l && T.e0 ≤ ix l)).length
      let m := BitVec.ofNat 128 (lanes.map (2 ^ ·)).sum
      let s' := s.onTask p (fun t => t.setV f.rd (mergeLanes m f.z (t.vreg f.rd)
        (fun l => laneOut fmt (BitVec.ofNat 16 (T.code s ⟨ix l, 0, 0, 0⟩)))))
      return s'.onPolder p (fun P =>
        { P with ee := { P.ee with suppressed := P.ee.suppressed + BitVec.ofNat 64 hidden,
                                   stride0 := P.ee.stride0 + (if T.zstride0 then BitVec.ofNat 64 lanes.length else 0) } }))

/-! ### Chain entries and micro-programs (08 R172-R175) -/

/-- The chain entry an image in memory gives, with the descriptors that it names copied (08 Table 8-2). -/
def chainImage (s : State) (t : Task) (a : Nat) : Chain :=
  { header := BitVec.ofNat 64 (s.num a 8),
    stages := ⟨((List.range 8).map (fun k => BitVec.ofNat 64 (s.num (a + 8 + 8 * k) 8))).toArray, by simp⟩,
    cbDesc := t.dreg ((s.byte (a + 72)).setWidth 4), tapDesc := t.dreg ((s.byte (a + 136)).setWidth 4),
    rowVec := ⟨((List.range 8).map (fun k => ofBytes 2048 (s.bytes (a + 256 + 256 * k) 256))).toArray, by simp⟩ }

/-- ee.chain (08 R172, R174): the entry is loaded once no latched, undrained tile names it. -/
def execEeChain (p : Pid) (f : Fields) (s : State) : Outcome State Fault Refusal :=
  issue p { level := 2, ra := .any, imm := 0xF } f s (fun t => do
    let a := (t.sreg f.ra).toNat
    let n : Fin 16 := Fin.ofNat 16 f.imm.toNat
    need (a % 256 == 0) 0x0A a
    access s p false [(a, 2304)] [(a, 2304)]
    let c := chainImage s t a
    if c.cbEn then
      let T ← readDesc s p t ((s.byte (a + 72)).setWidth 4 |>.setWidth 5)
      checkParts s p (T.parts false)
    if c.tapEn then
      let T ← readDesc s p t ((s.byte (a + 136)).setWidth 4 |>.setWidth 5)
      checkParts s p (T.parts true)
    let level := t.stage.level.toNat
    need (c.count ≤ 8 && c.tapF ≤ 47 && (3 ≤ level || !c.tapEn)) 0x13 0
    match c.live.findIdx? (fun w => !stageOk c level w) with
    | some k => Except.error (.fault 0x13 (BitVec.ofNat 32 k))
    | none => Except.ok ()
    if chainHeld s.polders[p] n then .error (.held s)
    else return s.onPolder p (fun P => { P with ee := { P.ee with chains := P.ee.chains.set n.val c n.isLt } }))

/-- ee.uload (08 R175): every micro-instruction is checked before the slot, free of latched tiles, is written. -/
def execEeUload (p : Pid) (f : Fields) (s : State) : Outcome State Fault Refusal :=
  issue p { level := 3, ra := .any, imm := 0x3FF } f s (fun t => do
    let a := (t.sreg f.ra).toNat
    let n : Fin 32 := Fin.ofNat 32 (f.imm.extractLsb' 0 5).toNat
    let len := (f.imm.extractLsb' 5 5).toNat
    need (a % 8 == 0) 0x0A a
    access s p false [(a, 4 * len)] [(a, 4 * len)]
    need (1 ≤ len && len ≤ 16) 0x16 0
    let ws := (List.range len).map (fun k => BitVec.ofNat 32 (s.num (a + 4 * k) 4))
    match ws.findIdx? (fun w => !muOk w) with
    | some k => Except.error (.fault 0x16 (BitVec.ofNat 32 k))
    | none => Except.ok ()
    if uprogHeld s.polders[p] n then .error (.held s)
    else return s.onPolder p (fun P => { P with ee := { P.ee with uprogs := P.ee.uprogs.set n.val ws n.isLt } }))

end Sys2Proof.Machine
end

