-- ==== Sys2Proof/Machine/Ru.lean ====
section
/-! DEFINITION. The reduction unit (08 R178-R184; 10 R232, Table 10-11; 05 R101, R102). -/

namespace Sys2Proof.Machine

open Host (Outcome)

def ruAxis (f : Fields) : Nat := (f.imm.extractLsb' 0 1).toNat
def ruF (f : Fields) : Nat := (f.imm.extractLsb' 1 6).toNat
def ruK (f : Fields) : BitVec 16 := f.imm.extractLsb' 7 16

/-- A line: whether it is walked at all, and its elements in position order, none where masked (08 R178). -/
structure Line where
  walked : Bool
  elems  : List (Option Nat)
deriving DecidableEq, Repr

/-- The lines of a tensor (08 R178): along dimension 0, or along dimension 1 for one lane position. A line every vector of which
lies under the fill count, or a masked lane's line, is not walked (08 R157, 09 R200). -/
def linesOf (s : State) (T : Tensor) (axis fill : Nat) (mask : BitVec 128) : List Line :=
  let at_ := fun (i : Ix) => if mask.getLsbD (i.i0 % 128) && T.live fill i then some (T.code s i) else none
  if axis = 0 then
    T.outer.map (fun o =>
      { walked := T.rank = 1 || T.live fill o, elems := (List.range T.e0).map (fun k => at_ { o with i0 := k }) })
  else
    (List.range T.e3).flatMap (fun i3 => (List.range T.e2).flatMap (fun i2 => (List.range T.e0).map (fun i0 =>
      { walked := mask.getLsbD (i0 % 128) && (T.rank ≤ 2 || T.live fill ⟨i0, 0, i2, i3⟩),
        elems := (List.range T.e1).map (fun i1 => at_ ⟨i0, i1, i2, i3⟩) })))

/-- The unmasked elements of a line. -/
def Line.vals (l : Line) : List Nat := l.elems.filterMap id

/-! ### Entries and sums (08 R179) -/

/-- The lane format of a tensor of BF16, INT16 or LG8. -/
def laneFmt (T : Tensor) : Fmt := match T.kind with | .bf16 => 0 | .lg8 => 2 | _ => 1

/-- An element's entry: its integer, or RNE(x × 2^F); an infinity, a NaN, an overflow code or a value beyond ACCX is the
sentinel. -/
def ruEntry (fmt : Fmt) (F : Nat) (c : Nat) : Acc :=
  let x := BitVec.ofNat 16 c
  if fmt = 1 then (if x = 0x8000 then .sentinel else .val x.toInt)
  else if bfIsNan x || bfIsInf x then .sentinel
  else accOf true ((⟨(bfDy x).m, (bfDy x).e + F⟩ : Dy).toIntRne)

/-- An exact product under 02 R30. -/
def accMul (a b : Acc) : Acc :=
  match a, b with
  | .val x, .val y => accOf true (x * y)
  | _, _ => .sentinel

/-- A difference under 02 R30. -/
def accSub (a b : Acc) : Acc :=
  match a, b with
  | .val x, .val y => accOf true (x - y)
  | _, _ => .sentinel

/-- The ACCX sum of a list, in order. -/
def accSum (l : List Acc) : Acc := l.foldl (accAdd true) (.val 0)

/-- Whether a code is a NaN of its format. -/
def codeNan (fmt : Fmt) (c : Nat) : Bool := fmt == 0 && bfIsNan (BitVec.ofNat 16 c)

/-- The codes of a line that enter its sums: a NaN gives its line NaN results and has no entry (08 R179; DEDUCED, log entry 51). -/
def sumCodes (fmt : Fmt) (codes : List Nat) : List Nat := codes.filter (fun c => !codeNan fmt c)

/-- A fraction n / d of an integer n, rounded once to BF16; an exact zero is +0. -/
def ratToBf (n : Int) (d : Nat) : BitVec 16 := if n = 0 then 0 else roundBf (n < 0) n.natAbs d

/-- Mean and variance from n, the shift's entry K, S1 and S2 (08 R182). -/
def meanVar (n : Nat) (K S1 S2 : Acc) (F : Nat) : BitVec 16 × BitVec 16 :=
  match K, S1, S2 with
  | .val k, .val a, .val b => (ratToBf (k * n + a) (n * 2 ^ F), ratToBf (n * b - a * a) (n * n * 2 ^ (2 * F)))
  | _, _, _ => (bfNan, bfNan)

/-- A moment record of 08 Table 8-8. -/
structure Moments where
  n  : Nat
  K  : BitVec 16
  F  : Nat
  fmt : Fmt
  S1 : Acc
  S2 : Acc
deriving DecidableEq, Repr

def Moments.bytes (r : Moments) : List Byte :=
  leBytes 8 r.n ++ leBytes 2 r.K.toNat ++ leBytes 1 r.F ++ leBytes 1 r.fmt ++ leBytes 4 0
  ++ leBytes 8 (accCode true r.S1) ++ leBytes 8 (accCode true r.S2)

def Moments.read (bs : List Byte) : Moments :=
  { n := leNat (bs.take 8), K := BitVec.ofNat 16 (leNat ((bs.drop 8).take 2)), F := leNat ((bs.drop 10).take 1),
    fmt := leNat ((bs.drop 11).take 1), S1 := accRead true (leNat ((bs.drop 16).take 8)),
    S2 := accRead true (leNat ((bs.drop 24).take 8)) }

/-- The moment record of a list of codes, shifted by the code K (08 R182, R183). -/
def momentsOf (fmt : Fmt) (F : Nat) (K : BitVec 16) (codes : List Nat) : Moments :=
  let k := ruEntry fmt F K.toNat
  let ds := codes.map (fun c => accSub (ruEntry fmt F c) k)
  { n := codes.length, K, F, fmt, S1 := accSum ds, S2 := accSum (ds.map (fun d => accMul d d)) }

/-- Whether a sum of a record became the sentinel (08 R179, OVF): judged over the codes that enter, with a K that has an entry. -/
def momentsOvf (fmt : Fmt) (F : Nat) (K : BitVec 16) (codes : List Nat) : Bool :=
  let r := momentsOf fmt F K (sumCodes fmt codes)
  !codeNan fmt K.toNat && (r.S1 == .sentinel || r.S2 == .sentinel)

/-! ### Extremes (08 R181) -/

/-- Whether a code outranks every value: a NaN or an overflow code. -/
def outranks (fmt : Fmt) (c : Nat) : Bool :=
  if fmt = 0 then bfIsNan (BitVec.ofNat 16 c) else if fmt = 1 then c == 0x8000 else c == 0x80

/-- An LG8 code's place in the order of values. -/
def lgOrder (c : Nat) : Int :=
  if c = 0 then 0 else if c < 128 then c else -((c : Int) - 128)

/-- Whether a is smaller than b by value. -/
def codeLt (fmt : Fmt) (a b : Nat) : Bool :=
  if fmt = 0 then bfLt (BitVec.ofNat 16 a) (BitVec.ofNat 16 b)
  else if fmt = 1 then decide ((BitVec.ofNat 16 a).toInt < (BitVec.ofNat 16 b).toInt)
  else decide (lgOrder a < lgOrder b)

/-- The chosen position and code of a line: the first that outranks, else the largest or smallest, ties to the lowest
position. -/
def extreme (fmt : Fmt) (max : Bool) : List (Nat × Nat) → Option (Nat × Nat)
  | l =>
    match l.find? (fun x => outranks fmt x.2) with
    | some x => some x
    | none => l.foldl (fun best x =>
        match best with
        | none => some x
        | some b => if (if max then codeLt fmt b.2 x.2 else codeLt fmt x.2 b.2) then some x else some b) none

/-- The most negative and most positive finite codes (08 R180). -/
def emptyExtreme (fmt : Fmt) (max : Bool) : Nat :=
  match fmt with
  | 0 => if max then 0xFF7F else 0x7F7F
  | 1 => if max then 0x8001 else 0x7FFF
  | _ => if max then 0xFF else 0x7F

/-! ### One line's results -/

/-- What a line gives: the codes of its result elements, and of the second result, and the flags EMPTY, OVF, NAN_SEEN. -/
structure LineOut where
  res   : List Nat
  res2  : List Nat := []
  empty : Bool := false
  ovf   : Bool := false
  nan   : Bool := false

/-- The result of a sum in its format (08 R179): ACCX, or its BF16 value in units of 2^-F. A NaN makes the result NaN, for ACCX the
sentinel (DEDUCED, log entry 51). -/
def sumOut (D : Tensor) (F : Nat) (fmt : Fmt) (x : Acc) (nan : Bool) (emptyLine : Bool) : LineOut :=
  let code :=
    if D.kind = .accx then accCode true (if nan then .sentinel else x)
    else if nan then bfNan.toNat
    else match x with
      | .sentinel => bfNan.toNat
      | .val v => (ratToBf v (2 ^ (if fmt = 0 then F else 0))).toNat
  { res := [code], empty := emptyLine, ovf := x == .sentinel, nan }

/-- P and N of an LG8 line (05 R96, R101): the trees over all positions. -/
def lsumPN (l : Line) : LogAcc × LogAcc :=
  let term := fun (neg : Bool) (c : Option Nat) => match c with
    | none => LogAcc.empty
    | some c =>
      let x := BitVec.ofNat 8 c
      if x = 0x80 then .sentinel else if x = 0 ∨ lgNeg x ≠ neg then .empty else .fin (512 * (lgE x - 64))
  ((logTree (l.elems.map (term false))).1, (logTree (l.elems.map (term true))).1)

/-- A record the RU writes, as its 32 codes. -/
def Moments.codes (r : Moments) : List Nat := r.bytes.map (·.toNat)

/-- The records of a line of bytes (08 R183). -/
def recordsOf (l : Line) : List Moments :=
  (List.range (l.elems.length / 32)).filterMap (fun k =>
    let bs := (l.elems.drop (32 * k)).take 32
    if bs.all Option.isSome then some (Moments.read (bs.filterMap (fun b => b.map (BitVec.ofNat 8 ·)))) else none)

/-- The totals of records that agree (08 R183). -/
def totals (rs : List Moments) : Moments :=
  match rs with
  | [] => { n := 0, K := 0, F := 0, fmt := 0, S1 := .val 0, S2 := .val 0 }
  | r :: _ => { r with n := (rs.map Moments.n).sum, S1 := accSum (rs.map Moments.S1), S2 := accSum (rs.map Moments.S2) }

/-- One line of a ru operation (08 Table 8-7). -/
def lineOut (op : Nat) (f : Fields) (T D : Tensor) (l : Line) : LineOut :=
  let fmt := laneFmt T
  let F := ruF f
  let vs := l.vals
  let emptyLine := vs.isEmpty
  let nan := vs.any (codeNan fmt)
  let es := (sumCodes fmt vs).map (ruEntry fmt F)
  let pos := (l.elems.zipIdx).filterMap (fun (c, k) => c.map (fun c => (k, c)))
  match op with
  | 0 => { res := [vs.length], empty := emptyLine }
  | 1 => sumOut D F fmt (accSum es) nan emptyLine
  | 2 => sumOut D (2 * F) fmt (accSum (es.map (fun e => accMul e e))) nan emptyLine
  | 3 =>
    if emptyLine then { res := [0], res2 := [0], empty := true }
    else
      let r := momentsOf fmt F (BitVec.ofNat 16 (vs.headD 0)) vs
      let (m, v) := if nan then (bfNan, bfNan) else meanVar r.n (ruEntry fmt F (vs.headD 0)) r.S1 r.S2 F
      { res := [m.toNat], res2 := [v.toNat], ovf := momentsOvf fmt F (BitVec.ofNat 16 (vs.headD 0)) vs, nan }
  | 4 =>
    let r := momentsOf fmt F (ruK f) vs
    { res := r.codes, empty := emptyLine, ovf := momentsOvf fmt F (ruK f) vs, nan }
  | 5 =>
    let r := totals (recordsOf l)
    if r.n = 0 then { res := [0], res2 := [0], empty := true }
    else
      let (m, v) := meanVar r.n (ruEntry r.fmt r.F r.K.toNat) r.S1 r.S2 r.F
      { res := [m.toNat], res2 := [v.toNat], ovf := r.S1 == .sentinel || r.S2 == .sentinel }
  | 6 => { res := [match extreme fmt true pos with | some x => x.2 | none => emptyExtreme fmt true], empty := emptyLine }
  | 7 => { res := [match extreme fmt false pos with | some x => x.2 | none => emptyExtreme fmt false], empty := emptyLine }
  | 8 =>
    let k := match extreme fmt true pos with | some x => x.1 | none => 0xFFFFFFFF
    { res := [k % 65536, k / 65536], empty := emptyLine }
  | 9 =>
    let k := match extreme fmt false pos with | some x => x.1 | none => 0xFFFFFFFF
    { res := [k % 65536, k / 65536], empty := emptyLine }
  | _ =>
    if vs.all (· == 0) then { res := [0], res2 := [0xFF80], empty := true }
    else
      let ((x, _), y) := logSum (lsumPN l).1 (lsumPN l).2
      { res := [x.toNat], res2 := [y.toNat] }

/-- Whether ru.lsum's LG8 result was clamped (02 R42, R43). -/
def lsumSat (l : Line) : Bool := !(l.vals.all (· == 0)) && (logSum (lsumPN l).1 (lsumPN l).2).1.2

/-! ### The instruction (10 R232) -/

/-- Whether the source's format has a meaning for the operation. -/
def ruSourceOk (op : Nat) (T : Tensor) : Bool :=
  match op with
  | 0 => true
  | 1 | 2 | 3 | 4 => isFmt T 0 || isFmt T 1
  | 5 => T.kind == .int && T.entryW == 8
  | 10 => isFmt T 2
  | _ => isFmt T 0 || isFmt T 1 || isFmt T 2

/-- Whether the first result's format is one the operation lists (10 Table 10-11). -/
def ruResultOk (op : Nat) (T D : Tensor) : Bool :=
  match op with
  | 0 => D.kind == .acc32
  | 1 | 2 => D.kind == .accx || D.kind == .bf16
  | 3 | 5 => D.kind == .bf16
  | 4 => D.kind == .int && D.entryW == 8
  | 8 | 9 => D.kind == .int && D.entryW == 16
  | 10 => D.kind == .lg8
  | _ => D.kind == T.kind && D.entryW == T.entryW

/-- Elements of one result. -/
def ruWidth (op : Nat) : Nat := match op with | 4 => 32 | 8 => 2 | 9 => 2 | _ => 1

/-- The number of lines. -/
def lineCount (T : Tensor) (axis : Nat) : Nat := if axis = 0 then T.e1 * T.e2 * T.e3 else T.e0 * T.e2 * T.e3

/-- Whether the operation has a second result (10 R232). -/
def ruTwo (op : Nat) : Bool := op == 3 || op == 5 || op == 10

/-- The index of linear element k. -/
def Tensor.unlinear (T : Tensor) (k : Nat) : Ix :=
  ⟨k % T.e0, k / T.e0 % T.e1, k / T.e0 / T.e1 % T.e2, k / T.e0 / T.e1 / T.e2⟩

/-- Write codes at consecutive linear elements, apart from those beyond the fill count (09 R200). -/
def Tensor.putRun (T : Tensor) (fill : Nat) (s : State) (k : Nat) : List Nat → State
  | [] => s
  | c :: t => T.putRun fill (if T.live fill (T.unlinear k) then T.put s (T.unlinear k) c else s) (k + 1) t

/-- Write every walked line's results. -/
def putLines (D E : Tensor) (w fill : Nat) : State → Nat → List (Bool × LineOut) → State
  | s, _, [] => s
  | s, k, (on, o) :: t =>
    let s := if on then E.putRun fill (D.putRun fill s (k * w) o.res) k o.res2 else s
    putLines D E w fill s (k + 1) t

/-- The slots that the results of the lines given are written in: w elements a line, apart from those beyond the fill count. -/
def Tensor.lineSlots (T : Tensor) (fill w : Nat) (lines : List Nat) : List (Pid × Nat) :=
  T.writeSlots ((lines.flatMap (fun k => (List.range w).map (fun j => T.unlinear (k * w + j)))).filter (T.live fill))

/-- Whether the records of every walked line agree in K and F (08 R183). -/
def recordsAgree (ls : List Line) : Bool :=
  (ls.filter Line.walked).all (fun l =>
    let rs := recordsOf l
    rs.all (fun r => r.K == (totals rs).K && r.F == (totals rs).F))

/-- An ru instruction (10 R232). The records of ru.mvf are compared when they have been read (08 R183). ru.lsum moves neither
LOG_CHEAP_ADDS nor LOG_STATUS.SENT_SEEN, which belong to the array's log path (05 R104; DESIGN CHOICE, log entry 50). -/
def ruInstr (op : Nat) (p : Pid) (f : Fields) (s : State) : Outcome State Fault Refusal :=
  let two := ruTwo op
  issue p
    { level := if op = 10 then 3 else 2, rd := .desc, ra := .desc, rb := if two then .desc else .unused, mask := true, checked := true,
      imm := if op = 4 then 0x7FFFFF else if op = 1 ∨ op = 2 ∨ op = 3 then 0x7F else 1 } f s (fun t => do
    let T ← readDesc s p t f.ra
    let D ← readDesc s p t f.rd
    let E ← (if two then readDesc s p t f.rb else pure D)
    checkParts s p (T.parts false ++ D.parts true ++ (if two then E.parts true else []))
    need (ruF f ≤ 47) 0x0C f.ra.toNat
    let fill := t.fill.toNat
    let mask := t.mreg f.mask
    let ls := linesOf s T (ruAxis f) fill mask
    let n := lineCount T (ruAxis f)
    let w := ruWidth op
    need (ruSourceOk op T && ruResultOk op T D && (!two || E.kind == .bf16)) 0x13 0
    need (D.e0 * D.e1 * D.e2 * D.e3 == n * w) 0x14 f.rd.toNat
    need (!two || E.e0 * E.e1 * E.e2 * E.e3 == n) 0x14 f.rb.toNat
    let on := (ls.zipIdx.filter (fun (l, _) => l.walked)).map (·.2)
    gate s false (T.readSlots s (T.liveIx fill mask))
    need (op != 5 || recordsAgree ls) 0x0C f.ra.toNat
    gate s true (D.lineSlots fill w on)
    gate s true (if two then E.lineSlots fill 1 on else [])
    let outs := ls.map (fun l => (l.walked, lineOut op f T D l))
    let done := (outs.filter (·.1)).map (·.2)
    let s := putLines D E w fill s 0 outs
    let s := ((s.ruFlag p 0 (done.any LineOut.empty)).ruFlag p 1 (done.any LineOut.ovf)).ruFlag p 2 (done.any LineOut.nan)
    let s := if op = 10 then s.eeFlags p ((ls.filter Line.walked).any lsumSat) false else s
    return s.onPolder p (fun P => { P with ru := { P.ru with
      lines := P.ru.lines + BitVec.ofNat 64 done.length,
      emptied := P.ru.emptied + BitVec.ofNat 64 (done.filter LineOut.empty).length } }))

def execRuCount (p : Pid) (f : Fields) (s : State) : Outcome State Fault Refusal := ruInstr 0 p f s
def execRuSum (p : Pid) (f : Fields) (s : State) : Outcome State Fault Refusal := ruInstr 1 p f s
def execRuSumsq (p : Pid) (f : Fields) (s : State) : Outcome State Fault Refusal := ruInstr 2 p f s
def execRuMv (p : Pid) (f : Fields) (s : State) : Outcome State Fault Refusal := ruInstr 3 p f s
def execRuMvp (p : Pid) (f : Fields) (s : State) : Outcome State Fault Refusal := ruInstr 4 p f s
def execRuMvf (p : Pid) (f : Fields) (s : State) : Outcome State Fault Refusal := ruInstr 5 p f s
def execRuMax (p : Pid) (f : Fields) (s : State) : Outcome State Fault Refusal := ruInstr 6 p f s
def execRuMin (p : Pid) (f : Fields) (s : State) : Outcome State Fault Refusal := ruInstr 7 p f s
def execRuArgmax (p : Pid) (f : Fields) (s : State) : Outcome State Fault Refusal := ruInstr 8 p f s
def execRuArgmin (p : Pid) (f : Fields) (s : State) : Outcome State Fault Refusal := ruInstr 9 p f s
def execRuLsum (p : Pid) (f : Fields) (s : State) : Outcome State Fault Refusal := ruInstr 10 p f s

end Sys2Proof.Machine
end

