-- ==== Sys2Proof/Machine/Cx.lean ====
section
/-! DEFINITION. The collectives (10 R236, Table 10-15; 14 R336-R341). What the other members give comes with the completion event
(DESIGN CHOICE, log entry 4). -/

namespace Sys2Proof.Machine

open Host (Outcome)

/-! ### Member sets (14 R336, R337) -/

/-- The rank a member is ordered by. -/
def memberRank (m : BitVec 12 × Pid) : Nat := 32 * (coordNum m.1) + m.2.val
where
  /-- X + 16 Y + 256 Z. -/
  coordNum (c : BitVec 12) : Nat :=
    (c.extractLsb' 8 4).toNat + 16 * (c.extractLsb' 4 4).toNat + 256 * (c.extractLsb' 0 4).toNat

/-- The members of a handle, in ascending rank; none where it is not installed. -/
def State.memberSet (s : State) (h : Nat) : List (BitVec 12 × Pid) := if h < 64 then sget [] s.herd.sets h else []

/-- The place of a polder of this module in a set. -/
def State.rankIn (s : State) (h : Nat) (p : Pid) : Option Nat :=
  (s.memberSet h).findIdx? (fun m => m.1 == s.cad.coord && m.2 == p)

/-! ### Reductions (14 R339) -/

/-- Whether an operator admits a format (14 Table 14-9). -/
def cxPair (op : Nat) (k : Kind) (w : Nat) : Bool :=
  match k with
  | .acc32 => true
  | .accx => true
  | .bf16 => true
  | .int => op ≠ 0 && (w == 8 || w == 16)
  | _ => false

/-- The larger or the smaller of two integer codes; the overflow code, or the sentinel, outranks every value. -/
def extremeCode (max : Bool) (special : Nat → Bool) (val : Nat → Int) (a b : Nat) : Nat :=
  if special a then a else if special b then b
  else if max then (if val a < val b then b else a) else (if val b < val a then b else a)

/-- One join of a reduction: R30 for ACC32 and ACCX, R160 for BF16, R161 for integers. -/
def cxJoin (op : Nat) (k : Kind) (w : Nat) (a b : Nat) : Nat :=
  match k with
  | .bf16 =>
    let x := BitVec.ofNat 16 a
    let y := BitVec.ofNat 16 b
    (if op = 0 then bfAdd x y else if op = 1 then bfMax x y else bfMin x y).toNat
  | .acc32 =>
    if op = 0 then accCode false (accAdd false (accRead false a) (accRead false b))
    else extremeCode (op == 1) (fun c => accRead false c == .sentinel) (sval 32) a b
  | .accx =>
    if op = 0 then accCode true (accAdd true (accRead true a) (accRead true b))
    else
      let c := extremeCode (op == 1) (fun c => accRead true c == .sentinel) (sval 64) a b
      accCode true (accRead true c)
  | _ => extremeCode (op == 1) (fun c => c == 2 ^ (w - 1)) (sval w) a b

/-- One level of the tree over ranks: adjacent pairs join, the lower rank first; one without a partner passes through. -/
def joinLevel (j : Nat → Nat → Nat) : List Nat → List Nat
  | a :: b :: t => j a b :: joinLevel j t
  | l => l

/-- The tree over the sources in rank order, `h` levels. -/
def joinTree (j : Nat → Nat → Nat) : Nat → List Nat → List Nat
  | 0, l => l
  | h + 1, l => joinTree j h (joinLevel j l)

/-- A code as a reduction writes it: an ACCX container is read and written anew, whichever way it came through the tree (02 R29). -/
def canonCode (k : Kind) (c : Nat) : Nat := if k = .accx then accCode true (accRead true c) else c

/-- The reduction of one element's n sources. -/
def reduceCodes (j : Nat → Nat → Nat) (l : List Nat) : Nat := (joinTree j (clog2 l.length) l).headD 0

/-! ### Issue (10 R236; 14 R338) -/

def cxHandle (t : Task) (f : Fields) : Nat := (t.sreg f.rb).toNat
def cxOp (f : Fields) : BitVec 3 := f.imm.extractLsb' 0 3
def cxWeir (f : Fields) : BitVec 16 := f.imm.extractLsb' 3 16

/-- Elements of a tensor. -/
def Tensor.count (T : Tensor) : Nat := T.e0 * T.e1 * T.e2 * T.e3

/-- The extents of a tensor, the outermost apart: the inner extents and the outermost. -/
def Tensor.outermost (T : Tensor) : List Nat × Nat :=
  match T.rank with
  | 1 => ([], T.e0)
  | 2 => ([T.e0], T.e1)
  | 3 => ([T.e0, T.e1], T.e2)
  | _ => ([T.e0, T.e1, T.e2], T.e3)

/-- Whether a cx tensor is dense, in packed or planar layout. -/
def cxLayout (T : Tensor) : Bool := T.form == 0 && T.layout ≤ 1

/-- The shape rules of 14 Table 14-8: the register whose descriptor breaks its row, if any. -/
def cxShape (prim n : Nat) (here : Bool) (x y : Tensor) (ra rd : BitVec 5) : Option (BitVec 5) :=
  let same := x.e0 == y.e0 && x.e1 == y.e1 && x.e2 == y.e2 && x.e3 == y.e3
  let (xi, xo) := x.outermost
  let (yi, yo) := y.outermost
  if prim = 0 then (if same then none else some rd)
  else if prim = 1 then
    if xo % n ≠ 0 then some ra else if x.rank = y.rank ∧ xi = yi ∧ yo * n = xo then none else some rd
  else if prim = 2 then (if x.rank = y.rank ∧ xi = yi ∧ yo = xo * n then none else some rd)
  else if here ∧ !same then some rd else none

/-- The member's coordinate as INFO. -/
def State.myInfo (s : State) : Nat := s.cad.coord.toNat

/-- This member's rank in the set of a handle, or CX_MISMATCH (14 R337). -/
def cxRank (s : State) (p : Pid) (h : Nat) : Res Nat :=
  match s.rankIn h p with
  | some r => .ok r
  | none => .error (.fault 0x1A (BitVec.ofNat 32 s.myInfo))

/-- Count a cx of a handle on its polder and start the work (14 R340). -/
def State.startCx (s : State) (p : Pid) (t : Task) (w : Work) (h : Nat) (weir : BitVec 16) : State :=
  let key := h * 32 + p.val
  ({ s with herd := { s.herd with cxCount := sput 0 s.herd.cxCount key (sget 0 s.herd.cxCount key + 1) } }).startWork p t w weir

/-- A cx instruction with tensors: its checks and its start. `prim` is its OP. -/
def cxInstr (prim : Nat) (p : Pid) (f : Fields) (s : State) : Outcome State Fault Refusal :=
  issue p { level := 3, rd := .desc, ra := .desc, rb := .any, rc := if prim = 3 then .any else .unused,
            imm := if prim ≤ 1 then 0x7FFFF else 0x7FFF8 } f s (fun t => do
    need ((cxOp f).toNat ≤ 2) 0x01 0
    let x ← readDesc s p t f.ra
    let y ← readDesc s p t f.rd
    checkParts s p (x.parts false ++ y.parts true)
    need (cxLayout x) 0x0C f.ra.toNat
    need (cxLayout y) 0x0C f.rd.toNat
    need (x.kind == y.kind && x.width == y.width && (2 ≤ prim || cxPair (cxOp f).toNat x.kind x.width)) 0x0D 0
    let h := cxHandle t f
    let root := (t.sreg f.rc).toNat
    let n := (s.memberSet h).length
    let r := s.rankIn h p
    match (if n = 0 then none else cxShape prim n (r == some root) x y f.ra f.rd) with
    | some d => Except.error (Stop.fault 0x14 (BitVec.ofNat 32 d.toNat))
    | none => Except.ok ()
    needWeir s p (cxWeir f).toNat
    let _ ← cxRank s p h
    let src := t.dreg (dnum f.ra)
    let dst := t.dreg (dnum f.rd)
    return s.startCx p t (.collective (BitVec.ofNat 6 prim) (cxOp f) src dst (sideOf s src) (sideOf s dst) h root) h (cxWeir f))

def execCxAllreduce (p : Pid) (f : Fields) (s : State) : Outcome State Fault Refusal := cxInstr 0 p f s
def execCxReducescatter (p : Pid) (f : Fields) (s : State) : Outcome State Fault Refusal := cxInstr 1 p f s
def execCxAllgather (p : Pid) (f : Fields) (s : State) : Outcome State Fault Refusal := cxInstr 2 p f s
def execCxBroadcast (p : Pid) (f : Fields) (s : State) : Outcome State Fault Refusal := cxInstr 3 p f s

def execCxBarrier (p : Pid) (f : Fields) (s : State) : Outcome State Fault Refusal :=
  issue p { level := 3, rb := .any, imm := 0x7FFF8 } f s (fun t => do
    let h := cxHandle t f
    needWeir s p (cxWeir f).toNat
    let _ ← cxRank s p h
    return s.startCx p t (.collective 4 0 0 0 0 0 h 0) h (cxWeir f))

/-! ### Completion (14 R338-R340) -/

/-- The sources of a collective in rank order: this member's codes and the shares of the others; none while a share is missing. -/
def cxSources (n r : Nat) (mine : List Nat) (peers : List PeerShare) : Option (List (List Nat)) :=
  (List.range n).mapM (fun k =>
    if k = r then some mine
    else (peers.find? (fun q => q.rank == k)).bind (fun q =>
      if q.codes.length = mine.length then some (q.codes.map BitVec.toNat) else none))

/-- What the member writes: the first linear element and the codes; none while a share is missing. -/
def cxResult (prim op n r root size : Nat) (x : Tensor) (mine : List Nat) (peers : List PeerShare) :
    Option (Nat × List Nat) :=
  if prim = 3 then
    if root = r then some (0, mine)
    else (peers.find? (fun q => q.rank == root && root < n && q.codes.length == size)).map (fun q => (0, q.codes.map BitVec.toNat))
  else
    (cxSources n r mine peers).map (fun srcs =>
      let reduced := fun (e : Nat) => canonCode x.kind (reduceCodes (cxJoin op x.kind x.width) (srcs.map (fun l => l.getD e 0)))
      let m := mine.length
      if prim = 0 then (0, (List.range m).map reduced)
      else if prim = 1 then (0, (List.range (m / n)).map (fun e => reduced (r * (m / n) + e)))
      else if prim = 2 then (0, srcs.flatten)
      else (0, []))

/-- KIND and WIDTH of a descriptor. -/
def cxFormat (d : DescWord) : BitVec 4 × Nat := (descKind d, (tensor d 0).width)

/-- The signature of a collective in progress, the earliest of its member on its handle (14 R340): the element count is the source's, the
result's for a broadcast (DESIGN CHOICE, log entry 4). -/
def cxSig (s : State) (t : Transfer) : Option CxSig :=
  match t.work with
  | .collective prim red src dst ss ds h root =>
    let out := (s.transfers.filter (fun x => x.p == t.p &&
      (match x.work with | .collective _ _ _ _ _ _ h' _ => h' == h | _ => false))).length
    let (kind, width) := if prim = 4 then (0, 0) else cxFormat src
    some { prim, op := red, kind, width, handle := h, root := if prim = 3 then root else 0,
           count := if prim = 4 then 0 else if prim = 3 then (tensor dst ds).count else (tensor src ss).count,
           earlier := sget 0 s.herd.cxCount (h * 32 + t.p.val) - out }
  | _ => none

/-- Every element of a tensor in linear order. -/
def Tensor.allIx (T : Tensor) : List Ix := (List.range T.count).map T.unlinear

/-- Whether an earlier collective of the same member on the same handle is outstanding (14 R340). -/
def earlierCx (s : State) (t : Transfer) (h : Nat) : Bool :=
  (s.transfers.takeWhile (fun x => x.id != t.id)).any (fun x =>
    x.p == t.p && (match x.work with | .collective _ _ _ _ _ _ h' _ => h' == h | _ => false))

/-- A collective's result becomes visible at this member and its weir is signalled once by 1; a signature that differs faults
with CX_MISMATCH against the instruction that started it (10 R219, R236; 14 R340). -/
def execCollectiveComplete (id : Nat) (peers : List PeerShare) (s : State) : Outcome State Fault Refusal := whenRunning s fun s =>
  match s.transfers.find? (fun t => t.id == id) with
  | none => .next s
  | some t =>
    match t.work with
    | .collective prim red src dst ss ds h root =>
      if earlierCx s t h then .next s else
      let gone : State := { s with transfers := s.transfers.filter (fun x => x.id != id) }
      match peers.find? (fun q => cxSig s t != some q.sig) with
      | some q => .next (gone.taskFaultAt t.p t.pc 0x1A (q.coord.setWidth 32))
      | none =>
        match s.rankIn h t.p with
        | none => .next s
        | some r =>
          let n := (s.memberSet h).length
          let x := tensor src ss
          let y := tensor dst ds
          let barrier := prim = 4
          let mine := if barrier then [] else
            x.allIx.zipIdx.map (fun (i, k) =>
              if x.live t.fill.toNat i then x.code s i else x.freeCode (Config.freeWord (s.freeIx + k)))
          match cxResult prim.toNat red.toNat n r root y.count x mine peers with
          | none => .next s
          | some (k, codes) =>
            let F := t.fill.toNat
            let reads := if barrier ∨ (prim = 3 ∧ root ≠ r) then [] else x.readSlots s (x.allIx.filter (x.live F))
            let writes := if barrier then [] else
              y.writeSlots ((List.range codes.length).filterMap (fun e =>
                if y.live F (y.unlinear (k + e)) then some (y.unlinear (k + e)) else none))
            let s := s.wakeSlots (reads ++ writes)
            match (do gate s false reads; gate s true writes : Res Unit) with
            | .error (.held s') => .next s'
            | .error _ => .next s
            | .ok () =>
              let n0 := s.sent.length
              let s := if barrier then s else { s with freeIx := s.freeIx + x.count }
              let s := ((if barrier then s else y.putRun F s k codes).markEnds n0).slotEnds writes
              .next ({ s with transfers := s.transfers.filter (fun x => x.id != id) }.signalWork t.p t.weir)
    | _ => .next s

end Sys2Proof.Machine
end

