-- ==== Sys2Proof/Machine/Tiles.lean ====
section
/-! DEFINITION. The image of a stored tile (07 R132-R136): its header, a dense or packed body, and the choice of form. -/

namespace Sys2Proof.Machine

/-- The codes of a tile's stored rows, one entry per valid column, none where masked. -/
abbrev TileRows := List (List (Option Nat))

/-- A code as it enters a body: 0 bits where masked (07 R132). -/
def cellCode (c : Option Nat) : Nat := c.getD 0

/-- A number from fields of `n` bits, the first the least significant. -/
def packBits (n : Nat) (l : List Nat) : Nat := l.foldr (fun c acc => c % 2 ^ n + 2 ^ n * acc) 0

/-- A dense row of 16 n bytes: planar for integers, packed for LG8 and BF16 (07 R133). -/
def denseRow (k : Kind) (n : Nat) (row : List (Option Nat)) : List Byte :=
  let cs := row.map cellCode
  if k = .lg8 ∨ k = .bf16 then leBytes (16 * n) (packBits n cs)
  else (List.range n).flatMap (fun p => leBytes 16 (packBits 1 (cs.map (fun c => c / 2 ^ p))))

/-- Whether a code is a zero code of its tensor's format: both zeros of BF16; INT1 has none (03 R52, 07 R134). -/
def Tensor.isZero (T : Tensor) (c : Nat) : Bool :=
  match T.kind with
  | .bf16 => c == 0 || c == 0x8000
  | .int1 => false
  | _ => c == T.zeroCode

/-- Whether a code of a row is unmasked and not the zero code (07 R134). -/
def isNonzero (T : Tensor) (c : Option Nat) : Bool :=
  match c with
  | some c => !T.isZero c
  | none => false

/-- The nonzero codes of a row. -/
def nonzeros (T : Tensor) (row : List (Option Nat)) : List Nat := (row.filter (isNonzero T)).map cellCode

/-- The bitmap of a packed row. -/
def bitmapRow (T : Tensor) (row : List (Option Nat)) : List Byte :=
  leBytes 16 (packBits 1 (row.map (fun c => if isNonzero T c then 1 else 0)))

/-- The bytes of a packed row's values. -/
def packedLen (n cnt : Nat) : Nat := 4 * ((cnt * n + 31) / 32)

/-- A packed body: the bitmaps, then each row's values (07 R134). -/
def packedBody (T : Tensor) (rows : TileRows) : List Byte :=
  rows.flatMap (bitmapRow T)
  ++ rows.flatMap (fun r => leBytes (packedLen T.width (nonzeros T r).length) (packBits T.width (nonzeros T r)))

/-- The largest count of nonzero codes in a row (07 Table 7-2, C_MAX). -/
def cMax (T : Tensor) (rows : TileRows) : Nat := (rows.map (fun r => (nonzeros T r).length)).foldl max 0

/-- Whether a format has an unstructured form (07 Table 7-1). -/
def mayPack (T : Tensor) : Bool := T.form == 1 && (T.kind == .int || T.kind == .uint || T.kind == .lg8) && 2 ≤ T.width

/-- Whether a count lies below the break-even of a width (07 R135). -/
def belowEven (n cnt : Nat) : Bool := 16 + packedLen n cnt < 16 * n

/-- A tile's bytes as they are written: header and body, whether packed, and whether a hot row kept it dense (07 R136, R154). -/
structure TileImage where
  bytes  : List Byte
  packed : Bool
  hotrow : Bool

/-- The KIND code of a tile header (07 Table 7-2). -/
def hdrKind (k : Kind) : Nat := match k with | .uint => 1 | .lg8 => 2 | .bf16 => 3 | _ => 0

/-- The image of a stored tile of N valid columns. -/
def tileImage (T : Tensor) (cols : Nat) (rows : TileRows) : TileImage :=
  let n := T.width
  let cm := cMax T rows
  let dense := 16 * n * rows.length
  let packs := (rows.map (fun r => 16 + packedLen n (nonzeros T r).length)).sum
  let packed := mayPack T && belowEven n cm
  let body := if packed then packedBody T rows else rows.flatMap (denseRow T.kind n)
  let len := if packed then packs else dense
  let hdr := len + cm * 2 ^ 24 + hdrKind T.kind * 2 ^ 32 + n * 2 ^ 35 + cols * 2 ^ 40 + rows.length * 2 ^ 48
    + (if packed then 2 ^ 63 else 0)
  { bytes := leBytes 8 hdr ++ body, packed, hotrow := mayPack T && !packed && packs < dense }

/-! ### Row segment headers (03 R51, R52; 07 Table 7-4) -/

/-- Whether every INT code left of a segment fits in h bits of two's complement. -/
def intFits (n h : Nat) (cs : List Nat) : Bool :=
  cs.all (fun c => -(2 ^ (h - 1) : Int) ≤ sval n c && sval n c ≤ 2 ^ (h - 1) - 1)

/-- PLANES of a segment over its unmasked codes (03 R52). R52 names no rule for codebook indices: PLANES is the index width, or 0
where every index is 0 (DESIGN CHOICE, log entry 57). -/
def segPlanes (T : Tensor) (cs : List Nat) (zero : Bool) : Nat :=
  let left := cs.filter (fun c => !isOvf T.kind T.width c)
  if left.isEmpty || zero then 0
  else match T.kind with
    | .uint => ((List.range T.width).filter (fun p => left.any (fun c => c.testBit p))).foldl (fun b p => max b (p + 1)) 0
    | .int => if left.all (· == 0) then 0
      else (((List.range T.width).map (· + 1)).find? (fun h => intFits T.width h left)).getD T.width
    | _ => T.width

/-- The header of a row segment (03 Table 3-3, 07 Table 7-4). Of a CB4 or CB8 row ZERO says that every index is 0, and OVF is 0, no
index being an overflow code (DESIGN CHOICE, log entry 57). -/
def segHeader (T : Tensor) (packed : Bool) (row : List (Option Nat)) : Nat :=
  let cs := row.filterMap id
  let zero := cs.all (fun c => match T.kind with
    | .bf16 => c == 0 || c == 0x8000
    | .int1 => false
    | _ => c == 0)
  let ovf := cs.any (fun c => isOvf T.kind T.width c)
  segPlanes T cs zero + (if zero then 2 ^ 6 else 0) + (if ovf then 2 ^ 7 else 0) + (nonzeros T row).length * 2 ^ 16
    + (if packed then 2 ^ 31 else 0)

end Sys2Proof.Machine
end

