-- ==== Sys2Proof/Machine/Quant.lean ====
section
/-! DEFINITION. Scales, codebooks and surveys (06 R105-R116, 02 R35): the ladder of group codes, the conversion of streamed
scales, codebook entries, mapping to an index, and the survey of a group. -/

namespace Sys2Proof.Machine

/-! ### Exact values of stored codes -/

/-- The exact value of a code: a special (overflow code, sentinel or NaN), an infinity, or a number. -/
inductive Exact where
  | special
  | inf (neg : Bool)
  | val (x : Dy)
deriving DecidableEq, Repr

/-- A fraction n / 2^k as a dyadic value of a sign. -/
def fracDy (neg : Bool) (x : Nat × Nat) : Dy := ⟨if neg then -(x.1 : Int) else x.1, -(Nat.log2 x.2 : Int)⟩

/-- The exact value of a BF16 code. -/
def bfExact (c : BitVec 16) : Exact :=
  if bfIsNan c then .special else if bfIsInf c then .inf (bfNeg c) else .val (bfDy c)

/-- The exact value of an LG8 code. -/
def lgExact (c : BitVec 8) : Exact :=
  if c = 0x80 then .special else if c = 0 then .val ⟨0, 0⟩ else .val (fracDy (lgNeg c) (lgFrac c))

/-- The exact value of a code of a kind, before any scale: an integer for the integer formats (02 R23-R33). -/
def codeExact (k : Kind) (n z c : Nat) : Exact :=
  match k with
  | .bf16 => bfExact (BitVec.ofNat 16 c)
  | .lg8 => lgExact (BitVec.ofNat 8 c)
  | .int => if isOvf .int n c then .special else .val (Dy.ofInt (sval n c))
  | .uint => if isOvf .uint n c then .special else .val (Dy.ofInt ((c : Int) - z))
  | .int1 => .val (Dy.ofInt (if c = 0 then -1 else 1))
  | .acc32 => match accRead false c with | .val x => .val (Dy.ofInt x) | .sentinel => .special
  | .accx => match accRead true c with | .val x => .val (Dy.ofInt x) | .sentinel => .special
  | .cb4 | .cb8 => .val (Dy.ofInt c)

/-- An exact value times a dyadic scale. -/
def Exact.scale (x : Exact) (d : Dy) : Exact :=
  match x with
  | .special => .special
  | .inf neg => .inf (neg != decide (d.m < 0))
  | .val y => .val (y.mul d)

/-- An exact value rounded once to BF16. -/
def Exact.toBf (x : Exact) : BitVec 16 :=
  match x with
  | .special => bfNan
  | .inf neg => bfInf neg
  | .val y => y.toBf false

/-- The quotient of two dyadic values as a fraction of naturals and its sign; the divisor is not 0. -/
def dyQuot (x y : Dy) : Bool × Nat × Nat :=
  let a := x.frac
  let b := y.frac
  (decide (x.m < 0) != decide (y.m < 0) && x.m != 0, a.1 * b.2, a.2 * b.1)

/-! ### Group codes (06 R110, R111) -/

/-- floor of the sixteenth root. -/
def root16 (n : Nat) : Nat := isqrt (isqrt (isqrt (isqrt n)))

/-- The ladder L(u). -/
def ladder (u : Nat) : Nat := if u = 0 then 0 else (root16 (2 ^ (129 + u)) + 1) / 2

/-- A group's code as the loader has it: u, and whether the conversion saturated or the group is bad. -/
structure GCode where
  u   : Nat
  sat : Bool := false
  bad : Bool := false
deriving DecidableEq, Repr

/-- The conversion of a group scale to its code (06 R111). s_g = 0 beside an s2 that is NaN, infinite or negative meets two special
cases: the group is bad (DESIGN CHOICE, log entry 53). -/
def scaleConv (sg s2 : BitVec 16) : GCode :=
  let off := fun (c : BitVec 16) => bfIsNan c || bfIsInf c || (bfNeg c && !bfIsZero c)
  if off sg || off s2 then { u := 255, bad := true }
  else if bfIsZero sg then { u := 0 }
  else if bfIsZero s2 then { u := 255, bad := true }
  else
    let (_, n, d) := dyQuot (bfDy sg) (bfDy s2)
    let x : Int := 255 + (floorLog2 (n ^ 32) (d ^ 32) + 1) / 2
    if 255 < x then { u := 255, sat := true } else if x < 1 then { u := 1 } else { u := x.toNat }

/-- Columns of a stationary tensor are counted over its outer dimensions. -/
def Tensor.colOf (T : Tensor) (i : Ix) : Nat := i.i1 + T.e1 * (i.i2 + T.e2 * i.i3)

/-- Groups per column. -/
def Tensor.groups (T : Tensor) : Nat := if T.group = 0 then 0 else (T.e0 + T.group - 1) / T.group

/-- The number of columns. -/
def Tensor.columns (T : Tensor) : Nat := T.e1 * T.e2 * T.e3

/-- s2 of a column: 1 where the side record names no vector. -/
def colScale (s : State) (T : Tensor) (col : Nat) : BitVec 16 :=
  if T.s2 = 0 then 0x3F80 else BitVec.ofNat 16 (s.num (T.s2 + 2 * col) 2)

/-- The code of the group that holds a position of a column; a tensor without groups uses row 255 (06 R112). -/
def groupCode (s : State) (T : Tensor) (col pos : Nat) : GCode :=
  if T.group = 0 then { u := 255 }
  else
    let g := col * T.groups + pos / T.group
    if T.streamed then scaleConv (BitVec.ofNat 16 (s.num (T.scales + 2 * g) 2)) (colScale s T col)
    else { u := (s.byte (T.scales + g)).toNat }

/-- Whether a conversion of the streamed groups that elements lie in saturated, and whether one was bad (06 R111). -/
def streamFlags (s : State) (T : Tensor) (ixs : List Ix) : Bool × Bool :=
  if T.group = 0 ∨ T.streamed = false then (false, false)
  else
    let gs := ixs.map (fun i => groupCode s T (T.colOf i) i.i0)
    (gs.any GCode.sat, gs.any GCode.bad)

/-- The bytes of the codes or streamed scales of a tensor. -/
def Tensor.codeRuns (T : Tensor) : List Run :=
  if T.group = 0 then [] else [(T.scales, (if T.streamed then 2 else 1) * T.groups * T.columns)]

/-- The bytes of the s2 vector of a tensor. -/
def Tensor.s2Runs (T : Tensor) : List Run := if T.s2 = 0 then [] else [(T.s2, 2 * T.columns)]

/-- The bytes of the codes or streamed scales, and of the s2 vector, of a tensor. -/
def Tensor.scaleRuns (T : Tensor) : List Run := T.codeRuns ++ T.s2Runs

/-- The accesses of a vector unit that reads a tensor's scales. -/
def Tensor.scaleParts (T : Tensor) : List Part := [(false, T.codeRuns), (false, T.s2Runs)]

/-! ### The codebook store (06 R112, R113) -/

/-- Whether a tensor loads through the codebook store (06 R112, R113). -/
def Tensor.coded (T : Tensor) : Bool := T.kind == .cb4 || T.kind == .cb8 || (T.kind == .int && T.group != 0)

/-- Whether a weight load names a bank: its tensor loads through the store from that bank (06 R112, R114). -/
def LoadReq.uses (r : LoadReq) (b : Fin 2) : Bool := let T := tensor r.desc r.side; T.coded && T.cbank == b

/-- Whether a queued or running load names a bank (06 R114). -/
def bankInUse (P : Polder) (b : Fin 2) : Bool := (P.arr.loading.toList ++ P.arr.loads).any (fun r => r.uses b)

/-- Entry i of row u of a bank. -/
def CbBank.entry (b : CbBank) (u i : Nat) : Int := (sget 0 b.cells (256 * u + i)).toInt

/-- Whether an entry is the overflow code of INTw. -/
def entryOvf (w : Nat) (e : Int) : Bool := 4 ≤ w && e == -(2 ^ (w - 1))

/-- A base value's entry in a row, whether it was clamped (CB_SAT), and whether the overflow code met a width without one
(06 R113, 02 R40). -/
structure CbEntry where
  val    : Int
  sat    : Bool := false
  narrow : Bool := false
deriving DecidableEq, Repr

/-- A base value's entry in row u (06 R113). -/
def cbEntry (w f h u : Nat) (b : BitVec 16) : CbEntry :=
  if u = 0 then { val := 0 }
  else if b = 0x8000 then { val := sval w (ovfCode .int w).code, narrow := (ovfCode .int w).narrow }
  else
    let x := rsh (b.toInt * ladder u) (23 + f - h)
    let (lo, hi) := intRange .int w
    { val := max lo (min hi x), sat := decide (x < lo ∨ hi < x) }

/-- The value of INT4 or INT8 code i as a base value: the IDENT codebook. -/
def identBase (big : Bool) (i : Nat) : BitVec 16 :=
  let n := if big then 8 else 4
  if isOvf .int n i then 0x8000 else BitVec.ofInt 16 (sval n i)

/-- Fill a bank's rows with the entries of a base; the flags are CB_SAT and NARROW_OVF. -/
def CbBank.fill (bank : CbBank) (w f h : Nat) (base : List (BitVec 16)) : CbBank × Bool × Bool :=
  let row := fun u => base.zipIdx.map (fun (b, i) => (256 * u + i, cbEntry w f h u b))
  let rows := (List.range 256).flatMap row
  let kept := bank.cells.filter (fun c => base.length ≤ c.1 % 256)
  let made := (rows.filter (fun r => r.2.val != 0)).map (fun r => (r.1, BitVec.ofInt 16 r.2.val))
  ({ cells := kept.foldl (fun l c => sins c.1 c.2 l) made, width := w, shift := h },
    rows.any (fun r => r.2.sat), rows.any (fun r => r.2.narrow))

/-- The real scale of a column: s2 2^(-h) through the store, s2 otherwise (06 Table 6-1). -/
def realScale (s : State) (p : Pid) (T : Tensor) (col : Nat) : Exact :=
  (bfExact (colScale s T col)).scale
    ⟨1, if T.coded then -((s.polders[p].qz.banks[T.cbank]).shift : Int) else 0⟩

/-- The entries that a group's codes name: (index, entry) in ascending index. -/
def rowEntries (s : State) (p : Pid) (T : Tensor) (u : Nat) : List (Nat × Int) :=
  let b := s.polders[p].qz.banks[T.cbank]
  (List.range (if T.width = 4 then 16 else 256)).map (fun i => (i, b.entry u i))

/-- The value of the element at an index taken back to the real value its scales give it (06 R112, R124): an element of a zero
group is 0 and one of a bad group an overflow code (06 R110, R111). -/
def elemReal (s : State) (p : Pid) (T : Tensor) (i : Ix) : Exact :=
  let c := T.code s i
  let col := T.colOf i
  if T.coded then
    let g := groupCode s T col i.i0
    let b := s.polders[p].qz.banks[T.cbank]
    let e := b.entry g.u c
    if g.u = 0 then .val ⟨0, 0⟩
    else if g.bad || entryOvf b.width e then .special
    else match realScale s p T col with
      | .val d => .val (d.mul (Dy.ofInt e))
      | .inf neg => if e = 0 then .special else .inf (neg != decide (e < 0))
      | .special => .special
  else match bfExact (colScale s T (if T.kind = .lg8 then 0 else col)) with
    | .val d => (codeExact T.kind T.width T.zp c).scale d
    | .inf neg => match codeExact T.kind T.width T.zp c with
      | .val x => if x.m = 0 then .special else .inf (neg != decide (x.m < 0))
      | .inf neg' => .inf (neg != neg')
      | .special => .special
    | .special => .special

/-! ### Mapping to an index (02 R35, 06 R115) -/

def Dy.sub (x y : Dy) : Dy := x.add y.neg

/-- The nearest of candidates in ascending index: a tie takes the lowest even index, else the lowest (02 R35). -/
def nearest (x : Dy) (l : List (Nat × Dy)) : Option (Nat × Dy) :=
  l.foldl (fun best c =>
    match best with
    | none => some c
    | some b =>
      let dc := (x.sub c.2).abs
      let db := (x.sub b.2).abs
      if dc.lt db || (dc.eq db && c.1 % 2 == 0 && b.1 % 2 == 1) then some c else best) none

/-- The index that takes a sentinel or NaN, and whether NARROW_OVF is set (02 R35). -/
def specialIndex (w : Nat) (l : List (Nat × Int)) : Nat × Bool :=
  match l.find? (fun e => entryOvf w e.2) with
  | some e => (e.1, false)
  | none =>
    let m := (l.map (·.2)).foldl max (-(2 ^ 15))
    (((l.find? (fun e => e.2 == m)).map (·.1)).getD 0, true)

/-- An index choice: the index, whether the element was clipped, and NARROW_OVF. -/
structure Pick where
  ix     : Nat
  clip   : Bool := false
  narrow : Bool := false
deriving DecidableEq, Repr

/-- The neighbour of x below and above among candidates, rounded stochastically: up when U lies below the fraction of the way
(06 R115, R128; DEDUCED, log entry 20). -/
def srNearest (x : Dy) (l : List (Nat × Dy)) (u : Nat) : Option (Nat × Dy) :=
  let below := (l.filter (fun c => !x.lt c.2)).map (·.2)
  let above := (l.filter (fun c => !c.2.lt x)).map (·.2)
  match below.foldl (fun b c => match b with | none => some c | some y => if y.lt c then some c else b) none,
        above.foldl (fun b c => match b with | none => some c | some y => if c.lt y then some c else b) none with
  | some lo, some hi =>
    if lo.eq hi then nearest lo l
    else
      let (_, n, d) := dyQuot (x.sub lo) (hi.sub lo)
      nearest (if u < n * 2 ^ 32 / d then hi else lo) l
  | some lo, none => nearest lo l
  | none, some hi => nearest hi l
  | none, none => none

/-- Map an exact value to an index of a row whose entries stand for `scale` times themselves (02 R35, 06 R115). R35 names no index
for an infinity: it takes the index nearest to the largest or the smallest real entry and counts as clipped (DESIGN CHOICE, log
entry 53). -/
def pickIndex (w : Nat) (entries : List (Nat × Int)) (scale : Dy) (x : Exact) (draw : Option Nat) : Pick :=
  let fin := (entries.filter (fun e => !entryOvf w e.2)).map (fun e => (e.1, scale.mul (Dy.ofInt e.2)))
  let top := fin.foldl (fun (b : Dy) e => if b.lt e.2 then e.2 else b) ((fin.head?.map (·.2)).getD ⟨0, 0⟩)
  let bot := fin.foldl (fun (b : Dy) e => if e.2.lt b then e.2 else b) ((fin.head?.map (·.2)).getD ⟨0, 0⟩)
  let none_ := let (i, f) := specialIndex w entries; ({ ix := i, narrow := f } : Pick)
  match x with
  | .special => none_
  | .inf neg =>
    match nearest (if neg then bot else top) fin with
    | some e => { ix := e.1, clip := true }
    | none => none_
  | .val x =>
    match (match draw with | some u => srNearest x fin u | none => nearest x fin) with
    | some e => { ix := e.1, clip := top.lt x.abs }
    | none => none_

/-! ### Surveys (06 R115) -/

/-- The largest magnitude of a group, rounded to BF16. -/
def groupMax (xs : List Exact) : BitVec 16 :=
  if xs.any (fun x => match x with | .inf _ => true | _ => false) then bfInf false
  else
    let m := xs.foldl (fun (b : Dy) x => match x with | .val y => if b.lt y.abs then y.abs else b | _ => b) ⟨0, 0⟩
    m.toBf false

/-- The root mean square of a group, rounded to BF16. -/
def groupRms (xs : List Exact) : BitVec 16 :=
  if xs.any (fun x => match x with | .inf _ => true | _ => false) then bfInf false
  else
    let vs := xs.filterMap (fun x => match x with | .val y => some y | _ => none)
    let q := vs.foldl (fun (b : Dy) y => b.add (y.mul y)) ⟨0, 0⟩
    if q.m = 0 then 0 else bfSqrtFrac q.frac.1 (q.frac.2 * vs.length)

/-- The limit of a group under a clip factor. -/
def groupLimit (kappa : BitVec 16) (xs : List Exact) : BitVec 16 :=
  if bfIsZero kappa then groupMax xs else bfMin (groupMax xs) (bfMul kappa (groupRms xs))

/-- The second-level scale of a line: its largest limit. -/
def lineScale (limits : List (BitVec 16)) : BitVec 16 :=
  match limits with
  | [] => 0
  | l :: t => t.foldl bfMax l

/-- The group code of a limit under its line's scale. For a limit or scale that is infinite or NaN the stored code is 255, the u of
a bad group (06 R111; DESIGN CHOICE, log entry 53). -/
def limitCode (limit s2 : BitVec 16) : GCode := if bfIsZero limit then { u := 0 } else scaleConv limit s2

end Sys2Proof.Machine
end

