-- ==== Sys2Proof/Machine/Qz.lean ====
section
/-! DEFINITION. The qz class (06 R113-R116, R124; 07 R142, R146, R147; 10 R233, R234, Tables 10-12, 10-13). -/

namespace Sys2Proof.Machine

open Host (Outcome)

/-! ### qz.cbk -/

/-- qz.cbk (06 R113, R114): fill a bank once no queued or running load names it. The conversions of the qz class set the flags of the
vector unit, EE_STATUS (02 R43; DEDUCED, log entry 52). -/
def execQzCbk (p : Pid) (f : Fields) (s : State) : Outcome State Fault Refusal :=
  issue p { level := 2, ra := .any, imm := 0xFFFF, checked := true } f s (fun t => do
    let bank : Fin 2 := Fin.ofNat 2 (f.imm.extractLsb' 0 1).toNat
    let big := f.imm.getLsbD 1
    let n := if big then 256 else 16
    let ident := f.imm.getLsbD 15
    let w := (f.imm.extractLsb' 10 5).toNat
    let h := (f.imm.extractLsb' 6 4).toNat
    let fs := if ident then 0 else (f.imm.extractLsb' 2 4).toNat
    let a := (t.sreg f.ra).toNat
    if !ident then
      need (a % 32 == 0) 0x0A a
      access s p false [(a, 2 * n)] [(a, 2 * n)]
    need (2 ≤ w && w ≤ 16) 0x0C f.ra.toNat
    if bankInUse s.polders[p] bank then Except.error (Stop.held s)
    else
      let base := (List.range n).map (fun i => if ident then identBase big i else BitVec.ofNat 16 (s.num (a + 2 * i) 2))
      let (b, sat, narrow) := (s.polders[p].qz.banks[bank]).fill w fs h base
      let s := (s.qzFlag p 2 sat).eeFlags p false narrow
      return s.onPolder p (fun P => { P with qz := { P.qz with banks := P.qz.banks.set bank.val b bank.isLt } }))

/-! ### qz.survey -/

/-- The columns of a tensor as outer indices. -/
def Tensor.colIx (T : Tensor) : List Ix := T.outer

/-- The unmasked elements of group g of a column of the source (06 R115). -/
def groupElems (s : State) (p : Pid) (A D : Tensor) (fill : Nat) (mask : BitVec 128) (o : Ix) (g : Nat) : List Exact :=
  ((List.range D.group).map (fun k => { o with i0 := g * D.group + k })).filterMap (fun i =>
    if A.has i && mask.getLsbD (i.i0 % 128) && A.live fill i && D.live fill i then some (elemReal s p A i) else none)

/-- What a survey finds of one column: its limits and its scale. -/
def surveyColumn (s : State) (p : Pid) (A D : Tensor) (fill : Nat) (mask : BitVec 128) (kappa : BitVec 16) (o : Ix) :
    List (BitVec 16) × BitVec 16 :=
  let ls := (List.range D.groups).map (fun g => groupLimit kappa (groupElems s p A D fill mask o g))
  (ls, lineScale ls)

/-- Write one column's limits, codes and scale, with the flags of the conversion (06 R111, R116). -/
def storeColumn (p : Pid) (D L : Tensor) (fill : Nat) (s : State) (o : Ix) (ls : List (BitVec 16)) (s2 : BitVec 16) : State :=
  let col := D.colOf o
  let gs := ls.map (fun l => limitCode l s2)
  let s := L.putRun fill s (col * D.groups) (ls.map BitVec.toNat)
  let s := s.putBytes (D.scales + col * D.groups) (gs.map (fun g => BitVec.ofNat 8 g.u))
  let s := s.putBytes (D.s2 + 2 * col) (leBytes 2 s2.toNat)
  (s.qzFlag p 0 (gs.any GCode.sat)).qzFlag p 1 (gs.any GCode.bad)

/-- qz.survey (06 R115, R116; 10 R233). -/
def execQzSurvey (p : Pid) (f : Fields) (s : State) : Outcome State Fault Refusal :=
  issue p { level := 2, rd := .desc, ra := .desc, rb := .desc, mask := true, imm := 0xFFFF, checked := true } f s (fun t => do
    let A ← readDesc s p t f.ra
    let L ← readDesc s p t f.rb
    let D ← readDesc s p t f.rd
    let mask := t.mreg f.mask
    let fill := t.fill.toNat
    let out := [(D.scales, D.groups * D.columns), (D.s2, 2 * D.columns)]
    checkParts s p (A.parts false ++ A.scaleParts ++ L.parts true ++ [(false, D.auxRun)] ++ out.map (fun r => (true, [r])))
    need (D.group != 0 && !D.streamed) 0x0C f.rd.toNat
    need (L.kind == .bf16) 0x0C f.rb.toNat
    need (sameShape A D) 0x14 f.ra.toNat
    need (L.e0 * L.e1 * L.e2 * L.e3 == D.groups * D.columns) 0x14 f.rb.toNat
    let live := (A.liveIx fill mask).filter (fun i => D.live fill i)
    gate s false (A.readSlots s live)
    gate s false (slotsOf A.scaleRuns)
    gate s true (L.lineSlots fill 1 (List.range (D.groups * D.columns)))
    gate s true (slotsOf out)
    let kappa := f.imm.setWidth 16
    let found := D.colIx.map (fun o => (o, surveyColumn s p A D fill mask kappa o))
    return found.foldl (fun s x => storeColumn p D L fill s x.1 x.2.1 x.2.2) s)

/-! ### qz.quant -/

/-- One element as the vector unit writes it: its code, the flags of 02 R43, whether it was clipped, drew, and took a free value. -/
structure QOut where
  code   : Nat
  sat    : Bool := false
  narrow : Bool := false
  clip   : Bool := false
  drew   : Bool := false
  freed  : Bool := false
deriving DecidableEq, Repr

/-- An exact value over a column unit, written to a format without a codebook (02 R39 steps 3 to 5, R40 to R42). `negZero` says
that a zero value is a BF16 zero with sign 1, which BF16 keeps (02 Table 2-4). -/
def plainOut (T : Tensor) (unit : Dy) (x : Exact) (negZero : Bool) (draw : Option Nat) : QOut :=
  let n := T.width
  match T.kind with
  | .int | .uint =>
    match x with
    | .special => let c := ovfCode T.kind n; { code := c.code, narrow := c.narrow, drew := draw.isSome }
    | .inf neg =>
      let (lo, hi) := intRange T.kind n
      { code := ((if neg then lo else hi) % (2 ^ n : Nat)).toNat, sat := true, clip := true, drew := draw.isSome }
    | .val y =>
      let (neg, a, b) := dyQuot y unit
      let c := toIntCode T.kind n n T.zp (some (fracSr neg a b draw))
      { code := c.code, sat := c.sat, clip := c.sat, drew := draw.isSome }
  | .int1 =>
    match x with
    | .special => { code := 1, narrow := true }
    | .inf neg => { code := if neg then 0 else 1 }
    | .val y => { code := if y.m ≠ 0 ∧ (decide (y.m < 0) != decide (unit.m < 0)) then 0 else 1 }
  | .lg8 =>
    match x with
    | .special => { code := 0x80 }
    | .inf neg => { code := if neg then 0xFF else 0x7F, sat := true, clip := true }
    | .val y => let (neg, a, b) := dyQuot y unit; let (c, f) := fracToLg neg a b; { code := c.toNat, sat := f, clip := f }
  | .bf16 =>
    match x with
    | .special => { code := bfNan.toNat }
    | .inf neg => { code := (bfInf neg).toNat }
    | .val y =>
      if y.m = 0 then { code := (bfZero (negZero != decide (unit.m < 0))).toNat }
      else let (neg, a, b) := dyQuot y unit; { code := (roundBf neg a b).toNat }
  | _ =>
    match x with
    | .val y => let (neg, a, b) := dyQuot y unit; { code := accCode (T.kind == .accx) (accOf (T.kind == .accx) (fracSr neg a b none)) }
    | _ => { code := accCode (T.kind == .accx) .sentinel }

/-- The code of one element for the destination (06 R115; 10 R233). A column scale that is no number, or a unit of 0, leaves
the code open: it is a free value (DESIGN CHOICE, log entry 3). -/
def quantElem (s : State) (p : Pid) (t : Task) (f : Fields) (D : Tensor) (x : Exact) (negZero : Bool) (i : Ix) : QOut :=
  let sr := f.w1.getLsbD 36
  let draw := if sr then some (s.drawU p (w1Gen f) (w1Sid f) (epochOf t) (D.linear i)) else none
  let open_ : QOut := { code := D.freeCode (Config.freeWord (s.freeIx + D.linear i)), freed := true }
  let col := D.colOf i
  if D.coded then
    let g := groupCode s D col i.i0
    let b := s.polders[p].qz.banks[D.cbank]
    match realScale s p D col with
    | .val d =>
      let es := rowEntries s p D g.u
      let k := pickIndex b.width es d (if g.bad then .special else x) draw
      { code := k.ix, narrow := k.narrow, clip := k.clip, drew := sr }
    | _ => open_
  else match bfExact (colScale s D (if D.kind = .lg8 then 0 else col)) with
    | .val d => if d.m = 0 then open_ else plainOut D d x negZero draw
    | _ => open_

/-- The order of magnitudes for the two kept of a group (07 R147): a masked place is least, a special greatest. -/
def magLt (a b : Option Exact) : Bool :=
  match a, b with
  | none, some _ => true
  | some (.val x), some (.val y) => x.abs.lt y.abs
  | some (.val _), some _ => true
  | some (.inf _), some .special => true
  | _, _ => false

/-- The two places of a group of four that plain 2:4 keeps, the lower first: the largest magnitudes, a tie to the lower place
(07 R147). -/
def keepTwo (l : List (Option Exact)) : Nat × Nat :=
  let best := fun (skip : Nat) => (List.range 4).foldl (fun (b : Option Nat) k =>
    if k = skip then b else match b with
    | none => some k
    | some j => if magLt ((l.getD j none)) ((l.getD k none)) then some k else b) none
  let a := (best 4).getD 0
  let c := (best a).getD 1
  (min a c, max a c)

/-- What qz.quant finds and writes: the exact source of an element, none where masked. -/
structure QuantJob where
  s    : State
  p    : Pid
  t    : Task
  f    : Fields
  A    : Tensor
  D    : Tensor
  mask : BitVec 128

/-- The source value of an element, none outside the tensor or where masked. -/
def QuantJob.src (j : QuantJob) (i : Ix) : Option Exact :=
  if j.D.has i && j.mask.getLsbD (i.i0 % 128) && j.A.live j.t.fill.toNat i && j.D.live j.t.fill.toNat i then
    some (elemReal j.s j.p j.A i) else none

/-- Whether the source holds a BF16 zero of sign 1 at an index; a subnormal code is a zero of its sign (02 R32). -/
def QuantJob.negZero (j : QuantJob) (i : Ix) : Bool :=
  let c := BitVec.ofNat 16 (j.A.code j.s i)
  j.A.kind == .bf16 && bfIsZero c && bfNeg c

/-- The element written at an index, none where masked. -/
def QuantJob.out (j : QuantJob) (i : Ix) : Option QOut :=
  (j.src i).map (fun x => quantElem j.s j.p j.t j.f j.D x (j.negZero i) i)

/-- The element written at an index of a form that keeps it: the code of zero where masked. -/
def QuantJob.kept (j : QuantJob) (i : Ix) : QOut := (j.out i).getD (quantElem j.s j.p j.t j.f j.D (.val ⟨0, 0⟩) false i)

/-- A place in memory and the bytes that go there, with the elements they hold. -/
abbrev QStore := Nat × List Byte × List QOut

/-- The stored tiles of a destination (07 R131-R136). -/
def QuantJob.tiles (j : QuantJob) : List QStore :=
  let D := j.D
  (List.range D.e3).flatMap (fun i3 => (List.range D.e2).flatMap (fun i2 =>
    (List.range ((D.e1 + D.tileM - 1) / D.tileM)).flatMap (fun r => (List.range D.segs).filterMap (fun g =>
      let rows := ((List.range D.tileM).map (· + r * D.tileM)).filter
        (fun i1 => i1 < D.e1 && j.A.live j.t.fill.toNat ⟨0, i1, i2, i3⟩ && D.live j.t.fill.toNat ⟨0, i1, i2, i3⟩)
      let cols := min 128 (D.e0 - 128 * g)
      let outs := rows.map (fun i1 => (List.range cols).map (fun c => j.out ⟨128 * g + c, i1, i2, i3⟩))
      if rows.isEmpty then none
      else some (D.tileAt ⟨128 * g, r * D.tileM, i2, i3⟩,
        (tileImage D cols (outs.map (fun r => r.map (fun o => o.map QOut.code)))).bytes,
        outs.flatMap (fun r => r.filterMap id))))))

/-- The 2:4 segments of a destination (07 R142). -/
def QuantJob.segments (j : QuantJob) : List QStore :=
  let D := j.D
  D.outer.flatMap (fun o => (List.range ((D.e0 + 127) / 128)).map (fun g =>
    let at_ := fun k => ({ o with i0 := 128 * g + k } : Ix)
    let pairs := (List.range 32).map (fun q => keepTwo ((List.range 4).map (fun k => j.src (at_ (4 * q + k)))))
    let kept := pairs.zipIdx.flatMap (fun (ab, q) => [at_ (4 * q + ab.1), at_ (4 * q + ab.2)])
    let outs := kept.map j.kept
    let planes := (List.range D.width).flatMap (fun b => leBytes 8 (packBits 1 (outs.map (fun o => o.code / 2 ^ b))))
    (D.unitAt (at_ 0), planes ++ leBytes 16 (packBits 4 (pairs.map (fun ab => ab.1 + 4 * ab.2))),
      kept.filterMap (fun i => if (j.src i).isSome then some (j.kept i) else none))))

/-- The transposable blocks of a destination under the masks given in block order (07 R146). -/
def QuantJob.blocks (j : QuantJob) (mask : Nat → BitVec 16) : List QStore :=
  let D := j.D
  let nb := (D.e0 + 3) / 4
  let nc := (D.e1 + 3) / 4
  (List.range D.e3).flatMap (fun i3 => (List.range D.e2).flatMap (fun i2 => (List.range nc).flatMap (fun cb =>
    (List.range nb).map (fun pb =>
      let m := mask (pb + nb * (cb + nc * (i2 + D.e2 * i3)))
      let kept := ((List.range 16).filter (fun k => m.getLsbD k)).map
        (fun k => (⟨4 * pb + k / 4, 4 * cb + k % 4, i2, i3⟩ : Ix))
      (D.unitAt ⟨4 * pb, 4 * cb, i2, i3⟩, leBytes 2 m.toNat ++ leBytes D.width (packBits D.width (kept.map (fun i => (j.kept i).code))),
        kept.filterMap (fun i => if (j.src i).isSome then some (j.kept i) else none))))))

/-- The masks of a mask tensor, one per block in block order. -/
def blockMasks (s : State) (M : Tensor) (k : Nat) : BitVec 16 := BitVec.ofNat 16 (M.code s (M.unlinear k))

/-- The number of blocks of a transposable tensor. -/
def Tensor.blockCount (D : Tensor) : Nat := (D.e0 + 3) / 4 * ((D.e1 + 3) / 4) * D.e2 * D.e3

/-- The checks of a transposable destination's mask tensor (07 R146, R147; 10 R233). -/
def checkMask (s : State) (p : Pid) (t : Task) (f : Fields) (D : Tensor) : Res (Nat → BitVec 16) := do
  if f.imm.getLsbD 0 then
    let M ← readDesc s p t f.rc
    checkParts s p (M.parts false)
    if D.form = 3 then
      need (M.kind == .int && M.entryW == 16 && M.e0 * M.e1 * M.e2 * M.e3 == D.blockCount) 0x0C f.rc.toNat
      gate s false (slotsOf M.runs)
      need ((List.range D.blockCount).all (fun k => maskOk (blockMasks s M k))) 0x11 f.rc.toNat
    return blockMasks s M
  else
    need (D.form != 3) 0x0C f.rd.toNat
    return fun _ => 0

/-- qz.quant (06 R115; 07 R130, R147; 10 R233). -/
def execQzQuant (p : Pid) (f : Fields) (s : State) : Outcome State Fault Refusal :=
  issue p { level := 2, long := true, rd := .desc, ra := .desc, rc := if f.imm.getLsbD 0 then .desc else .unused, mask := true,
            imm := 1, w1 := 0x1FFFFFFFFF, checked := true } f s (fun t => do
    let A ← readDesc s p t f.ra
    let D ← readDesc s p t f.rd
    checkParts s p (A.parts false ++ A.scaleParts ++ D.parts true ++ D.scaleParts)
    let masks ← checkMask s p t f D
    need (sameShape A D) 0x14 f.ra.toNat
    let mask := t.mreg f.mask
    let j : QuantJob := { s, p, t, f, A, D, mask }
    let live := (D.liveIx t.fill.toNat mask).filter (fun i => A.live t.fill.toNat i)
    gate s false (A.readSlots s live)
    gate s false (slotsOf (A.scaleRuns ++ D.scaleRuns))
    let stores : List QStore :=
      if D.form = 3 then j.blocks masks else if D.form = 2 then j.segments else if D.layout = 2 then j.tiles else []
    let plain := if 2 ≤ D.form ∨ D.layout = 2 then [] else live.filterMap (fun i => (j.out i).map (fun o => (i, o)))
    gate s true (slotsOf (stores.map (fun x => (x.1, x.2.1.length))
      ++ plain.flatMap (fun x => (D.putAt x.1).map (fun y => (y.1, 1)))))
    let outs := stores.flatMap (·.2.2) ++ plain.map (·.2)
    let s := stores.foldl (fun s x => s.putBytes x.1 x.2.1) s
    let s := plain.foldl (fun s x => D.put s x.1 x.2.code) s
    let s := s.claim p (w1Gen f) (w1Sid f) D.base (outs.filter QOut.drew).length
    let s := if outs.any QOut.freed then { s with freeIx := s.freeIx + D.e0 * D.columns } else s
    let s := s.eeFlags p (outs.any QOut.sat) (outs.any QOut.narrow)
    let (xs, xb) := streamFlags j.s A live
    let (ys, yb) := streamFlags j.s D live
    let s := (s.qzFlag p 0 (xs || ys)).qzFlag p 1 (xb || yb)
    return s.onPolder p (fun P => { P with qz := { P.qz with
      clipped := P.qz.clipped + BitVec.ofNat 64 (outs.filter QOut.clip).length,
      elements := P.qz.elements + BitVec.ofNat 64 outs.length } }))

/-! ### qz.opt (06 R124; 10 R234) -/

/-- The hyperparameter block of 10 Table 10-13. -/
structure Hyper where
  b1    : BitVec 16
  b2    : BitVec 16
  eps   : BitVec 16
  lr    : BitVec 16
  wd    : BitVec 16
  unitG : BitVec 16
deriving DecidableEq, Repr

def hyperAt (s : State) (a : Nat) : Hyper :=
  let h := fun k => BitVec.ofNat 16 (s.num (a + 2 * k) 2)
  ⟨h 0, h 1, h 2, h 3, h 4, h 5⟩

/-- 1 in BF16. -/
def bfOne : BitVec 16 := 0x3F80

/-- The square root of an LG8 code (10 R234): BF16 of 2^((E - 64) / 16), +0 from 0x00, NaN from 0x80; none for a code with
sign 1, whose root the manual does not state. -/
def lgRoot (c : BitVec 8) : Option (BitVec 16) :=
  if c = 0x80 then some bfNan
  else if c = 0 then some 0
  else if lgNeg c then none
  else let (n, d) := pow2Fix ((lgE c - 64) * 256) 0; some (roundBf false n d)

/-- An update of one parameter in BF16: the new m, the LG8 code of v with SAT (02 R42), and w (06 R124, 10 R234). `vUnit`
is the unit of v, `root` gives a root for a code the manual gives none. -/
def optStep (h : Hyper) (vUnit : BitVec 16) (root : BitVec 16) (g m v w : BitVec 16) :
    BitVec 16 × (BitVec 8 × Bool) × BitVec 16 :=
  let gr := bfMul g h.unitG
  let m' := bfAdd (bfMul h.b1 m) (bfMul (bfSub bfOne h.b1) gr)
  let v' := bfAdd (bfMul h.b2 v) (bfMul (bfMul (bfSub bfOne h.b2) gr) gr)
  let vc : BitVec 8 × Bool :=
    if bfIsNan v' || bfIsNan vUnit || bfIsZero vUnit || bfIsInf vUnit then (0x80, false)
    else if bfIsInf v' then (if bfNeg v' then 0xFF else 0x7F, true)
    else let (neg, a, b) := dyQuot (bfDy v') (bfDy vUnit); fracToLg neg a b
  let u := bfMul m' (bfRcp (bfAdd ((lgRoot vc.1).getD root) h.eps))
  (m', vc, bfSub w (bfMul h.lr (bfAdd u (bfMul h.wd w))))

/-- The four tensors of qz.opt. -/
structure OptTensors where
  w : Tensor
  g : Tensor
  m : Tensor
  v : Tensor

/-- Update the element at an index (06 R124); a gradient that holds the overflow code leaves it and counts. -/
def optElem (p : Pid) (t : Task) (f : Fields) (h : Hyper) (X : OptTensors) (s : State) (i : Ix) : State :=
  let gc := X.g.code s i
  if gc = 0x80 then
    (s.qzFlag p 5 true).onPolder p (fun P => { P with qz := { P.qz with gradOvf := P.qz.gradOvf + 1 } })
  else
    let col := X.m.colOf i
    let free := Config.freeWord s.freeIx
    let vUnit := colScale s X.v 0
    let gb := (codeExact .int 8 0 gc).toBf
    let (m', vc, w') := optStep h vUnit (free.setWidth 16) gb (elemReal s p X.m i).toBf (elemReal s p X.v i).toBf
      (elemReal s p X.w i).toBf
    let bank := s.polders[p].qz.banks[X.m.cbank]
    let u := groupCode s X.m col i.i0
    let mi : Pick := match realScale s p X.m col with
      | .val d => pickIndex bank.width (rowEntries s p X.m u.u) d (if u.bad then .special else bfExact m') none
      | _ => { ix := (free >>> 16).toNat % 256 }
    let draw := s.drawU p (w1Gen f) (w1Sid f) (epochOf t) (X.w.linear i)
    let wc : QOut := match bfExact (colScale s X.w (X.w.colOf i)) with
      | .val d => if d.m = 0 then { code := (free >>> 32).toNat % 65536 } else plainOut X.w d (bfExact w') false (some draw)
      | _ => { code := (free >>> 32).toNat % 65536 }
    let s := X.m.put s i mi.ix
    let s := X.v.put s i vc.1.toNat
    let s := X.w.put s i wc.code
    let s := (s.eeFlags p (vc.2 || wc.sat) (mi.narrow || wc.narrow)).qzFlag p 0 (X.m.streamed && u.sat)
    let s := s.qzFlag p 1 (X.m.streamed && u.bad)
    { s.claim p (w1Gen f) (w1Sid f) X.w.base 1 with freeIx := s.freeIx + 1 }

/-- qz.opt (06 R124; 10 R233, R234). -/
def execQzOpt (p : Pid) (f : Fields) (s : State) : Outcome State Fault Refusal :=
  issue p { level := 2, long := true, rd := .desc, ra := .desc, rb := .desc, rc := .desc, mask := true,
            w1 := 0x1FFFFFFFFFF, checked := true } f s (fun t => do
    let g ← readDesc s p t f.ra
    let m ← readDesc s p t f.rb
    let v ← readDesc s p t f.rc
    let w ← readDesc s p t f.rd
    let hr : BitVec 5 := f.w1.extractLsb' 36 5
    let a := (t.sreg hr).toNat
    checkParts s p ([g, m, v, w].flatMap (fun T => T.parts false ++ T.scaleParts) ++ [m, v, w].flatMap (fun T => T.parts true))
    need (a % 16 == 0) 0x0A a
    access s p false [(a, 16)] [(a, 16)]
    need (s.num (a + 12) 4 == 0) 0x0C hr.toNat
    need (w.kind == .int && w.entryW == 16 && w.form ≤ 1) 0x0C f.rd.toNat
    need (g.kind == .int && g.entryW == 8 && g.form ≤ 1) 0x0C f.ra.toNat
    need (m.kind == .cb8 && m.form ≤ 1) 0x0C f.rb.toNat
    need (v.kind == .lg8 && v.form ≤ 1) 0x0C f.rc.toNat
    need (sameShape g w) 0x14 f.ra.toNat
    need (sameShape m w) 0x14 f.rb.toNat
    need (sameShape v w) 0x14 f.rc.toNat
    let fill := t.fill.toNat
    let live := (w.liveIx fill (t.mreg f.mask)).filter (fun i => g.live fill i && m.live fill i && v.live fill i)
    gate s false (g.readSlots s live)
    gate s false (slotsOf ([g, m, v, w].flatMap Tensor.scaleRuns))
    gate s true (m.writeSlots live)
    gate s true (v.writeSlots live)
    gate s true (w.writeSlots live)
    return live.foldl (optElem p t f (hyperAt s a) ⟨w, g, m, v⟩) s)

end Sys2Proof.Machine
end

