-- ==== Sys2Proof/Machine/Sp.lean ====
section
/-! DEFINITION. The spillway (07 R148-R155) and the sp class (10 R235, Table 10-14), and the pw class's energy read and records
(10 R237, R238). -/

namespace Sys2Proof.Machine

open Host (Outcome)

/-! ### The table -/

/-- Change the spillway. -/
def State.onSpw (s : State) (p : Pid) (g : Spw → Spw) : State := s.onPolder p (fun P => { P with spw := g P.spw })

/-- The bucket of a key (07 R149). -/
def bucketOf (salt key : U32) : Nat := (((key ^^^ salt) * 0x9E3779B1).extractLsb' 19 13).toNat

/-- An update: a key with its value. -/
abbrev Update := U32 × Acc

/-- The record of a key and value (07 R151). -/
def recordBytes (k : U32) (v : Acc) : List Byte := leBytes 4 k.toNat ++ leBytes 4 0 ++ leBytes 8 (accCode true v)

/-- The place of a key in its bucket, and the value there. -/
def Spw.find (q : Spw) (k : U32) : Option (Nat × Acc) :=
  let b := bucketOf q.salt k
  ((q.cells.filter (fun c => c.1 / 8 == b)).find? (fun c => c.2.1 == k)).map (fun c => (c.1, c.2.2))

/-- The lowest free way of a bucket. -/
def Spw.freeWay (q : Spw) (b : Nat) : Option Nat :=
  ((List.range 8).map (8 * b + ·)).find? (fun x => !q.cells.any (fun c => c.1 == x))

/-- What one update does: the table after it, and the record it spills; none where it would append beyond the spill region
(07 R150, R151). A key of all ones is no update. -/
def Spw.step (q : Spw) (u : Update) : Option (Spw × Option (Nat × List Byte)) :=
  if u.1 = 0xFFFFFFFF then some ({ q with status := stick q.status 0 true }, none)
  else
    let q := { q with updates := q.updates + 1 }
    match q.find u.1 with
    | some (x, v) =>
      let v' := accAdd true v u.2
      some ({ q with cells := sins x (u.1, v') (q.cells.filter (fun c => c.1 != x)),
                     status := stick q.status 1 (v' == .sentinel && v != .sentinel) }, none)
    | none =>
      match q.freeWay (bucketOf q.salt u.1) with
      | some x =>
        some ({ q with cells := sins x u q.cells, count := q.count + 1, status := stick q.status 1 (u.2 == .sentinel) }, none)
      | none =>
        let off := 16 * q.spilled.toNat
        if q.regionLen < off + 16 then none
        else some ({ q with spilled := q.spilled + 1, spills := q.spills + 1, status := stick q.status 2 true },
          some (q.regionBase + off, recordBytes u.1 u.2))

/-- What a run of updates does, in order: the table, the records spilled, and the index of the update that met a full region,
with its lane or record number beside each update. -/
def Spw.run (q : Spw) : List (Nat × Update) → Spw × List (Nat × List Byte) × Option Nat
  | [] => (q, [], none)
  | (l, u) :: t =>
    match q.step u with
    | none => (q, [], some l)
    | some (q', r) =>
      let (q'', rs, bad) := q'.run t
      (q'', r.toList ++ rs, bad)

/-- The largest number of updates that fall in one bank (07 R149, R153). -/
def bankLoad (salt : U32) (us : List Update) : Nat :=
  ((List.range 16).map (fun b =>
    (us.filter (fun u => u.1 != 0xFFFFFFFF && bucketOf salt u.1 % 16 == b)).length)).foldl max 0

/-- Apply updates to the open spillway; `free` is the number of cycles without a conflict (07 R153). -/
def spApply (s : State) (p : Pid) (free : Nat) (us : List (Nat × Update)) : Res State := do
  let q := s.polders[p].spw
  let (q', rs, bad) := q.run us
  gate s true (slotsOf (rs.map (fun r => (r.1, 16))))
  let extra := bankLoad q.salt (us.map (·.2)) - free
  let s := s.onSpw p (fun _ => { q' with conflicts := q'.conflicts + BitVec.ofNat 64 extra })
  let s := rs.foldl (fun s r => s.putBytes r.1 r.2) s
  match bad with
  | some l => .error (.late s 0x12 (BitVec.ofNat 32 l))
  | none => return s

/-- The task must hold the spillway (10 R235). -/
def needSpw (s : State) (p : Pid) : Res Unit := need s.polders[p].spw.isOpen 0x05 (32 + p.val)

/-! ### The sp class -/

/-- sp.open (07 R148): a spillway that is open, or whose entry is held, is RESOURCE_HELD. A count of 0 is FORMAT_PARAM with the
number of the scalar register of the count as INFO (DESIGN CHOICE, log entry 46). -/
def execSpOpen (p : Pid) (f : Fields) (s : State) : Outcome State Fault Refusal :=
  issue p { level := 3, ra := .any, rb := .any, rc := .any, checked := true } f s (fun t => do
    let e := spillEntry p
    if s.owner e ≠ 0 ∨ s.polders[p].spw.isOpen then Except.error (Stop.late s.claimRefused 0x05 (BitVec.ofNat 32 e.val))
    else
      let slot := (t.sreg f.rb).toNat
      let n := (t.sreg f.rc).toNat
      let a := scratchAddr p (4096 * slot)
      let inside := slot + n ≤ 90112 && (bounds s.polders[p].terp.bnd).any (fun b => b.covers true a (4096 * n))
      need (n == 0 || inside) 0x09 (a % 2 ^ 32)
      need (n != 0) 0x0C f.rc.toNat
      return (s.setOwner e (progOwner t.stage.prog)).onSpw p (fun q =>
        { q with isOpen := true, cells := [], salt := (t.sreg f.ra).setWidth 32, count := 0, spilled := 0,
                 regionBase := a, regionLen := 4096 * n }))

/-- A value lane of sp.add, widened exactly (07 R150): INT16, or ACC32 over a vector pair. -/
def spValue (t : Task) (f : Fields) (l : Nat) : Acc :=
  if f.imm.getLsbD 0 then accRead false (pairLane t f.rb l)
  else let x := lane (t.vreg f.rb) l; if x = 0x8000 then .sentinel else .val x.toInt

/-- sp.add (07 R150, R151). -/
def execSpAdd (p : Pid) (f : Fields) (s : State) : Outcome State Fault Refusal :=
  issue p { level := 3, ra := .pair, rb := if f.imm.getLsbD 0 then .pair else .any, mask := true, imm := 1, checked := true } f s (fun t => do
    needSpw s p
    let mask := t.mreg f.mask
    let us := ((List.range 128).filter (fun l => mask.getLsbD l)).map
      (fun l => (l, BitVec.ofNat 32 (pairLane t f.ra l), spValue t f l))
    spApply s p 8 us)

/-- sp.flush (07 R152): records in ascending bucket and way; the count goes to sRD and the spillway closes. A region too small
changes nothing (09 R204), with the first record that does not fit as INFO. -/
def execSpFlush (p : Pid) (f : Fields) (s : State) : Outcome State Fault Refusal :=
  issue p { level := 3, rd := .any, ra := .any, rb := .any, checked := true } f s (fun t => do
    needSpw s p
    let a := (t.sreg f.ra).toNat
    let n := (t.sreg f.rb).toNat
    let cells := s.polders[p].spw.cells
    need (a % 16 == 0) 0x0A a
    checkRuns s p true [(a, n)]
    need (16 * cells.length ≤ n) 0x12 (n / 16)
    gate s true (slotsOf [(a, 16 * cells.length)])
    let s := s.putBytes a (cells.flatMap (fun c => recordBytes c.2.1 c.2.2))
    let s := (s.onSpw p (fun q => { q with isOpen := false, cells := [] })).freeEntry (spillEntry p) (progOwner t.stage.prog)
    return s.onTask p (fun t => t.setS f.rd (BitVec.ofNat 64 cells.length)))

/-- The record at an address as an update (07 R151). -/
def recordAt (s : State) (a : Nat) : Update := (BitVec.ofNat 32 (s.num a 4), accRead true (s.num (a + 8) 8))

/-- sp.merge (07 R152): the records of a region in order, as lanes of sp.add. A region that overlaps the spill region is
FORMAT_PARAM with the number of the scalar register of its address as INFO (DESIGN CHOICE, log entry 46). -/
def execSpMerge (p : Pid) (f : Fields) (s : State) : Outcome State Fault Refusal :=
  issue p { level := 3, ra := .any, rb := .any, checked := true } f s (fun t => do
    needSpw s p
    let a := (t.sreg f.ra).toNat
    let n := (t.sreg f.rb).toNat
    let q := s.polders[p].spw
    need (a % 16 == 0) 0x0A a
    checkRuns s p false [(a, 16 * n)]
    need (n == 0 || a + 16 * n ≤ q.regionBase || q.regionBase + q.regionLen ≤ a) 0x0C f.ra.toNat
    gate s false (slotsOf [(a, 16 * n)])
    spApply s p ((n + 15) / 16) ((List.range n).map (fun k => (k, recordAt s (a + 16 * k)))))

end Sys2Proof.Machine
end

