-- ==== Sys2Proof/Machine/Load.lean ====
section
/-! DEFINITION. Weight loads (03 R44, R47, R61; 04 R67-R70; 06 R110-R114; 07 R140-R147; 10 R225, R226). -/

namespace Sys2Proof.Machine

open Host (Outcome)

/-! ### The weights of a load -/

/-- Whether a tensor is read transposed (07 R146). -/
def Tensor.transposed (T : Tensor) : Bool := T.orient && T.form == 3

/-- Reduction positions of a weight tensor. -/
def Tensor.redExt (T : Tensor) : Nat := if T.transposed then T.e1 else T.e0

/-- Columns of a weight tensor. -/
def Tensor.colExt (T : Tensor) : Nat := if T.transposed then T.e0 else T.e1

/-- The place of a reduction position of a column. -/
def Tensor.weightIx (T : Tensor) (pos col : Nat) : Ix := if T.transposed then ⟨col, pos, 0, 0⟩ else ⟨pos, col, 0, 0⟩

/-- The bytes of positions k0 to k0 + len - 1 of row r that lie inside the tensor (10 R218). -/
def Tensor.span (T : Tensor) (k0 len r : Nat) : List Run :=
  let hi := min (k0 + len) T.e0
  let n := T.width
  if hi ≤ k0 then []
  else if T.form = 2 then [(T.unitAt ⟨k0, r, 0, 0⟩, ((hi + 127) / 128 - k0 / 128) * T.unitBytes)]
  else if T.form = 3 then [(T.unitAt ⟨k0, r, 0, 0⟩, ((hi + 3) / 4 - k0 / 4) * T.unitBytes)]
  else if T.layout = 2 then
    (List.range ((hi + 127) / 128 - k0 / 128)).map (fun g => (T.tileAt ⟨128 * (k0 / 128 + g), r, 0, 0⟩, 8 + 16 * n * T.tileM))
  else
    let row := T.rowAt ⟨0, r, 0, 0⟩
    if T.layout = 1 then [(row + 32 * n * (k0 / 256), 32 * n * ((hi + 255) / 256 - k0 / 256))]
    else if T.zstride0 then [(row, (n + 7) / 8)]
    else [(row + n * k0 / 8, (n * hi + 7) / 8 - n * k0 / 8)]

/-- The bytes of positions k0 to k0 + len - 1 of row r that a consumer waits for: of a stored tile the header, then the LEN bytes
that the header gives (07 R131). -/
def Tensor.need (s : State) (T : Tensor) (k0 len r : Nat) : List Run :=
  if T.form ≤ 1 ∧ T.layout = 2 then (T.span k0 len r).flatMap (fun x => T.tileRuns s x.1) else T.span k0 len r

/-- The bytes of the weights of a load, by the bytes of a span of a row of the tensor. -/
def weightSpans (span : Nat → Nat → Nat → List Run) (T : Tensor) (k0 klen c0 ncols : Nat) : List Run :=
  if T.transposed then ((List.range klen).filter (fun k => k0 + k < T.e1)).flatMap (fun k => span c0 ncols (k0 + k))
  else ((List.range ncols).filter (fun c => c0 + c < T.e1)).flatMap (fun c => span k0 klen (c0 + c))

/-- The bytes that the weights of a load may lie in. -/
def weightRuns (T : Tensor) (k0 klen c0 ncols : Nat) : List Run := weightSpans T.span T k0 klen c0 ncols

/-- The bytes of the weights that a load waits for. -/
def weightNeeds (s : State) (T : Tensor) (k0 klen c0 ncols : Nat) : List Run := weightSpans (T.need s) T k0 klen c0 ncols

/-- The place of a group's code or scale among those of its tensor (06 R110, R111). -/
def Tensor.groupAt (T : Tensor) (col pos : Nat) : Nat := col * ((T.redExt + T.group - 1) / T.group) + pos / T.group

/-- The columns of a load whose groups the loader reads. -/
def groupCols (T : Tensor) (k0 klen c0 ncols : Nat) : List Nat :=
  if T.group = 0 ∨ min (k0 + klen) T.redExt ≤ k0 then [] else ((List.range ncols).map (c0 + ·)).filter (· < T.colExt)

/-- The bytes of the group codes or streamed scales of a load (06 R111). -/
def codeRunsOf (T : Tensor) (k0 klen c0 ncols : Nat) : List Run :=
  let b := if T.streamed then 2 else 1
  (groupCols T k0 klen c0 ncols).map (fun c =>
    (T.scales + b * T.groupAt c k0, b * ((min (k0 + klen) T.redExt - 1) / T.group - k0 / T.group + 1)))

/-- The bytes of the s2 values of a load (06 R111). -/
def s2RunsOf (T : Tensor) (k0 klen c0 ncols : Nat) : List Run :=
  if T.s2 = 0 then [] else (groupCols T k0 klen c0 ncols).map (fun c => (T.s2 + 2 * c, 2))

/-- The accesses of a load (10 R226). -/
def loadParts (T : Tensor) (k0 klen c0 ncols : Nat) : List Part :=
  [(false, T.auxRun), (false, weightRuns T k0 klen c0 ncols), (false, codeRunsOf T k0 klen c0 ncols),
   (false, s2RunsOf T k0 klen c0 ncols)]

/-- The group code at a position of a column, as the loader reads it. -/
def loadGroup (s : State) (T : Tensor) (col pos : Nat) : GCode :=
  if T.group = 0 then { u := 255 }
  else
    let g := T.groupAt col pos
    if T.streamed then scaleConv (BitVec.ofNat 16 (s.num (T.scales + 2 * g) 2)) (colScale s T col)
    else { u := (s.byte (T.scales + g)).toNat }

/-- The width of the operand that a tensor loads as (04 R68, 06 R112, R113). -/
def loadWidth (s : State) (p : Pid) (T : Tensor) : Nat :=
  match T.kind with
  | .cb4 | .cb8 => T.entryW
  | .int => if T.group = 0 then T.width else (s.polders[p].qz.banks[T.cbank]).width
  | _ => T.width

/-- Whether a position is dropped by a 2:4 form (07 R142, R146). -/
def dropped (s : State) (T : Tensor) (i : Ix) : Bool :=
  if T.form = 2 then (code24 s T i).isNone else if T.form = 3 then (codeT24 s T i).isNone else false

/-- The operand of a position of a column as the array reads it, and whether it holds the overflow code (03 R61; 06 R108,
R110, R112): a signed value, the raw code of UINT and LG8, +1 or -1 for INT1; a dropped position is 0. -/
def loadOperand (s : State) (p : Pid) (T : Tensor) (w pos col : Nat) : Int × Bool :=
  let i := T.weightIx pos col
  let c := T.code s i
  if dropped s T i then (0, false)
  else if T.coded then
    let g := loadGroup s T col pos
    if g.u = 0 then (0, false)
    else if g.bad then (0, true)
    else
      let e := ((s.polders[p].qz.banks[T.cbank]).entry g.u c % (2 ^ w : Nat)).toNat
      (sval w e, isOvf .int w e)
  else match T.kind with
    | .int => (sval T.width c, isOvf .int T.width c)
    | .int1 => (if c = 0 then -1 else 1, false)
    | k => (c, isOvf k T.width c)

/-- The unmasked positions of a load. -/
def LoadReq.valid (r : LoadReq) (T : Tensor) : Nat := min r.klen (T.redExt - r.k0)

/-- The unmasked columns of a load. -/
def LoadReq.columns (r : LoadReq) (T : Tensor) : Nat := min r.ncols (T.colExt - r.c0)

/-- The group conversions of a load: whether one saturated, and whether one was bad (06 R111). -/
def loadConvs (s : State) (r : LoadReq) : Bool × Bool :=
  let T := tensor r.desc r.side
  if T.group == 0 || !T.streamed then (false, false)
  else
    let gs := (List.range (r.columns T)).flatMap (fun c =>
      (List.range (r.valid T)).map (fun k => loadGroup s T (r.c0 + c) (r.k0 + k)))
    (gs.any GCode.sat, gs.any GCode.bad)

/-- The operands that a load writes: per unmasked column its operand at every unmasked position, and whether that holds the
overflow code (03 R44, R47). -/
def loadColumns (s : State) (p : Pid) (r : LoadReq) : List (List (Int × Bool)) :=
  let T := tensor r.desc r.side
  (List.range (r.columns T)).map (fun c =>
    (List.range (r.valid T)).map (fun k => loadOperand s p T r.w (r.k0 + k) (r.c0 + c)))

/-- The bits of an operand that a latch half holds: all of a narrow load's, the low or the high 8 planes of a wide one (04 R68).
INT1 holds 1 for +1. -/
def halfBits (w : Nat) (int1 : Bool) (h : Fin 2) (x : Int) : Nat :=
  let c := if int1 then (if x = 1 then 1 else 0) else (x % (2 ^ w : Nat)).toNat
  if w ≤ 8 then c else if h = 0 then c % 256 else c / 256

/-- What a load writes into latch half h (04 R67-R69). -/
def latchOf (s : State) (p : Pid) (r : LoadReq) (h : Fin 2) : Latch :=
  let cols := loadColumns s p r
  let int1 := (tensor r.desc r.side).kind == .int1
  let (sat, bad) := loadConvs s r
  { load := r, bits := cols.map (fun l => l.map (fun x => halfBits r.w int1 h x.1)),
    sums := cols.map (fun l => (l.map (·.1)).sum), ovf := cols.map (fun l => l.any (·.2)), sat, bad }

/-- Whether the stored form of a load's weights holds (07 R132, R142, R146, R147). -/
def sparseOk (s : State) (r : LoadReq) : Bool :=
  let T := tensor r.desc r.side
  let ixs := (List.range (r.columns T)).flatMap (fun c => (List.range (r.valid T)).map (fun k => T.weightIx (r.k0 + k) (r.c0 + c)))
  if T.form = 2 then
    !T.orient && ixs.all (fun i => let (a, b) := pairOf s T (T.unitAt i) (i.i0 % 128 / 4); a < b)
  else if T.form = 3 then ixs.all (fun i => maskOk (blockMask s (T.unitAt i)))
  else if T.layout = 2 then ixs.all (fun i => (tileHdr s (T.tileAt i)).ok s T (T.tileAt i))
  else true

/-! ### mm.ld (10 R226) -/

/-- The columns of a load from stored tiles start at a row 128b of a stored tile (07 R140). -/
def expandable (T : Tensor) (c0 : Nat) : Bool := T.layout != 2 || c0 % T.tileM % 128 == 0

/-- The first run that does not lie in the polder's own scratchpad. -/
def outsideOwn (p : Pid) (rs : List Run) : Option Run :=
  rs.find? (fun r => match place r.1 with | .scratch q off => q != p || scratchBytes < off + r.2 | _ => true)

/-- Whether a load occupies both latch halves (04 R68). -/
def LoadReq.wide (r : LoadReq) : Bool := 8 < r.w

def execMmLd (p : Pid) (f : Fields) (s : State) : Outcome State Fault Refusal :=
  issue p { long := true, ra := .desc, rb := .any, rc := .any, imm := 1, w1 := 0xFFFFFF } f s (fun t => do
    let T ← readDesc s p t f.ra
    let k0 := (t.sreg f.rb).toNat
    let c0 := (t.sreg f.rc).toNat
    let klen := (f.w1.extractLsb' 0 17).toNat
    let ncols := (f.w1.extractLsb' 17 7).toNat + 1
    let rs := weightRuns T k0 klen c0 ncols ++ codeRunsOf T k0 klen c0 ncols ++ s2RunsOf T k0 klen c0 ncols
    checkParts s p (loadParts T k0 klen c0 ncols)
    need (T.kind != .bf16 && T.kind != .acc32 && T.kind != .accx) 0x0D 0
    match outsideOwn p rs with
    | some r => Except.error (.fault 0x07 (BitVec.ofNat 32 r.1))
    | none => Except.ok ()
    let two4 := 2 ≤ T.form
    let most := if two4 then 65536 else 32768
    need (1 ≤ klen && klen ≤ most && k0 < T.redExt && c0 < T.colExt && expandable T c0) 0x0C
      f.ra.toNat
    need (two4 || k0 % 256 == 0) 0x0A k0
    need (!two4 || k0 % 512 == 0) 0x10 0
    if 4 ≤ s.polders[p].arr.loads.length then Except.error (Stop.held s)
    else
      let half := Fin.ofNat 2 f.imm.toNat
      let d := t.dreg (dnum f.ra)
      let r : LoadReq := { id := s.polders[p].arr.nextLoad, pc := t.pc, dreg := f.ra, desc := d, side := sideOf s d, k0, klen,
                           c0, ncols, half, w := loadWidth s p T }
      let s := s.onPolder p (fun P => { P with arr := { P.arr with nextLoad := P.arr.nextLoad + 1, loads := P.arr.loads ++ [r] } })
      let both := fun (l : Vector (Option LoadReq) 2) =>
        if r.wide then Vector.replicate 2 (some r) else l.set half.val (some r) half.isLt
      return s.onTask p (fun t => { t with loaded := both t.loaded }))

/-! ### The latch loader (04 R69, R70) -/

/-- Whether a queued pass still has to read planes that a load writes (04 R70). -/
def blocksLoad (r : LoadReq) (q : PassReq) : Bool :=
  decide (q.load.id < r.id) && (r.wide || q.load.wide || q.half == r.half)

/-- The load at the head of the queue starts once the planes it writes are free (04 R70). -/
def execWeightLoadStart (p : Pid) (s : State) : Outcome State Fault Refusal := whenArith s fun s =>
  let A := s.polders[p].arr
  match A.loads with
  | [] => .next s
  | r :: rest =>
    if A.loading.isSome || A.passes.any (blocksLoad r) then .next s
    else .next (s.onPolder p (fun P => { P with arr := { P.arr with loads := rest, loading := some r } }))

/-- The loader has written every plane of its load: lookup and overflow check are done, and a form that does not hold faults
(03 R61, 04 R69, 07 R132). It waits on the tags of the slots it reads (11 R250). Where a loaded weight does not agree with the
residue of its codebook entry, `e.upset`, the loader writes its planes again, which counts as a replay (17 R395, R398; DEDUCED,
log entry 49). -/
def execWeightLoadDone (e : CheckedEnd) (s : State) : Outcome State Fault Refusal := whenArith s fun s =>
  match s.polders[e.p].arr.loading with
  | none => .next s
  | some r =>
    let T := tensor r.desc r.side
    match gate s false (slotsOf (weightNeeds s T r.k0 r.klen r.c0 r.ncols ++ codeRunsOf T r.k0 r.klen r.c0 r.ncols
      ++ s2RunsOf T r.k0 r.klen r.c0 r.ncols)) with
    | .error (.held s') => .next s'
    | .error _ => .next s
    | .ok () =>
      if !sparseOk s r then .next (s.taskFaultAt e.p r.pc 0x11 (r.dreg.setWidth 32))
      else if e.upset && T.coded then .next (s.taskReplay e.p)
      else
        let L := latchOf s e.p r r.half
        let put : Vector (Option Latch) 2 → Vector (Option Latch) 2 := fun l =>
          if r.wide then #v[some (latchOf s e.p r 0), some (latchOf s e.p r 1)] else l.set r.half.val (some L) r.half.isLt
        let s := ((s.qzFlag e.p 0 L.sat).qzFlag e.p 1 L.bad).bpeFlag e.p 1 (L.ovf.any id)
        .next (s.onPolder e.p (fun P => { P with arr := { P.arr with loading := none, latches := put P.arr.latches } }))

end Sys2Proof.Machine
end

