-- ==== Sys2Proof/Machine/Pass.lean ====
section
/-! DEFINITION. Passes (03 R45-R60; 04 R71-R86; 05 R95-R98; 10 R227-R229): the queueing of a pass, its checks at the head of the
queue, the sums it adds to its frame, the retirement of a group and the swap of the sump sets. -/

namespace Sys2Proof.Machine

open Host (Outcome)

/-! ### The tile parameter block (10 Table 10-8) -/

/-- Whether the fields of a tile parameter block lie in their ranges, the clamp width and the conversion shift aside. -/
def tpbOk (s : State) (a : Nat) : Bool :=
  let b := fun k => (s.byte (a + k)).toNat
  let mvec := b 11 % 2 == 1
  let maddr := s.num (a + 16) 8
  b 4 ≤ 63 && b 5 ≤ 1 && b 6 ≤ 15 && b 10 ≤ 46 && b 11 < 4 && b 12 < 16 && s.num (a + 13) 3 == 0 && s.num (a + 28) 4 == 0
  && (if mvec then maddr % 64 == 0 else maddr == 0)

/-- The tile parameter block at an address; the multipliers come from M or from the vector at MADDR (06 R107). -/
def tpbAt (s : State) (a : Nat) : Tpb :=
  let b := fun k => (s.byte (a + k)).toNat
  let maddr := s.num (a + 16) 8
  { shift := b 4, accX := b 5 = 1, chain := Fin.ofNat 16 (b 6), nc := b 7, budget := BitVec.ofNat 16 (s.num (a + 8) 2),
    sigma := b 10, sr := b 11 / 2 % 2 = 1, gen := BitVec.ofNat 4 (b 12), sid := BitVec.ofNat 32 (s.num (a + 24) 4),
    mult := (List.range 128).map (fun j => if b 11 % 2 = 1 then s.num (maddr + 4 * j) 4 else s.num a 4) }

/-! ### mm.bp (10 R227, R228) -/

/-- The path of a pair of formats, if it is legal (02 R37). -/
def pairPath (w a : Tensor) : Option Path :=
  let isInt := fun (k : Kind) => k == .int || k == .uint || k == .cb4 || k == .cb8
  if w.kind = .int1 ∧ a.kind = .int1 then some .xnor
  else if w.kind = .lg8 ∧ a.kind = .lg8 then some .logPath
  else if isInt w.kind && (a.kind == .int || a.kind == .uint) then some .bitPlane
  else none

/-- Whether a legal pair may run as its parameters ask: the log path takes ACCX and no 2:4 form (05 R95). -/
def pathOk (path : Path) (w : Tensor) (accX : Bool) : Bool := path != .logPath || (accX && w.form ≤ 1)

/-- Whether an output's survey runs along its columns: its descriptor is read transposed (06 R116; DEDUCED, log entry 21). -/
def surveysColumns (T : Tensor) : Bool := T.coded && T.group != 0 && T.orient

/-- The bytes of the row headers of positions k0 to k0 + len - 1 of a row. -/
def Tensor.hdrSpan (T : Tensor) (k0 len r : Nat) : List Run :=
  let hi := min (k0 + len) T.e0
  if T.hdr = 0 ∨ hi ≤ k0 then [] else [(T.hdrAt ⟨0, r, 0, 0⟩ (k0 / 128), 4 * ((hi + 127) / 128 - k0 / 128))]

/-- Whether the array walks the planes of an activation by its row headers: on the XNOR and log paths headers take no part
(03 R48, 05 R95). -/
def Tensor.walked (T : Tensor) : Bool := T.kind == .int || T.kind == .uint

/-- The rows of a tile that lie inside a tensor. -/
def tileRows (T : Tensor) (r0 m : Nat) : List Nat := (List.range (min m (T.e1 - r0))).map (r0 + ·)

/-- The place of a survey line's first group code, and of its s2, for an output tile at (row, c0) (06 R116; DEDUCED, log entry 21). -/
def surveyCodes (T : Tensor) (m r0 c0 line : Nat) : Nat × Nat :=
  if T.orient then
    let col := c0 + line
    (T.scales + col * ((T.e1 + T.group - 1) / T.group) + r0 / T.group, T.s2 + 2 * (col * ((T.e1 + m - 1) / m) + r0 / m))
  else
    let row := r0 + line
    (T.scales + row * T.groups + c0 / T.group, T.s2 + 2 * (row * T.segs + c0 / 128))

/-- The lines that an output tile's survey makes. -/
def surveyLines (T : Tensor) (m r0 c0 ncols : Nat) : Nat :=
  if !T.coded || T.group == 0 then 0 else if T.orient then min ncols (T.e0 - c0) else min m (T.e1 - r0)

/-- The group codes of a line of an output tile. -/
def surveyPer (T : Tensor) (m c0 ncols : Nat) : Nat :=
  if T.orient then (m + T.group - 1) / T.group else (min ncols (T.e0 - c0) + T.group - 1) / T.group

/-- The accesses in which an output tile is written: its elements, its row headers, and the codes and scales of its survey. -/
def outParts (T : Tensor) (m r0 c0 ncols : Nat) : List Part :=
  let lines := List.range (surveyLines T m r0 c0 ncols)
  [(true, (tileRows T r0 m).flatMap (T.span c0 ncols)), (true, (tileRows T r0 m).flatMap (T.hdrSpan c0 ncols)),
   (true, lines.map (fun l => ((surveyCodes T m r0 c0 l).1, surveyPer T m c0 ncols))),
   (true, lines.map (fun l => ((surveyCodes T m r0 c0 l).2, 2)))]

/-- The accesses in which the activations of a pass are read: their elements and, where the planes are walked, their headers. -/
def actParts (A : Tensor) (m r0 k0 klen : Nat) : List Part :=
  [(false, (tileRows A r0 m).flatMap (A.span k0 klen)),
   (false, if A.walked then (tileRows A r0 m).flatMap (A.hdrSpan k0 klen) else [])]

def execMmBp (p : Pid) (f : Fields) (s : State) : Outcome State Fault Refusal :=
  issue p { long := true, rd := .desc, ra := .desc, rb := .any, rc := .any, imm := 0x3F, w1 := 0xFFFFFFFFFFFFFF } f s
    (fun t => do
      let half : Fin 2 := Fin.ofNat 2 f.imm.toNat
      let m := (f.w1.extractLsb' 44 12).toNat + 1
      let r0 := (t.sreg f.rb).toNat
      let a := (t.sreg f.rc).toNat
      match t.loaded[half] with
      | none => Except.error (Stop.fault 0x0C 0xFFFFFFFF)
      | some ld =>
        let W := tensor ld.desc ld.side
        let A ← readDesc s p t f.ra
        let D ← readDesc s p t f.rd
        checkParts s p ([(false, A.auxRun), (false, D.auxRun)] ++ actParts A m r0 ld.k0 ld.klen ++ outParts D m r0 ld.c0 ld.ncols)
        need (a % 32 == 0) 0x0A a
        access s p false [(a, 32)] [(a, 32)]
        need (tpbOk s a) 0x0C f.rc.toNat
        let maddr := s.num (a + 16) 8
        if (s.byte (a + 11)).getLsbD 0 then access s p false [(maddr, 512)] [(maddr, 512)]
        let b := tpbAt s a
        let clamps := D.kind == .int || D.kind == .uint || D.kind == .int1
        need ((!clamps || (1 ≤ b.nc && b.nc ≤ D.width)) && (A.kind == .lg8 || b.sigma == 0)) 0x0C f.rc.toNat
        match pairPath W A with
        | none => Except.error (Stop.fault 0x0D 0)
        | some path =>
          need (pathOk path W b.accX) 0x0D 0
          need (!surveysColumns D || m % D.group == 0) 0x0C f.rd.toNat
          need (D.layout != 2 || (r0 % D.tileM == 0 && m ≤ D.tileM)) 0x0C f.rd.toNat
          need (ld.c0 % 128 == 0) 0x0C f.rd.toNat
          need (min W.redExt (ld.k0 + ld.klen) ≤ A.e0) 0x0C f.ra.toNat
          if 4 ≤ s.polders[p].arr.passes.length then Except.error (Stop.held s)
          else
            let od := t.dreg (dnum f.rd)
            let ad := t.dreg (dnum f.ra)
            let q : PassReq :=
              { pc := t.pc, outReg := f.rd, actReg := f.ra, outD := od, outSide := sideOf s od, act := ad, actSide := sideOf s ad,
                load := ld, half, close := f.imm.getLsbD 1, trunc := (f.imm.extractLsb' 2 4).toNat, m,
                chunks := (f.w1.extractLsb' 28 16).toNat, chunk := (f.w1.extractLsb' 12 16).toNat,
                frame := (f.w1.extractLsb' 0 12).toNat, r0, tpb := b, epoch := epochOf t }
            return s.onPolder p (fun P => { P with arr := { P.arr with passes := P.arr.passes ++ [q] } }))

/-- mm.fence: the task waits until its array work is done and visible (10 R229). -/
def execMmFence (p : Pid) (f : Fields) (s : State) : Outcome State Fault Refusal :=
  issueTo p {} f s (fun t => do
    if arrayIdle s.polders[p] then return (s, t.pc + 8)
    else Except.error (Stop.held (s.onTask p (fun t => { t with wait := some ⟨.fence, s.tb⟩ }))))

/-! ### The record of a pass (04 R77) -/

/-- The rows of a pass outside the row predicate: those below the activation's EXT1 and, for a FILLED activation of rank 2,
below the fill count (09 R200, 12 R273). -/
def liveRows (A : Tensor) (fill r0 m : Nat) : Nat :=
  min m ((if A.filled ∧ A.rank = 2 then min A.e1 fill else A.e1) - r0)

/-- The parameter record that a pass would latch. -/
def recOf (s : State) (p : Pid) (t : Task) (q : PassReq) : TileRec :=
  let W := tensor q.load.desc q.load.side
  let A := tensor q.act q.actSide
  let B := s.polders[p].bpe
  let c := s.polders[p].ee.chains[q.tpb.chain]
  { path := (pairPath W A).getD .bitPlane, wKind := (descKind q.load.desc).toNat, wWidth := q.load.w,
    aKind := (descKind q.act).toNat, aWidth := A.width, two4 := 2 ≤ W.form, tpb := q.tpb, trunc := q.trunc,
    zw := W.zp, za := A.zp, outD := q.outD, outSide := q.outSide, live := liveRows A t.fill.toNat q.r0 q.m,
    ncols := q.load.columns W, epoch := q.epoch, skipEn := B.ctl.getLsbD 0, truncOff := B.ctl.getLsbD 1,
    masks := c.stages.toList.map (fun w => t.mreg (stMask w)), m := q.m, chunks := q.chunks, r0 := q.r0, c0 := q.load.c0 }

/-- Whether two output descriptors name one format: WIDTH counts where the kind uses it (09 Table 9-5). -/
def sameFormat (A B : Tensor) : Bool :=
  A.kind == B.kind && A.width == B.width && (!(A.kind == .cb4 || A.kind == .cb8) || A.entryW == B.entryW) && A.zp == B.zp

/-- Whether the compared fields of 04 Table 4-5 agree. On the log path T has no effect and is not compared (05 R95). Of the output
descriptor the format and the zero point are compared; the place the tile goes to is the one that chunk 0 named, whatever a later
chunk's descriptor names (DESIGN CHOICE, log entry 43). -/
def sameRec (a b : TileRec) : Bool :=
  a.path == b.path && a.wKind == b.wKind && a.wWidth == b.wWidth && a.aKind == b.aKind && a.aWidth == b.aWidth
  && a.two4 == b.two4 && a.tpb == b.tpb && (a.path == .logPath || a.trunc == b.trunc) && a.zw == b.zw && a.za == b.za
  && a.epoch == b.epoch && sameFormat (tensor a.outD a.outSide) (tensor b.outD b.outSide) && a.live == b.live
  && a.ncols == b.ncols

/-! ### The checks at the head of the queue (04 Table 4-4, 08 R173, R185) -/

/-- The frame of a group at an index. -/
def Group.frame (g : Group) (k : Nat) : Option SumpFrame := (g.frames.find? (fun x => x.1 == k)).map (·.2)

/-- Entries per column and set (04 Table 4-3). -/
def sumpEntries (accX : Bool) : Nat := if accX then 2048 else 4096

/-- The first check of 04 Table 4-4 that fails, with its fault code. -/
def passCheck (g : Option Group) (q : PassReq) (r : TileRec) : Option (Byte × Nat) :=
  let x := q.tpb.accX
  let e := sumpEntries x
  let fs : List (Nat × SumpFrame) := match g with | some g => g.frames | none => []
  let mine := (fs.find? (fun y => y.1 == q.frame)).map (·.2)
  let others := fs.filter (fun y => y.1 != q.frame)
  let gAcc := match g with | some g => g.accX == x && g.m == q.m | none => true
  if e < q.m then some (0x0F, 1)
  else if e / q.m ≤ q.frame then some (0x0F, 2)
  else if q.chunks = 0 ∨ q.chunks ≤ q.chunk then some (0x10, 3)
  else if q.chunk = 0 ∧ mine.isSome then some (0x10, 4)
  else if q.chunk != 0 && !(match mine with
      | some F => F.done == q.chunk && F.tile.chunks == q.chunks && F.tile.m == q.m
      | none => false) then some (0x10, 5)
  else if q.chunk != 0 && !(match mine with | some F => sameRec F.tile r | none => false) then some (0x0E, 6)
  else if q.chunk == 0 && !others.isEmpty && !gAcc then some (0x10, 7)
  else if q.close && (q.chunk + 1 != q.chunks || others.any (fun y => y.2.done != y.2.tile.chunks)) then some (0x10, 8)
  else none

/-- Whether a micro-program reads the column broadcast. -/
def readsCb (ws : List U32) : Bool := ws.any (fun w => muA w == 5 || muB w == 5 || muC w == 5)

/-- Whether a chain number names a chain: entry 0 without stages names none (08 R172). -/
def namesChain (E : Ee) (n : Fin 16) : Bool := !(n == 0 && (E.chains[n]).count == 0)

/-- The chain and tap checks of a chunk-0 pass (08 R173, R185), with the fault's code and INFO. -/
def chainCheck (s : State) (p : Pid) (q : PassReq) : Option (Byte × Nat) :=
  let E := s.polders[p].ee
  let c := E.chains[q.tpb.chain]
  let bad := c.live.findIdx? (fun w =>
    stOp w == 0x3F && ((E.uprogs[stUprog w]).isEmpty || (!c.cbEn && readsCb E.uprogs[stUprog w])))
  match bad with
  | some k => some (0x13, k)
  | none =>
    let cb := tensor c.cbDesc (sideOf s c.cbDesc)
    let tap := tensor c.tapDesc (sideOf s c.tapDesc)
    if !namesChain E q.tpb.chain then none
    else if c.cbEn && decide (cb.e0 < q.r0 + q.m) then some (0x15, 0)
    else if c.tapEn && (decide (tap.e1 < q.r0 + q.m) || decide (tap.e0 < 32 * (q.load.c0 / 128 + 1))) then some (0x15, 0)
    else none

/-! ### The activation rows (03 R51-R57) -/

/-- The fields of a row's combined headers over the load's unmasked positions (03 R53): OVF, ZERO and P. -/
structure RowHdr where
  ovf  : Bool
  zero : Bool
  p    : Nat
deriving DecidableEq, Repr

/-- The combined header of row r over positions k0 to k0 + n - 1; a row of a stored tile at or beyond ROWS takes ZERO = 1
(03 R53, 07 R132). -/
def rowHdr (s : State) (A : Tensor) (r k0 n : Nat) : RowHdr :=
  let segs := (List.range ((k0 + n + 127) / 128 - k0 / 128)).map (· + k0 / 128)
  let one := fun g =>
    if A.layout = 2 ∧ (tileHdr s (A.tileAt ⟨128 * g, r, 0, 0⟩)).rows ≤ r % A.tileM then (⟨false, true, 0⟩ : RowHdr)
    else
      let h := s.num (A.hdrAt ⟨0, r, 0, 0⟩ g) 4
      ⟨h.testBit 7, h.testBit 6, h % 32⟩
  let hs := if n = 0 then [] else segs.map one
  ⟨hs.any RowHdr.ovf, hs.all RowHdr.zero, (hs.map RowHdr.p).foldl max 0⟩

/-- How a row is walked (03 R54): a null cycle, which may make the row the sentinel, or a number of planes, the detector's
verdict and HDR_CLAMP. -/
inductive Walk where
  | null (sentinel : Bool)
  | planes (n : Nat) (sentinel clamp declared : Bool)
deriving DecidableEq, Repr

/-- The walk of a row of an a-plane activation (03 R54, R56). -/
def walkOf (skip : Bool) (hdr : Option RowHdr) (a : Nat) (marked : Bool) : Walk :=
  match hdr with
  | none => .planes a marked false true
  | some h =>
    if !skip then .planes a (marked || h.ovf) false true
    else if h.ovf then .null true
    else if h.zero ∨ h.p = 0 then .null false
    else .planes (min h.p a) false (decide (a < h.p)) false

/-! ### Plane pairs (03 R45, R46, R49, R59) -/

/-- Whether truncation drops pair (p, q) of a walk of P planes (03 R59). -/
def truncated (T P w : Nat) (wInt aInt : Bool) (p q : Nat) : Bool :=
  p + q < T && !(wInt && q == w - 1) && !(aInt && p == P - 1) && !(p == P - 1 && q == w - 1)

/-- The plane pairs of a walk in issue order (03 R49). -/
def pairOrder (P w : Nat) : List (Nat × Nat) :=
  (List.range P).reverse.flatMap (fun p => (List.range w).reverse.map (fun q => (p, q)))

/-- The significance of a pair (03 Table 3-1). -/
def significance (P w : Nat) (wInt aInt : Bool) (p q : Nat) : Int :=
  if (wInt && q == w - 1) != (aInt && p == P - 1) then -(2 ^ (p + q) : Int) else 2 ^ (p + q)

/-- Positions of a chunk that one PE row covers: its 256 lanes, or twice as many in 2:4 mode (03 R44, 07 R143). -/
def pePositions (two4 : Bool) : Nat := if two4 then 512 else 256

/-- A list cut into pieces of n, at most `fuel` of them. -/
def pieces {α : Type} (n : Nat) : Nat → List α → List (List α)
  | 0, _ => []
  | fuel + 1, l => if l.isEmpty then [] else l.take n :: pieces n fuel (l.drop n)

/-- The lanes of a list of lane pairs where activation plane p and weight plane q are both 1: c of 03 R45. -/
def popBoth (p q : Nat) (l : List (Nat × Nat)) : Nat := (l.filter (fun x => x.1.testBit p && x.2.testBit q)).length

/-- The counts c[r][j] of the PE rows of one column (03 R45). -/
def pePops (two4 : Bool) (p q : Nat) (a ws : List Nat) : List Nat :=
  let l := a.zip ws
  (pieces (pePositions two4) l.length l).map (popBoth p q)

/-- The column sum S[j] of a pair (03 R45): the counts of the PE rows, times the significance. -/
def pairSum (sig : Int) (pops : List Nat) : Int := (pops.map (fun (c : Nat) => (c : Int) * sig)).sum

/-! ### Residues mod 7 (03 R62) -/

/-- A value mod 7. -/
def res7 (x : Int) : Nat := (x % 7).toNat

/-- The residue of a significance of magnitude 2^k: 1, 2 or 4, and 7 less that where it is negative (03 Table 3-5). -/
def sigRes (neg : Bool) (k : Nat) : Nat :=
  let r := match k % 3 with | 0 => 1 | 1 => 2 | _ => 4
  if neg then 7 - r else r

/-- The residue that the column tree carries: the sum over the PE rows of (c mod 7) times the significance's residue (CP2). -/
def carriedRes (sr : Nat) (pops : List Nat) : Nat := (pops.map (fun c => c % 7 * sr)).sum % 7

/-- The sum of an activation row as it is walked (06 R109): its codes over P planes, the top one negative for INT. Every plane
of the walk counts as read, also one all of whose pairs truncation drops (DESIGN CHOICE, log entry 44). -/
def walkedSum (P : Nat) (aInt : Bool) (a : List Nat) : Int :=
  (a.map (fun c => let x := c % 2 ^ P; if aInt then sval P x else (x : Int))).sum

/-! ### What a pass adds (04 R83, 05 R96) -/

def PassCounts.add (a b : PassCounts) : PassCounts :=
  { issued := a.issued + b.issued, skipped := a.skipped + b.skipped, trunc := a.trunc + b.trunc,
    products := a.products + b.products, cheap := a.cheap + b.cheap, rowOvf := a.rowOvf || b.rowOvf, clamp := a.clamp || b.clamp,
    colOvf := a.colOvf || b.colOvf, scaleSat := a.scaleSat || b.scaleSat, scaleBad := a.scaleBad || b.scaleBad,
    born := a.born || b.born, logBorn := a.logBorn || b.logBorn }

/-- Everything a pass needs of its operands: the operand of every column and position as the latches hold it, the sums C_j of
its load and its overflow marks, the record of its frame, its own first row, the chunk's depth on the log path (05 R98), and the
transient error that strikes it. -/
structure PassEnv where
  s     : State
  cols  : List (List Nat)
  sums  : List Int
  ovf   : List Bool
  k0    : Nat
  W     : Tensor
  A     : Tensor
  r     : TileRec
  r0    : Nat
  valid : Nat
  depth : Nat
  slip  : Option Slip

/-- The threshold in force (03 R59). -/
def PassEnv.T (e : PassEnv) : Nat := if e.r.truncOff then 0 else e.r.trunc
def PassEnv.wInt (e : PassEnv) : Bool := e.W.kind != .uint
def PassEnv.aInt (e : PassEnv) : Bool := e.A.kind == .int

/-- Pairs that truncation drops from a walk of P planes: D_T of 03 R57. -/
def PassEnv.drops (e : PassEnv) (P : Nat) : Nat :=
  ((pairOrder P e.r.wWidth).filter (fun (p, q) => truncated e.T P e.r.wWidth e.wInt e.aInt p q)).length

/-- The codes of an activation row over the unmasked positions. -/
def PassEnv.row (e : PassEnv) (i : Nat) : List Nat :=
  (List.range e.valid).map (fun k => e.A.code e.s ⟨e.k0 + k, e.r0 + i, 0, 0⟩)

/-- The walk of row i (03 R54). -/
def PassEnv.walk (e : PassEnv) (i : Nat) (a : List Nat) : Walk :=
  walkOf e.r.skipEn
    (if e.A.hdr = 0 then none else some (rowHdr e.s e.A (e.r0 + i) e.k0 e.valid)) e.A.width
    (a.any (fun c => isOvf e.A.kind e.A.width c))

/-- The pairs that a walk of P planes issues, in order (03 R49, R59). -/
def PassEnv.pairs (e : PassEnv) (P : Nat) : List (Nat × Nat) :=
  (pairOrder P e.r.wWidth).filter (fun (p, q) => !truncated e.T P e.r.wWidth e.wInt e.aInt p q)

/-- The transient error that strikes a row and column. -/
def PassEnv.slipAt (e : PassEnv) (i j : Nat) : Option Slip := e.slip.filter (fun x => x.row == i && x.col == j)

/-- How far the column sum of issue cycle c is off where an error strikes it, the pair's significance given (03 R45). -/
def slipSum (x : Option Slip) (sig : Int) (c : Nat) : Int :=
  match x with
  | none => 0
  | some x => if x.cycle != c then 0 else match x.point with
    | .popcount _ => x.delta * sig
    | .tree => x.delta
    | _ => 0

/-- An add of a column sum into an entry and its residue register; the sentinel voids the register (03 R62 CP3, R63). -/
def addEntry (accX : Bool) (x : Acc × Nat) (S : Int) : Acc × Nat :=
  match accAdd accX x.1 (.val S) with
  | .val v => (.val v, (x.2 + res7 S) % 7)
  | .sentinel => (.sentinel, 0)

/-- The adds of a walk into an entry, pair by pair (04 Table 4-7). -/
def PassEnv.addPairs (e : PassEnv) (P : Nat) (a ws : List Nat) (x : Option Slip) (v : Acc × Nat) : Acc × Nat :=
  (e.pairs P).zipIdx.foldl (fun v pq =>
    let (p, q) := pq.1
    let sig := significance P e.r.wWidth e.wInt e.aInt p q
    addEntry e.r.tpb.accX v (pairSum sig (pePops e.r.two4 p q a ws) + slipSum x sig pq.2)) v

/-- The column sum of an XNOR row (03 R48): the terms 2 c - n over the unmasked positions. -/
def xnorSum (a ws : List Nat) : Int :=
  let l := a.zip ws
  2 * ((l.filter (fun x => x.1 % 2 == x.2 % 2)).length : Int) - l.length

/-- The terms P and N of a row and column of the log path, and the number of products that entered them (05 R89-R91). -/
def logTerms (a ws : List Nat) : List (LogAcc × LogAcc) × Nat :=
  let ts := (a.zip ws).map (fun (x, y) => lgTerm (BitVec.ofNat 8 x) (BitVec.ofNat 8 y))
  (ts, (ts.filter (fun t => t != (.empty, .empty))).length)

/-- A log accumulator whose magnitude is off. -/
def LogAcc.off (a : LogAcc) (d : Int) : LogAcc :=
  match a with
  | .fin l => .fin (l + d)
  | x => x

/-- The terms of a row and column with the product that an error strikes off by its amount. -/
def slipTerms (x : Option Slip) (ts : List (LogAcc × LogAcc)) : List (LogAcc × LogAcc) :=
  match x with
  | some ⟨.product, _, _, k, d⟩ => ts.zipIdx.map (fun (t, i) => if i = k then (t.1.off d, t.2.off d) else t)
  | _ => ts

/-- A log entry after a row's terms (05 R96, R98) of a chunk that leaves them at a depth, and the cheap adds that took. -/
def addLog (p n : LogAcc) (d depth : Nat) (ts : List (LogAcc × LogAcc)) (x : Option Slip) : Entry × Nat :=
  let (y, c1) := logTree (ts.map (·.1))
  let (z, c2) := logTree (ts.map (·.2))
  let off := fun (neg : Bool) => match x with | some ⟨.merge m, _, _, _, dl⟩ => if m == neg then dl else 0 | _ => 0
  (.pair ((logAdd p y).off (off false)) ((logAdd n z).off (off true)) (if y == .empty && z == .empty then d else max d depth),
    c1 + c2 + (if logCheap p y then 1 else 0) + (if logCheap n z then 1 else 0))

/-- An entry that has become the sentinel. -/
def Entry.dead (e : Entry) : Bool :=
  match e with
  | .acc x _ => x == .sentinel
  | .pair p n _ => p == .sentinel || n == .sentinel

/-- One entry after a row of a pass (04 Table 4-7, 05 R96; 03 R56, R61), with the products and cheap adds of a log entry. -/
def PassEnv.entry (e : PassEnv) (w : Walk) (a : List Nat) (i j : Nat) (x : Entry) : Entry × Nat × Nat :=
  let ws := e.cols.getD j []
  let colOvf := e.ovf.getD j false
  let slip := e.slipAt i j
  let add := fun (v : Acc × Nat) => (Entry.acc v.1 v.2, 0, 0)
  match e.r.path, x with
  | .logPath, .pair p n d =>
    let (ts, k) := logTerms a ws
    let (y, c) := addLog p n d e.depth (slipTerms slip ts) slip
    (if colOvf then .pair .sentinel .sentinel (max d e.depth) else y, k, c)
  | .xnor, .acc v r => add (addEntry e.r.tpb.accX (v, r) (xnorSum a ws + slipSum slip 2 0))
  | .bitPlane, .acc v r =>
    match w with
    | .null sent => add (if sent || colOvf then (.sentinel, 0) else addEntry e.r.tpb.accX (v, r) 0)
    | .planes P sent _ _ => add (if sent || colOvf then (.sentinel, 0) else e.addPairs P a ws slip (v, r))
  | _, y => (y, 0, 0)

/-- Whether the check of a log product holds: L mod 7 against the residue adder on the codes (05 CPL1). -/
def productHolds (a b : BitVec 8) (l : Int) : Bool := res7 l == 512 % 7 * res7 (lgE a + lgE b - 128) % 7

/-- Whether the checks of an addition to a log entry hold: residues on the table path, the duplicate on the cheap one (05 CPL2). -/
def mergeHolds (x y : LogAcc) (d : Int) : Bool :=
  match x, y with
  | .fin _, .fin _ => if logCheap x y then d == 0 else d % 7 == 0
  | _, _ => d == 0

/-- Whether a check point of the pass disagrees at the place that the error strikes (03 R62, R63; 05 R103). Everywhere else the
two sides of each check agree. -/
def PassEnv.caught (e : PassEnv) (F : SumpFrame) : Bool :=
  match e.slip with
  | none => false
  | some x =>
    match (F.rows.getD x.row [])[x.col]? with
    | none => false
    | some y =>
      let a := e.row x.row
      let ws := e.cols.getD x.col []
      let bits := fun (sr : Nat) (sig : Int) (pops : List Nat) => match x.point with
        | .popcount r => match pops[r]? with
          | some c => res7 (c + x.delta) != c % 7
          | none => false
        | .tree => res7 (pairSum sig pops + x.delta) != carriedRes sr pops
        | .detector => true
        | _ => false
      match e.r.path, y with
      | .logPath, .pair p n _ =>
        let ts := (logTerms a ws).1
        match x.point with
        | .product => match a[x.cycle]?, ws[x.cycle]?, ts[x.cycle]? with
          | some u, some v, some t => match t.1, t.2 with
            | .fin l, _ => !productHolds (BitVec.ofNat 8 u) (BitVec.ofNat 8 v) (l + x.delta)
            | _, .fin l => !productHolds (BitVec.ofNat 8 u) (BitVec.ofNat 8 v) (l + x.delta)
            | _, _ => false
          | _, _, _ => false
        | .merge neg =>
          !mergeHolds (if neg then n else p) (logTree (ts.map (fun t => if neg then t.2 else t.1))).1 x.delta
        | _ => false
      | .xnor, .acc _ _ =>
        let l := a.zip ws
        let eq := (pieces 256 l.length l).map (fun k => (k.filter (fun z => z.1 % 2 == z.2 % 2)).length)
        match x.point with
        | .popcount r => match eq[r]? with | some c => res7 (c + x.delta) != c % 7 | none => false
        | .tree => res7 (xnorSum a ws + x.delta) != res7 (2 * (eq.sum : Int) - l.length)
        | .detector => true
        | _ => false
      | .bitPlane, .acc _ _ =>
        match e.walk x.row a with
        | .null _ => x.point == .detector
        | .planes P _ _ _ => match (e.pairs P)[x.cycle]? with
          | none => false
          | some (p, q) =>
            let sig := significance P e.r.wWidth e.wInt e.aInt p q
            bits (sigRes (decide (sig < 0)) (p + q)) sig (pePops e.r.two4 p q a ws)
      | _, _ => false

/-- The issue cycles of a row: under the row predicate, on the XNOR path and walked (03 Table 3-4). -/
def PassEnv.cost (e : PassEnv) (w : Option Walk) : PassCounts :=
  let n := e.r.wWidth
  let a := e.A.width
  match e.r.path, w with
  | .xnor, _ => { issued := 1 }
  | .logPath, _ => {}
  | _, none => { issued := n * a - e.drops a, trunc := e.drops a }
  | _, some (.null sent) => { issued := 1, skipped := n * a, rowOvf := sent }
  | _, some (.planes P sent clamp declared) =>
    { issued := n * P - e.drops P, trunc := e.drops P, skipped := if declared then 0 else n * a - n * P, rowOvf := sent, clamp }

/-- A row of a pass: its new entries, its share of R_i and what it counts. -/
def PassEnv.stepRow (e : PassEnv) (i : Nat) (es : List Entry) : List Entry × Int × PassCounts :=
  let a := e.row i
  let w := e.walk i a
  let outs := es.zipIdx.map (fun (x, j) => e.entry w a i j x)
  let sum := match w with
    | .null _ => 0
    | .planes P _ _ _ => walkedSum P e.aInt a
  let c := e.cost (some w)
  let born := (outs.zip es).any (fun (y, x) => y.1.dead && !x.dead)
  (outs.map (·.1), if e.r.path = .bitPlane then sum else 0,
    { c with products := (outs.map (·.2.1)).sum, cheap := (outs.map (·.2.2)).sum, born, logBorn := born && e.r.path == .logPath })

/-- What the rows of a pass give, in order. -/
def PassEnv.steps (e : PassEnv) (F : SumpFrame) : List (List Entry × Int × PassCounts) :=
  F.rows.zipIdx.map (fun (es, i) => e.stepRow i es)

/-- What issuing the first n rows of a pass counts. -/
def PassEnv.countTo (e : PassEnv) (F : SumpFrame) (n : Nat) : PassCounts :=
  ((((e.steps F).map (·.2.2)) ++ List.replicate (e.r.m - F.rows.length) (e.cost none)).take n).foldl PassCounts.add {}

/-- A frame after a pass (04 R83; 06 R109; 05 R98), and what the pass counts. -/
def PassEnv.run (e : PassEnv) (F : SumpFrame) : SumpFrame × PassCounts :=
  let rows := e.steps F
  ({ F with
      done := F.done + 1, rows := rows.map (·.1),
      rowSum := (F.rowSum.zip (rows.map (·.2.1))).map (fun (x, y) => x + y),
      colSum := (F.colSum.zip e.sums).map (fun (x, y) => x + y), kU := F.kU + e.valid },
    e.countTo F e.r.m)

/-- A fresh frame (04 R76). -/
def newFrame (r : TileRec) : SumpFrame :=
  let z : Entry := if r.path = .logPath then .pair .empty .empty 0 else .acc (.val 0) 0
  { tile := r, done := 0, rows := List.replicate r.live (List.replicate r.ncols z), rowSum := List.replicate r.live 0,
    colSum := List.replicate r.ncols 0, kU := 0 }

/-- Whether the stored tiles that a pass reads hold (07 R132). -/
def actTilesOk (s : State) (A : Tensor) (k0 n r0 live : Nat) : Bool :=
  A.layout != 2 || (List.range live).all (fun i => (List.range ((k0 + n + 127) / 128 - k0 / 128)).all (fun g =>
    let a := A.tileAt ⟨128 * (k0 / 128 + g), r0 + i, 0, 0⟩
    n == 0 || (tileHdr s a).ok s A a))

/-- Put a frame in its place in a group. -/
def putFrame (k : Nat) (F : SumpFrame) (fs : List (Nat × SumpFrame)) : List (Nat × SumpFrame) :=
  (fs.filter (fun x => x.1 < k)) ++ [(k, F)] ++ fs.filter (fun x => k < x.1)

/-- Add what issuing rows counts and flags to its polder (03 R65, R66; 04 R86; 05 R104; 06 R129). -/
def State.passCounts (s : State) (p : Pid) (c : PassCounts) : State :=
  let s := ((s.bpeFlag p 0 c.rowOvf).bpeFlag p 2 c.clamp).bpeFlag p 1 c.colOvf
  let s := ((s.qzFlag p 0 c.scaleSat).qzFlag p 1 c.scaleBad).logFlag p 0 c.logBorn
  s.onPolder p (fun P =>
    { P with
      bpe := { P.bpe with
        issued := P.bpe.issued + BitVec.ofNat 64 c.issued, skipped := P.bpe.skipped + BitVec.ofNat 64 c.skipped,
        trunc := P.bpe.trunc + BitVec.ofNat 64 c.trunc, ran := true },
      sump := { P.sump with ovfSeen := P.sump.ovfSeen || c.born },
      logb := { P.logb with
        products := P.logb.products + BitVec.ofNat 64 c.products, cheap := P.logb.cheap + BitVec.ofNat 64 c.cheap } })

/-- The activation bytes that the live rows of a pass wait for. -/
def actRuns (s : State) (A : Tensor) (k0 n r0 live : Nat) : List Run :=
  (List.range live).flatMap (fun i => A.need s k0 n (r0 + i))

/-- A replay of a group (04 R82, 17 R398): it counts for the task and its site, and the work of the passes it reissues, with the
loads they need, counts and flags again. -/
def State.replayGroup (s : State) (p : Pid) (work : PassCounts) : State :=
  (s.taskReplay p).passCounts p work

/-- The operand of every column and position as the latch halves hold it (04 R67, R68): a narrow load's half, or both halves of a
wide one, whichever loads wrote them last. -/
def latchedOperands (l : Vector (Option Latch) 2) (half : Fin 2) (r : LoadReq) (columns valid : Nat) : List (List Nat) :=
  let at_ := fun (h : Fin 2) c k => match l[h] with | some L => (L.bits.getD c []).getD k 0 | none => 0
  (List.range columns).map (fun c => (List.range valid).map (fun k =>
    if r.wide then at_ 0 c k % 256 + 256 * at_ 1 c k else at_ half c k))

/-- What a pass works on once its load is in the latches: the record is that of its frame. -/
def passEnv (s : State) (l : Vector (Option Latch) 2) (L : Latch) (q : PassReq) (r : TileRec) (slip : Option Slip) : PassEnv :=
  let W := tensor q.load.desc q.load.side
  let valid := q.load.valid W
  { s, cols := latchedOperands l q.half q.load (q.load.columns W) valid, sums := L.sums, ovf := L.ovf, k0 := q.load.k0, W,
    A := tensor q.act q.actSide, r, r0 := q.r0, valid, depth := clog2 q.load.klen + r.chunks - max q.chunk 1, slip }

/-- The pass at the head of the queue (04 R75, R83): its checks, its record, and every sum it adds. It waits while the array stalls
(04 R72, R79), for its load and for the tags of the rows it reads; the groups before it may still await their swap (04 R75). Where a
check point disagrees, the rows issued so far were in vain and the group replays: its passes, this one included, count again
and their sums are the same bits (03 R63, 04 R82; the replay runs within this step, log entry 23). Past REPLAY_MAX the site
fails (17 R398). -/
def execPassStart (p : Pid) (slip : Option Slip) (s : State) : Outcome State Fault Refusal := whenArith s fun s =>
  let P := s.polders[p]
  match P.arr.passes, P.task with
  | q :: rest, some t =>
    match P.arr.latches[q.half] with
    | none => .next s
    | some L =>
      if L.load.id ≠ q.load.id ∨ P.sump.wait then .next s
      else
        let A := tensor q.act q.actSide
        let r0 := recOf s p t q
        match passCheck P.sump.opened q r0 with
        | some (c, i) => .next (s.taskFaultAt p q.pc c (BitVec.ofNat 32 i))
        | none =>
          match (if q.chunk = 0 then chainCheck s p q else none) with
          | some (c, i) => .next (s.taskFaultAt p q.pc c (BitVec.ofNat 32 i))
          | none =>
            let F := ((P.sump.opened.bind (Group.frame · q.frame))).getD (newFrame r0)
            let e := passEnv s P.arr.latches L q F.tile slip
            match gate s false (slotsOf (actRuns s A e.k0 e.valid q.r0 F.tile.live)) with
            | .error (.held s') => .next s'
            | .error _ => .next s
            | .ok () =>
              if !actTilesOk s A e.k0 e.valid q.r0 F.tile.live then .next (s.taskFaultAt p q.pc 0x11 (q.actReg.setWidth 32))
              else
                let g : Group := P.sump.opened.getD { accX := q.tpb.accX, m := q.m, serial := P.sump.groups, frames := [] }
                let caught := e.caught F
                let clean := if caught then { e with slip := none } else e
                let (F', c) := clean.run F
                let load : PassCounts := { colOvf := L.ovf.any id, scaleSat := L.sat, scaleBad := L.bad }
                let work := (g.work.add load).add c
                let vain := e.countTo F ((slip.map (·.row + 1)).getD 0)
                if caught && s.replayLimit g.replays then .next ((s.passCounts p vain).hardFail p)
                else
                  let g := { g with
                    frames := putFrame q.frame F' g.frames, work, replays := g.replays + (if caught then 1 else 0) }
                  let s := if caught then (s.passCounts p vain).replayGroup p work else s.passCounts p c
                  .next (s.onPolder p (fun P =>
                    { P with
                      arr := { P.arr with passes := rest },
                      sump := { P.sump with
                        groups := P.sump.groups + (if P.sump.opened.isNone then 1 else 0),
                        opened := if q.close then none else some g,
                        closed := if q.close then P.sump.closed ++ [g] else P.sump.closed } }))
  | _, _ => .next s

/-! ### Retirement and swap (04 R79) -/

/-- The last product of the first closed group retires; the swap is then due, and the array stalls while the shadow set is not
clean (04 R79). -/
def execLastProductRetire (p : Pid) (s : State) : Outcome State Fault Refusal := whenArith s fun s =>
  if !s.polders[p].sump.closed.isEmpty && !s.polders[p].sump.retired then
    .next (s.onPolder p (fun P => { P with sump := { P.sump with
      retired := true, wait := P.sump.shadow.isSome, waited := P.sump.waited || P.sump.shadow.isSome } }))
  else .next s

/-- The first unmasked row at or after row i of frame k of a group; none when the set is clean (04 R80). -/
def nextRow (g : Group) (k i : Nat) : Option (Nat × Nat) :=
  match g.frames.drop k with
  | [] => none
  | (_, F) :: t =>
    if i < F.rows.length then some (k, i)
    else (t.findIdx? (fun x => !x.2.rows.isEmpty)).map (fun j => (k + 1 + j, 0))

/-- The sets swap once the shadow set is clean: the first closed group drains from its first unmasked row, and the array goes on
(04 R79, R80). -/
def execSetSwap (p : Pid) (s : State) : Outcome State Fault Refusal := whenArith s fun s =>
  let S := s.polders[p].sump
  match S.closed with
  | g :: rest =>
    if S.retired && S.shadow.isNone then
      .next (s.onPolder p (fun P => { P with sump := { P.sump with
        closed := rest, retired := false, wait := false, swaps := P.sump.swaps + 1,
        shadow := (nextRow g 0 0).map (fun (k, i) => (g, k, i)) } }))
    else .next s
  | [] => .next s

end Sys2Proof.Machine
end

