-- ==== Sys2Proof/Machine/Drain.lean ====
section
/-! DEFINITION. The drain (04 R80-R82; 05 R98, R99; 06 R107, R108; 08 R169-R173, R185), the output compressor (06 R115-R122;
07 R131-R137, R141, R154; 08 R445) and the debug snapshot (04 R87). -/

namespace Sys2Proof.Machine

open Host (Outcome)

/-! ### From an entry to v (02 R39, 06 R108) -/

/-- The value an entry drains as, and whether a log conversion left the range (05 R99). -/
def drainEntry (sigma : Nat) (e : Entry) : Acc × Bool :=
  match e with
  | .acc x _ => (x, false)
  | .pair p n _ => logDrain p n sigma

/-- Zero-point correction (06 R108): three adds on ACCX, on the bit-plane path alone. -/
def zpCorrect (r : TileRec) (R C : Int) (K : Nat) (x : Acc) : Acc :=
  if r.path != .bitPlane then x
  else
    [-(r.zw * R), -(r.za * C), ((K * r.za * r.zw : Nat) : Int)].foldl (fun a t => accAdd true a (.val t)) (accAdd true x (.val 0))

/-- Steps 2 and 3 of 02 R39 with an optional draw, giving v in ACCX (02 R30, 08 R169); none is the sentinel. -/
def rescale (M s : Nat) (u : Option Nat) (x : Acc) : Option Int :=
  match x with
  | .val a => match accOf true (rshSr (a * M) s u) with
    | .val v => some v
    | .sentinel => none
  | .sentinel => none

/-! ### A drained row (08 R169) -/

/-- The chain of a tile, if its record names one. -/
def tileChain (E : Ee) (r : TileRec) : Option Chain := if namesChain E r.tpb.chain then some E.chains[r.tpb.chain] else none

/-- The linear index in the output tensor of column j of row i of a tile. -/
def outIx (D : Tensor) (r : TileRec) (i j : Nat) : Nat := D.linear ⟨r.c0 + j, r.r0 + i, 0, 0⟩

/-- The draw of an element of a tile at place k of its stream ids (08 R159, 10 R228). -/
def tileDraw (s : State) (p : Pid) (r : TileRec) (x k : Nat) : Nat :=
  s.drawU p r.tpb.gen (r.tpb.sid + BitVec.ofNat 32 k) r.epoch x

/-- Whether the one stochastic rounding of an element falls on the conversion of the chain's result (08 R169, 10 R228). -/
def srOnChain (D : Tensor) (r : TileRec) (fmt : Option Fmt) : Bool :=
  r.tpb.sr && !D.coded && (D.kind == .int || D.kind == .uint) && (match fmt with | some f => f != 1 | none => false)

/-- A chain result or lane as an exact value for a survey. -/
def laneExact (fmt : Fmt) (c : BitVec 16) : Exact :=
  if fmt = 1 then (if c = 0x8000 then .special else .val (Dy.ofInt c.toInt))
  else if fmt = 2 then lgExact (c.setWidth 8) else bfExact c

/-- An exact value as the OC holds it until its survey. -/
def Exact.oc (x : Exact) (clip : Bool) : OcElem :=
  match x with
  | .special => .sentinel clip
  | .inf neg => .inf neg
  | .val y => .exact y.m y.e clip

/-- An integer as an accumulator output's code (08 Table 8-9). -/
def accElem (accX : Bool) (x : AsInt) : OcElem :=
  match x with
  | .val v => .code (accCode accX (accOf accX v)) false false false
  | _ => .code (accCode accX .sentinel) false false false

/-- Output conversion without a chain (08 Table 8-9). -/
def outPlain (D : Tensor) (v : Option Int) : OcElem :=
  if D.coded then (match v with | some x => .exact x 0 false | none => .sentinel false)
  else match D.kind, v with
    | .int, some x => .int x false
    | .uint, some x => .int x false
    | .int, none => .sentinel false
    | .uint, none => .sentinel false
    | .int1, some x => .code (if 0 ≤ x then 1 else 0) false false false
    | .int1, none => .code 1 false true false
    | .bf16, some x => .code (intToBf x).toNat false false false
    | .bf16, none => .code bfNan.toNat false false false
    | .lg8, some x => let (c, f) := dyToLg (Dy.ofInt x); .code c.toNat f false f
    | .lg8, none => .code 0x80 false false false
    | k, some x => accElem (k == .accx) (.val x)
    | k, none => accElem (k == .accx) .special

/-- Output conversion of a chain's result (08 Table 8-9), with the draw where it rounds stochastically. -/
def outChain (D : Tensor) (fmt : Fmt) (c : BitVec 16) (clip : Bool) (u : Option Nat) : OcElem :=
  if D.coded then (laneExact fmt c).oc clip
  else match D.kind with
    | .int | .uint =>
      match laneAsInt fmt c u with
      | .val x => .int x clip
      | .inf neg => .inf neg
      | .special => .sentinel clip
    | .int1 =>
      match laneExact fmt c with
      | .val x => .code (if x.m < 0 then 0 else 1) false false clip
      | .inf neg => .code (if neg then 0 else 1) false false clip
      | .special => .code 1 false true clip
    | .bf16 => .code (if fmt = 0 then c else (laneCvt fmt 0 c none).1).toNat false false clip
    | .lg8 => let (x, f) := laneCvt fmt 2 c none; .code (x.toNat % 256) f false (clip || f)
    | k => accElem (k == .accx) (laneAsInt fmt c none)

/-- v on its way into the working format of a chain, with the clamp that sets SAT and clips (08 R169 step 3). -/
def enterW (wfmt : Fmt) (v : Option Int) : BitVec 16 × Bool :=
  match v with
  | none => (if wfmt = 1 then 0x8000 else bfNan, false)
  | some x => if wfmt = 1 then toInt16 x else (intToBf x, false)

/-- SAT and NARROW_OVF of an element whose conversion the element engine has finished. -/
def OcElem.flags (e : OcElem) : Bool × Bool :=
  match e with
  | .code _ sat narrow _ => (sat, narrow)
  | _ => (false, false)

/-- What a drained column gives: its element, the chain's result for the tap, SAT of the element engine, and whether the entry
drained as the sentinel, over-deep or out of the conversion's range. -/
structure ColOut where
  elem : OcElem
  tap  : Nat := 0
  sat  : Bool := false
  dead : Bool := false
  deep : Bool := false
  conv : Bool := false

/-- The column-broadcast element of row i (08 R173). -/
def cbElem (s : State) (c : Chain) (r : TileRec) (i : Nat) : BitVec 16 :=
  if c.cbEn then BitVec.ofNat 16 ((tensor c.cbDesc (sideOf s c.cbDesc)).code s ⟨r.r0 + i, 0, 0, 0⟩) else 0

/-- Column j of row i of a frame through correction, rescale, chain and output conversion (08 R169). An entry that is finite in the
sump and whose conversion leaves the range (05 R99) counts as leaving the sump as the sentinel (04 R86; DESIGN CHOICE, log entry
55). -/
def drainCol (s : State) (p : Pid) (F : SumpFrame) (i j : Nat) (e : Entry) : ColOut :=
  let r := F.tile
  let E := s.polders[p].ee
  let D := tensor r.outD r.outSide
  let (a, conv) := drainEntry r.tpb.sigma e
  let deep := match e with | .pair _ _ d => decide (12 < d) | .acc _ _ => false
  let x := outIx D r i j
  let ch := tileChain E r
  let fmt := ch.map (fun c => c.result E.uprogs)
  let srC := srOnChain D r fmt
  let u := if r.tpb.sr && !D.coded && !srC then some (tileDraw s p r x 0) else none
  let v := rescale (r.tpb.mult.getD j 0) r.tpb.shift u (zpCorrect r (F.rowSum.getD i 0) (F.colSum.getD j 0) F.kU a)
  let base : ColOut := { elem := .inf false, dead := a == .sentinel, deep, conv }
  match ch with
  | none => { base with elem := outPlain D v }
  | some c =>
    let (w, clip) := enterW c.wfmt v
    let (y, sat) := chainRun c E.uprogs r.masks j (cbElem s c r i) (fun k q => tileDraw s p r x (1 + 17 * k + q)) 0 w false c.live
    let f := c.result E.uprogs
    { base with elem := outChain D f y clip (if srC then some (tileDraw s p r x 0) else none), tap := y.toNat, sat := clip || sat }

/-- The draws of a drained row, as (place of the stream id, number of elements). -/
def rowDraws (s : State) (p : Pid) (r : TileRec) : List (Nat × Nat) :=
  let E := s.polders[p].ee
  let D := tensor r.outD r.outSide
  let stages := match tileChain E r with
    | none => []
    | some c => (chainDraws c E.uprogs).map (fun (k, q) =>
        (1 + 17 * k + q, ((List.range r.ncols).filter (fun j => (r.masks.getD k 0).getLsbD j)).length))
  (if r.tpb.sr && !D.coded then [(0, r.ncols)] else []) ++ stages

/-- Move a tile that the OC has received whole to the buffer that is written out (08 R445). -/
def Oc.shift (q : Oc) : Oc :=
  match q.recv, q.ready with
  | some t, none => if t.full then { q with recv := none, ready := some t } else q
  | _, _ => q

/-- The tap tensor of a tile, if its chain is tapped (08 R185). -/
def tapDescOf (E : Ee) (r : TileRec) : Option DescWord :=
  match tileChain E r with
  | some c => if c.tapEn then some c.tapDesc else none
  | none => none

/-- The OC's receiving tile with one more row, of group g and with the tap tensor in force as it drains (08 R174, R185). -/
def Oc.take (q : Oc) (r : TileRec) (g : Group) (tapD : Option DescWord) (row : List OcElem) (tap : List Byte) (last : Bool) : Oc :=
  let t := q.recv.getD { tile := r, group := g, rows := [], taps := [], tapD, full := false }
  Oc.shift { q with recv := some { t with rows := t.rows ++ [row], taps := t.taps ++ [tap], full := last } }

/-- The tap record of a row, if its chain is tapped (08 R185). -/
def tapRecord (E : Ee) (r : TileRec) (outs : List ColOut) : Option Moments :=
  match tileChain E r with
  | some c => if c.tapEn then some (momentsOf c.wfmt c.tapF c.tapK (outs.map ColOut.tap)) else none
  | none => none

/-- Whether a NaN entered a tap's sums (08 R179). -/
def tapNan (m : Moments) (outs : List ColOut) : Bool := codeNan m.fmt m.K.toNat || outs.any (fun o => codeNan m.fmt o.tap)

/-- The columns of a row of a frame as they leave. -/
def rowOuts (s : State) (p : Pid) (F : SumpFrame) (i : Nat) (es : List Entry) : List ColOut :=
  es.zipIdx.map (fun (e, j) => drainCol s p F i j e)

/-- What a drained row claims, flags and counts. The EE flags its own conversions, the drain's output conversions among them
(08 R187; DEDUCED, log entry 54). -/
def State.countRow (s : State) (p : Pid) (F : SumpFrame) (outs : List ColOut) : State :=
  let count := fun (f : ColOut → Bool) => BitVec.ofNat 64 (outs.filter f).length
  let D := tensor F.tile.outD F.tile.outSide
  let s := (rowDraws s p F.tile).foldl (fun s (q, n) =>
    s.claim p F.tile.tpb.gen (F.tile.tpb.sid + BitVec.ofNat 32 q) D.base n) s
  let s := s.eeFlags p (outs.any (fun o => o.sat || o.elem.flags.1)) (outs.any (fun o => o.elem.flags.2))
  let s := (s.logFlag p 1 (outs.any ColOut.conv)).logFlag p 2 (outs.any ColOut.deep)
  let tap := tapRecord s.polders[p].ee F.tile outs
  let s := match tap with
    | none => s
    | some m => (s.ruFlag p 1 (momentsOvf m.fmt m.F m.K (outs.map ColOut.tap))).ruFlag p 2 (tapNan m outs)
  s.onPolder p (fun P =>
    { P with
      logb := { P.logb with convOvf := P.logb.convOvf + count ColOut.conv, depthOver := P.logb.depthOver + count ColOut.deep },
      ee := { P.ee with rows := P.ee.rows + 1, held := true, met := true },
      ru := { P.ru with lines := P.ru.lines + (if tap.isSome then 1 else 0), met := P.ru.met || tap.isSome },
      sump := { P.sump with ovfCount := P.sump.ovfCount + count ColOut.dead, drained := P.sump.drained + 1 } })

/-- Everything a drained row changes in its polder. -/
def State.drainRow (s : State) (p : Pid) (g : Group) (k i : Nat) (F : SumpFrame) (es : List Entry) : State :=
  let outs := rowOuts s p F i es
  let E := s.polders[p].ee
  let next := nextRow g k (i + 1)
  let last := match next with | some (k', _) => k' != k | none => true
  (s.countRow p F outs).onPolder p (fun P =>
    { P with
      sump := { P.sump with shadow := next.map (fun (k', i') => (g, k', i')) },
      oc := P.oc.take F.tile g (tapDescOf E F.tile) (outs.map ColOut.elem)
        (((tapRecord E F.tile outs).map Moments.bytes).getD []) last })

/-! ### Replays of a draining group (04 R82, 17 R396) -/

/-- The rows of a group that leave before row i of frame k. -/
def rowsBefore (g : Group) (k i : Nat) : List (SumpFrame × Nat) :=
  (g.frames.take k).flatMap (fun x => (List.range x.2.rows.length).map (fun j => (x.2, j)))
  ++ (match g.frames[k]? with | some x => (List.range i).map (fun j => (x.2, j)) | none => [])

/-- Rows that leave again: they count once more, and nothing of them is written a second time (17 R396). -/
def State.redrain (s : State) (p : Pid) : List (SumpFrame × Nat) → State
  | [] => s
  | (F, i) :: t => (s.countRow p F (rowOuts s p F i (F.rows.getD i []))).redrain p t

/-- A replay more for every place that holds a group. -/
def Polder.markReplay (P : Polder) (serial : Nat) : Polder :=
  let up := fun (g : Group) => if g.serial = serial then { g with replays := g.replays + 1 } else g
  let tile := fun (t : OcTile) => { t with group := up t.group }
  { P with
    sump := { P.sump with shadow := P.sump.shadow.map (fun x => (up x.1, x.2)) },
    oc := { P.oc with recv := P.oc.recv.map tile, ready := P.oc.ready.map tile } }

/-- A mismatch in the drain path of a group whose rows before row i of frame k have left (04 R82; 17 R396, R398): past REPLAY_MAX
the site fails; else the group replays, swaps and drains again up to that row within this step (log entry 23). -/
def State.replayDrain (s : State) (p : Pid) (g : Group) (k i : Nat) : State :=
  if s.replayLimit g.replays then s.hardFail p
  else
    let s := (s.replayGroup p g.work).onPolder p (fun P => { P with sump := { P.sump with swaps := P.sump.swaps + 1 } })
    (s.redrain p (rowsBefore g k i)).onPolder p (fun P => P.markReplay g.serial)

/-- Whether the checks of a row at the drain disagree (03 R62 CP3; 05 R103 CPL3; 17 R395). CP3 skips the sentinel, and CPL3 the
sentinel and the empty pair. -/
def DrainSlip.caught (es : List Entry) (x : DrainSlip) : Bool :=
  match x with
  | .checker => true
  | .entry c d => match es[c]? with
    | some (.acc (.val v) r) => res7 (v + d) != r
    | some (.pair p n _) => d != 0 && p != .sentinel && n != .sentinel && !(p == .empty && n == .empty)
    | _ => false

/-- The entries of a row with an error that no check has caught. -/
def slipEntries (x : Option DrainSlip) (es : List Entry) : List Entry :=
  match x with
  | some (.entry c d) => es.zipIdx.map (fun (e, j) => match e with
    | .acc (.val v) r => if j = c then .acc (.val (v + d)) r else e
    | _ => e)
  | _ => es

/-- The next row of the shadow set leaves, if the drain is not held and the OC has room (04 R80, 08 R445). Where a check of the row
disagrees it does not leave, and its group replays. -/
def execDrainRow (p : Pid) (slip : Option DrainSlip) (s : State) : Outcome State Fault Refusal := whenArith s fun s =>
  let P := s.polders[p]
  match P.sump.shadow with
  | none => .next s
  | some (g, k, i) =>
    match g.frames[k]? with
    | none => .next s
    | some (_, F) =>
      let es := F.rows.getD i []
      if P.sump.hold || (match P.oc.recv with | some t => t.full | none => false) then .next s
      else if slip.any (DrainSlip.caught es) then .next (s.replayDrain p g k i)
      else .next (s.drainRow p g k i F (slipEntries slip es))

/-! ### The output compressor -/

/-- An element's code at a clamp width (02 R39, 06 R119), its flags, and whether it counts as clipped. -/
def ocCode (D : Tensor) (nc : Nat) (e : OcElem) : Conv × Bool :=
  let n := D.width
  match e with
  | .int x clip => let c := toIntCode D.kind n nc D.zp (some x); (c, clip || c.sat)
  | .inf neg =>
    let (lo, hi) := intRange D.kind nc
    ({ code := ((if neg then lo else hi) % (2 ^ n : Nat)).toNat, sat := true }, true)
  | .sentinel clip => (ovfCode D.kind n, clip)
  | .code c sat narrow clip => ({ code := c, sat, narrow }, clip)
  | .exact _ _ clip => ({ code := 0 }, clip)

/-- The clamp widths of the ladder above a width, capped at the storage width (06 R121). -/
def nextWidth (nc ns : Nat) : Nat := min ((([2, 3, 4, 6, 8, 12, 16] : List Nat).find? (fun w => nc < w)).getD ns) ns

/-- Whether a tile exceeds its clip budget (06 R120). -/
def overBudget (budget : BitVec 16) (c n : Nat) : Bool := budget != 0xFFFF && n != 0 && budget.toNat * n < c * 65536

/-- An element of a tile that is coded by a survey. -/
def OcElem.exactly (e : OcElem) : Exact :=
  match e with
  | .exact m x _ => .val ⟨m, x⟩
  | .inf neg => .inf neg
  | _ => .special

/-- Whether an element was clipped before the OC. -/
def OcElem.clipped (e : OcElem) : Bool :=
  match e with
  | .int _ c => c
  | .inf _ => false
  | .sentinel c => c
  | .code _ _ _ c => c
  | .exact _ _ c => c

/-- A tile as the OC finally writes it: codes with their flags and clips, the bytes of its survey, and whether it was
widened. -/
structure OcOut where
  codes   : List (List (Conv × Bool))
  extra   : List (Nat × List Byte) := []
  sat     : Bool := false
  bad     : Bool := false
  widened : Bool := false

/-- Requantise a tile at its clamp width, once more if it exceeds its budget (06 R119-R121). A tile that an inline survey codes is
not widened, whatever its clamp width: it counts over its budget (DESIGN CHOICE, log entry 56). -/
def ocPlain (D : Tensor) (r : TileRec) (rows : List (List OcElem)) : OcOut :=
  let pass := fun nc => rows.map (fun row => row.map (ocCode D nc))
  let count := fun (cs : List (List (Conv × Bool))) => (cs.flatten.filter (·.2)).length
  let first := pass r.tpb.nc
  let n := first.flatten.length
  if overBudget r.tpb.budget (count first) n && D.kind == .int && r.tpb.nc < D.width then
    { codes := pass (nextWidth r.tpb.nc D.width), widened := true }
  else { codes := first }

/-- The survey of a tile along its lines (06 R115, R116): limits, s2 and codes per line, then the index of every element. Under an s2
that is no number the index is a free value (DESIGN CHOICE, log entry 53). -/
def ocSurvey (s : State) (p : Pid) (D : Tensor) (r : TileRec) (rows : List (List OcElem)) : OcOut :=
  let ncols := (rows.headD []).length
  let at_ := fun i j => ((rows.getD i []).getD j (.sentinel false)).exactly
  let lines := if D.orient then ncols else rows.length
  let per := if D.orient then rows.length else ncols
  let G := max D.group 1
  let elem := fun line k => if D.orient then at_ k line else at_ line k
  let limits := fun line => (List.range ((per + G - 1) / G)).map (fun g =>
    groupLimit Config.inlineClip (((List.range G).map (g * G + ·)).filterMap (fun k => if k < per then some (elem line k) else none)))
  let found := (List.range lines).map (fun l =>
    let ls := limits l
    let s2 := lineScale ls
    (ls.map (fun x => limitCode x s2), s2))
  let b := s.polders[p].qz.banks[D.cbank]
  let pick := fun i j (e : OcElem) =>
    let line := if D.orient then j else i
    let k := if D.orient then i else j
    let (gs, s2) := found.getD line ([], 0)
    let g : GCode := if D.group = 0 then { u := 255 } else gs.getD (k / G) { u := 255 }
    let x := outIx D r i j
    let u := if r.tpb.sr then some (tileDraw s p r x 0) else none
    let scale := if D.group = 0 then realScale s p D (D.colOf ⟨r.c0 + j, r.r0 + i, 0, 0⟩)
      else (bfExact s2).scale ⟨1, -(b.shift : Int)⟩
    match scale with
    | .val d =>
      let q := pickIndex b.width (rowEntries s p D g.u) d (if g.bad then .special else e.exactly) u
      (({ code := q.ix, narrow := q.narrow } : Conv), q.clip || e.clipped)
    | _ => (({ code := D.freeCode (Config.freeWord (s.freeIx + x)) } : Conv), e.clipped)
  let extra := if D.group = 0 then [] else
    found.zipIdx.flatMap (fun (f, l) =>
      let (a, b) := surveyCodes D r.m r.r0 r.c0 l
      [(a, f.1.map (fun g => BitVec.ofNat 8 g.u)), (b, leBytes 2 f.2.toNat)])
  { codes := rows.zipIdx.map (fun (row, i) => row.zipIdx.map (fun (e, j) => pick i j e)), extra,
    sat := found.any (fun f => f.1.any GCode.sat), bad := found.any (fun f => f.1.any GCode.bad) }

/-- The rows and columns of a received tile that lie inside its output tensor. -/
def ocRows (D : Tensor) (t : OcTile) : List (List OcElem) :=
  (t.rows.take (D.e1 - t.tile.r0)).map (fun row => row.take (D.e0 - t.tile.c0))

/-- The largest magnitude of a tile before clamping, in output units (06 R118): of a UINT output before its zero point is added, and
0 for an output that an inline survey codes (DESIGN CHOICE, log entry 56). -/
def ocPeak (D : Tensor) (rows : List (List OcElem)) : Nat :=
  if D.coded || !(D.kind == .int || D.kind == .uint) then 0
  else (rows.flatten.map (fun e => match e with
    | .int x _ => min x.natAbs (2 ^ 32 - 1)
    | .inf _ => 2 ^ 32 - 1
    | _ => 0)).foldl max 0

/-- The stores of a tile: its row headers, then its body (07 R131-R137; 11 R251). -/
structure OcStores where
  hdrs : List (Nat × List Byte)
  tile : Option TileImage
  addr : Nat
  elems : List (Ix × Nat)

/-- The stores of the codes of a tile. -/
def ocStores (D : Tensor) (r : TileRec) (codes : List (List Nat)) : OcStores :=
  let rows : TileRows := codes.map (fun row => row.map some)
  let img := tileImage D (min r.ncols 128) rows
  let packed := D.layout == 2 && img.packed
  let acc := D.kind == .acc32 || D.kind == .accx
  { hdrs := if D.hdr = 0 ∨ acc then [] else
      rows.zipIdx.map (fun (row, i) => (D.hdrAt ⟨0, r.r0 + i, 0, 0⟩ (r.c0 / 128), leBytes 4 (segHeader D packed row))),
    tile := if D.layout = 2 then some img else none,
    addr := D.tileAt ⟨r.c0, r.r0, 0, 0⟩,
    elems := if D.layout = 2 then [] else
      codes.zipIdx.flatMap (fun (row, i) => row.zipIdx.map (fun (c, j) => ((⟨r.c0 + j, r.r0 + i, 0, 0⟩ : Ix), c))) }

/-- The tap records of a tile and their places in the tap tensor (08 R185). -/
def tapStores (s : State) (t : OcTile) : Option (Tensor × List (Ix × Nat)) :=
  t.tapD.map (fun d =>
    (tensor d (sideOf s d), t.taps.zipIdx.flatMap (fun (bs, i) =>
      bs.zipIdx.map (fun (b, k) => ((⟨32 * (t.tile.c0 / 128) + k, t.tile.r0 + i, 0, 0⟩ : Ix), b.toNat)))))

/-- The bytes that a list of elements lies in, padding included (02 R36). -/
def elemBytes (D : Tensor) (es : List (Ix × Nat)) : List Nat := (es.flatMap (fun e => (D.putAt e.1).map (·.1))).eraseDups

/-- Write a received tile out (06 R119-R122; 07 R154). -/
def State.writeTile (s : State) (p : Pid) (D : Tensor) (t : OcTile) (rows : List (List OcElem)) (o : OcOut) (w : OcStores)
    (taps : Option (Tensor × List (Ix × Nat))) (slots : List (Pid × Nat)) : State :=
  let r := t.tile
  let cs := o.codes.flatten
  let n := cs.length
  let c := (cs.filter (·.2)).length
  let acc := D.kind == .acc32 || D.kind == .accx
  let excess := !acc && overBudget r.tpb.budget c n
  let zeros := (cs.filter (fun x => D.isZero x.1.code)).length
  let bytes := match w.tile with | some i => i.bytes.length | none => (elemBytes D w.elems).length
  let n0 := s.sent.length
  let s := w.hdrs.foldl (fun s x => s.putBytes x.1 x.2) s
  let s := match w.tile with
    | some i => s.putBytes w.addr i.bytes
    | none => w.elems.foldl (fun (s : State) (e : Ix × Nat) => D.put s e.1 e.2) s
  let s := o.extra.foldl (fun s x => s.putBytes x.1 x.2) s
  let s := match taps with
    | some (T, es) => es.foldl (fun (s : State) (e : Ix × Nat) => T.put s e.1 e.2) s
    | none => s
  let s := (s.markEnds n0).slotEnds slots
  let s := s.ocFlags p (cs.any (fun x => x.1.sat)) (cs.any (fun x => x.1.narrow))
  let s := ((s.qzFlag p 0 o.sat).qzFlag p 1 o.bad).qzFlag p 3 excess
  let s := s.claim p r.tpb.gen r.tpb.sid D.base (if r.tpb.sr && D.coded then n else 0)
  let s := s.onTask p (fun k => { k with
    peak := if k.peak.toNat < ocPeak D rows then BitVec.ofNat 32 (ocPeak D rows) else k.peak,
    widened := k.widened + (if o.widened then 1 else 0) })
  let one := fun (b : Bool) => if b then (1 : U64) else 0
  s.onPolder p (fun P =>
    { P with
      qz := { P.qz with
        clipped := P.qz.clipped + BitVec.ofNat 64 c, elements := P.qz.elements + BitVec.ofNat 64 n,
        widened := P.qz.widened + one o.widened, excess := P.qz.excess + one excess },
      oc := Oc.shift { P.oc with
        status := match w.tile with
          | some i => if i.packed then P.oc.status ||| 4 else P.oc.status &&& ~~~ 4#32
          | none => P.oc.status,
        dense := P.oc.dense + one (match w.tile with | some i => !i.packed | none => false),
        packed := P.oc.packed + one (match w.tile with | some i => i.packed | none => false),
        hotrow := P.oc.hotrow + one (match w.tile with | some i => i.hotrow | none => false),
        zeros := P.oc.zeros + BitVec.ofNat 64 zeros, bytes := P.oc.bytes + BitVec.ofNat 64 bytes,
        ready := none } })

/-- The OC surveys or requantises the tile it has received whole, widens it if it must, and writes it out with its headers
and tag settings; it waits on the tags of the slots it writes (08 R445, 11 R250). Where its duplicated datapath disagrees, `e.upset`,
nothing is written and the tile's group replays (17 R395, R396). -/
def execOcTileWrite (e : CheckedEnd) (s : State) : Outcome State Fault Refusal := whenArith s fun s =>
  match s.polders[e.p].oc.ready with
  | none => .next s
  | some t =>
    let D := tensor t.tile.outD t.tile.outSide
    let rows := ocRows D t
    let o := if D.coded then ocSurvey s e.p D t.tile rows else ocPlain D t.tile rows
    let w := ocStores D t.tile (o.codes.map (fun r => r.map (fun x => x.1.code)))
    let taps := tapStores s t
    let body : List Run := match w.tile with
      | some i => [(w.addr, i.bytes.length)]
      | none => (elemBytes D w.elems).map (fun a => (a, 1))
    let tapRuns : List Run := match taps with | some (T, es) => (elemBytes T es).map (fun a => (a, 1)) | none => []
    let slots := slotsOf (body ++ o.extra.map (fun x => (x.1, x.2.length)) ++ tapRuns)
    if e.upset then
      let (k, i) := match s.polders[e.p].sump.shadow with
        | some (g, k, i) => if g.serial = t.group.serial then (k, i) else (t.group.frames.length, 0)
        | none => (t.group.frames.length, 0)
      .next (s.replayDrain e.p t.group k i)
    else
    match gate s true slots with
    | .error (.held s') => .next s'
    | .error _ => .next s
    | .ok () =>
      let s' := s.writeTile e.p D t rows o w taps slots
      .next (if D.coded then { s' with freeIx := s'.freeIx + D.e0 * D.e1 } else s')

/-! ### The debug snapshot (04 R87) -/

def execSumpDbgStart (p : Pid) (v : U32) (s : State) : Outcome State Fault Refusal := atPolder s p fun s => .next (s.dbgAddrWrite p v)

def execDrainHoldWrite (p : Pid) (v : U32) (s : State) : Outcome State Fault Refusal := atPolder s p fun s => .next (s.holdWrite p v)

/-- The group that a set holds, and the frame position and row below which the drain has passed. -/
def setGroup (S : Sump) (shadow : Bool) : Option (Group × Nat × Nat) :=
  if shadow then S.shadow
  else match S.closed.head? with
    | some g => some (g, 0, 0)
    | none => S.opened.map (fun g => (g, 0, 0))

/-- An entry that reads 0. -/
def zeroEntry : Entry := .acc (.val 0) 0

/-- An entry of a frame that no term has reached (04 R76, 05 R90). -/
def SumpFrame.blank (F : SumpFrame) : Entry := if F.tile.path = .logPath then .pair .empty .empty 0 else zeroEntry

/-- The entry that a snapshot finds, 0 where nothing is held or the drain has passed. -/
def snapEntry (g : Group) (k i n col : Nat) : Entry :=
  match g.frames.findIdx? (fun x => x.1 == n / g.m) with
  | none => zeroEntry
  | some q =>
    if q < k || (q == k && n % g.m < i) then zeroEntry
    else match g.frames[q]? with
      | some (_, F) => (F.rows.getD (n % g.m) []).getD col F.blank
      | none => zeroEntry

/-- An entry in SUMP_DBG_DATA. -/
def snapData (accX : Bool) (e : Entry) : U64 :=
  match e with
  | .acc (.val x) _ => BitVec.ofInt 64 x
  | .acc .sentinel _ => if accX then 0xFFFF800000000000 else 0xFFFFFFFF80000000
  | .pair p n _ => ((logCode p).setWidth 64 <<< 32) ||| (logCode n).setWidth 64

/-- The outstanding snapshot lands. -/
def execSnapshotDone (p : Pid) (s : State) : Outcome State Fault Refusal := whenArith s fun s =>
  let S := s.polders[p].sump
  match S.snap with
  | none => .next s
  | some q =>
    let g := setGroup S q.shadow
    let accX := match g with | some x => x.1.accX | none => false
    let range := decide (sumpEntries accX ≤ q.entry)
    let e := match g with
      | some (g, k, i) => if range then zeroEntry else snapEntry g k i q.entry q.column
      | none => zeroEntry
    let st := (S.dbgStat &&& 0xC) ||| BitVec.ofNat 32 (bit accX 4 + bit range 2 + bit (!q.shadow) 1 + 1)
    .next (s.onPolder p (fun P => { P with sump := { P.sump with snap := none, dbgStat := st, dbgData := snapData accX e } }))

end Sys2Proof.Machine
end

