-- ==== Sys2Proof/Machine/Pw.lean ====
section
/-! DEFINITION. The pw class: phase hints, preferred points and the job's energy (10 R237, R238, Table 10-16). -/

namespace Sys2Proof.Machine

open Host (Outcome)

/-- The phase field IMM[5:0]. -/
def phaseField (f : Fields) : BitVec 6 := f.imm.extractLsb' 0 6

/-- Put a hint into a polder's mailbox of 16 entries; a seventeenth overwrites the oldest (10 R238). -/
def pushHint (l : List (Fin 4 × BitVec 6 × U64 × BitVec 16)) (h : Fin 4 × BitVec 6 × U64 × BitVec 16) :
    List (Fin 4 × BitVec 6 × U64 × BitVec 16) :=
  (if 16 ≤ l.length then l.drop (l.length - 15) else l) ++ [h]

/-- pw.hint: the phase, stamped with the timebase, enters the polder's mailbox. -/
def execPwHint (p : Pid) (f : Fields) (s : State) : Outcome State Fault Refusal :=
  issue p { level := 2, imm := 0x3FFFFF } f s (fun t =>
    .ok (s.onPolder p (fun P =>
      { P with hints := pushHint P.hints (t.stage.prog, phaseField f, s.tb, f.imm.extractLsb' 6 16) })))

/-- The point that pw.pref records: one above OP_MAX is recorded as OP_MAX (10 R238). -/
def prefPoint (s : State) (f : Fields) : Nat := min (f.imm.extractLsb' 6 3).toNat s.disc.opMax.toNat

/-- pw.pref: the phase's preferred point is overwritten. -/
def execPwPref (p : Pid) (f : Fields) (s : State) : Outcome State Fault Refusal :=
  issue p { level := 2, imm := 0x1FF } f s (fun t =>
    let table := s.pm.phases[t.stage.prog]
    let n := phaseField f
    let entry : Phase := { table[n.toNat]'(n.isLt) with pref := some (prefPoint s f) }
    .ok { s with pm := { s.pm with phases := s.pm.phases.set t.stage.prog (table.set n.toNat entry n.isLt) } })

/-- pw.energy: the job's energy in µJ as closed at the last estimation interval. -/
def execPwEnergy (p : Pid) (f : Fields) (s : State) : Outcome State Fault Refusal :=
  issue p { level := 2, rd := .any } f s (fun _ =>
    .ok (s.onTask p (fun t => t.setS f.rd s.pm.energyJob)))

end Sys2Proof.Machine
end

