-- ==== Sys2Proof/Machine/Herd.lean ====
section
/-! DEFINITION. What Herd's services share (15): programs, requests and their records, KV pages, launches, rollback points, and the
HERD block. -/

namespace Sys2Proof.Machine

open Host (Outcome)

/-! ### Commands of the node (14 R316, 15 R344) -/

/-- Number at a byte offset of a payload. -/
def plNum (f : Frame) (off n : Nat) : Nat := leNat ((f.payload.drop off).take n)

/-- Whether a payload has the bytes named and every other byte is 0 (15 R344). -/
def plForm (f : Frame) (len : Nat) (named : Nat → Bool) : Bool :=
  len ≤ f.payload.length && f.payload.zipIdx.all (fun (b, i) => named i || b == 0)

/-- What Herd does with a command: the state, and the status with what follows it; none where the answer comes later. -/
abbrev Answer := State × Option (Byte × List Byte)

def done (s : State) : Answer := (s, some (0, []))
/-- Refused with a reason of 15 Table 15-3. -/
def refusedFor (s : State) (reason : Byte) : Answer := (s, some (1, [reason]))
/-- Refused by a command of 14 Table 14-2, which has no reason code. -/
def refusedPlain (s : State) : Answer := (s, some (1, []))
def malformed (s : State) : Answer := (s, some (2, []))

/-- Herd takes the command at the head of the buffer, if it has the class given, and answers it; it waits while the send buffer is
full (14 R313). -/
def herdCommand (cls : Byte) (s : State) (k : Frame → State → Answer) : Outcome State Fault Refusal :=
  match s.pnx.cmds with
  | [] => .next s
  | f :: rest =>
    if f.cls ≠ cls || !s.herdUp || !s.sendRoom then .next s else
    match k f { s with pnx := { s.pnx with cmds := rest } } with
    | (s', some (st, bs)) => .next (skipReserved 256 (s'.respond f st bs))
    | (s', none) => .next (skipReserved 256 s')

/-! ### Programs -/

def State.prog (s : State) (g : Fin 4) : Option Prog := s.herd.progs[g]

/-- Change a bound program. -/
def State.onProg (s : State) (g : Fin 4) (f : Prog → Prog) : State :=
  { s with herd := { s.herd with progs := s.herd.progs.set g ((s.prog g).map f) } }

def Prog.onTables (P : Prog) (f : ProgTables → ProgTables) : Prog := { P with tables := f P.tables }

/-- The live sequences of a program in slot order. -/
def ProgTables.live (T : ProgTables) : List LiveSeq := T.slots.filterMap id

/-- The positions that a sequence in PREFILL has to run: its prompt, and the tokens it had made where its pages are rebuilt (17 Table
17-2). -/
def LiveSeq.goal (q : LiveSeq) : Nat := q.req.promptLen + q.made

/-- Slots per micro-batch. -/
def Prog.perBatch (P : Prog) : Nat := P.tables.slots.length / max 1 P.m

/-- Whether a rollback is still being replayed (15 R365). -/
def Prog.replaying (P : Prog) : Bool := P.tables.boundaries < P.replayTo || !P.replay.isEmpty

/-- Every bound program. -/
def State.bound (s : State) : List (Fin 4 × Prog) := (List.finRange 4).filterMap (fun g => (s.prog g).map (fun P => (g, P)))

/-- The bound program that serves a logical polder. -/
def State.progOf (s : State) (p : Pid) : Option (Fin 4 × Prog) := s.bound.find? (fun x => (planPolders x.2.plan).contains p)

/-- The SLOTS rule's sum (15 Table 15-3). -/
def State.slotSum (s : State) : Nat := (s.bound.map (fun x => x.2.tables.slots.length)).sum

/-- Requests QUEUED across programs. -/
def State.queued (s : State) : Nat := (s.bound.map (fun x => x.2.tables.queue.length)).sum

/-! ### KV pages (15 R348) -/

/-- The page groups of a request of length L, by their size in pages. -/
def groupsFor (plan : BindPlan) (len : Nat) : List Nat :=
  plan.caches.flatMap (fun c => List.replicate ((len + c.positions - 1) / max 1 c.positions * c.copies) c.group)

/-- Pages of a reservation. -/
def pagesFor (plan : BindPlan) (len : Nat) : Nat := (groupsFor plan len).sum

/-- The pages of a pool. -/
def Prog.poolPages (P : Prog) : Nat := P.poolLen / 65536

/-- The groups in use, in ascending order. -/
def ProgTables.usedGroups (T : ProgTables) : List (Nat × Nat) :=
  (T.live.flatMap LiveSeq.pages).foldl (fun l x => sins x.1 x.2 l) []

/-- The first of n consecutive free pages from `from_` on. -/
def firstFit (limit n : Nat) : Nat → List (Nat × Nat) → Option Nat
  | from_, [] => if from_ + n ≤ limit then some from_ else none
  | from_, (a, k) :: t => if from_ + n ≤ a then some from_ else firstFit limit n (max from_ (a + k)) t

/-- Take groups of the sizes given, each the lowest that is free; none where one does not fit. -/
def takeGroups (limit : Nat) : List (Nat × Nat) → List Nat → Option (List (Nat × Nat))
  | _, [] => some []
  | used, n :: rest =>
    (firstFit limit n 0 used).bind (fun a => (takeGroups limit (sins a n used) rest).map (fun l => (a, n) :: l))

/-- Unreserved pages of a program's pool. -/
def Prog.freePages (P : Prog) : Nat := P.poolPages - (P.tables.usedGroups.map (·.2)).sum

/-! ### The token stream (15 R357) -/

/-- A SAMPLES record (15 Table 15-8): reasons 1 STOP, 2 LENGTH, 3 CONTEXT, 4 CANCEL, 5 FAULT, 6 UNBIND; 0 where the request goes
on. -/
structure Sample where
  id     : U64
  token  : U32
  nth    : Nat
  reason : Nat
deriving DecidableEq, Repr

def Sample.last (r : Sample) : Bool := r.reason ≠ 0
/-- Whether the record carries a token rather than a cancelled, faulted or unbound end. -/
def Sample.real (r : Sample) : Bool := r.reason < 4

def Sample.bytes (r : Sample) : List Byte :=
  leBytes 8 r.id.toNat ++ leBytes 4 r.token.toNat ++ leBytes 3 r.nth ++ leBytes 1 (2 * r.reason + (if r.last then 1 else 0))

/-- Records sent of a request. -/
def Prog.sentOf (P : Prog) (id : U64) : Nat := ((P.sent.find? (fun x => x.1 == id)).map (·.2)).getD 0

/-- Leading batches that fit in a number of bytes. -/
def fitting : Nat → List (List Byte) → List (List Byte) × List (List Byte)
  | _, [] => ([], [])
  | n, b :: t => if b.length ≤ n then let (x, y) := fitting (n - b.length) t; (b :: x, y) else ([], b :: t)

/-- Herd sends a program's record batches on its open SAMPLES stream while the port is free; where LENGTH would be passed it holds
them and reports the stream done, once. -/
def State.sendRecords (s : State) (g : Fin 4) : State :=
  match s.prog g with
  | none => s
  | some P =>
    if P.records.isEmpty || s.pnx.sending.isSome then s else
    match P.sampleStream.bind s.pnx.find with
    | none => s
    | some x =>
      let (now, later) := fitting (x.length.toNat - P.sampleOff) P.records
      let full := fun (s : State) =>
        if later.isEmpty || x.done then s
        else
          let mark := s.pnx.streams.map (fun y => if y.id = x.id then { y with done := true } else y)
          ({ s with pnx := { s.pnx with streams := mark } }).herdEvent 0x01 [x.id]
      if now.isEmpty then full s
      else
        let bs := now.flatten
        let job : Sending := { stream := x.id, off := P.sampleOff, data := some bs, addr := 0, len := bs.length, sent := 0 }
        let s := s.onProg g (fun P => { P with records := later, sampleOff := P.sampleOff + bs.length })
        full { s with pnx := { s.pnx with sending := some job,
                                          send := BitVec.ofNat 64 (x.id.toNat * 2 ^ 48 + bs.length % 2 ^ 48) } }.pumpAll

/-- Send what every program holds, the lowest first. -/
def State.sendAll (s : State) : State := (List.finRange 4).foldl State.sendRecords s

/-- Append records of a program as one batch, padded with filler to 64 bytes; a record whose NTH lies below the request's sent count
is not sent again (15 R365). Tokens sent and requests ended count. -/
def State.emit (s : State) (g : Fin 4) (rs : List Sample) : State :=
  match s.prog g with
  | none => s
  | some P =>
    let fresh := rs.filter (fun r => P.sentOf r.id ≤ r.nth)
    if fresh.isEmpty then s else
    let sent := fresh.foldl (fun l r => l.filter (fun x => x.1 != r.id) ++ [(r.id, r.nth + 1)]) P.sent
    let s := s.onProg g (fun P => { P with records := P.records ++ [padTo 64 (fresh.flatMap Sample.bytes)], sent })
    let s := { s with herd := { s.herd with
      tokens := s.herd.tokens + BitVec.ofNat 64 (fresh.filter Sample.real).length,
      reqDone := s.herd.reqDone + BitVec.ofNat 64 (fresh.filter Sample.last).length } }
    s.sendRecords g

/-- The LAST record of a request that a cancel, a fault or an unbinding ends. -/
def endRecord (r : Request) (made reason : Nat) : Sample := ⟨r.id, 0xFFFFFFFF, made, reason⟩

/-! ### Ending requests (15 R355) -/

/-- Answer the cancels of a program that wait, with reason ENDED (9). -/
def State.answerEnded (s : State) (l : List (U64 × Option Frame)) : State :=
  l.foldl (fun s c => match c.2 with | some f => s.respond f 1 [9] | none => s) s

/-- End every live and queued request of a program: reason 5 FAULT, 6 UNBIND. Its training loop ends too. -/
def State.endAll (s : State) (g : Fin 4) (reason : Nat) : State :=
  match s.prog g with
  | none => s
  | some P =>
    let rs := P.tables.live.map (fun q => endRecord q.req q.made reason) ++ P.tables.queue.map (fun r => endRecord r 0 reason)
    let s := s.onProg g (fun P =>
      { P with cancels := [], replay := [], replayTo := 0, log := [],
               tables := { P.tables with queue := [], slots := P.tables.slots.map (fun _ => none), inChunk := none, train := none } })
    (s.emit g rs).answerEnded P.cancels

/-- End the queued requests that a test names, with reason CANCEL (4). -/
def State.cancelQueued (s : State) (g : Fin 4) (hit : Request → Bool) : State :=
  match s.prog g with
  | none => s
  | some P =>
    let rs := (P.tables.queue.filter hit).map (fun r => endRecord r 0 4)
    (s.onProg g (fun P => P.onTables (fun T => { T with queue := T.queue.filter (fun r => !hit r) }))).emit g rs

/-! ### Launches (09 R200, R211; 15 R349, R350, R353) -/

/-- Herd commits a launch record to a polder's queue. -/
def State.commit (s : State) (p : Pid) (l : BitVec 512) : State :=
  if s.tapHolds then s else
  (s.wakeQuad (quadOf p)).onSeq p (fun Q =>
    if 8 ≤ Q.queue.length then { Q with refused := true } else { Q with queue := Q.queue ++ [l] })

/-- The rows U that each sequence contributes to the stage of a launch: 1 when the program serves (12 R275, 15 R350, R353). -/
def rowsEach (P : Prog) (x : LaunchPlan) : Nat :=
  if P.training then ((P.plan.stages.find? (fun t => t.number.toNat == lField x.record 4 2)).map (·.rowsPer)).getD 1 else 1

/-- The record of a planned launch for n sequences or tokens in a step: FILL is the polder's share of the fill count n U (12 R275, R282),
EPOCH the step's count. -/
def launchRecord (P : Prog) (x : LaunchPlan) (n epoch : Nat) : BitVec 512 :=
  let fill := fillShare (n * rowsEach P x) (launchRows P.plan P.tables.slots.length P.m P.prefill x)
  setField (setField (setField x.record 24 1 1) 96 32 fill) 160 32 epoch

/-- Commit every launch of a plan that a test names, in the plan's order. -/
def State.launchAll (s : State) (P : Prog) (xs : List LaunchPlan) (n epoch : Nat) : State :=
  xs.foldl (fun s x => s.commit x.polder (launchRecord P x n epoch)) s

/-- The slots of a run that lie in banks that are OFF. -/
def offSlots (s : State) (a len : Nat) : List (Pid × Nat) :=
  (slotsOf [(a, len)]).filter (fun x => s.polders[x.1].terp.banks[bankIx x.2].power == 2)

/-- An access of the control port: it wakes a SLEEP bank, and at an OFF bank it sets OFF_ACCESS (11 R245). -/
def State.portTouch (s : State) (a len : Nat) : State :=
  (slotsOf [(a, len)]).foldl (fun s x =>
    let b := bankIx x.2
    if s.polders[x.1].terp.banks[b].power = 2 then s.onTerp x.1 (fun T => { T with status := T.status ||| 8 })
    else if s.polders[x.1].terp.banks[b].power = 1 then s.wakeBank x.1 b
    else s) s

/-- Herd writes bytes: nothing reaches an OFF bank (11 R245). -/
def State.portPut (s : State) (a : Nat) (bs : List Byte) : State :=
  let off := offSlots s a bs.length
  let s := s.portTouch a bs.length
  if off.isEmpty then s.putBytes a bs
  else bs.zipIdx.foldl (fun s (b, i) => if (slotsOf [(a + i, 1)]).any (fun x => off.contains x) then s else s.putByte (a + i) b) s

/-- Herd reads bytes: an OFF bank reads 0 (11 R245). -/
def portBytes (s : State) (a n : Nat) : List Byte :=
  let off := offSlots s a n
  if off.isEmpty then s.bytes a n
  else (List.range n).map (fun i => if (slotsOf [(a + i, 1)]).any (fun x => off.contains x) then 0 else s.byte (a + i))

/-- Write a program's page directories: for each slot the address of every page group of the sequence in it (15 R349). -/
def State.directories (s : State) (P : Prog) : State :=
  P.plan.directory.foldl (fun s (_, base, k) =>
    P.tables.slots.zipIdx.foldl (fun s (q, i) =>
      let groups := match q with | some q => q.pages | none => []
      s.portPut (base.toNat + 8 * k * i) ((List.range k).flatMap (fun j =>
        leBytes 8 (match groups[j]? with | some x => P.poolBase + 65536 * x.1 | none => 0)))) s) s

/-- DECODE sequences of micro-batch b. -/
def Prog.decodeIn (P : Prog) (b : Nat) : List LiveSeq :=
  (((P.tables.slots.drop (b * P.perBatch)).take P.perBatch).filterMap id).filter LiveSeq.decode

/-- Commit the decode launches of micro-batch b, and the prefill launches of the chunk in the pipeline if `chunk`. -/
def State.launchStep (s : State) (P : Prog) (b : Nat) (chunk : Bool) : State :=
  let s := s.launchAll P (P.plan.launches.filter (fun x => !x.prefill && x.microBatch == b)) (P.decodeIn b).length
    (P.tables.steps.getD b 0)
  match P.tables.inChunk with
  | some (_, n) => if chunk then s.launchAll P (P.plan.launches.filter LaunchPlan.prefill) n P.tables.chunks else s
  | none => s

/-! ### Rollback points (15 R364; 17 R404) -/

/-- The count of every weir a program claims. -/
def weirCounts (s : State) (g : Fin 4) : List (Nat × U32) :=
  (s.claimedWeirs.filter (fun x => x.1 == g)).flatMap (fun x =>
    (List.range x.2.2).map (fun i => (x.2.1 + i, (s.weir (x.2.1 + i)).count)))

/-- A checkpoint of a program commits: its tables, its weirs' counts and, for training, its ranges are kept; the remap tables go to
flash; a module with a failed channel leaves service, and sites that wait for replacement are replaced now. -/
def State.rollbackPoint (s : State) (g : Fin 4) : State :=
  let weirs := weirCounts s g
  let s := s.onProg g (fun P =>
    { P with saved := P.tables, savedWeirs := weirs, log := [], older := some ⟨P.saved, P.savedWeirs, P.savedBytes, P.log⟩,
             savedBytes := if P.training then P.plan.ckptRanges.map (fun r => (r.1.toNat, portBytes s r.1.toNat r.2)) else [],
             sent := P.sent.filter (fun x => P.tables.live.any (fun q => q.req.id == x.1) || P.tables.queue.any (fun r => r.id == x.1)) })
  let s := { s with flash := { s.flash with remaps := s.mc.toList.map Mc.remap,
                                            retired := (List.finRange 36).filter (fun n => s.disc.state[n] == 2) },
                    herd := { s.herd with outOfService := s.herd.outOfService || s.mc.any (fun c => !c.failed.isEmpty) } }
  if s.integ.planned.isEmpty then s else s.startRollback .planned

/-- Log a command since the rollback point. -/
def State.logOp (s : State) (g : Fin 4) (n : Nat) (o : LogOp) : State := s.onProg g (fun P => { P with log := P.log ++ [(n, o)] })

/-! ### The HERD block (15 R366) -/

def herdStatus (s : State) : U32 :=
  let bits := fun (f : Prog → Bool) => ((s.bound.filter (fun x => f x.2)).map (fun x => 2 ^ x.1.val)).sum
  BitVec.ofNat 32 ((s.bound.map (fun x => x.2.tables.live.length)).sum * 2 ^ 17 + s.bound.length * 2 ^ 14
    + bits Prog.stopped * 2 ^ 10 + bits (fun P => P.tables.train.isSome) * 2 ^ 6
    + (if s.herd.events.isEmpty then 0 else 2) + (if s.herd.ready && s.pnx.job.isSome then 1 else 0))

/-- The registers of the block, offset 0x00 first: the image of STATS_READ. -/
def herdImage (s : State) : List Byte :=
  leBytes 4 (herdStatus s).toNat ++ leBytes 4 s.queued ++ leBytes 8 (s.bound.map (fun x => x.2.freePages)).sum
  ++ leBytes 8 s.herd.reqDone.toNat ++ leBytes 8 s.herd.refused.toNat ++ leBytes 8 s.herd.tokens.toNat
  ++ leBytes 8 s.herd.steps.toNat ++ leBytes 8 s.herd.rollbacks.toNat ++ leBytes 8 s.herd.lost.toNat

end Sys2Proof.Machine
end

