-- ==== Sys2Proof/Machine/Recompress.lean ====
section
/-! DEFINITION. Recompression in training (15 R363): the base codebook of a tensor by Lloyd's algorithm, and the masks of a transposable
2:4 weight. Both are Herd's own arithmetic on INT16 master elements; the fill and the codes are the polders' (06 R113, R115). -/

namespace Sys2Proof.Machine

/-! ### The codebook -/

/-- The INT16 elements of a master tensor that a list of indices names. -/
def mastersAt (s : State) (a : Nat) (ixs : List Nat) : List Int :=
  ixs.map (fun i => (BitVec.ofNat 16 (leNat (portBytes s (a + 2 * i) 2))).toInt)

/-- Whether an INT16 value is the overflow code of the format, which no cell takes (02 R24). -/
def int16Ovf (x : Int) : Bool := x == -32768

/-- The cell of a value among the entries: the nearest, ties as 02 R35 has them; an entry that is the overflow code is no candidate. -/
def cellOf16 (es : List Int) (x : Int) : Option Nat :=
  (nearest (Dy.ofInt x) ((es.zipIdx.filter (fun e => !int16Ovf e.1)).map (fun e => (e.2, Dy.ofInt e.1)))).map (·.1)

/-- The centroid of a cell rounded to nearest, ties to even (DESIGN CHOICE, log entry 63); an empty cell keeps its entry. -/
def centroid (keep : Int) (xs : List Int) : Int :=
  if xs.isEmpty then keep
  else
    let t := xs.sum
    let q : Int := rneDiv t.natAbs xs.length
    if t < 0 then -q else q

/-- One round of Lloyd's algorithm: every value goes to its cell, and every entry to the centroid of its cell. -/
def lloydRound (xs : List Int) (es : List Int) : List Int :=
  let cells := xs.map (fun x => (cellOf16 es x, x))
  es.zipIdx.map (fun e => centroid e.1 ((cells.filter (fun c => c.1 == some e.2)).map (·.2)))

/-- Rounds of Lloyd's algorithm. -/
def lloyd (xs : List Int) : Nat → List Int → List Int
  | 0, es => es
  | n + 1, es => lloyd xs n (lloydRound xs es)

/-- The base codebook of a tensor: eight rounds over every 256th master element from the previous codebook (15 R363). -/
def baseCodebook (s : State) (x : Recomp) : List Int :=
  let xs := mastersAt s x.master.toNat ((List.range ((x.count + 255) / 256)).map (256 * ·))
  lloyd (xs.filter (fun v => !int16Ovf v)) 8 (mastersAt s x.codebook.toNat (List.range x.entries))

/-! ### The masks -/

/-- The rows of a mask that hold two 1 bits. -/
def maskRows : List Nat := [3, 5, 6, 9, 10, 12]

/-- The 90 masks that 07 R146 allows. -/
def allowedMasks : List (BitVec 16) :=
  (maskRows.flatMap (fun a => maskRows.flatMap (fun b => maskRows.flatMap (fun c => maskRows.map (fun d =>
    BitVec.ofNat 16 (a + 16 * b + 256 * c + 4096 * d)))))).filter maskOk

/-- The sum of the magnitudes that a mask keeps; `mags` in bit order. -/
def keptSum (mags : List Nat) (m : BitVec 16) : Nat := (mags.zipIdx.map (fun (v, k) => if m.getLsbD k then v else 0)).sum

/-- Of two masks the one with the larger kept sum, and of equals the lower (15 R363). -/
def betterMask (mags : List Nat) (a b : BitVec 16) : BitVec 16 :=
  let x := keptSum mags a
  let y := keptSum mags b
  if x < y ∨ (x = y ∧ b.toNat < a.toNat) then b else a

/-- The mask of a block. -/
def chooseMask (mags : List Nat) : BitVec 16 :=
  match allowedMasks with
  | [] => 0
  | m :: t => t.foldl (betterMask mags) m

/-- The magnitudes of a block of 4 positions and 4 columns in bit order; 0 past the tensor's edge. Element (pos, col) of a tensor of K
positions is number pos + K col (02 R36). -/
def blockMags (s : State) (master k n pb cb : Nat) : List Nat :=
  (List.range 16).map (fun j =>
    let pos := 4 * pb + j / 4
    let col := 4 * cb + j % 4
    if pos < k ∧ col < n then ((mastersAt s master [pos + k * col]).headD 0).natAbs else 0)

/-- The mask tensor of a transposable weight, one 16-bit word per block, by column block and then by position block (07 R146). -/
def masksOf (s : State) (master k n : Nat) : List (BitVec 16) :=
  (List.range ((n + 3) / 4)).flatMap (fun cb => (List.range ((k + 3) / 4)).map (fun pb => chooseMask (blockMags s master k n pb cb)))

/-! ### One tensor -/

/-- What Herd writes at the recompression of a tensor's owned shard: the codebook from which qz.cbk fills the bank, and for a transposable
weight the masks for qz.quant. -/
def State.recompress (s : State) (x : Recomp) : State :=
  let es := baseCodebook s x
  let s := s.portPut x.codebook.toNat (es.flatMap (fun e => leBytes 2 (BitVec.ofInt 16 e).toNat))
  match x.mask with
  | none => s
  | some (a, k, n) => s.portPut a.toNat ((masksOf s x.master.toNat k n).flatMap (fun m => leBytes 2 m.toNat))

end Sys2Proof.Machine
end

