-- ==== Sys2Proof/Machine/Sample.lean ====
section
/-! DEFINITION. The sampling head (15 R355, R356, Table 15-6; 05 R101, R102): ranks, LG8 probabilities, kept ranks and the choice.
A probability code 0x80 has no Q in the manual: `open_` stands for it (DESIGN CHOICE, log entry 3). -/

namespace Sys2Proof.Machine

/-- x_i = z_i / TEMP in BF16, TEMP above 0. -/
def scaled (temp z : BitVec 16) : BitVec 16 :=
  if bfIsNan z then bfNan
  else if bfIsInf z then z
  else if bfIsZero z then bfZero (bfNeg z)
  else
    let (a, b) := (bfDy z).frac
    let (c, d) := (bfDy temp).frac
    roundBf (bfNeg z) (a * d) (b * c)

/-- Whether token value x ranks before y: the larger; a NaN outranks every value (08 R181). -/
def ranksBefore (x y : BitVec 16) : Bool := if bfIsNan x then !bfIsNan y else !bfIsNan y && bfLt y x

/-- Put a token in its place by rank; of equals the one that stands in the list first stays first. -/
def rankIns (t : Nat × BitVec 16) : List (Nat × BitVec 16) → List (Nat × BitVec 16)
  | [] => [t]
  | u :: rest => if ranksBefore t.2 u.2 then t :: u :: rest else u :: rankIns t rest

/-- Tokens in rank order, ties to the lower id. -/
def ranked (xs : List (BitVec 16)) : List (Nat × BitVec 16) :=
  (xs.zipIdx.map (fun (x, i) => (i, x))).foldl (fun l t => rankIns t l) []

/-- Q of a probability code. -/
def probQ (open_ : Nat) (c : BitVec 8) : Nat :=
  if c = 0 then 0
  else if lgNeg c then open_
  else fracRne (pow2Fix ((lgE c - 64) * 512) 24)

/-- The LG8 softmax of a row: the probability codes of the values given (05, softmax after R102). -/
def softmax (xs : List (BitVec 16)) (m : BitVec 16) : List (BitVec 8) :=
  let es := xs.map (fun x => (lgExp (bfSub x m)).1)
  let pn := lsumPN { walked := true, elems := es.map (fun e => some e.toNat) }
  let sum := if es.all (· == 0) then 0 else (logSum pn.1 pn.2).1.1
  es.map (fun e => (lgDiv e sum).1)

/-- The shortest leading run whose sum is at least p times the total, for p = a / b. -/
def leadingRun (a b total : Nat) : Nat → List Nat → List Nat
  | acc, l =>
    if a * total ≤ acc * b then []
    else match l with
      | [] => []
      | q :: t => q :: leadingRun a b total (acc + q) t

/-- The first rank whose running sum exceeds a value. -/
def firstOver (v : Nat) : Nat → List Nat → Option Nat
  | _, [] => none
  | acc, q :: t => if v < acc + q then some 0 else (firstOver v (acc + q) t).map (· + 1)

/-- The place of the chosen rank among the kept ones: floor(U W / 2^32) against the running sums; rank 0 where W is 0. -/
def choose (u : Nat) (kept : List Nat) : Nat := (firstOver (u * kept.sum / 2 ^ 32) 0 kept).getD 0

/-- The kept ranks' Q in rank order (15 Table 15-6). -/
def keptRanks (mode topK : Nat) (topP : BitVec 16) (qs : List Nat) : List Nat :=
  if mode = 1 then qs
  else if mode = 2 then qs.take topK
  else
    let top := qs.take 4096
    let (a, b) := (bfDy topP).frac
    leadingRun a b top.sum 0 top

/-- Rank 0 of a greedy row, as ru.argmax gives it (08 R181). -/
def greedyToken (zs : List (BitVec 16)) : Nat :=
  ((extreme 0 true (zs.zipIdx.map (fun (z, i) => (i, z.toNat)))).map (·.1)).getD 0

/-- The token of a row of logits: mode, TEMP, TOP_P, TOP_K, the draw U. -/
def sampleToken (open_ mode : Nat) (temp topP : BitVec 16) (topK u : Nat) (zs : List (BitVec 16)) : Nat :=
  if mode = 0 ∨ bfIsZero temp then greedyToken zs
  else
    let xs := zs.map (scaled temp)
    let order := ranked xs
    let m := (order.head?.map (·.2)).getD 0
    let ps := softmax xs m
    let qs := order.map (fun (i, _) => probQ open_ (ps.getD i 0))
    ((order[choose u (keptRanks mode topK topP qs)]?).map (·.1)).getD 0

/-- The stream id of sampling draws: program p, and 1 for prefill draws (15 R356). -/
def sampleSid (g : Fin 4) (prefill : Bool) : U32 := BitVec.ofNat 32 (0x30000000 + 0x10000 * g.val + (if prefill then 1 else 0))

end Sys2Proof.Machine
end

