-- ==== Sys2Proof/Machine/Service.lean ====
section
/-! DEFINITION. The commands of the node that Herd serves: jobs and streams (14 R316, R319), models and programs, requests, training
runs, and the reads (15 R344-R348, R355, R359, R360, R366; 11 R249). -/

namespace Sys2Proof.Machine

open Host (Outcome)

/-! ### Binding and unbinding (09 R193, R207; 11 R249; 15 R344) -/

/-- Set every bank that a range of a scratchpad covers and that is OFF to ON, zero-filled (11 R242, R249). -/
def State.powerBanks (s : State) (p : Pid) (off len : Nat) : State :=
  (List.finRange 44).foldl (fun s b =>
    if s.polders[p].terp.banks[b].power = 2 && overlap (0x800000 * b.val) 0x800000 off len then
      (s.clearBank p b).onTerp p (fun T => T.onBank b (fun y => { y with power := 0, busy := false }))
    else s) s

/-- Power the OFF banks under a region. -/
def State.powerRegion (s : State) (r : Region) : State :=
  match place r.base.toNat with
  | .scratch p off => s.powerBanks p off (r.pages.toNat * 4096)
  | _ => s

/-- Whether two regions of different programs may not stand together (11 R249). -/
def regionsClash (a b : Region) : Bool :=
  (a.perm.getLsbD 1 || b.perm.getLsbD 1)
  && overlap a.base.toNat (a.pages.toNat * 4096) b.base.toNat (b.pages.toNat * 4096)

/-- The regions that a binding claims: those of the plan and the KV pool, as a write region (15 R348). -/
def bindRegions (plan : BindPlan) (poolBase poolLen : Nat) : List Region :=
  ((planHolds plan).flatMap (fun x => x.2.regions)).eraseDups ++ (if poolLen = 0 then [] else
    [{ base := BitVec.ofNat 64 poolBase, pages := BitVec.ofNat 32 (poolLen / 4096), perm := 3 }])

/-- The weir ranges that a binding claims. -/
def bindWeirs (plan : BindPlan) : List (BitVec 16 × BitVec 16) := ((planHolds plan).flatMap (fun x => x.2.weirs)).eraseDups

/-- The first polder that a binding may not claim: one that is held, or that a reach of the program holds already (01 R21, 09 R208). -/
def heldPolder (s : State) : List Pid → List Pid → Option Pid
  | _, [] => none
  | mine, p :: t => if s.ownerOf p.val ≠ 0 ∨ p ∈ mine then some p else heldPolder s (p :: mine) t

/-- Why a binding fails, if it does, with INFO: LEVEL_UNSUPPORTED (09 R189), RESOURCE_HELD of a program number, a polder, a region or a
weir range (01 R21; 09 R193, R207, R208; 11 R249), or the tiler cannot fit it or S is no multiple of m (12 R283, R285), which names no
fault. -/
def bindFault (s : State) (g : Fin 4) (plan : BindPlan) (slots prefill : Nat) (regions : List Region) : Option (Byte × Nat) :=
  if (s.prog g).isSome then some (0x05, 0)
  else if plan.level.toNat = 0 ∨ 3 < plan.level.toNat then some (0x02, plan.level.toNat)
  else match heldPolder s [] (planPolders plan) with
    | some p => some (0x05, p.val)
    | none =>
      if regions.any (fun r => s.claimedRegions.any (fun c => regionsClash r c.2))
        || (bindWeirs plan).any (fun w => s.claimedWeirs.any (fun c => overlap w.1.toNat w.2.toNat c.2.1 c.2.2)) then some (0x05, 0xFF)
      else if slots % microBatchesOf plan ≠ 0 || !planFits plan slots prefill then some (0, 0)
      else none

/-- Whether a binding succeeds. -/
def bindFits (s : State) (g : Fin 4) (plan : BindPlan) (slots prefill : Nat) (regions : List Region) : Bool :=
  (bindFault s g plan slots prefill regions).isNone

/-- Write the owner of the polders' entries. -/
def State.ownPolders (s : State) (ps : List Pid) (o : BitVec 4) : State :=
  ps.foldl (fun s p => s.setOwner ⟨p.val, by have := p.isLt; omega⟩ o) s

/-- Release the polders' entries that their owner holds (09 R208). -/
def State.freePolders (s : State) (ps : List Pid) (o : BitVec 4) : State :=
  ps.foldl (fun s p => s.freeEntry ⟨p.val, by have := p.isLt; omega⟩ o) s

/-- The residency range of a program's pool in all four caches: range n for program n, NO_ALLOCATE (13 R297, 15 R348). -/
def State.poolRange (s : State) (g : Fin 4) (poolBase poolLen : Nat) (on : Bool) : State :=
  let n : Fin 16 := ⟨g.val, by have := g.isLt; omega⟩
  let lim := BitVec.ofNat 64 ((poolBase + poolLen - 1) / 2048 * 2048)
  { s with msc := s.msc.map (fun c =>
      if on then (c.rangeWrite n false (BitVec.ofNat 64 poolBase)).rangeWrite n true (lim ||| 0xA000000000000000)
      else c.rangeWrite n true (c.lim[n] &&& 0xDFFFFFFFFFFFFFFF)) }

/-- What the tiler's output depends on (12 R269). -/
def tilerKey (s : State) (model : U32) (training : Bool) (slots tMax prefill : Nat) : TilerKey :=
  { model := (s.herd.models.find? (fun m => m.1 == model)).getD (model, 0, 0), training, slots, tMax, prefill,
    coolClass := s.pm.coolClass, opMax := s.disc.opMax, map := s.disc.siteOf }

/-- The tiler gives the same output for the same inputs (12 R269): what it has emitted for a key, or else the plan that comes now. -/
def tiledPlan (s : State) (k : TilerKey) (plan : BindPlan) : BindPlan :=
  ((s.herd.tiled.find? (fun x => x.1 == k)).map (·.2)).getD plan

/-- Remember what the tiler has emitted. -/
def State.noteTiled (s : State) (k : TilerKey) (plan : BindPlan) : State :=
  if s.herd.tiled.any (fun x => x.1 == k) then s else { s with herd := { s.herd with tiled := s.herd.tiled ++ [(k, plan)] } }

/-- Put what the tiler gives in place: images, code, parameter blocks, stage records and their bases, the refetch table, the sampling key,
the member sets (09 R193; 12 R269). -/
def State.placePlan (s : State) (g : Fin 4) (P : Prog) : State :=
  let plan := P.plan
  let s := plan.images.foldl (fun s x => s.portPut x.1.toNat x.2) s
  let s := (planImages plan g.val P.tables.slots.length P.prefill).foldl (fun s x => s.portPut x.1 x.2) s
  let s := (planHolds plan).foldl (fun s x => s.onSeq x.1 (fun Q => { Q with stageBase := x.2.stageBase })) s
  let s := (planPolders plan).foldl (fun s p => s.onPolder p (fun Q => { Q with qz := { Q.qz with keys := Q.qz.keys.set 15 P.key } })) s
  let s := plan.refetch.foldl (fun s (p, n, src, mst) =>
    { s with integ := { s.integ with rfSrc := s.integ.rfSrc.set p (s.integ.rfSrc[p].set n src),
                                     rfMst := s.integ.rfMst.set p (s.integ.rfMst[p].set n mst) } }) s
  plan.sets.foldl (fun s x =>
    let members := (x.2.foldl (fun l m => sins (memberRank m) m l) []).map (·.2)
    { s with herd := { s.herd with sets := sput [] s.herd.sets x.1.toNat members } }) s

/-- A program without a SAMPLES stream takes the first open one that no program uses (15 R357; DESIGN CHOICE, log entry 33). -/
def State.attachSamples (s : State) : State :=
  (List.finRange 4).foldl (fun s g =>
    match s.prog g with
    | none => s
    | some P =>
      if P.sampleStream.isSome then s else
      match s.pnx.streams.find? (fun x => x.type == 2 && s.bound.all (fun y => y.2.sampleStream != some x.id)) with
      | some x => s.onProg g (fun P => { P with sampleStream := some x.id, sampleOff := 0 })
      | none => s) s

/-- Bind a program: everything it claims and what Herd writes for it; its phases' samples are cleared (16 R381). -/
def State.bind (s : State) (g : Fin 4) (P : Prog) (regions : List Region) : State :=
  let s := regions.foldl State.powerRegion s
  let s := s.ownPolders (planPolders P.plan) (progOwner g)
  let weirs : List (Fin 4 × Nat × Nat) := (bindWeirs P.plan).map (fun (a, n) => (g, a.toNat, n.toNat))
  let s := { s with claimedRegions := s.claimedRegions ++ regions.map (fun r => (g, r)),
                    claimedWeirs := s.claimedWeirs ++ weirs }
  let s := (if P.poolLen = 0 then s else s.poolRange g P.poolBase P.poolLen true).placePlan g P
  let phases := s.pm.phases[g].map (fun (x : Phase) => ({ pref := x.pref } : Phase))
  let s := { s with pm := { s.pm with phases := s.pm.phases.set g phases },
                    herd := { s.herd with progs := s.herd.progs.set g (some P) } }
  (s.onProg g (fun P => { P with saved := P.tables, savedWeirs := weirCounts s g })).attachSamples

/-- Release the timers of a program (10 R221). -/
def State.dropTimers (s : State) (g : Fin 4) : State :=
  (List.finRange 16).foldl (fun s n =>
    if s.owner (timerEntry n) = progOwner g then (s.setOwner (timerEntry n) 0).onTimer n (fun T => { T with armed := false })
    else s) s

/-- Unbind a program: its requests end with reason UNBIND, its tasks stop, and everything it claimed is free. -/
def State.unbind (s : State) (g : Fin 4) : State :=
  match s.prog g with
  | none => s
  | some P =>
    let s := s.endAll g 6
    let s := (planPolders P.plan).foldl (fun s p => (s.seqAbort p).seqFlush p) s
    let s := (s.freePolders (planPolders P.plan) (progOwner g)).dropTimers g
    let s := if P.poolLen = 0 then s else s.poolRange g P.poolBase P.poolLen false
    let zero : Vector U64 16 := Vector.replicate 16 0
    let s := (planPolders P.plan).foldl (fun s p =>
      { s with integ := { s.integ with rfSrc := s.integ.rfSrc.set p zero, rfMst := s.integ.rfMst.set p zero } }) s
    let s := { s with claimedRegions := s.claimedRegions.filter (fun x => x.1 != g),
                      claimedWeirs := s.claimedWeirs.filter (fun x => x.1 != g),
                      herd := { s.herd with progs := s.herd.progs.set g none } }
    if s.unused then { s with pm := { s.pm with idleSince := s.tb } } else s

/-! ### Jobs (14 R316, R322, R327; 16 R377; 17 R407) -/

/-- What a job's opening or closing leaves of the cadence: no announcement, no cap, no lock of others; a trip of this module still
holds. -/
def Cad.fresh (c : Cad) (coord extents : BitVec 12) (locked tripped : Bool) (point : Nat) : Cad :=
  { coord, extents, locked, targetOp := point, announces := c.announces, late := c.late, reparent := c.reparent,
    halts := c.halts, seq := c.seq, epoch := c.epoch, sent := c.sent, haltAt := c.haltAt, exchangeAt := c.exchangeAt,
    haltsHeld := if tripped then [coord] else [] }

/-- Take up a new cadence: the needs in force are announced again. -/
def State.renewCad (s : State) (coord extents : BitVec 12) (locked : Bool) : State :=
  let s := { s with cad := s.cad.fresh coord extents locked s.pm.halted 0, holdWaits := s.pm.halted }
  s.refreshCap

/-- JOB_OPEN: refused while a job is open, and by a module that takes no more jobs. -/
def execJobOpen (s : State) : Outcome State Fault Refusal := herdCommand 0x01 s fun f s =>
  let x := fun i => plNum f i 1
  if !plForm f 14 (fun i => i < 14) || 16 ≤ x 8 || 16 ≤ x 9 || 16 ≤ x 10
    || !([11, 12, 13].all (fun i => 1 ≤ x i && x i ≤ 16 && x (i - 3) < x i)) then malformed s
  else if s.pnx.job.isSome || s.herd.noJobs || s.herd.outOfService then refusedPlain s
  else
    let coord := mkCoord (x 8) (x 9) (x 10)
    let leader := coord == 0
    let ports := s.wlv.map (fun w => { w with peerValid := false, miscabled := false, peer := 0 })
    let pm := { s.pm with energyJob := 0, fracJob := 0, jobFrom := some s.tb, jobTo := none }
    let s := { s with pnx := { s.pnx with job := some (BitVec.ofNat 64 (plNum f 0 8)) }, wlv := ports, pm }
    let s := s.renewCad coord (mkCoord (x 11 - 1) (x 12 - 1) (x 13 - 1)) leader
    let s := { s with cad := { s.cad with parent := if leader then none else chooseParent s } }
    done (if leader then s.announce 1 (classOpMax s.pm.coolClass) else s)

/-- JOB_CLOSE: Herd unbinds every program and closes every window and stream; another job id is refused. -/
def execJobClose (s : State) : Outcome State Fault Refusal := herdCommand 0x02 s fun f s =>
  if !plForm f 8 (fun i => i < 8) then malformed s
  else if s.pnx.job ≠ some (BitVec.ofNat 64 (plNum f 0 8)) then refusedPlain s
  else
    let s := (List.finRange 4).foldl State.unbind s
    let closed := s.polders.map (fun P =>
      { P with terp := { P.terp with windows := P.terp.windows.map (fun w => { w with isOpen := false }) } })
    let s := { s with polders := closed, pnx := { s.pnx with job := none, streams := [], sending := none },
                      herd := { s.herd with models := [], sets := [], cxCount := [], tiled := [] },
                      pm := { s.pm with jobTo := some s.tb, idleSince := s.tb } }
    done (s.renewCad 0 0 true)

/-! ### Streams (14 R319) -/

/-- Whether a range of addresses is mapped (09 R209). -/
def mapped (a n : Nat) : Bool := place a != .unmapped && (unmappedIn (a, n)).isNone

/-- STREAM_OPEN (14 Table 14-5). A SAMPLES stream of the id that a program named resumes its sending (15 R357). -/
def execStreamOpen (s : State) : Outcome State Fault Refusal := herdCommand 0x03 s fun f s =>
  let base := plNum f 8 8
  let len := plNum f 16 8
  let id := BitVec.ofNat 8 (plNum f 0 1)
  let type := plNum f 1 1
  if !plForm f 24 (fun i => i < 4 || (8 ≤ i && i < 24)) || base % 64 ≠ 0 then malformed s
  else if (s.pnx.find id).isSome || type = 0 || 6 ≤ type || !mapped base len then refusedPlain s
  else
    let x : Stream := { id, type := BitVec.ofNat 8 type, weir := BitVec.ofNat 16 (plNum f 2 2), base := BitVec.ofNat 64 base,
                        length := BitVec.ofNat 64 len }
    let s := { s with pnx := { s.pnx with streams := s.pnx.streams ++ [x] } }
    let s := if type = 2 then
        (List.finRange 4).foldl (fun s g =>
          s.onProg g (fun P => if P.sampleStream = some id then { P with sampleOff := 0 } else P)) s
      else s
    done s.attachSamples.sendAll

/-- STREAM_CLOSE: a stream that is not open is refused. -/
def execStreamClose (s : State) : Outcome State Fault Refusal := herdCommand 0x04 s fun f s =>
  let id := BitVec.ofNat 8 (plNum f 0 1)
  if !plForm f 1 (fun i => i < 1) then malformed s
  else if (s.pnx.find id).isNone then refusedPlain s
  else
    let sending := match s.pnx.sending with
      | some x => if x.stream = id then none else some x
      | none => none
    done { s with pnx := { s.pnx with streams := s.pnx.streams.filter (fun x => x.id != id), sending } }

/-! ### Status (14 R316, R342) -/

/-- PNX_STATUS. -/
def pnxStatus (s : State) : U32 :=
  let q := s.pnx
  let b := fun (x : Bool) (n : Nat) => if x then 2 ^ n else 0
  (q.status &&& 0x31) ||| BitVec.ofNat 32 (q.sWidth * 2 ^ 8 + b q.job.isSome 7 + b q.sending.isSome 6 + b q.active 3
    + b q.c1Up 2 + b q.c0Up 1)

/-- The lowest CAP in force, 7 for none. -/
def Cad.lowestCap (c : Cad) : Nat := ((c.caps ++ c.lockCaps).map (·.2)).foldl min 7

/-- CAD_STATUS. -/
def cadStatus (s : State) : U32 :=
  let c := s.cad
  let b := fun (x : Bool) (n : Nat) => if x then 2 ^ n else 0
  BitVec.ofNat 32 (c.lowestCap * 2 ^ 20 + c.targetOp * 2 ^ 16 + s.disc.opNow.toNat * 2 ^ 12 + b (!c.haltsHeld.isEmpty) 3
    + b (c.coord == 0) 2 + b c.locked 1 + b c.cadence 0)

/-- STATUS_READ: PNX_STATUS, CAD_STATUS and the job id. -/
def execStatusRead (s : State) : Outcome State Fault Refusal := herdCommand 0x40 s fun f s =>
  if !plForm f 0 (fun _ => false) then malformed s
  else (s, some (0, leBytes 4 (pnxStatus s).toNat ++ leBytes 4 (cadStatus s).toNat ++ leBytes 8 (s.pnx.job.getD 0).toNat))

/-! ### Models and programs (15 R344, R359) -/

/-- MODEL_LOAD: a package that Herd's check accepts is recorded until JOB_CLOSE. -/
def execModelLoad (packageOk : Bool) (s : State) : Outcome State Fault Refusal := herdCommand 0x10 s fun f s =>
  if !plForm f 24 (fun i => i < 4 || (8 ≤ i && i < 24)) then malformed s
  else if s.pnx.job.isNone || !packageOk then refusedFor s 1
  else
    let id := BitVec.ofNat 32 (plNum f 0 4)
    let m := (id, BitVec.ofNat 64 (plNum f 8 8), BitVec.ofNat 64 (plNum f 16 8))
    done { s with herd := { s.herd with models := s.herd.models.filter (fun x => x.1 != id) ++ [m],
                                        tiled := s.herd.tiled.filter (fun x => x.1.model.1 != id) } }

/-- Whether the values of a PROG_BIND lie in their ranges (15 Table 15-2). -/
def bindForm (f : Frame) : Bool :=
  let s := plNum f 8 4
  let rows := plNum f 16 4
  plForm f 48 (fun i => i < 6 || (8 ≤ i && i < 20) || (24 ≤ i && i < 48))
  && plNum f 4 1 < 4 && plNum f 5 1 < 2 && 1 ≤ s && s ≤ 256 && 32 ≤ rows && rows ≤ 2048 && rows % 32 == 0
  && plNum f 40 8 % 65536 == 0

/-- PROG_BIND: the tiler's plan takes effect where everything fits; else nothing is claimed (09 R193, 12 R269, R285). -/
def execProgBind (plan : BindPlan) (s : State) : Outcome State Fault Refusal := herdCommand 0x11 s fun f s =>
  if !bindForm f then malformed s
  else
    let g : Fin 4 := Fin.ofNat 4 (plNum f 4 1)
    let slots := plNum f 8 4
    let model := BitVec.ofNat 32 (plNum f 0 4)
    let poolBase := plNum f 32 8
    let poolLen := plNum f 40 8
    let training := plNum f 5 1 == 1
    let tMax := plNum f 12 4
    let prefill := plNum f 16 4
    let k := tilerKey s model training slots tMax prefill
    let plan := tiledPlan s k plan
    let regions := bindRegions plan poolBase poolLen
    if s.pnx.job.isNone || !(s.herd.models.any (fun m => m.1 == model)) then refusedFor s 1
    else if 256 < s.slotSum + slots then refusedFor s 7
    else if s.herd.outOfService then refusedFor s 8
    else match bindFault s g plan slots prefill regions with
      | some x =>
        let s := if x.1 = 0x05 then s.claimRefused else s
        refusedFor { s with herd := { s.herd with bindFault := x } } 8
      | none =>
        let m := microBatchesOf plan
        let P : Prog := { model, training, tMax, prefill, key := BitVec.ofNat 64 (plNum f 24 8), poolBase, poolLen, plan, m,
                          estimate := planCycles plan slots prefill,
                          tables := { slots := List.replicate slots none, steps := List.replicate m 0 } }
        done ((s.noteTiled k plan).bind g P regions)

/-- A command whose payload is one program number, 0-3. -/
def onProgram (f : Frame) (s : State) (k : Fin 4 → Prog → Answer) : Answer :=
  if !plForm f 1 (fun i => i < 1) || 4 ≤ plNum f 0 1 then malformed s
  else
    let g : Fin 4 := Fin.ofNat 4 (plNum f 0 1)
    match s.prog g with
    | none => refusedFor s 1
    | some P => k g P

/-- PROG_UNBIND. -/
def execProgUnbind (s : State) : Outcome State Fault Refusal := herdCommand 0x12 s fun f s =>
  onProgram f s fun g _ => done (s.unbind g)

/-- PROG_RESTART: the STOPPED state ends, with every slot empty. -/
def execProgRestart (s : State) : Outcome State Fault Refusal := herdCommand 0x13 s fun f s =>
  onProgram f s fun g P =>
    if !P.stopped then done s
    else done (s.onProg g (fun P =>
      { P with stopped := false, tables := { P.tables with slots := P.tables.slots.map (fun _ => none), inChunk := none } }))

/-! ### Requests (15 R346-R348, R355, R356) -/

/-- Whether a REQ_SUBMIT is well formed (15 Table 15-4, R356). -/
def submitForm (f : Frame) : Bool :=
  let mode := plNum f 9 1
  let inline := plNum f 11 1 == 0
  let temp := BitVec.ofNat 16 (plNum f 20 2)
  let topP := BitVec.ofNat 16 (plNum f 22 2)
  let topK := plNum f 24 2
  let len := plNum f 12 4
  plForm f (if inline then 64 + 4 * len else 64)
    (fun i => i < 26 || i == 28 || (32 ≤ i && i < 64) || (inline && 64 ≤ i && i < 64 + 4 * len))
  && plNum f 8 1 < 4 && mode < 4 && plNum f 10 1 ≤ 8 && plNum f 11 1 < 2
  && (mode == 0 || !(bfIsNan temp || bfIsInf temp || (bfNeg temp && !bfIsZero temp)))
  && (mode != 3 || !(bfIsNan topP || bfNeg topP || bfIsZero topP || bfLt 0x3F80 topP))
  && (mode != 2 || (1 ≤ topK && topK ≤ 1024))

/-- The token ids at an address. -/
def tokensAt (s : State) (a n : Nat) : List U32 := (List.range n).map (fun i => BitVec.ofNat 32 (s.num (a + 4 * i) 4))

/-- The request of a REQ_SUBMIT; a prompt in a stream that has landed is read from it (15 R346). -/
def requestOf (s : State) (f : Frame) : Request :=
  let len := plNum f 12 4
  let inline := plNum f 11 1 == 0
  let stream := BitVec.ofNat 8 (plNum f 28 1)
  let landed := (s.pnx.streams.find? (fun x => x.id == stream && x.type == 1 && x.done))
  { id := BitVec.ofNat 64 (plNum f 0 8), mode := BitVec.ofNat 8 (plNum f 9 1),
    stops := (List.range (plNum f 10 1)).map (fun i => BitVec.ofNat 32 (plNum f (32 + 4 * i) 4)),
    promptLen := len, maxNew := plNum f 16 4, temp := BitVec.ofNat 16 (plNum f 20 2), topP := BitVec.ofNat 16 (plNum f 22 2),
    topK := plNum f 24 2, stream := if inline then none else some stream,
    prompt := if inline then (List.range len).map (fun i => BitVec.ofNat 32 (plNum f (64 + 4 * i) 4))
      else match landed with | some x => tokensAt s x.base.toNat len | none => [],
    landed := inline || landed.isSome }

/-- Whether a REQ_ID is that of a queued or live request. -/
def State.knownId (s : State) (id : U64) : Bool :=
  s.bound.any (fun x => x.2.tables.queue.any (fun r => r.id == id) || x.2.tables.live.any (fun q => q.req.id == id))

/-- The reason of the first check of 15 R347 that fails: NOT_BOUND, STOPPED, MODE, DUP_ID, TOO_LONG, NO_PAGES, QUEUE_FULL. -/
def submitRefusal (s : State) (g : Fin 4) (r : Request) : Option Byte :=
  match s.prog g with
  | none => some 1
  | some P =>
    if P.stopped then some 6
    else if P.training then some 10
    else if r.id = 0 || s.knownId r.id then some 2
    else if r.promptLen = 0 || r.maxNew = 0 || P.tMax < r.promptLen + r.maxNew then some 3
    else if P.poolPages < pagesFor P.plan (r.promptLen + r.maxNew) then some 4
    else if 1024 ≤ s.queued then some 5
    else none

/-- Put a request into a program's queue. -/
def State.enqueue (s : State) (g : Fin 4) (r : Request) : State :=
  s.onProg g (fun P => P.onTables (fun T => { T with queue := T.queue ++ [r] }))

/-- REQ_SUBMIT: checked in the order of 15 R347 and queued; it waits while a rollback is replayed (15 R365). -/
def execReqSubmit (s : State) : Outcome State Fault Refusal :=
  if s.integ.rolling || s.bound.any (fun x => x.2.replaying) then .next s else herdCommand 0x20 s fun f s =>
  if !submitForm f then malformed s
  else
    let g : Fin 4 := Fin.ofNat 4 (plNum f 8 1)
    let r := requestOf s f
    match submitRefusal s g r with
    | some c => refusedFor s c
    | none =>
      let n := match s.prog g with | some P => P.tables.boundaries | none => 0
      done ((s.logOp g n (.submit r)).enqueue g r)

/-- A cancel reaches a program: at once for a queued request, at the next boundary of its micro-batch for a live one. -/
def State.cancelIn (s : State) (g : Fin 4) (id : U64) (f : Option Frame) : State :=
  match s.prog g with
  | none => s
  | some P =>
    if P.tables.queue.any (fun r => r.id == id) then
      let s := s.cancelQueued g (fun r => r.id == id)
      match f with | some f => s.respond f 0 [] | none => s
    else s.onProg g (fun P => { P with cancels := P.cancels ++ [(id, f)] })

/-- REQ_CANCEL: answered at once for a queued request, at the boundary for a live one, refused with ENDED for any other (15 R351,
R355). -/
def execReqCancel (s : State) : Outcome State Fault Refusal :=
  if s.integ.rolling || s.bound.any (fun x => x.2.replaying) then .next s else herdCommand 0x21 s fun f s =>
  if !plForm f 8 (fun i => i < 8) then malformed s
  else
    let id := BitVec.ofNat 64 (plNum f 0 8)
    match s.bound.find? (fun x => x.2.tables.queue.any (fun r => r.id == id) || x.2.tables.live.any (fun q => q.req.id == id)) with
    | none => refusedFor s 9
    | some (g, P) =>
      let s := s.logOp g P.tables.boundaries (.cancel id none)
      if P.tables.queue.any (fun r => r.id == id) then done (s.cancelIn g id none)
      else (s.cancelIn g id (some f), none)

/-! ### Training runs (15 R344, R360, R364) -/

/-- Bytes of a training checkpoint that the reserve holds (15 R364). -/
def ckptLimit : Nat := 32180797440

/-- Whether a TRAIN_START is well formed (15 Table 15-7). -/
def trainForm (f : Frame) : Bool :=
  plForm f 64 (fun i => i < 28 || (32 ≤ i && i < 36)) && plNum f 0 1 < 4 && plNum f 2 1 < 64 && plNum f 3 1 < 2
  && 1 ≤ plNum f 8 4 && 1 ≤ plNum f 32 2 && 1 ≤ plNum f 34 2

/-- The run of a TRAIN_START. -/
def runOf (f : Frame) (number : Nat) : TrainRun :=
  { number, data := BitVec.ofNat 8 (plNum f 1 1), handle := BitVec.ofNat 6 (plNum f 2 1), external := plNum f 3 1 == 1,
    first := plNum f 4 4, steps := plNum f 8 4, step := plNum f 4 4, batch := plNum f 12 2, len := plNum f 14 2,
    hp := (f.payload.drop 16).take 12, recompEvery := plNum f 32 2, ckptEvery := plNum f 34 2,
    gradUnit := BitVec.ofNat 16 (plNum f 26 2) }

/-- TRAIN_START: refused with NOT_BOUND, STOPPED, MODE (a program bound without TRAIN, or one whose loop runs) or CKPT_SIZE. -/
def execTrainStart (s : State) : Outcome State Fault Refusal := herdCommand 0x28 s fun f s =>
  if !trainForm f then malformed s
  else
    let g : Fin 4 := Fin.ofNat 4 (plNum f 0 1)
    match s.prog g with
    | none => refusedFor s 1
    | some P =>
      let r := runOf f P.tables.runs
      if P.stopped then refusedFor s 6
      else if !P.training || P.tables.train.isSome then refusedFor s 10
      else if ckptLimit < P.plan.ckptBytes && !r.external then refusedFor s 11
      else
        done ((s.logOp g r.first (.start r)).onProg g (fun P =>
          P.onTables (fun T => { T with train := some r, runs := T.runs + 1 })))

/-- TRAIN_STOP: the loop ends after the step in progress is committed. -/
def execTrainStop (s : State) : Outcome State Fault Refusal := herdCommand 0x29 s fun f s =>
  onProgram f s fun g P =>
    match P.tables.train with
    | none => done s
    | some r => done ((s.logOp g r.step .stop).onProg g (fun P =>
        P.onTables (fun T => { T with train := some { r with stopAt := some r.step } })))

/-- STATS_READ: an image of the HERD block, for a program 0-3 or 0xFF. -/
def execStatsRead (s : State) : Outcome State Fault Refusal := herdCommand 0x30 s fun f s =>
  if !plForm f 1 (fun i => i < 1) || (4 ≤ plNum f 0 1 && plNum f 0 1 ≠ 0xFF) then malformed s
  else (s, some (0, herdImage s))

end Sys2Proof.Machine
end

