-- ==== Sys2Proof/Machine/Serve.lean ====
section
/-! DEFINITION. What Herd does on its own account: streams that come in and go out (14 R318-R320), the boundary of a micro-batch (15
R350-R357), faults (15 R359), the event log (15 R345) and training steps (15 R361, R362). -/

namespace Sys2Proof.Machine

open Host (Outcome)

/-! ### Inbound streams (14 R317-R320; 15 R346) -/

/-- Merge a landed range into rising, disjoint ranges. -/
def mergeRange (a b : Nat) : List (Nat × Nat) → List (Nat × Nat)
  | [] => [(a, b)]
  | (x, y) :: t => if b < x then (a, b) :: (x, y) :: t else if y < a then (x, y) :: mergeRange a b t
    else mergeRange (min a x) (max b y) t

/-- Change one open stream. -/
def State.onStream (s : State) (id : Byte) (f : Stream → Stream) : State :=
  { s with pnx := { s.pnx with streams := s.pnx.streams.map (fun x => if x.id = id then f x else x) } }

/-- A CREDIT packet leaves: a NAK of a packet, or the credits that wait. -/
def State.creditPacket (s : State) (lseq : U32) (nak : Bool) : State :=
  let (cred, q) := s.pnx.takeCred
  { s with pnx := q, reply := .stream (StreamPacket.seal { type := 0, stream := 0, len := 0, lseq, offset := 0, cred,
                                                           flags := if nak then 1 else 0, data := [] }) }

/-- A packet's bytes have left the receive buffer: its credits go back in a CREDIT packet: whatever is being
sent has gone as far as it can, so no data packet is about to carry them (14 R318; DEDUCED, log entry 35). -/
def State.creditOwed (s : State) (type n : Nat) : State :=
  let t : Fin 8 := Fin.ofNat 8 type
  let s := { s with pnx := { s.pnx with rxHeld := s.pnx.rxHeld.set t (s.pnx.rxHeld[t] + creditsOf n) } }
  s.creditPacket s.pnx.txLseq false

/-- A stream is closed for a fault: STREAM_FAULT, the event, and the end of a request that waits for it (14 R319, 15 R346). -/
def State.streamFault (s : State) (id : Byte) : State :=
  let s := { s with pnx := { s.pnx with streams := s.pnx.streams.filter (fun x => x.id != id), status := s.pnx.status ||| 1 } }
  let s := s.herdEvent 0x02 [id]
  (List.finRange 4).foldl (fun s g => s.cancelQueued g (fun r => r.stream == some id && !r.landed)) s

/-- STREAM_PACKET_ARRIVAL: a bad CRC draws a NAK; packets are taken in LSEQ order; CRED gives credits back and a NAK has them sent
again; a packet that the pool of its type has no room for stays with its sender (R318); data land at BASE + OFFSET, in scratchpad under the
tag rules, or are dropped and close the stream. -/
def execStreamPacketArrival (k : StreamPacket) (s : State) : Outcome State Fault Refusal :=
  if !s.running || s.pnx.sWidth = 0 then .next s
  else if !k.crcOk then .next (s.creditPacket k.lseq true)
  else
    let credited := fun (s : State) => if k.cred = 0 then s else s.creditBack (k.cred.toNat / 2 ^ 29) (k.cred.toNat % 2 ^ 29)
    if k.type = 0 then .next (if k.flags.getLsbD 0 then (credited s).replayFrom k.lseq else credited s)
    else if k.lseq ≠ s.pnx.rxLseq || (inboundType k.type && s.pnx.rxFree (Fin.ofNat 8 k.type.toNat) < creditsOf k.data.length) then .next s
    else
      let n := k.data.length
      let take := fun (s : State) =>
        (credited { s with pnx := { s.pnx with rxLseq := s.pnx.rxLseq + 1 } }).creditOwed k.type.toNat n
      match s.pnx.find k.stream with
      | none => .next (take (s.streamFault k.stream))
      | some x =>
        if x.type ≠ k.type || !inboundType x.type || x.length.toNat < k.offset.toNat + n then
          .next (take (s.streamFault k.stream))
        else
          let a := x.base.toNat + k.offset.toNat
          let slots := slotsOf [(a, n)]
          let s := s.wakeSlots slots
          match gate s true slots with
          | .error (.held s') => .next s'
          | .error _ => .next s
          | .ok () =>
            let s := (s.putBytes a k.data).slotEnds slots
            .next (take (s.onStream k.stream (fun x =>
              { x with landed := mergeRange k.offset.toNat (k.offset.toNat + n) x.landed })))

/-- A request that waits for a stream reads its prompt (15 R346). -/
def State.promptLands (s : State) (x : Stream) : State :=
  (List.finRange 4).foldl (fun s g => s.onProg g (fun P => P.onTables (fun T =>
    { T with queue := T.queue.map (fun r =>
        if r.stream = some x.id && !r.landed then { r with landed := true, prompt := tokensAt s x.base.toNat r.promptLen } else r) }))) s

/-- STREAM_DONE: every byte of an inbound stream is visible, so its weir is signalled by 1 and the event posted (14 R319). -/
def execStreamDone (id : Byte) (s : State) : Outcome State Fault Refusal :=
  if !s.running then .next s else
  match s.pnx.find id with
  | none => .next s
  | some x =>
    let covered := x.length = 0 || x.landed == [(0, x.length.toNat)]
    if x.done || !inboundType x.type || !covered then .next s
    else
      let s := s.onStream id (fun x => { x with done := true })
      let s := if x.weir = 0xFFFF then s else { s with flight := s.flight ++ [(x.weir.toNat, 1)] }
      .next ((s.herdEvent 0x01 [id]).promptLands x)

/-- STREAM_SEND_DONE: an outbound stream has sent all its bytes, SEND_BUSY clears, and Herd sends what it holds. -/
def execStreamSendDone (s : State) : Outcome State Fault Refusal :=
  match s.pnx.sending with
  | none => .next s
  | some x =>
    if !s.running || x.sent < x.len then .next s
    else .next { s with pnx := { s.pnx with sending := none } }.sendAll

/-! ### The event log (15 R345) -/

/-- EVENT_LOG_SEND: the oldest event moves into the send buffer when it has room. -/
def execEventLogSend (s : State) : Outcome State Fault Refusal :=
  match s.herd.events with
  | [] => .next s
  | (code, bs) :: rest =>
    if !s.herdUp || !s.sendRoom then .next s
    else .next ({ s with herd := { s.herd with events := rest } }.sendFrame 5 code 0 bs)

/-! ### The boundary of a micro-batch (15 R351) -/

/-- The slots of micro-batch b, as (first, count). -/
def Prog.slotRange (P : Prog) (b : Nat) : Nat × Nat := (b * P.perBatch, P.perBatch)

/-- Whether the prefill chunk in the pipeline is the given sequence's. -/
def ProgTables.chunkOf (T : ProgTables) (q : LiveSeq) : Option Nat :=
  match T.inChunk with
  | some (o, n) => if q.order = o then some n else none
  | none => none

/-- Whether a sequence is sampled at this boundary: it ran as a decode row, or its last prefill chunk ends. -/
def ProgTables.samples (T : ProgTables) (q : LiveSeq) : Bool :=
  (q.decode && q.ran) || (match T.chunkOf q with | some n => q.goal ≤ q.done + n | none => false)

/-- The token of a sequence in slot i from its row of logits (15 R355, R356). -/
def tokenOf (s : State) (g : Fin 4) (P : Prog) (b i : Nat) (q : LiveSeq) (zs : List (BitVec 16)) : Nat :=
  let epoch := BitVec.ofNat 32 (if q.decode then P.tables.steps.getD b 0 else P.tables.chunks)
  let u := rngU P.key (sampleSid g !q.decode) epoch i
  sampleToken (Config.freeWord (s.freeIx + i)).toNat q.req.mode.toNat q.req.temp q.req.topP q.req.topK u zs

/-- The reason that ends a sequence after token number `made` (counted from 1), in the order of 15 R355; 0 for none. -/
def stopReason (P : Prog) (r : Request) (token : Nat) (made : Nat) : Nat :=
  if r.stops.contains (BitVec.ofNat 32 token) then 1
  else if made = r.maxNew then 2
  else if P.tMax ≤ r.promptLen + made then 3
  else 0

/-- Step 1 for one slot: the sequence after the step, none where it ends, and its record. -/
def stepSlot (s : State) (g : Fin 4) (P : Prog) (b : Nat) (rows : List LogitRow) (i : Nat) (q : LiveSeq) :
    Option LiveSeq × List Sample :=
  let T := P.tables
  let q1 := match T.chunkOf q with
    | some n => { q with done := q.done + n }
    | none => if q.decode && q.ran then { q with done := q.done + 1 } else q
  if T.samples q then
    match rows.find? (fun r => r.slot == i) with
    | none => (some q1, [])
    | some r =>
      let token := tokenOf s g P b i q r.logits
      let made := q.made + 1
      let reason := stopReason P q.req token made
      (if reason = 0 then some { q1 with decode := true, made, ran := false } else none,
       [⟨q.req.id, BitVec.ofNat 32 token, q.made, reason⟩])
  else (some { q1 with ran := false }, [])

/-- Apply a function to the slots of a range, with their numbers. -/
def mapRange (first n : Nat) (f : Nat → LiveSeq → Option LiveSeq) (slots : List (Option LiveSeq)) : List (Option LiveSeq) :=
  slots.zipIdx.map (fun (q, i) => if first ≤ i && i < first + n then q.bind (f i) else q)

/-- The lowest vacant slot below a bound. -/
def vacant (slots : List (Option LiveSeq)) (from_ goal : Nat) : Option Nat :=
  (List.range (goal - from_)).map (· + from_) |>.find? (fun i => (slots.getD i none).isNone)

/-- Step 4: each sequence of the range moves into the lowest vacant slot of a lower micro-batch, in slot order. -/
def moveDown (first : Nat) : List Nat → List (Option LiveSeq) → List (Option LiveSeq)
  | [], slots => slots
  | i :: t, slots =>
    match slots.getD i none, vacant slots 0 first with
    | some q, some j => moveDown first t ((slots.set i none).set j (some q))
    | _, _ => moveDown first t slots

/-- Step 4: the sequences that stay take the leading slots of the range, DECODE first. -/
def compact (first n : Nat) (slots : List (Option LiveSeq)) : List (Option LiveSeq) :=
  let qs := ((slots.drop first).take n).filterMap id
  let sorted := qs.filter LiveSeq.decode ++ qs.filter (fun q => !q.decode)
  slots.take first ++ (sorted.map some ++ List.replicate (n - sorted.length) none) ++ slots.drop (first + n)

/-- Step 5: admitTo from the head of the queue while a slot of the range is vacant and the head's pages are free. -/
def admitTo (plan : BindPlan) (pool first n : Nat) : List Request → ProgTables → ProgTables
  | [], T => { T with queue := [] }
  | r :: rest, T =>
    match vacant T.slots first (first + n), takeGroups pool T.usedGroups (groupsFor plan (r.promptLen + r.maxNew)) with
    | some i, some pages =>
      if !r.landed then { T with queue := r :: rest }
      else
        let q : LiveSeq := { req := r, decode := false, done := 0, made := 0, pages, order := T.admitted }
        admitTo plan pool first n rest { T with slots := T.slots.set i (some q), admitted := T.admitted + 1 }
    | _, _ => { T with queue := r :: rest }

/-- The PREFILL sequence admitted first (15 R353). -/
def ProgTables.nextPrefill (T : ProgTables) : Option LiveSeq :=
  (T.live.filter (fun q => !q.decode)).foldl (fun best q =>
    match best with
    | none => some q
    | some x => if q.order < x.order then some q else some x) none

/-- Step 6: the rows that run next: the DECODE sequences of b, and a chunk if none is in the pipeline and the sequence whose turn it is
lies in b. -/
def nextRows (P : Prog) (first n : Nat) : ProgTables :=
  let T := P.tables
  let T := { T with slots := mapRange first n (fun _ q => some { q with ran := q.decode }) T.slots }
  match T.inChunk, T.nextPrefill with
  | none, some q =>
    if ((T.slots.drop first).take n).any (fun x => match x with | some y => y.order == q.order | none => false) then
      { T with inChunk := some (q.order, min P.prefill (q.goal - q.done)) }
    else T
  | _, _ => T

/-- Apply the commands of the log that came at this boundary count (15 R365). -/
def State.replayNow (s : State) (g : Fin 4) : State :=
  match s.prog g with
  | none => s
  | some P =>
    let due := P.replay.filter (fun x => x.1 ≤ P.tables.boundaries)
    let s := s.onProg g (fun P => { P with replay := P.replay.filter (fun x => P.tables.boundaries < x.1) })
    due.foldl (fun s x => match x.2 with
      | .submit r => (s.logOp g x.1 x.2).enqueue g r
      | .cancel id f => (s.logOp g x.1 (.cancel id none)).cancelIn g id f
      | _ => s) s

/-- Answer a cancel that waited: done, or ENDED. -/
def State.answerCancel (s : State) (f : Option Frame) (ended : Bool) : State :=
  match f with
  | none => s
  | some f => if ended then s.respond f 1 [9] else s.respond f 0 []

/-- Steps 1 to 6 of 15 R351. -/
def State.boundary (s : State) (g : Fin 4) (b : Nat) (rows : List LogitRow) : State :=
  match s.prog g with
  | none => s
  | some P =>
    let (first, n) := P.slotRange b
    let T := P.tables
    let here := ((T.slots.drop first).take n).filterMap id
    let results := (T.slots.zipIdx.filterMap (fun (q, i) =>
      if first ≤ i && i < first + n then q.map (fun q => (i, q, stepSlot s g P b rows i q)) else none))
    -- steps 1 to 3: what is left after stop conditions and cancels
    let mine := P.cancels.filter (fun c => here.any (fun q => q.req.id == c.1))
    let named := fun (q : LiveSeq) => mine.any (fun c => c.1 == q.req.id)
    let survivors := results.filterMap (fun r => r.2.2.1.map (fun q => (r.1, q)))
    let records := results.flatMap (fun r => r.2.2.2 ++ (match r.2.2.1 with
      | some q => if named q then [endRecord q.req q.made 4] else []
      | none => []))
    let slots := mapRange first n (fun i _ =>
      (survivors.find? (fun x => x.1 == i && !named x.2)).map (·.2)) T.slots
    let ended := fun (id : U64) => !(survivors.any (fun x => x.2.req.id == id))
    let chunkEnds := here.any (fun q => (T.chunkOf q).isSome)
    -- step 4
    let slots := compact first n (moveDown first ((List.range n).map (· + first)) slots)
    let T := { T with slots, inChunk := if chunkEnds then none else T.inChunk,
                      chunks := if chunkEnds then T.chunks + 1 else T.chunks,
                      steps := T.steps.set b (T.steps.getD b 0 + 1), boundaries := T.boundaries + 1 }
    -- step 5
    let T := admitTo P.plan P.poolPages first n T.queue T
    -- step 6
    let T' := nextRows { P with tables := T } first n
    let s := { s with freeIx := s.freeIx + P.tables.slots.length }
    let s := s.onProg g (fun P => { P with tables := T', cancels := P.cancels.filter (fun c => !mine.contains c) })
    let s := s.emit g records
    let s := mine.foldl (fun s c => s.answerCancel c.2 (ended c.1)) s
    match s.prog g with
    | none => s
    | some P => (s.directories P).launchStep P b (T.inChunk.isNone && T'.inChunk.isSome)

/-- MICROBATCH_BOUNDARY: the boundary of micro-batch b of a serving program, with the logits of every row sampled; every 64th boundary
of micro-batch 0 is a rollback point (15 R364). Answers that find no room in the send buffer hold it (14 R313). -/
def execMicrobatchBoundary (g : Fin 4) (b : Nat) (rows : List LogitRow) (s : State) : Outcome State Fault Refusal :=
  match s.prog g with
  | none => .next s
  | some P =>
    if !s.herdUp || s.integ.rolling || P.stopped || P.training || P.m ≤ b then .next s else
    let s := s.replayNow g
    match s.prog g with
    | none => .next s
    | some P =>
      let (first, n) := P.slotRange b
      let ready := P.tables.slots.zipIdx.all (fun (q, i) =>
        match q with
        | some q => !(decide (first ≤ i) && decide (i < first + n) && P.tables.samples q) || rows.any (fun r => r.slot == i)
        | none => true)
      if !ready || 64 < s.pnx.txBuf.length + P.cancels.length then .next s
      else
        let s := s.boundary g b rows
        match s.prog g with
        | none => .next s
        | some P => .next (if b = 0 && P.tables.steps.getD 0 0 % 64 == 0 then s.rollbackPoint g else s)

/-! ### Faults (15 R359) -/

/-- Halted polders of bound programs in the order in which their faults are reported: SEQ_FAULT_TIME, then number (09 R205). -/
def firstHalted (s : State) : Option Pid :=
  ((List.finRange 32).filter (fun p => s.polders[p].seq.halted && (s.progOf p).isSome)).foldl (fun best p =>
    match best with
    | none => some p
    | some q => if s.polders[p].seq.faultTime < s.polders[q].seq.faultTime then some p else some q) none

/-- Stop every task and queued record of a program. -/
def State.stopTasks (s : State) (P : Prog) : State := (planPolders P.plan).foldl (fun s p => (s.seqAbort p).seqFlush p) s

/-- The interrupt of a Reeve core: core 1 + g schedules program g, and a halted polder of that program interrupts it (09 R205, 15 Table
15-1). -/
def State.interrupts (s : State) (core : Nat) : Bool :=
  (List.finRange 32).any (fun p => s.polders[p].seq.halted && (match s.progOf p with | some (g, _) => core == 1 + g.val | none => false))

/-- HERD_FAULT_HANDLER: the four steps of 15 R359 for the polder whose fault is next. -/
def execHerdFaultHandler (p : Pid) (s : State) : Outcome State Fault Refusal :=
  if !s.herdUp || firstHalted s ≠ some p then .next s else
  match s.progOf p with
  | none => .next s
  | some (g, P) =>
    let s := (s.stopTasks P).endAll g 5
    let s := s.herdEvent 0x11 ([BitVec.ofNat 8 g.val, BitVec.ofNat 8 p.val] ++ s.polders[p].seq.record)
    .next ((s.onProg g (fun P => { P with stopped := true })).seqResume p)

/-! ### Training (15 R360-R364) -/

/-- The bytes of a step's batch in its DATA stream, as (offset, length): B LEN 4 bytes per step, in order of step (15 R360). -/
def TrainRun.batchAt (r : TrainRun) : Nat × Nat := ((r.step - r.first) * (4 * r.batch * r.len), 4 * r.batch * r.len)

/-- Whether the batch of a run's step has landed from DATA (15 R361). -/
def batchLanded (s : State) (r : TrainRun) : Bool :=
  match s.pnx.find r.data with
  | some x =>
    let (a, n) := r.batchAt
    x.type == 1 && (n == 0 || x.landed.any (fun y => y.1 ≤ a && a + n ≤ y.2))
  | none => false

/-- The hyperparameter block of a run: HP with unit_g replaced by the unit in force (15 R360, 10 Table 10-13). -/
def TrainRun.block (r : TrainRun) : List Byte := r.hp.take 10 ++ leBytes 2 r.gradUnit.toNat ++ List.replicate 4 0

/-- Commit the launches of a step that find room in their queues, in order; the others wait, with every later one of their polder. -/
def State.commitLeft (late : List Pid) (s : State) : List (Pid × BitVec 512) → State × List (Pid × BitVec 512)
  | [] => (s, [])
  | x :: t =>
    if late.contains x.1 || 8 ≤ s.polders[x.1].seq.queue.length then
      let (s', l) := State.commitLeft (x.1 :: late) s t
      (s', x :: l)
    else State.commitLeft late (s.commit x.1 x.2) t

/-- The launches of a step, micro-batch by micro-batch: a micro-batch of n sequences has FILL n U, and EPOCH is the step (15 R361; 12
R275). -/
def stepLaunches (P : Prog) (r : TrainRun) : List (Pid × BitVec 512) :=
  (List.range P.m).flatMap (fun b =>
    (P.plan.launches.filter (fun l => l.microBatch == b)).map (fun l =>
      (l.polder, launchRecord P l (dealt r.batch P.m b).2 r.step)))

/-- A program's training loop goes on: once the batch has landed the hyperparameter block is written and the step's launches are made. -/
def State.trainTurn (s : State) (g : Fin 4) : State :=
  match s.prog g with
  | none => s
  | some P =>
    match P.tables.train with
    | none => s
    | some r =>
      if P.stopped || (r.launched && r.left.isEmpty) || (!r.launched && !batchLanded s r) then s else
      let s := if r.launched then s else P.plan.hyper.foldl (fun s a => s.portPut a.toNat r.block) s
      let (s, left) := State.commitLeft [] s (if r.launched then r.left else stepLaunches P r)
      s.onProg g (fun P => P.onTables (fun T => { T with train := some { r with launched := true, left } }))

/-- Herd's own turn: it takes the event of a lost control link, which changes nothing of what it serves (14 R315, 15 R358), and the
training loop of every program goes on. -/
def State.herdTurn (s : State) : State :=
  if !s.herdUp then s
  else
    let s := if s.herd.linkEvent then { s with herd := { s.herd with linkEvent := false } } else s
    if s.integ.rolling then s else (List.finRange 4).foldl State.trainTurn s

/-- e of the next gradient unit: ceil(log2(PEAK / 96)) in -4 to 4, 0 for PEAK 0, and at least 1 after an overflow. -/
def unitStep (peak : Nat) (overflow : Bool) : Int :=
  let e : Int := if peak = 0 then 0
    else match (List.range 9).find? (fun k => peak * 16 ≤ 96 * 2 ^ k) with
      | some k => (k : Int) - 4
      | none => 4
  if overflow then max e 1 else e

/-- A unit times 2^e. -/
def scaleUnit (u : BitVec 16) (e : Int) : BitVec 16 := bfMul u (BitVec.ofInt 16 ((127 + e) * 128))

/-- What a restored program has still to take up of its log: a stop of the run in progress, or the next run (15 R365). -/
def Prog.nextRun (P : Prog) : Prog :=
  match P.tables.train, P.replay with
  | some r, (n, .stop) :: t => { P with replay := t, tables := { P.tables with train := some { r with stopAt := some n } } }
  | none, (_, .start r) :: (n, .stop) :: t =>
    { P with replay := t, tables := { P.tables with train := some { r with stopAt := some n }, runs := P.tables.runs + 1 } }
  | none, (_, .start r) :: t => { P with replay := t, tables := { P.tables with train := some r, runs := P.tables.runs + 1 } }
  | _, _ => P

/-- Whether STEP_DONE of a step was posted already. -/
def Prog.wasReported (P : Prog) (r : TrainRun) : Bool := P.reported.any (fun x => x.1 == r.number && r.step ≤ x.2)

/-- Send a training checkpoint out on the first CHECKPOINT stream while the port is free (15 R364, CKPT_EXTERNAL). -/
def State.sendCheckpoint (s : State) (g : Fin 4) : State :=
  match s.prog g, s.pnx.sending, s.pnx.streams.find? (fun x => x.type == 5) with
  | some P, none, some x =>
    let bs := P.savedBytes.flatMap (·.2)
    let job : Sending := { stream := x.id, off := 0, data := some bs, addr := 0, len := bs.length, sent := 0 }
    { s with pnx := { s.pnx with sending := some job } }.pumpAll
  | _, _, _ => s

/-- The number of steps of a run up to the present one. -/
def TrainRun.count (r : TrainRun) : Nat := r.step + 1 - r.first

/-- TRAIN_STEP: the launches of a step have ended and what they wrote is in memory; the owned shards are recompressed where that is due
(15 R363), the next unit is set, STEP_DONE is posted, a checkpoint is taken where one is due, and the loop ends after its last step or a
TRAIN_STOP. -/
def execTrainStep (g : Fin 4) (i : TrainInputs) (s : State) : Outcome State Fault Refusal :=
  match s.prog g with
  | none => .next s
  | some P =>
    match P.tables.train with
    | none => .next s
    | some r =>
      if !s.herdUp || s.integ.rolling || P.stopped || !r.launched || !r.left.isEmpty then .next s else
      let s := i.written.foldl (fun s x => s.putBytes x.1.toNat x.2) s
      let s := if r.count % r.recompEvery = 0 then P.plan.recomp.foldl State.recompress s else s
      let s := i.recoded.foldl (fun s x => s.putBytes x.1.toNat x.2) s
      let unit := scaleUnit r.gradUnit (unitStep i.peak.toNat i.setOverflow)
      let old := P.wasReported r
      let s := if old then s else
        ({ s with herd := { s.herd with steps := s.herd.steps + 1 } }).herdEvent 0x12
          (leBytes 4 g.val ++ leBytes 4 r.step ++ leBytes 4 i.overflowed ++ leBytes 2 unit.toNat)
      let ends := r.steps ≤ r.count || (match r.stopAt with | some n => n ≤ r.step | none => false)
      let next : TrainRun := { r with step := r.step + 1, gradUnit := unit, hp := r.hp.take 10 ++ leBytes 2 unit.toNat, launched := false }
      let s := s.onProg g (fun P =>
        { P with tables := { P.tables with train := if ends then none else some next },
                 reported := if old then P.reported else P.reported.filter (fun x => x.1 != r.number) ++ [(r.number, r.step)] })
      let s := if r.count % r.ckptEvery = 0 then
          let s := s.rollbackPoint g
          if r.external then s.sendCheckpoint g else s
        else s
      .next (s.onProg g Prog.nextRun)

end Sys2Proof.Machine
end

