-- ==== Sys2Proof/Machine/SysRegs.lean ====
section
/-! DEFINITION. The registers outside the polders' windows as they read: the control complex, the embankments and the system
blocks (09 R191, R211; 11 R266; 13 R309; 14 R342; 15 R366; 16 R394; 17 R422; 18 R443). A reserved offset reads 0. -/

namespace Sys2Proof.Machine

/-! ### Control complex -/

/-- RES (09 R211). -/
def resReg (T : ResTbl) (o : Nat) : RegVal :=
  if o = 0 then r32 0 else if o = 4 then r32 (T.result.setWidth 32) else if o = 8 then r64 T.refused
  else if 0x100 ≤ o ∧ o < 0x280 ∧ o % 4 = 0 then r32 (T.owner[Fin.ofNat 96 ((o - 0x100) / 4)].setWidth 32) else rsv

/-- HERD (15 R366): the image of STATS_READ, 32 bits wide up to offset 8. -/
def herdReg (s : State) (o : Nat) : RegVal :=
  if o = 0 then r32 (herdStatus s) else if o = 4 then r32 (BitVec.ofNat 32 s.queued)
  else if 8 ≤ o ∧ o < 0x40 ∧ o % 8 = 0 then r64 (BitVec.ofNat 64 (leNat (((herdImage s).drop o).take 8))) else rsv

/-- The control complex; its weirs are numbered from 15,360 (11 R255). -/
def controlReg (s : State) (o : Nat) : RegVal :=
  if o < 0x10000 then discReg s.disc o else if o < 0x20000 then resReg s.res (o - 0x10000)
  else if o < 0x30000 then herdReg s (o - 0x20000)
  else if 0x100000 ≤ o ∧ o < 0x110000 then weirBlkReg s s.ccWeir 15360 1024 (o - 0x100000) else rsv

/-! ### Embankments -/

/-- MSC_STATUS. -/
def mscStatus (c : Msc) : U32 := (c.status &&& 6) ||| BitVec.ofNat 32 (bit c.flushing.isSome 0)

def mscReg (c : Msc) (o : Nat) : RegVal :=
  if o = 0 then r32 0 else if o = 4 then r32 (mscStatus c) else if o = 8 then r64 c.hits else if o = 0x10 then r64 c.misses
  else if o = 0x18 then r64 c.writebacks else if o = 0x20 then r64 c.pinOver
  else if 0x100 ≤ o ∧ o < 0x200 ∧ o % 16 = 0 then r64 c.base[Fin.ofNat 16 ((o - 0x100) / 16)]
  else if 0x100 ≤ o ∧ o < 0x200 ∧ o % 16 = 8 then r64 c.lim[Fin.ofNat 16 ((o - 0x100) / 16)] else rsv

/-- MC_STATUS. -/
def mcStatus (c : Mc) : U32 := (c.status &&& 0xE) ||| BitVec.ofNat 32 (bit c.trained 0)

def mcReg (c : Mc) (o : Nat) : RegVal :=
  if o = 0 then r32 (mcStatus c) else if o = 4 then r32 (BitVec.ofNat 32 c.remap.length) else if o = 8 then r64 c.ce
  else if o = 0x10 then r64 c.ue else if o = 0x18 then r64 c.scrubs else if o = 0x20 then r64 c.linkRetry else rsv

/-- The sites of a quadrant, ascending. -/
def quadSites (k : Quad) : List Site := (List.finRange 36).filter (fun n => siteQuad n == k.val)

def fabReg (s : State) (k : Quad) (o : Nat) : RegVal :=
  if o < 0x90 ∧ o % 8 = 0 then
    let R := s.routers[(quadSites k).getD (o / 16) 0]
    r64 (if o % 16 = 0 then R.promoted else R.flits)
  else rsv

def pnxReg (s : State) (o : Nat) : RegVal :=
  let q := s.pnx
  if o = 0 then r32 (pnxStatus s) else if o = 8 then r64 q.sendAddr else if o = 0x10 then r64 q.send
  else if o = 0x18 then r64 q.accepted else if o = 0x20 then r64 q.ackBusy else if o = 0x28 then r64 q.crcDrop
  else if o = 0x30 then r64 q.resent else if o = 0x38 then r64 q.replays else rsv

/-- WLV_STATUS. -/
def wlvStatus (w : Wlv) : U32 :=
  BitVec.ofNat 32 (w.peer.toNat * 2 ^ 16 + w.width.toNat * 2 ^ 4 + bit w.miscabled 3 + bit w.peerValid 2 + bit w.wakeSeen 1
    + bit w.trained 0)

def wlvReg (w : Wlv) (o : Nat) : RegVal :=
  if o = 0 then r32 (wlvStatus w) else if o = 8 then r64 w.tx else if o = 0x10 then r64 w.rx else if o = 0x18 then r64 w.replays
  else if o = 0x20 then r64 w.fec else if o = 0x28 then r64 w.forwarded else rsv

/-- The port whose WLV block lies at an offset of an embankment (14 R342). -/
def wlvAt (k : Quad) (o : Nat) : Option (Fin 6) :=
  let first := decide (0x400000 ≤ o ∧ o < 0x410000)
  let second := decide (0x410000 ≤ o ∧ o < 0x420000)
  if k = 1 then (if first then some 0 else if second then some 2 else none)
  else if k = 2 then (if first then some 4 else if second then some 5 else none)
  else if k = 3 then (if first then some 1 else if second then some 3 else none)
  else none

/-- The memory controller whose MC block lies at an offset of an embankment. -/
def mcAt (k : Quad) (o : Nat) : Option (Fin 8) :=
  if 0x100000 ≤ o ∧ o < 0x110000 then some (Fin.ofNat 8 (2 * k.val))
  else if 0x180000 ≤ o ∧ o < 0x190000 then some (Fin.ofNat 8 (2 * k.val + 1)) else none

def edgeReg (s : State) (k : Quad) (o : Nat) : RegVal :=
  if o < 0x10000 then mscReg s.msc[k] o
  else match mcAt k o, wlvAt k o with
    | some m, _ => mcReg s.mc[m] (o % 0x10000)
    | _, some w => wlvReg s.wlv[w] (o % 0x10000)
    | _, _ =>
      if 0x200000 ≤ o ∧ o < 0x210000 then fabReg s k (o - 0x200000)
      else if k = 0 ∧ 0x400000 ≤ o ∧ o < 0x410000 then pnxReg s (o - 0x400000) else rsv

/-! ### System blocks -/

/-- SEC_STATUS (17 R422). -/
def secStatus (q : Sec) : U32 :=
  BitVec.ofNat 32 (q.svn.toNat * 2 ^ 24 + q.fuseCtr.toNat * 2 ^ 18 + q.calOrigin.toNat * 2 ^ 16 + q.granted.toNat * 2 ^ 14
    + bit q.debugLock 13 + bit q.recovery 12 + bit q.unconfirmed 11 + bit q.slotB 10)

def secReg (q : Sec) (o : Nat) : RegVal :=
  if o = 0 then r32 (secStatus q) else if o = 4 then r32 0
  else if 0x10 ≤ o ∧ o < 0x30 ∧ o % 8 = 0 then r64 (q.nonce.extractLsb' (8 * (o - 0x10)) 64) else rsv

/-- INTEG_STATUS (17 R422). -/
def integStatus (q : Integ) : U32 :=
  BitVec.ofNat 32 (q.spareLeft.toNat * 2 ^ 4 + bit q.lost 3 + bit q.cause.isSome 2 + bit (!q.planned.isEmpty) 1 + bit q.hardSeen 0)

def siteReg (q : SiteInteg) (o : Nat) : RegVal :=
  if o = 0 then r64 q.replay else if o = 8 then r64 q.ce else if o = 0x10 then r64 q.ue else if o = 0x18 then r64 q.refetch
  else rsv

def integReg (q : Integ) (o : Nat) : RegVal :=
  if o = 0 then r32 q.ctl else if o = 4 then r32 (integStatus q) else if o = 8 then r64 q.spareActs
  else if o = 0x10 then r64 q.rebuilt
  else if 0x100 ≤ o ∧ o < 0x580 then siteReg q.sites[Fin.ofNat 36 ((o - 0x100) / 0x20)] (o % 0x20)
  else if 0x1000 ≤ o ∧ o < 0x3000 ∧ o % 8 = 0 then
    let n := (o - 0x1000) / 0x10
    let T := if o % 16 = 0 then q.rfSrc else q.rfMst
    r64 T[Fin.ofNat 32 (n / 16)][Fin.ofNat 16 n]
  else rsv

/-- CKPT_STATUS. -/
def ckptStatus (q : Ckpt) : U32 := (q.status &&& 0xE) ||| BitVec.ofNat 32 (bit q.busy 0)

def ckptReg (q : Ckpt) (o : Nat) : RegVal :=
  if o = 0 then r32 q.ctl else if o = 4 then r32 (ckptStatus q) else if o = 8 then r64 q.addr
  else if o = 0x10 then r32 q.unit else if o = 0x14 then r32 q.units else rsv

/-- CAD_COORD. -/
def cadCoord (c : Cad) : U32 := BitVec.ofNat 32 (c.extents.toNat * 2 ^ 20 + c.coord.toNat)

def cadReg (s : State) (o : Nat) : RegVal :=
  let c := s.cad
  if o = 0 then r32 (cadCoord c) else if o = 4 then r32 (cadStatus s) else if o = 8 then r32 c.offset
  else if o = 0x10 then r64 c.announces else if o = 0x18 then r64 c.late else if o = 0x20 then r64 c.reparent
  else if o = 0x28 then r64 c.halts else rsv

/-- A vector of four conditions as a nibble, quadrant 0 lowest. -/
def nibble (f : Quad → Bool) : Nat := ((List.finRange 4).map (fun q => bit (f q) q.val)).sum

/-- Whether a need is the lowest in force (16 R373). -/
def needLowest (s : State) (n : Option Nat) : Bool := n.isSome && n == s.lowestNeed

/-- PM_STATUS (16 R394). -/
def pmStatus (s : State) : U32 :=
  let m := s.pm
  BitVec.ofNat 32 (m.coolClass.toNat * 2 ^ 30 + nibble (fun q => m.a1[q]) * 2 ^ 24 + nibble s.stretched * 2 ^ 20
    + nibble (fun q => m.droop[q]) * 2 ^ 16 + bit m.lockout 5 + bit m.halted 4 + bit m.prealarm 3
    + bit (needLowest s m.nThrottle) 2 + bit (needLowest s m.nSluice) 1 + bit m.limitOver 0)

/-- PM_PHASE_p_k (16 R394). -/
def phaseWord (x : Phase) : U32 :=
  BitVec.ofNat 32 (min 255 x.taken * 2 ^ 8 + bit x.learned.isSome 7 + x.learned.getD 0 * 2 ^ 4 + bit x.pref.isSome 3 + x.pref.getD 0)

def pmReg (s : State) (o : Nat) : RegVal :=
  let m := s.pm
  if o = 0 then r32 m.ctl else if o = 4 then r32 (pmStatus s) else if o = 8 then r32 (m.powerEst.setWidth 32)
  else if o = 0x10 then r64 m.energyJob else if o = 0x18 then r64 m.energyTotal else if o = 0x20 then r64 m.energyInput
  else if o = 0x28 then r64 m.stretchNs else if o = 0x30 then r64 m.droops else if o = 0x38 then r64 m.bermGaps
  else if o = 0x40 then r64 m.bermFills else if o = 0x48 then r64 m.limitOvers else if o = 0x50 then r64 m.trips
  else if 0x100 ≤ o ∧ o < 0x170 ∧ o % 8 = 0 then
    let r := m.rails[Fin.ofNat 14 ((o - 0x100) / 8)]
    r64 (r.limit ++ r.mean)
  else if 0x1000 ≤ o ∧ o < 0x1400 ∧ o % 4 = 0 then
    let n := (o - 0x1000) / 4
    r32 (phaseWord m.phases[Fin.ofNat 4 (n / 64)][Fin.ofNat 64 n])
  else rsv

/-- GANDER_STATUS (16 R394); the pre-alarm holds G7 while TJ_MAX is valid and both its functions are enabled (R393). -/
def ganderStatus (s : State) : U32 :=
  let g := s.gander
  let held := s.pm.ctl.getLsbD 7 && s.pm.ctl.getLsbD 6 && channelValid s 0 && !g.wovHolds
  BitVec.ofNat 32 (bit held 17 + bit g.refused 16 + g.fired.toNat * 2 ^ 8
    + ((List.finRange 8).map (fun n => bit g.active[n] n.val)).sum)

/-- GANDER_VALUE_n: the last sample, 0x8000_0000 while the channel compared, that of SRC or of the holder of G7 (16 R393), is not valid
(16 R394). -/
def comparatorValue (s : State) (n : Fin 8) : U32 :=
  let src : BitVec 4 := if n = 7 ∧ s.gander.wovHolds = true then 3 else s.gander.cmp[n].extractLsb' 18 4
  if channelValid s src.toNat then s.gander.value[n] else 0x80000000

def ganderReg (s : State) (o : Nat) : RegVal :=
  let g := s.gander
  if o = 0 then r32 (ganderStatus s) else if o = 8 then r32 g.wakeSrc else if o = 0x10 then r64 g.wakeTime
  else if o = 0x18 then r32 g.wov
  else if 0x100 ≤ o ∧ o < 0x180 then
    let n := Fin.ofNat 8 ((o - 0x100) / 16)
    if o % 16 = 0 then r32 g.cmp[n] else if o % 16 = 4 then r32 g.thr[n] else if o % 16 = 8 then r32 (comparatorValue s n) else rsv
  else rsv

/-- MGT_STATUS (18 R443). -/
def mgtStatus (q : Mgt) : U32 :=
  BitVec.ofNat 32 (q.straps.addrSel.toNat * 2 ^ 6 + q.straps.coolClass.toNat * 2 ^ 4 + bit q.strapRefused 3 + bit q.refused 2
    + bit q.enIn 1 + bit q.mrstSeen 0)

/-- MGT_PINS: bit n is the level at SBn. -/
def mgtPins (s : State) : U32 := BitVec.ofNat 32 ((List.finRange 8).map (fun n => bit (sbLevel s n) n.val)).sum

def mgtReg (s : State) (o : Nat) : RegVal :=
  if o = 0 then r32 (mgtStatus s.mgt) else if o = 4 then r32 (mgtPins s)
  else if 0x100 ≤ o ∧ o < 0x120 ∧ o % 4 = 0 then r32 s.mgt.sbCfg[Fin.ofNat 8 ((o - 0x100) / 4)] else rsv

def systemReg (s : State) (o : Nat) : RegVal :=
  let x := o % 0x10000
  if o < 0x10000 then secReg s.sec x else if o < 0x20000 then integReg s.integ x else if o < 0x30000 then ckptReg s.ckpt x
  else if o < 0x40000 then rsv else if o < 0x50000 then cadReg s x else if o < 0x60000 then pmReg s x
  else if o < 0x70000 then ganderReg s x else if o < 0x80000 then mgtReg s x else rsv

/-- The register at a place of the device address map, if registers lie there. -/
def regAt (s : State) : Place → Option RegVal
  | .window p o => some (windowRead s p o)
  | .control o => some (controlReg s o)
  | .edge k o => some (edgeReg s k o)
  | .system o => some (systemReg s o)
  | _ => none

end Sys2Proof.Machine
end

