-- ==== Sys2Proof/Machine/RegWrite.lean ====
section
/-! DEFINITION. REGISTER_WRITE: a write of a register at its device address, by the access types of 00 Table 0-2. A register
whose write starts an action takes the same operation as the command of that action. -/

namespace Sys2Proof.Machine

open Host (Outcome)

/-- RES_CLAIM (09 R208): OP 1 claims and 2 releases; any other OP is an invalid one. -/
def State.resWrite (s : State) (v : U32) : State :=
  let op := v.extractLsb' 28 4
  let owner := v.extractLsb' 24 4
  let entry := v.extractLsb' 0 8
  if op = 1 then
    let t := s.resClaim owner entry
    if t.res.result = 1 then { t with reply := .status 5 } else t
  else if op = 2 then s.resRelease owner entry
  else s.resResult 3

/-- A write in the control complex. -/
def State.controlStore (s : State) (o : Nat) (v : U64) : State :=
  if o = 0x10000 then s.resWrite (v.setWidth 32)
  else if 0x100000 ≤ o ∧ o < 0x108000 then
    s.weirWrite (15360 + (o - 0x100000) / 0x20) (o % 0x20) (v.setWidth 32)
  else s

/-- A write of an MSC register (13 R297, R298). -/
def State.mscStore (s : State) (k : Quad) (o : Nat) (v : U64) : State :=
  if o = 0 then (if v.getLsbD 0 then s.mscFlush k else s)
  else if o = 4 then s.onMsc k (fun c => { c with status := w1c c.status (v.setWidth 32) 6 })
  else if 0x100 ≤ o ∧ o < 0x200 ∧ o % 8 = 0 then
    s.onMsc k (fun c => c.rangeWrite (Fin.ofNat 16 ((o - 0x100) / 16)) (o % 16 == 8) v)
  else s

/-- A write of a PNX register (14 R319, R342). -/
def State.pnxStore (s : State) (o : Nat) (v : U64) : State :=
  if o = 0 then { s with pnx := { s.pnx with status := w1c s.pnx.status (v.setWidth 32) 0x31 } }
  else if o = 8 then { s with pnx := { s.pnx with sendAddr := v } }
  else if o = 0x10 then s.sendWrite v
  else s

/-- A write in an embankment. -/
def State.edgeStore (s : State) (k : Quad) (o : Nat) (v : U64) : State :=
  let v32 := v.setWidth 32
  if o < 0x10000 then s.mscStore k o v
  else match mcAt k o, wlvAt k o with
    | some m, _ =>
      if o % 0x10000 = 0 then s.onMc m (fun c => { c with status := w1c c.status v32 0xE }) else s
    | _, some w =>
      if o % 0x10000 = 0 then
        { s with wlv := s.wlv.set w { s.wlv[w] with wakeSeen := s.wlv[w].wakeSeen && !v.getLsbD 1 } }
      else s
    | _, _ => if k = 0 ∧ 0x400000 ≤ o ∧ o < 0x410000 then s.pnxStore (o - 0x400000) v else s

/-- SEC_DBG_CTL (17 R420, R421): a new nonce is drawn from the entropy source. -/
def State.dbgWrite (s : State) (v : U32) : State :=
  let s := if v.getLsbD 1 then s.revoke else s
  if v.getLsbD 0 then
    let (a, s) := s.fresh
    let (b, s) := s.fresh
    let (c, s) := s.fresh
    let (d, s) := s.fresh
    { s with sec := { s.sec with nonce := freshNonce s.sec.nonce [d ++ c ++ b ++ a] } }
  else s

/-- A write of an INTEG register (17 R422). -/
def State.integStore (s : State) (o : Nat) (v : U64) : State :=
  let q := s.integ
  let v32 : U32 := v.setWidth 32
  if o = 0 then { s with integ := { q with ctl := v32 &&& 0xFFFF00FF } }
  else if o = 4 then { s with integ := { q with lost := q.lost && !v.getLsbD 3, hardSeen := q.hardSeen && !v.getLsbD 0 } }
  else if 0x1000 ≤ o ∧ o < 0x3000 ∧ o % 8 = 0 then
    let n := (o - 0x1000) / 0x10
    let p := Fin.ofNat 32 (n / 16)
    let e := Fin.ofNat 16 n
    if o % 16 = 0 then { s with integ := { q with rfSrc := q.rfSrc.set p (q.rfSrc[p].set e (v &&& 0x8001FFFF0001FFFF)) } }
    else { s with integ := { q with rfMst := q.rfMst.set p (q.rfMst[p].set e (v &&& 0x7FFFFFF000)) } }
  else s

/-- A write of a CKPT register (17 R409, R422). -/
def State.ckptStore (s : State) (o : Nat) (v : U64) : State :=
  let v32 : U32 := v.setWidth 32
  if o = 0 then s.ckptWrite v32
  else if o = 4 then { s with ckpt := { s.ckpt with status := w1c s.ckpt.status v32 0xE } }
  else if o = 8 then { s with ckpt := { s.ckpt with addr := v } }
  else if o = 0x10 then { s with ckpt := { s.ckpt with unit := v32 &&& 0x01FFFFFF } }
  else if o = 0x14 then { s with ckpt := { s.ckpt with units := v32 &&& 0x03FFFFFF } }
  else s

/-- PM_CTL (16 R394): POLICY 2 and 3 are ignored; the requests are served after the fields are set. -/
def State.pmCtlWrite (s : State) (v : U32) : State :=
  let keep : U32 := if v.getLsbD 17 then 0x00030000 else 0
  let ctl := (s.pm.ctl &&& keep) ||| (v &&& 0x0003FFE0 &&& ~~~keep)
  let s := { s with pm := { s.pm with ctl } }
  if v.getLsbD 1 then s.request .s2 else if v.getLsbD 0 then s.request .s1 else s

/-- A write of a PM register. -/
def State.pmStore (s : State) (o : Nat) (v : U64) : State :=
  if o = 0 then s.pmCtlWrite (v.setWidth 32)
  else if o = 4 then { s with pm := { s.pm with limitOver := s.pm.limitOver && !v.getLsbD 0 } }
  else s

/-- A write of a GANDER register (16 R392, R394). -/
def State.ganderStore (s : State) (o : Nat) (v : U64) : State :=
  let v32 : U32 := v.setWidth 32
  let g := s.gander
  if o = 0 then { s with gander := { g with refused := g.refused && !v.getLsbD 16, fired := g.fired &&& ~~~ v.extractLsb' 8 8 } }
  else if o = 0x18 then { s with gander := { g with wov := v32 } }
  else if 0x100 ≤ o ∧ o < 0x180 ∧ o % 16 = 0 then s.ganderWrite (Fin.ofNat 8 ((o - 0x100) / 16)) false v32
  else if 0x100 ≤ o ∧ o < 0x180 ∧ o % 16 = 4 then s.ganderWrite (Fin.ofNat 8 ((o - 0x100) / 16)) true v32
  else s

/-- A write of an MGT register (18 R430, R443). -/
def State.mgtStore (s : State) (o : Nat) (v : U64) : State :=
  let q := s.mgt
  if o = 0 then { s with mgt := { q with refused := q.refused && !v.getLsbD 2, mrstSeen := q.mrstSeen && !v.getLsbD 0 } }
  else if 0x100 ≤ o ∧ o < 0x120 ∧ o % 4 = 0 then s.sbWrite (Fin.ofNat 8 ((o - 0x100) / 4)) (v.setWidth 32)
  else s

/-- A write of a system block. -/
def State.systemStore (s : State) (o : Nat) (v : U64) : State :=
  let x := o % 0x10000
  if o < 0x10000 then (if x = 4 then s.dbgWrite (v.setWidth 32) else s)
  else if o < 0x20000 then s.integStore x v else if o < 0x30000 then s.ckptStore x v
  else if o < 0x50000 then s else if o < 0x60000 then s.pmStore x v else if o < 0x70000 then s.ganderStore x v
  else if o < 0x80000 then s.mgtStore x v else s

/-- The write at a place; a write in a polder's window brings its quadrant out of A1 (16 R383). -/
def State.regStore (s : State) (x : Place) (v : U64) : State :=
  match x with
  | .window p o => (s.wakeQuad (quadOf p)).windowStore p o v
  | .control o => s.controlStore o v
  | .edge k o => s.edgeStore k o v
  | .system o => s.systemStore o v
  | _ => s

/-- REGISTER_WRITE: no effect while no register access is accepted. An address without a register answers ADDR_RANGE, one that is
not a multiple of 4 or lies inside a 64-bit register ALIGN, and a write of the wrong width REG_WIDTH; each changes nothing
(00 R8, R10; 09 R209). -/
def execRegisterWrite (addr : U64) (wide : Bool) (v : U64) (s : State) : Outcome State Fault Refusal :=
  whenRunning s fun s =>
  let x := place addr.toNat
  match regAt s x with
  | none => .next { s with reply := .status 0x08 }
  | some r =>
    if addr.toNat % 4 ≠ 0 then .next { s with reply := .status 0x0A }
    else if !r.real && addr.toNat % 8 = 4 && ((regAt s (place (addr.toNat - 4))).map (fun y => y.real && y.wide)).getD false then
      .next { s with reply := .status 0x0A }
    else if r.real && r.wide != wide then .next { s with reply := .status 0x06 }
    else .next ({ s with reply := .status 0 }.regStore x v)

end Sys2Proof.Machine
end

