-- ==== Sys2Proof/Machine/Rollback.lean ====
section
/-! DEFINITION. Rollback and spare activation (17 R404-R408; 15 R365). -/

namespace Sys2Proof.Machine

open Host (Outcome)

/-- Step 1 of 17 R405, done once: ABORT and FLUSH on every active polder, and HALT is announced. -/
def State.rollStart (s : State) : State :=
  if s.integ.rolling then s
  else
    let s := (List.finRange 32).foldl (fun s p => (s.seqAbort p).seqFlush p) s
    let s := s.announce 5 0
    { s with integ := { s.integ with rolling := true }, herd := { s.herd with rollbacks := s.herd.rollbacks + 1 } }

/-- Step 2: whether an asynchronous transfer or a tile that the OC holds is still on its way (11 R246, 04 R76); it completes by its own
command, under the tag rules. -/
def State.rollWaits (s : State) : Bool := !s.transfers.isEmpty || (List.finRange 32).any (fun p => !arrayIdle s.polders[p])

/-- The logical polder of an active site. -/
def logicalAt (d : Disc) (n : Site) : Option Pid := (List.finRange 32).find? (fun p => d.siteOf[p] == n)

/-- The spare of a site's quadrant. -/
def spareFor (d : Disc) (n : Site) : Option Site :=
  (List.finRange 36).find? (fun m => d.state[m] == 1 && siteQuad m == siteQuad n)

/-- The map goes to flash, with the retired sites (13 R306, 17 R406); the write is in progress until it completes (18 R435). -/
def State.saveMap (s : State) : State :=
  let retired := (List.finRange 36).filter (fun n => s.disc.state[n] == 2)
  { s with flash := { s.flash with retired, map := some (s.disc.siteOf, s.disc.state, s.disc.mapGen), writing := true },
           integ := { s.integ with spareLeft := spareLeft s.disc } }

/-- A spare's polder as it comes into service: what Herd writes into every polder of a program stands in its registers, the rest is as at
power-up (01 R14, 17 R406). -/
def newPolder (P : Polder) : Polder :=
  { seq := { stageBase := P.seq.stageBase }, qz := { keys := P.qz.keys },
    terp := { banks := P.terp.banks.map (fun b => { b with busy := false }),
              windows := P.terp.windows.map (fun w => { w with arr := 0 }) } }

/-- The weirs of a polder start at 0 (17 R406). -/
def State.clearWeirs (s : State) (p : Pid) : State :=
  { s with weirs := s.weirs.filter (fun e => weirHome e.1 != some p) }

/-- A failed site leaves service: its quadrant's spare takes its logical number, where it has one that passes its self-test; a spare that
fails is retired as well. The map changes either way (09 R191). The flag says whether the site was replaced. -/
def State.activate (s : State) (site : Site) (testOk : Bool) : State × Bool :=
  match logicalAt s.disc site, spareFor s.disc site with
  | some p, some m =>
    let d := s.disc
    if testOk then
      let d := { d with siteOf := d.siteOf.set p m, state := (d.state.set site 2).set m 0, mapGen := d.mapGen + 1 }
      let s := { s with disc := d, integ := { s.integ with spareActs := s.integ.spareActs + 1 } }
      let s := (s.zero (scratchAddr p 0) scratchBytes).onPolder p newPolder
      ((s.clearWeirs p).saveMap, true)
    else ({ s with disc := { d with state := d.state.set m 2, mapGen := d.mapGen + 1 } }.saveMap, false)
  | _, _ => (s, false)

/-- Herd rebinds a program that holds a replaced polder: its stage tables and working copies are loaded again (12 R269, 17 R405). -/
def State.rebind (s : State) (g : Fin 4) (P : Prog) : State :=
  (s.noteTiled (tilerKey s P.model P.training P.tables.slots.length P.tMax P.prefill) P.plan).placePlan g P

/-- The checkpoint that every member of a training set has committed: this module's latest, or the one before it (15 R365). -/
def Prog.backTo (P : Prog) (older : Bool) : Prog :=
  match P.older with
  | some o =>
    if older && P.training then
      { P with saved := o.tables, savedWeirs := o.weirs, savedBytes := o.bytes, log := o.log ++ P.log, older := none }
    else P
  | none => P

/-- Step 5: the slots of a program's write regions in banks with TAGS = 1 are empty, and its weirs hold the counts of the
checkpoint. -/
def State.restoreTags (s : State) (g : Fin 4) (P : Prog) : State :=
  let rs := (s.claimedRegions.filter (fun x => x.1 == g && x.2.perm.getLsbD 1)).map (fun x => (x.2.base.toNat, x.2.pages.toNat * 4096))
  let s := (slotsOf rs).foldl (fun s x => if s.polders[x.1].terp.banks[bankIx x.2].tags then s.setTag x.1 x.2 false else s) s
  P.savedWeirs.foldl (fun s w => s.weirSetReg w.1 w.2) s

/-- A lost line in the KV page of a sequence: its pages are rebuilt by running its prompt and its tokens through the prefill stages again (17
Table 17-2). -/
def Prog.rebuildPages (P : Prog) (c : RollbackCause) (T : ProgTables) : ProgTables :=
  match c with
  | .line a =>
    let hit := fun (q : LiveSeq) => q.pages.any (fun x =>
      P.poolBase + 65536 * x.1 ≤ a.toNat && a.toNat < P.poolBase + 65536 * (x.1 + x.2))
    { T with slots := T.slots.map (fun q => q.map (fun q => if hit q then { q with decode := false, done := 0, ran := false } else q)) }
  | _ => T

/-- Steps 6 and 7 for a program: its tables are those of the checkpoint, its log is to be replayed up to the boundary it had reached, and
the launches in flight at the checkpoint are committed again (15 R365). -/
def State.restoreProg (s : State) (c : RollbackCause) (g : Fin 4) (P : Prog) : State :=
  let s := P.savedBytes.foldl (fun s x => s.portPut x.1 x.2) s
  let open_ := fun (id : U64) => (P.cancels.find? (fun c => c.1 == id)).bind (·.2)
  let again := (P.log ++ P.replay).map (fun x => match x.2 with
    | .cancel id f => (x.1, LogOp.cancel id (if f.isSome then f else open_ id))
    | _ => x)
  let Q : Prog := { P with tables := P.rebuildPages c P.saved, replay := again, log := [], cancels := [],
                           replayTo := if P.training then 0 else max P.replayTo P.tables.boundaries }
  if P.training then s.onProg g (fun _ => { Q with log := P.log }.nextRun)
  else
    let s := (s.onProg g (fun _ => Q)).directories Q
    (List.range P.m).foldl (fun s b => s.launchStep Q b (b == 0)) s

/-- Failures that cannot be repaired, and rollbacks that fail (17 R407, R408): every request and training loop ends as though each
program had faulted; `final` takes the module out of service for later jobs. -/
def State.giveUp (s : State) (final : Bool) : State :=
  let s := s.bound.foldl (fun s x => ((s.stopTasks x.2).endAll x.1 5).onProg x.1 (fun P => { P with stopped := true })) s
  { s with integ := { s.integ with lost := true, cause := none, rolling := false }, flash := { s.flash with log := s.flash.log ++ [if final then 1 else 2] },
           herd := { s.herd with noJobs := s.herd.noJobs || final } }

/-- The sites that a cause replaces. -/
def sitesOf (s : State) (c : RollbackCause) : List Site :=
  match c with
  | .groupLimit n => [n]
  | .planned => s.integ.planned
  | _ => []

/-- Steps 3 to 7 of 17 R405, and what takes their place where a spare or the restore fails (R407, R408). -/
def State.rollOn (s : State) (c : RollbackCause) (i : RollbackInputs) : State :=
  let sites := sitesOf s c
  -- step 3
  let (s, ok) := sites.foldl (fun (x : State × Bool) n =>
    let (s', ok) := x.1.activate n i.selfTestOk
    (s', x.2 && ok)) (s, true)
  let s := { s with integ := { s.integ with planned := s.integ.planned.filter (fun n => !sites.contains n) } }
  if !ok then (s.giveUp true).announce 6 0
  else
    -- steps 4 to 6
    let s := if sites.isEmpty then s else s.bound.foldl (fun s x => s.rebind x.1 x.2) s
    let s := s.bound.foldl (fun s x => s.onProg x.1 (fun P => P.backTo i.older)) s
    let s := s.bound.foldl (fun s x => s.restoreTags x.1 x.2) s
    match i.restore with
    | .done =>
      let s := { s with integ := { s.integ with rolling := false } }
      let s := s.bound.foldl (fun s x => s.restoreProg c x.1 x.2) s
      -- step 7
      { s with integ := { s.integ with cause := none } }.announce 6 0
    | .unitLost => ({ s with ckpt := { s.ckpt with status := s.ckpt.status ||| 4 } }.giveUp false).announce 6 0
    | .notReturned | .struck => (s.giveUp false).announce 6 0

/-- The cause of the rollback in progress or next: hardware's, an exception in Herd, or the rollback of another member (17 R404, 15
R365). -/
def rollCause (s : State) (i : RollbackInputs) : Option RollbackCause :=
  match s.integ.cause with
  | some c => some c
  | none => if i.cause = .herdFailure ∨ i.cause = .joined then some i.cause else none

/-- ROLLBACK: the rollback that a cause has started runs in the order of 17 R405. It waits while a checkpoint is being written (R404) and
while transfers complete. -/
def execRollback (i : RollbackInputs) (s : State) : Outcome State Fault Refusal :=
  match rollCause s i with
  | none => .next s
  | some c =>
    if !s.herdUp || (s.ckpt.busy && !s.ckpt.job.restore) then .next s else
    let s := { s with integ := { s.integ with cause := some c } }.rollStart
    if s.rollWaits then .next s else .next (s.rollOn c i)

end Sys2Proof.Machine
end

