-- ==== Sys2Proof/Machine/Dispatch.lean ====
section
/-! DEFINITION. The dispatch: one arm per command, each one call of its meaning. -/

namespace Sys2Proof.Machine

/-- The effect of a command on everything but the queue. -/
def exec (i : Instr) (s : State) : Host.Outcome State Fault Refusal :=
  match i with
  | .ctlNop p f => Sys2Proof.Machine.execCtlNop p f s
  | .ctlEnd p f => Sys2Proof.Machine.execCtlEnd p f s
  | .ctlJmp p f => Sys2Proof.Machine.execCtlJmp p f s
  | .ctlBeq p f => Sys2Proof.Machine.execCtlBeq p f s
  | .ctlBne p f => Sys2Proof.Machine.execCtlBne p f s
  | .ctlBlt p f => Sys2Proof.Machine.execCtlBlt p f s
  | .ctlBge p f => Sys2Proof.Machine.execCtlBge p f s
  | .ctlBltu p f => Sys2Proof.Machine.execCtlBltu p f s
  | .ctlBgeu p f => Sys2Proof.Machine.execCtlBgeu p f s
  | .ctlAdd p f => Sys2Proof.Machine.execCtlAdd p f s
  | .ctlSub p f => Sys2Proof.Machine.execCtlSub p f s
  | .ctlMul p f => Sys2Proof.Machine.execCtlMul p f s
  | .ctlAnd p f => Sys2Proof.Machine.execCtlAnd p f s
  | .ctlOr p f => Sys2Proof.Machine.execCtlOr p f s
  | .ctlXor p f => Sys2Proof.Machine.execCtlXor p f s
  | .ctlShl p f => Sys2Proof.Machine.execCtlShl p f s
  | .ctlShr p f => Sys2Proof.Machine.execCtlShr p f s
  | .ctlSra p f => Sys2Proof.Machine.execCtlSra p f s
  | .ctlAddi p f => Sys2Proof.Machine.execCtlAddi p f s
  | .ctlShli p f => Sys2Proof.Machine.execCtlShli p f s
  | .ctlShri p f => Sys2Proof.Machine.execCtlShri p f s
  | .ctlAndi p f => Sys2Proof.Machine.execCtlAndi p f s
  | .ctlLi p f => Sys2Proof.Machine.execCtlLi p f s
  | .ctlTime p f => Sys2Proof.Machine.execCtlTime p f s
  | .ctlTimerClaim p f => Sys2Proof.Machine.execCtlTimerClaim p f s
  | .ctlTimerArm p f => Sys2Proof.Machine.execCtlTimerArm p f s
  | .ctlTimerRelease p f => Sys2Proof.Machine.execCtlTimerRelease p f s
  | .ctlTimerRead p f => Sys2Proof.Machine.execCtlTimerRead p f s
  | .timerExpiry n => Sys2Proof.Machine.execTimerExpiry n s
  | .mvLd p f => Sys2Proof.Machine.execMvLd p f s
  | .mvSt p f => Sys2Proof.Machine.execMvSt p f s
  | .mvLane p f => Sys2Proof.Machine.execMvLane p f s
  | .mvSplat p f => Sys2Proof.Machine.execMvSplat p f s
  | .mvDget p f => Sys2Proof.Machine.execMvDget p f s
  | .mvDput p f => Sys2Proof.Machine.execMvDput p f s
  | .mvMand p f => Sys2Proof.Machine.execMvMand p f s
  | .mvMor p f => Sys2Proof.Machine.execMvMor p f s
  | .mvMnot p f => Sys2Proof.Machine.execMvMnot p f s
  | .mvMset p f => Sys2Proof.Machine.execMvMset p f s
  | .mvCopy p f => Sys2Proof.Machine.execMvCopy p f s
  | .mvBytes p f => Sys2Proof.Machine.execMvBytes p f s
  | .moveComplete id => Sys2Proof.Machine.execMoveComplete id s
  | .wrSignal p f => Sys2Proof.Machine.execWrSignal p f s
  | .wrWait p f => Sys2Proof.Machine.execWrWait p f s
  | .wrRead p f => Sys2Proof.Machine.execWrRead p f s
  | .wrRsignal p f => Sys2Proof.Machine.execWrRsignal p f s
  | .wrSwait p f => Sys2Proof.Machine.execWrSwait p f s
  | .wrSfree p f => Sys2Proof.Machine.execWrSfree p f s
  | .wrSfill p f => Sys2Proof.Machine.execWrSfill p f s
  | .waitComplete p => Sys2Proof.Machine.execWaitComplete p s
  | .waitTimeout p => Sys2Proof.Machine.execWaitTimeout p s
  | .mmLd p f => Sys2Proof.Machine.execMmLd p f s
  | .mmBp p f => Sys2Proof.Machine.execMmBp p f s
  | .mmFence p f => Sys2Proof.Machine.execMmFence p f s
  | .fenceComplete p => Sys2Proof.Machine.execFenceComplete p s
  | .weightLoadStart p => Sys2Proof.Machine.execWeightLoadStart p s
  | .weightLoadDone e => Sys2Proof.Machine.execWeightLoadDone e s
  | .passStart p upset => Sys2Proof.Machine.execPassStart p upset s
  | .lastProductRetire p => Sys2Proof.Machine.execLastProductRetire p s
  | .setSwap p => Sys2Proof.Machine.execSetSwap p s
  | .drainRow p upset => Sys2Proof.Machine.execDrainRow p upset s
  | .ocTileWrite e => Sys2Proof.Machine.execOcTileWrite e s
  | .sumpDbgStart p v => Sys2Proof.Machine.execSumpDbgStart p v s
  | .snapshotDone p => Sys2Proof.Machine.execSnapshotDone p s
  | .drainHoldWrite p v => Sys2Proof.Machine.execDrainHoldWrite p v s
  | .eePass p f => Sys2Proof.Machine.execEePass p f s
  | .eeAdd p f => Sys2Proof.Machine.execEeAdd p f s
  | .eeSub p f => Sys2Proof.Machine.execEeSub p f s
  | .eeMul p f => Sys2Proof.Machine.execEeMul p f s
  | .eeFma p f => Sys2Proof.Machine.execEeFma p f s
  | .eeMin p f => Sys2Proof.Machine.execEeMin p f s
  | .eeMax p f => Sys2Proof.Machine.execEeMax p f s
  | .eeCmpEq p f => Sys2Proof.Machine.execEeCmpEq p f s
  | .eeCmpNe p f => Sys2Proof.Machine.execEeCmpNe p f s
  | .eeCmpLt p f => Sys2Proof.Machine.execEeCmpLt p f s
  | .eeCmpLe p f => Sys2Proof.Machine.execEeCmpLe p f s
  | .eeSel p f => Sys2Proof.Machine.execEeSel p f s
  | .eeAbs p f => Sys2Proof.Machine.execEeAbs p f s
  | .eeNeg p f => Sys2Proof.Machine.execEeNeg p f s
  | .eeRsh p f => Sys2Proof.Machine.execEeRsh p f s
  | .eeCvt p f => Sys2Proof.Machine.execEeCvt p f s
  | .eeRcp p f => Sys2Proof.Machine.execEeRcp p f s
  | .eeRsq p f => Sys2Proof.Machine.execEeRsq p f s
  | .eeEx2 p f => Sys2Proof.Machine.execEeEx2 p f s
  | .eeLg2 p f => Sys2Proof.Machine.execEeLg2 p f s
  | .eeLmul p f => Sys2Proof.Machine.execEeLmul p f s
  | .eeLdiv p f => Sys2Proof.Machine.execEeLdiv p f s
  | .eeLexp p f => Sys2Proof.Machine.execEeLexp p f s
  | .eeGather p f => Sys2Proof.Machine.execEeGather p f s
  | .eeChain p f => Sys2Proof.Machine.execEeChain p f s
  | .eeUload p f => Sys2Proof.Machine.execEeUload p f s
  | .ruCount p f => Sys2Proof.Machine.execRuCount p f s
  | .ruSum p f => Sys2Proof.Machine.execRuSum p f s
  | .ruSumsq p f => Sys2Proof.Machine.execRuSumsq p f s
  | .ruMv p f => Sys2Proof.Machine.execRuMv p f s
  | .ruMvp p f => Sys2Proof.Machine.execRuMvp p f s
  | .ruMvf p f => Sys2Proof.Machine.execRuMvf p f s
  | .ruMax p f => Sys2Proof.Machine.execRuMax p f s
  | .ruMin p f => Sys2Proof.Machine.execRuMin p f s
  | .ruArgmax p f => Sys2Proof.Machine.execRuArgmax p f s
  | .ruArgmin p f => Sys2Proof.Machine.execRuArgmin p f s
  | .ruLsum p f => Sys2Proof.Machine.execRuLsum p f s
  | .qzCbk p f => Sys2Proof.Machine.execQzCbk p f s
  | .qzSurvey p f => Sys2Proof.Machine.execQzSurvey p f s
  | .qzQuant p f => Sys2Proof.Machine.execQzQuant p f s
  | .qzOpt p f => Sys2Proof.Machine.execQzOpt p f s
  | .pwHint p f => Sys2Proof.Machine.execPwHint p f s
  | .pwPref p f => Sys2Proof.Machine.execPwPref p f s
  | .pwEnergy p f => Sys2Proof.Machine.execPwEnergy p f s
  | .cxAllreduce p f => Sys2Proof.Machine.execCxAllreduce p f s
  | .cxReducescatter p f => Sys2Proof.Machine.execCxReducescatter p f s
  | .cxAllgather p f => Sys2Proof.Machine.execCxAllgather p f s
  | .cxBroadcast p f => Sys2Proof.Machine.execCxBroadcast p f s
  | .cxBarrier p f => Sys2Proof.Machine.execCxBarrier p f s
  | .collectiveComplete id peers => Sys2Proof.Machine.execCollectiveComplete id peers s
  | .spOpen p f => Sys2Proof.Machine.execSpOpen p f s
  | .spAdd p f => Sys2Proof.Machine.execSpAdd p f s
  | .spFlush p f => Sys2Proof.Machine.execSpFlush p f s
  | .spMerge p f => Sys2Proof.Machine.execSpMerge p f s
  | .launchCommit p w7 => Sys2Proof.Machine.execLaunchCommit p w7 s
  | .taskStart p => Sys2Proof.Machine.execTaskStart p s
  | .taskEnd p => Sys2Proof.Machine.execTaskEnd p s
  | .seqCtlFlush p => Sys2Proof.Machine.execSeqCtlFlush p s
  | .seqCtlAbort p => Sys2Proof.Machine.execSeqCtlAbort p s
  | .seqCtlResume p => Sys2Proof.Machine.execSeqCtlResume p s
  | .resClaimClaim owner entry => Sys2Proof.Machine.execResClaimClaim owner entry s
  | .resClaimRelease owner entry => Sys2Proof.Machine.execResClaimRelease owner entry s
  | .terpTagOp p v => Sys2Proof.Machine.execTerpTagOp p v s
  | .tagOpDone p => Sys2Proof.Machine.execTagOpDone p s
  | .terpBankCtlWrite p b v => Sys2Proof.Machine.execTerpBankCtlWrite p b v s
  | .bankReady p b => Sys2Proof.Machine.execBankReady p b s
  | .terpRwinCtlWrite p w v => Sys2Proof.Machine.execTerpRwinCtlWrite p w v s
  | .weirAddWrite w v => Sys2Proof.Machine.execWeirAddWrite w v s
  | .weirSetWrite w v => Sys2Proof.Machine.execWeirSetWrite w v s
  | .weirThreshWrite w v => Sys2Proof.Machine.execWeirThreshWrite w v s
  | .weirCtlWrite w v => Sys2Proof.Machine.execWeirCtlWrite w v s
  | .weirUpdateArrival w => Sys2Proof.Machine.execWeirUpdateArrival w s
  | .remotePacketArrival p => Sys2Proof.Machine.execRemotePacketArrival p s
  | .registerWrite addr wide v => Sys2Proof.Machine.execRegisterWrite addr wide v s
  | .fabricPacketForward site out now arrivals taken => Sys2Proof.Machine.execFabricPacketForward site out now arrivals taken s
  | .packetPromotion site out net inp now => Sys2Proof.Machine.execPacketPromotion site out net inp now s
  | .activityTimerExpire site inp out now => Sys2Proof.Machine.execActivityTimerExpire site inp out now s
  | .mscAccess addr kind x => Sys2Proof.Machine.execMscAccess addr kind x s
  | .mscCtlFlush k => Sys2Proof.Machine.execMscCtlFlush k s
  | .flushDone k => Sys2Proof.Machine.execFlushDone k s
  | .mscRangeWrite k n lim v => Sys2Proof.Machine.execMscRangeWrite k n lim v s
  | .refpb mc ch bank => Sys2Proof.Machine.execRefpb mc ch bank s
  | .tempReportPoll mc reports => Sys2Proof.Machine.execTempReportPoll mc reports s
  | .wckDriftTracking mc ch => Sys2Proof.Machine.execWckDriftTracking mc ch s
  | .patrolScrubRead mc errs => Sys2Proof.Machine.execPatrolScrubRead mc errs s
  | .spareCopyDone mc => Sys2Proof.Machine.execSpareCopyDone mc s
  | .channelFailure mc ch => Sys2Proof.Machine.execChannelFailure mc ch s
  | .terpPatrolScrub p addr ecc => Sys2Proof.Machine.execTerpPatrolScrub p addr ecc s
  | .refetchDone p slot => Sys2Proof.Machine.execRefetchDone p slot s
  | .commandFrame lane fr => Sys2Proof.Machine.execCommandFrame lane fr s
  | .heartbeatFrame lane fr => Sys2Proof.Machine.execHeartbeatFrame lane fr s
  | .ackFrame lane fr => Sys2Proof.Machine.execAckFrame lane fr s
  | .frameResendTimeout => Sys2Proof.Machine.execFrameResendTimeout s
  | .heartbeatIdleTimeout lane => Sys2Proof.Machine.execHeartbeatIdleTimeout lane s
  | .controlLinkLost => Sys2Proof.Machine.execControlLinkLost s
  | .jobOpen => Sys2Proof.Machine.execJobOpen s
  | .jobClose => Sys2Proof.Machine.execJobClose s
  | .streamOpen => Sys2Proof.Machine.execStreamOpen s
  | .streamClose => Sys2Proof.Machine.execStreamClose s
  | .statusRead => Sys2Proof.Machine.execStatusRead s
  | .modelLoad packageOk => Sys2Proof.Machine.execModelLoad packageOk s
  | .progBind plan => Sys2Proof.Machine.execProgBind plan s
  | .progUnbind => Sys2Proof.Machine.execProgUnbind s
  | .progRestart => Sys2Proof.Machine.execProgRestart s
  | .reqSubmit => Sys2Proof.Machine.execReqSubmit s
  | .reqCancel => Sys2Proof.Machine.execReqCancel s
  | .trainStart => Sys2Proof.Machine.execTrainStart s
  | .trainStop => Sys2Proof.Machine.execTrainStop s
  | .statsRead => Sys2Proof.Machine.execStatsRead s
  | .streamPacketArrival pk => Sys2Proof.Machine.execStreamPacketArrival pk s
  | .streamDone stream => Sys2Proof.Machine.execStreamDone stream s
  | .streamCredit type count => Sys2Proof.Machine.execStreamCredit type count s
  | .streamNak lseq => Sys2Proof.Machine.execStreamNak lseq s
  | .pnxSendGo v => Sys2Proof.Machine.execPnxSendGo v s
  | .streamSendDone => Sys2Proof.Machine.execStreamSendDone s
  | .streamLaneRetrain working => Sys2Proof.Machine.execStreamLaneRetrain working s
  | .wilvarTrain w lanes => Sys2Proof.Machine.execWilvarTrain w lanes s
  | .wilvarPeerExchange w jobId coord => Sys2Proof.Machine.execWilvarPeerExchange w jobId coord s
  | .wilvarPacketArrival w pk => Sys2Proof.Machine.execWilvarPacketArrival w pk s
  | .wilvarFlitReplay w => Sys2Proof.Machine.execWilvarFlitReplay w s
  | .wakePatternRepeat w => Sys2Proof.Machine.execWakePatternRepeat w s
  | .syncExchange t => Sys2Proof.Machine.execSyncExchange t s
  | .parentPortDown => Sys2Proof.Machine.execParentPortDown s
  | .announceLocked port a => Sys2Proof.Machine.execAnnounceLocked port a s
  | .announceTarget port a => Sys2Proof.Machine.execAnnounceTarget port a s
  | .announceCap port a => Sys2Proof.Machine.execAnnounceCap port a s
  | .announceRelease port a => Sys2Proof.Machine.execAnnounceRelease port a s
  | .announceHalt port a => Sys2Proof.Machine.execAnnounceHalt port a s
  | .announceResume port a => Sys2Proof.Machine.execAnnounceResume port a s
  | .epochBoundary inputs => Sys2Proof.Machine.execEpochBoundary inputs s
  | .currentReport r mean => Sys2Proof.Machine.execCurrentReport r mean s
  | .limitWindowClose r => Sys2Proof.Machine.execLimitWindowClose r s
  | .alertPulseEnd => Sys2Proof.Machine.execAlertPulseEnd s
  | .droopDetect q => Sys2Proof.Machine.execDroopDetect q s
  | .droopRelease q => Sys2Proof.Machine.execDroopRelease q s
  | .estimateIntervalClose railNj inputNj => Sys2Proof.Machine.execEstimateIntervalClose railNj inputNj s
  | .bermStep q b => Sys2Proof.Machine.execBermStep q b s
  | .a1Entry q => Sys2Proof.Machine.execA1Entry q s
  | .pmCtlS1Req => Sys2Proof.Machine.execPmCtlS1Req s
  | .pmCtlS2Req => Sys2Proof.Machine.execPmCtlS2Req s
  | .s1IdleTimeout => Sys2Proof.Machine.execS1IdleTimeout s
  | .wakeNAssert => Sys2Proof.Machine.execWakeNAssert s
  | .linkSignalDetect src pattern => Sys2Proof.Machine.execLinkSignalDetect src pattern s
  | .wake b => Sys2Proof.Machine.execWake b s
  | .ganderSample n src value => Sys2Proof.Machine.execGanderSample n src value s
  | .tripRestart => Sys2Proof.Machine.execTripRestart s
  | .ganderCmpWrite n v => Sys2Proof.Machine.execGanderCmpWrite n v s
  | .ganderThrWrite n v => Sys2Proof.Machine.execGanderThrWrite n v s
  | .microbatchBoundary prog b rows => Sys2Proof.Machine.execMicrobatchBoundary prog b rows s
  | .herdFaultHandler p => Sys2Proof.Machine.execHerdFaultHandler p s
  | .eventLogSend => Sys2Proof.Machine.execEventLogSend s
  | .trainStep prog inputs => Sys2Proof.Machine.execTrainStep prog inputs s
  | .rollback inputs => Sys2Proof.Machine.execRollback inputs s
  | .ckptCtlGo v => Sys2Proof.Machine.execCkptCtlGo v s
  | .ckptCopyDone ue => Sys2Proof.Machine.execCkptCopyDone ue s
  | .secDbgRevoke => Sys2Proof.Machine.execSecDbgRevoke s
  | .secDbgNewNonce entropy => Sys2Proof.Machine.execSecDbgNewNonce entropy s
  | .debugToken tok entropy => Sys2Proof.Machine.execDebugToken tok entropy s
  | .mgtSbCfgWrite n v => Sys2Proof.Machine.execMgtSbCfgWrite n v s
  | .inputValid straps b => Sys2Proof.Machine.execInputValid straps b s
  | .vinUndervoltage => Sys2Proof.Machine.execVinUndervoltage s
  | .vinOvervoltage => Sys2Proof.Machine.execVinOvervoltage s
  | .enInFall => Sys2Proof.Machine.execEnInFall s
  | .mrstN b => Sys2Proof.Machine.execMrstN b s
  | .i3cSetdasa static dyn => Sys2Proof.Machine.execI3cSetdasa static dyn s
  | .i3cEntdaa dyn => Sys2Proof.Machine.execI3cEntdaa dyn s
  | .i3cSetnewda dyn => Sys2Proof.Machine.execI3cSetnewda dyn s
  | .i3cRstdaa => Sys2Proof.Machine.execI3cRstdaa s
  | .i3cGetpid => Sys2Proof.Machine.execI3cGetpid s
  | .i3cGetbcr => Sys2Proof.Machine.execI3cGetbcr s
  | .i3cGetdcr => Sys2Proof.Machine.execI3cGetdcr s
  | .i3cGetstatus => Sys2Proof.Machine.execI3cGetstatus s
  | .i3cEnec ev => Sys2Proof.Machine.execI3cEnec ev s
  | .i3cDisec ev => Sys2Proof.Machine.execI3cDisec ev s
  | .i3cGetmwl => Sys2Proof.Machine.execI3cGetmwl s
  | .i3cSetmwl len => Sys2Proof.Machine.execI3cSetmwl len s
  | .i3cGetmrl => Sys2Proof.Machine.execI3cGetmrl s
  | .i3cSetmrl len => Sys2Proof.Machine.execI3cSetmrl len s
  | .pldmSensorRead id => Sys2Proof.Machine.execPldmSensorRead id s
  | .pldmEnterS1 => Sys2Proof.Machine.execPldmEnterS1 s
  | .pldmEnterS2 => Sys2Proof.Machine.execPldmEnterS2 s
  | .pldmClearLockout => Sys2Proof.Machine.execPldmClearLockout s
  | .pldmBurnDebugLock => Sys2Proof.Machine.execPldmBurnDebugLock s
  | .pldmFwUpdateImage image => Sys2Proof.Machine.execPldmFwUpdateImage image s
  | .pldmFwUpdateCalibration cal => Sys2Proof.Machine.execPldmFwUpdateCalibration cal s
  | .pldmSteppingRead => Sys2Proof.Machine.execPldmSteppingRead s
  | .getVersion => Sys2Proof.Machine.execGetVersion s
  | .getCapabilities => Sys2Proof.Machine.execGetCapabilities s
  | .negotiateAlgorithms asym hash => Sys2Proof.Machine.execNegotiateAlgorithms asym hash s
  | .getDigests => Sys2Proof.Machine.execGetDigests s
  | .getCertificate slot offset len => Sys2Proof.Machine.execGetCertificate slot offset len s
  | .challenge slot nonce => Sys2Proof.Machine.execChallenge slot nonce s
  | .getMeasurements index signed nonce => Sys2Proof.Machine.execGetMeasurements index signed nonce s
  | .tapBypass => Sys2Proof.Machine.execTapBypass s
  | .tapIdcode => Sys2Proof.Machine.execTapIdcode s
  | .tapSamplePreload pins preload => Sys2Proof.Machine.execTapSamplePreload pins preload s
  | .tapExtest => Sys2Proof.Machine.execTapExtest s
  | .tapClamp => Sys2Proof.Machine.execTapClamp s
  | .tapHighz => Sys2Proof.Machine.execTapHighz s
  | .wilvarPortDown w => Sys2Proof.Machine.execWilvarPortDown w s
  | .flashWriteComplete => Sys2Proof.Machine.execFlashWriteComplete s
  | .powerStateEntryComplete => Sys2Proof.Machine.execPowerStateEntryComplete s
  | .unsupportedRequest code => Sys2Proof.Machine.execUnsupportedRequest code s

end Sys2Proof.Machine
end

