-- ==== Sys2Proof/Machine/Tick.lean ====
section
/-! DEFINITION. One nanosecond of the timebase, which passes while no command waits (DESIGN CHOICE, log entry 8). -/

namespace Sys2Proof.Machine

/-- What the slew adds to the timebase in the first n ns after an exchange: its offset in ps spread over the 10 µs to the next
exchange (14 R327), and on at that rate while a member holds its rate (R329). -/
def slewed (held : Bool) (slew : Int) (n : Nat) : Int := (slew * (if held then n else min n 10000)).tdiv 10000000

/-- The timebase clock runs from power-up on, in every state but off (16 Table 16-1, 18 R429). -/
def State.timed (s : State) : Bool := decide (s.pm.state ≠ .off)

/-- Whether some quadrant that runs is below its point's frequency (16 R394, PM_STRETCH_NS). -/
def State.slowed (s : State) : Bool :=
  s.arithOn && (List.finRange 4).any (fun q => !s.pm.a1[q] && s.stretched q)

/-- Whether an access may contend or wait on a tag at the terp of a polder: its array works, a transfer or a packet is on its way,
or its task waits on a slot (11 R244, R250). -/
def terpBusy (s : State) (p : Pid) : Bool :=
  let P := s.polders[p]
  !arrayIdle P || !s.transfers.isEmpty || !P.terp.landing.isEmpty
  || (match P.task.bind Task.wait with
      | some w => (match w.kind with | .access _ _ _ => true | .slot _ => true | _ => false)
      | none => false)

/-- While a terp is busy, TERP_NARROW_FORCED and TERP_TAG_WAITS count a free number of cycles in each nanosecond (11 R244, R267;
DESIGN CHOICE, log entry 3). -/
def State.contend (s : State) : State :=
  if s.arithOn && (List.finRange 32).any (terpBusy s) then
    { s with
      freeIx := s.freeIx + 64,
      polders := Vector.ofFn (fun p =>
        let P := s.polders[p]
        if terpBusy s p then
          { P with terp := { P.terp with narrow := P.terp.narrow + Config.freeWord (s.freeIx + 2 * p.val),
                                         tagWaits := P.terp.tagWaits + Config.freeWord (s.freeIx + 2 * p.val + 1) } }
        else P) }
  else s

/-- Slot ends of the nanosecond that passes are over (11 R252). -/
def State.clearEnded (s : State) : State :=
  if (List.finRange 32).all (fun p => s.polders[p].terp.ended.isEmpty) then s
  else { s with polders := s.polders.map (fun P => { P with terp := { P.terp with ended := [] } }) }

/-- The fault that a polder's fetch meets in the code of its task, if any: a pc at or beyond CODE_LEN, or a word of a reserved CLASS or OP
(09 R196; 10 R213, R214, R231). A task instruction comes as a command of its own (log entry 42); a word that no command can carry stops
the task here. A fetch waits on a bank that is busy (11 R242). -/
def fetchStop (s : State) (p : Pid) : Option (Byte × U32) :=
  match s.issuer p with
  | none => none
  | some t =>
    let a := t.stage.code.toNat + t.pc.toNat
    if t.stage.codeLen.toNat < t.pc.toNat + 8 then some (0x08, fetchInfo t)
    else if !isMemory a then none
    else match gateBusy s (slotsOf [(a, 8)]) with
      | .error _ => none
      | .ok () =>
        match decodeInstr p t.stage.level.toNat (BitVec.ofNat 64 (s.num a 8)) 0 with
        | .error c => some (c, 0)
        | .ok _ => none

/-- The fetch of every polder that no command issues on. -/
def State.fetchAll (s : State) : State :=
  (List.finRange 32).foldl (fun s p =>
    match fetchStop s p with
    | some (c, i) => s.taskFault p c i
    | none => s) s

/-- The timebase advances by 1, apart from the slew; it never runs backwards (14 R327, 16 R367). -/
def State.tick (s : State) : State :=
  if s.timed then
    let s := (List.finRange 32).foldl (fun s p => s.payRecord p) s.contend
    let s := s.clearEnded.fetchAll.herdTurn.wilvarTurn
    let n := s.cad.slewTick
    let adv := 1 + slewed s.cad.rateHeld s.cad.slew (n + 1) - slewed s.cad.rateHeld s.cad.slew n
    { s with tb := s.tb + BitVec.ofInt 64 adv,
             cad := { s.cad with slewTick := n + 1 },
             pm := { s.pm with stretchNs := if s.slowed then s.pm.stretchNs + 1 else s.pm.stretchNs } }
  else s

end Sys2Proof.Machine
end

