-- ==== Sys2Proof/Safety.lean ====
section
/-! DEFINITION. What every reachable state keeps, in the terms that claims use. -/

namespace Sys2Proof.Machine

/-- The resource entries that hardware takes at power-up and never releases: G0, G1, G7, TRIP_N, ALERT_N, WAKE_N (09 R208, 16 R392,
18 R430). -/
def hardwareEntries : List (Fin 96) := [64, 65, 71, 88, 89, 90]

/-- Hardware holds its entries, and the owners saved for S2 say so too (16 R384). -/
def State.hardwareHolds (s : State) : Prop :=
  (∀ e ∈ hardwareEntries, s.res.owner[e] = 15)
  ∧ ∀ m ∈ s.pm.saved, ∀ e ∈ hardwareEntries, m.2.2.2[Fin.ofNat 32 (e.val - 64)] = 15

/-- A launch queue holds at most eight records (09 R194). -/
def State.queuesFit (s : State) : Prop := ∀ p : Pid, s.polders[p].seq.queue.length ≤ 8

/-- The memory is in its canonical form. -/
def State.memoryCanonical (s : State) : Prop := Memory.wf s.mem = true

/-- The module is up and its arithmetic clocks run: no trip halts it (16 R383, R390). -/
def State.up (s : State) : Prop := s.arithOn = true

/-! ### Terms of the claims about task instructions -/

/-- Polder `p` runs task `t`, whose next instruction may issue: the arithmetic clocks run, the task has not asked for its end, and
it waits on nothing but an access of that instruction (09 R194, 10 R216, 11 R250). -/
def CanIssue (s : State) (p : Pid) (t : Task) : Prop :=
  s.arithOn = true ∧ s.polders[p].task = some t ∧ t.ending = false
  ∧ (t.wait = none ∨ ∃ q n full since, t.wait = some ⟨.access q n full, since⟩)

/-- An instruction passes the first two checks of 10 R214: it lies in the code, and its fields are those it may use. -/
def Accepts (t : Task) (u : Use) (f : Fields) : Prop :=
  t.pc.toNat + Fields.bytes f ≤ t.stage.codeLen.toNat ∧ u.legal t.stage.level.toNat f = true

/-- The state with task `t` of polder `p` written back, its pc `n` bytes on and waiting on nothing. -/
def State.goesOn (s : State) (p : Pid) (t : Task) (n : Nat) : State :=
  s.onPolder p (fun P => { P with task := some { t with pc := t.pc + BitVec.ofNat 32 n, wait := none } })

/-- The next state of an instruction whose task becomes `t` and whose pc moves on by `n` bytes. -/
def goesTo (s : State) (p : Pid) (t : Task) (n : Nat) : Host.Outcome State Fault Refusal := .next (s.goesOn p t n)

/-- The state with polder `p`'s task, whatever the instruction made of it, at pc `t.pc + n` and waiting on nothing. -/
def State.past (s : State) (p : Pid) (t : Task) (n : Nat) : State := s.setPc p (t.pc + BitVec.ofNat 32 n)

end Sys2Proof.Machine
end

