-- ==== Sys2Proof/Certificates/Slice0/Obligations.lean ====
section
/-! DEFINITION. The statements about the model, for the provers. -/

open Sys2Proof Sys2Proof.Machine

/-- The command at the front of the queue runs with the queue's rest. -/
def Obligations.FrontCommandRuns : Prop :=
  ∀ (s : State) (c : Instr), step { s with pending := c :: s.pending } = exec c s

/-- The timebase "advances by 1 every 1 ns apart from the slew above" (14 R327): on an empty queue one ns passes in every state but
off (log entry 8), and without a slew in force the timebase gains 1; no command, weir, timer or transfer moves. Where nothing is under
way of what else a nanosecond moves (a busy terp, an owed completion record, a fetch that faults, a training run, a Wilvar packet) the
memory, the polders and Herd stay too. -/
def Obligations.IdleTickAdvancesTimebase : Prop :=
  ∀ s : State, s.pending = [] →
    (s.pm.state = .off → step s = .next s) ∧
    (s.pm.state ≠ .off → s.cad.slew = 0 → ∃ t, step s = .next t ∧ t.tb = s.tb + 1 ∧ t.pending = [] ∧
      t.weirs = s.weirs ∧ t.flight = s.flight ∧ t.timers = s.timers ∧ t.transfers = s.transfers ∧
      t.disc = s.disc ∧ t.sec = s.sec ∧ t.flash = s.flash ∧ t.gander = s.gander ∧ t.mgt = s.mgt ∧
      ((∀ p : Pid, s.polders[p].seq.owed = [] ∧ terpBusy s p = false ∧ s.polders[p].terp.ended = [] ∧ fetchStop s p = none) →
        (∀ x ∈ s.bound, x.2.tables.train = none) → s.herd.linkEvent = false → s.pnx.job = none →
        t.mem = s.mem ∧ t.polders = s.polders ∧ t.res = s.res ∧ t.herd = s.herd ∧ t.wlv = s.wlv ∧ t.sent = s.sent))

/-- The ctl operations on scalar registers complete with the result of their row of Table 10-3, modulo 2^64, in sRD (discarded for
s0), the pc 8 or 16 on, and nothing else changed. A taken branch goes to "its own address plus 8 × sext(IMM)" (10 R220), an untaken
one 8 bytes on; nothing else changes. A taken branch whose target lies outside the code faults with ADDR_RANGE. ctl.end leaves the
pc and asks for the task's end, which TASK_END then makes (10 Table 10-3, 09 R202). -/
def Obligations.CtlResults : Prop :=
  (∀ (s : State) (p : Pid) (t : Task) (f : Fields), CanIssue s p t →
     (let a := t.sreg f.ra
      let b := t.sreg f.rb
      let gives := fun (c : Instr) (x : U64) => exec c s = goesTo s p (t.setS f.rd x) 8
      (Accepts t {} f → exec (.ctlNop p f) s = goesTo s p t 8) ∧
      (Accepts t { rd := .any, ra := .any, rb := .any } f →
        gives (.ctlAdd p f) (BitVec.ofNat 64 (a.toNat + b.toNat)) ∧
        gives (.ctlSub p f) (BitVec.ofInt 64 (a.toNat - b.toNat : Int)) ∧
        gives (.ctlMul p f) (BitVec.ofNat 64 (a.toNat * b.toNat)) ∧
        gives (.ctlAnd p f) (a &&& b) ∧ gives (.ctlOr p f) (a ||| b) ∧ gives (.ctlXor p f) (a ^^^ b) ∧
        gives (.ctlShl p f) (BitVec.ofNat 64 (a.toNat * 2 ^ (b.toNat % 64))) ∧
        gives (.ctlShr p f) (BitVec.ofNat 64 (a.toNat / 2 ^ (b.toNat % 64))) ∧
        gives (.ctlSra p f) (BitVec.ofInt 64 (a.toInt / 2 ^ (b.toNat % 64)))) ∧
      (Accepts t { rd := .any, ra := .any, imm := BitVec.allOnes 29 } f →
        gives (.ctlAddi p f) (BitVec.ofInt 64 (a.toNat + f.imm.toInt)) ∧
        gives (.ctlAndi p f) (BitVec.ofNat 64 (a.toNat &&& f.imm.toNat))) ∧
      (Accepts t { rd := .any, ra := .any, imm := 0x3F } f →
        gives (.ctlShli p f) (BitVec.ofNat 64 (a.toNat * 2 ^ f.imm.toNat)) ∧
        gives (.ctlShri p f) (BitVec.ofNat 64 (a.toNat / 2 ^ f.imm.toNat))) ∧
      (Accepts t { rd := .any } f → gives (.ctlTime p f) s.tb) ∧
      (Accepts t { long := true, rd := .any, w1 := BitVec.allOnes 64 } f →
        exec (.ctlLi p f) s = goesTo s p (t.setS f.rd f.w1) 16))) ∧
  (∀ (s : State) (p : Pid) (t : Task) (f : Fields), CanIssue s p t →
     (let a := t.sreg f.ra
      let b := t.sreg f.rb
      let goal : Int := t.pc.toNat + 8 * f.imm.toInt
      let branches := fun (c : Instr) (taken : Prop) =>
        (taken → 0 ≤ goal → goal < t.stage.codeLen.toNat →
          exec c s = goesTo s p { t with pc := BitVec.ofInt 32 goal } 0) ∧
        (taken → ¬ (0 ≤ goal ∧ goal < t.stage.codeLen.toNat) →
          exec c s = .next (s.taskFault p 0x08 (BitVec.ofInt 32 (t.stage.code.toNat + goal)))) ∧
        (¬ taken → exec c s = goesTo s p t 8)
      (Accepts t { imm := BitVec.allOnes 29 } f → branches (.ctlJmp p f) True) ∧
      (Accepts t { ra := .any, rb := .any, imm := BitVec.allOnes 29 } f →
        branches (.ctlBeq p f) (a = b) ∧ branches (.ctlBne p f) (a ≠ b) ∧
        branches (.ctlBlt p f) (a.toInt < b.toInt) ∧ branches (.ctlBge p f) (b.toInt ≤ a.toInt) ∧
        branches (.ctlBltu p f) (a.toNat < b.toNat) ∧ branches (.ctlBgeu p f) (b.toNat ≤ a.toNat)))) ∧
  (∀ (s : State) (p : Pid) (t : Task) (f : Fields), CanIssue s p t → Accepts t {} f →
     exec (.ctlEnd p f) s = goesTo s p { t with ending := true } 0)

/-- ctl.timer claims a free timer for the program, arms a held one with the deadline sRA and a weir the task may signal, releases
and disarms it, and reads whether it expired (10 R221); an armed timer expires at or after its deadline and not before the tick
after it was armed, and signals its weir once by 1. "A timer expires at the first timebase tick at or after its deadline … and
signals its weir once by 1. A deadline already past expires on the next tick" (10 R221): an armed timer due expires, is disarmed,
and the signal leaves for its weir, which takes it past a synchroniser (11 R257); one not due, or not armed, changes nothing. -/
def Obligations.Timers : Prop :=
  (∀ (s : State) (p : Pid) (t : Task) (f : Fields) (n : Fin 16), f.imm.toNat % 16 = n.val → CanIssue s p t →
     Accepts t { rd := .any, ra := .any, imm := 0x3FFFFF } f →
     (let e : Fin 96 := ⟨72 + n.val, by omega⟩
      let mine := BitVec.ofNat 4 (t.stage.prog.val + 1)
      let w := f.imm.extractLsb' 6 16
      (s.owner e = 0 → exec (.ctlTimerClaim p f) s = goesTo (s.setOwner e mine) p t 8) ∧
      (s.owner e ≠ 0 → exec (.ctlTimerClaim p f) s =
        .next ({ s with res := { s.res with refused := s.res.refused + 1 } }.taskFault p 0x05 (BitVec.ofNat 32 e.val))) ∧
      (s.owner e = mine →
        (weirGranted s.polders[p].terp.bnd w.toNat = true → exec (.ctlTimerArm p f) s =
          goesTo (s.onTimer n (fun _ => { deadline := t.sreg f.ra, weir := w, armed := true, armedAt := s.tb })) p t 8) ∧
        exec (.ctlTimerRelease p f) s = goesTo ((s.setOwner e 0).onTimer n (fun T => { T with armed := false })) p t 8 ∧
        exec (.ctlTimerRead p f) s = goesTo s p (t.setS f.rd (if s.timers[n].expired then 1 else 0)) 8) ∧
      (s.owner e ≠ mine →
        exec (.ctlTimerArm p f) s = .next (s.taskFault p 0x05 (BitVec.ofNat 32 e.val)) ∧
        exec (.ctlTimerRelease p f) s = .next (s.taskFault p 0x05 (BitVec.ofNat 32 e.val)) ∧
        exec (.ctlTimerRead p f) s = .next (s.taskFault p 0x05 (BitVec.ofNat 32 e.val))))) ∧
  (∀ (s : State) (n : Fin 16), s.pm.state ≠ .off →
     (let T := s.timers[n]
      let due := T.armed = true ∧ T.deadline.toNat ≤ s.tb.toNat ∧ T.armedAt.toNat < s.tb.toNat
      (due → exec (.timerExpiry n) s =
        .next { s.onTimer n (fun T => { T with armed := false, expired := true }) with
                flight := s.flight ++ [(T.weir.toNat, 1)] }) ∧
      (¬ due → exec (.timerExpiry n) s = .next s)))

/-- The mv moves between registers complete with the result of their row of Table 10-4: a lane zero-extended, a value in every lane
that the governing mask selects (a masked lane keeps its value, or takes 0 with .z), a word of a descriptor, the mask operations
with m0 as all ones, and the leading min(sRA, 128) bits. -/
def Obligations.MvRegisterMoves : Prop :=
  ∀ (s : State) (p : Pid) (t : Task) (f : Fields), CanIssue s p t →
    (Accepts t { rd := .any, ra := .any, imm := 0x7F } f →
      exec (.mvLane p f) s = goesTo s p (t.setS f.rd ((lane (t.vreg f.ra) f.imm.toNat).setWidth 64)) 8) ∧
    (Accepts t { rd := .any, ra := .any, mask := true, z := true } f →
      ∃ x : BitVec 2048, exec (.mvSplat p f) s = goesTo s p (t.setV f.rd x) 8 ∧ ∀ l < 128,
        lane x l = if (t.mreg f.mask).getLsbD l then (t.sreg f.ra).setWidth 16 else if f.z then 0 else lane (t.vreg f.rd) l) ∧
    (Accepts t { rd := .any, ra := .desc, imm := 7 } f →
      exec (.mvDget p f) s = goesTo s p (t.setS f.rd (dword (t.dreg (dnum f.ra)) f.imm.toNat)) 8) ∧
    (Accepts t { rd := .desc, ra := .any, imm := 7 } f →
      ∃ d : DescWord, exec (.mvDput p f) s = goesTo s p (t.setD (dnum f.rd) d) 8 ∧ ∀ k < 8,
        dword d k = if k = f.imm.toNat then t.sreg f.ra else dword (t.dreg (dnum f.rd)) k) ∧
    (Accepts t { rd := .mask, ra := .mask, rb := .mask } f →
      exec (.mvMand p f) s = goesTo s p (t.setM (mnum f.rd) (t.mreg (mnum f.ra) &&& t.mreg (mnum f.rb))) 8 ∧
      exec (.mvMor p f) s = goesTo s p (t.setM (mnum f.rd) (t.mreg (mnum f.ra) ||| t.mreg (mnum f.rb))) 8) ∧
    (Accepts t { rd := .mask, ra := .mask } f →
      exec (.mvMnot p f) s = goesTo s p (t.setM (mnum f.rd) (~~~ t.mreg (mnum f.ra))) 8) ∧
    (Accepts t { rd := .mask, ra := .any } f →
      ∃ m : BitVec 128, exec (.mvMset p f) s = goesTo s p (t.setM (mnum f.rd) m) 8 ∧
        ∀ l < 128, m.getLsbD l = decide (l < (t.sreg f.ra).toNat))

/-- mv.ld and mv.st move a scalar, mask, descriptor or vector between a register and the bytes at sRA + sext(IMM[26:0]), lane 0 at
the lowest address, where the access passes the checks of 10 R218 and waits on no bank or tag; a load from a peer takes bytes from
outside (log entry 3). A store changes no byte outside the register's width. mv.ld and mv.st of the scalar file reach the registers
of the task's own polder from BPE to RU and WEIR, and DISC for reading (09 R210, 10 R222): the load takes the register as it reads,
after a counter of cycles has moved on by a free value (log entry 3), and the store is a write of the register; a write to DISC,
which is read-only, is ignored. -/
def Obligations.MvMemoryMoves : Prop :=
  (∀ (s : State) (p : Pid) (t : Task) (f : Fields), CanIssue s p t →
     (let k := (f.imm.extractLsb' 27 2).toNat
      let a := (t.sreg f.ra + (f.imm.extractLsb' 0 27).signExtend 64).toNat
      let n := if k = 0 then 8 else if k = 1 then 16 else if k = 2 then 64 else 256
      isRegister a = false → a % n = 0 →
      (Accepts t { rd := fileUse k, ra := .any, imm := BitVec.allOnes 29 } f → access s p false [(a, n)] [(a, n)] = .ok () →
        exec (.mvLd p f) s = goesTo (if a < 2 ^ 63 then s else s.fresh.2) p (t.fileSet k f.rd (leNat (s.bytes a n))) 8) ∧
      (Accepts t { ra := .any, rb := fileUse k, imm := BitVec.allOnes 29 } f → access s p true [(a, n)] [(a, n)] = .ok () →
        exec (.mvSt p f) s = goesTo (s.putBytes a (leBytes n (t.fileGet k f.rb))) p t 8 ∧
        ∀ b < 2 ^ 63, b < a ∨ a + n ≤ b →
          ((s.putBytes a (leBytes n (t.fileGet k f.rb))).goesOn p t 8).byte b = s.byte b))) ∧
  (∀ (s : State) (p : Pid) (t : Task) (f : Fields) (o : Nat), CanIssue s p t →
     (f.imm.extractLsb' 27 2 = 0 →
      let a := (t.sreg f.ra + (f.imm.extractLsb' 0 27).signExtend 64).toNat
      (place a = .window p o → (0x1000 ≤ o ∧ o < 0x9000 ∨ 0x20000 ≤ o) → weirOutside s p o = none →
        regAligned o (·.wide) (windowRead s p) = true →
        (Accepts t { rd := .any, ra := .any, imm := BitVec.allOnes 29 } f →
          exec (.mvLd p f) s =
            goesTo (s.moveCounter p o) p (t.setS f.rd (windowRead (s.moveCounter p o) p o).val) 8) ∧
        (Accepts t { ra := .any, rb := .any, imm := BitVec.allOnes 29 } f →
          exec (.mvSt p f) s = .next ((s.windowStore p o (t.sreg f.rb)).past p t 8))) ∧
      (place a = .control o → o < 0x1000 → regAligned o (·.wide) (discReg s.disc) = true →
        (Accepts t { rd := .any, ra := .any, imm := BitVec.allOnes 29 } f →
          exec (.mvLd p f) s = goesTo s p (t.setS f.rd (discReg s.disc o).val) 8) ∧
        (Accepts t { ra := .any, rb := .any, imm := BitVec.allOnes 29 } f → exec (.mvSt p f) s = goesTo s p t 8))))

/-- mv.copy and mv.bytes, their checks passed, start one transfer with its weir; with nothing to copy they signal the weir at once.
MOVE_COMPLETE of a byte copy writes what the source bytes hold at completion, sets the tags of the slots written in banks with TAGS
= 1 full, ends the transfer and signals its weir once by 1 (10 R223, 11 R250). -/
def Obligations.MoveEngineCopies : Prop :=
  (∀ (s : State) (p : Pid) (t : Task) (f : Fields), CanIssue s p t →
    (let w := f.w1.setWidth 16
     (w ≠ 0xFFFF → weirGranted s.polders[p].terp.bnd w.toNat = true) →
     (Accepts t { rd := .any, ra := .any, rb := .any, long := true, w1 := 0xFFFF } f →
       let src := (t.sreg f.ra).toNat
       let dst := (t.sreg f.rd).toNat
       let n := (t.sreg f.rb).toNat
       checkParts s p [(false, [(src, n)]), (true, [(dst, n)])] = .ok () →
       exec (.mvBytes p f) s = if n = 0 then .next ((s.signalWork p w).past p t 16)
         else goesTo { s with transfers := s.transfers ++ [⟨s.nextId, p, t.pc, t.stage.prog, t.fill, .bytes src dst n, w⟩],
                              nextId := s.nextId + 1 } p t 16) ∧
     (Accepts t { rd := .desc, ra := .desc, long := true, w1 := 0xFFFF } f → ∀ x y : Tensor,
       readDesc s p t f.ra = .ok x → readDesc s p t f.rd = .ok y → copyAgrees x y = true →
       (let both := x.hdr != 0 && y.hdr != 0
        checkParts s p (x.parts false ++ [(false, if both then x.hdrRun else [])] ++ y.parts true
          ++ [(true, if both then y.hdrRun else [])]) = .ok () →
        let sd := t.dreg (dnum f.ra)
        let dd := t.dreg (dnum f.rd)
        exec (.mvCopy p f) s = if x.e0 * x.e1 * x.e2 * x.e3 = 0 then .next ((s.signalWork p w).past p t 16)
          else goesTo { s with transfers := s.transfers ++
                                 [⟨s.nextId, p, t.pc, t.stage.prog, t.fill, .tensor sd dd (sideOf s sd) (sideOf s dd), w⟩],
                               nextId := s.nextId + 1 } p t 16)))) ∧
  (∀ (s : State) (x : Transfer) (a b n : Nat), s.pm.state = .run →
    s.transfers.find? (fun y => y.id == x.id) = some x → x.work = .bytes a b n →
    (let src := slotsOf [(a, n)]
     let dst := slotsOf [(b, n)]
     let s' := s.wakeSlots (src ++ dst)
     gate s' false src = .ok () → gate s' true dst = .ok () →
     exec (.moveComplete x.id) s =
       .next (({ (((s'.putBytes b (s'.bytes a n)).markEnds s.sent.length).fresh.2).slotEnds dst with
                 transfers := s.transfers.filter (fun y => y.id != x.id) }).signalWork x.p x.weir)))

/-- wr.signal adds IMM[27:16] to weir W = (sRA + IMM[15:0]) mod 65,536, at once at a weir of the polder and through the fabric
otherwise; wr.read gives the count; wr.wait of an own weir whose count meets sRB goes on, and one of a weir elsewhere leaves a watch
there; wr.rsignal sends its increment out to an
open weir window; wr.swait of a full slot goes on; wr.sfree and wr.sfill set the slot's tag, or TAG_REDUNDANT where it is so already;
after a slot end in the same nanosecond wr.sfill leaves TAG_REDUNDANT open (log entry 59) (10 R224; 11 R250, R252, R254-R258). Weirs and
slots must be claimed. -/
def Obligations.WrResults : Prop :=
  ∀ (s : State) (p : Pid) (t : Task) (f : Fields), CanIssue s p t →
    (let w := ((t.sreg f.ra).toNat + f.imm.toNat % 65536) % 65536
     let inc := f.imm.toNat / 65536 % 4096
     let a := (t.sreg f.ra).toNat
     let n := ((t.sreg f.ra).toNat + f.imm.toNat % 131072) % 2 ^ 64
     (weirGranted s.polders[p].terp.bnd w = true →
       (Accepts t { ra := .any, imm := 0x0FFFFFFF } f → inc ≠ 0 →
         exec (.wrSignal p f) s = .next ((s.weirSend p w (BitVec.ofNat 32 inc)).past p t 8)) ∧
       (Accepts t { rd := .any, ra := .any, imm := 0xFFFF } f →
         exec (.wrRead p f) s = goesTo s p (t.setS f.rd ((s.weir w).count.setWidth 64)) 8) ∧
       (Accepts t { ra := .any, rb := .any, imm := 0xFFFF } f →
         let thr := (t.sreg f.rb).setWidth 32
         (weirHome w = some p → meets (s.weir w).count thr = true → exec (.wrWait p f) s = goesTo s p t 8) ∧
         (¬ (weirHome w = some p ∧ meets (s.weir w).count thr = true) →
           exec (.wrWait p f) s = .next ((((s.watch p w thr).onPolder p
               (fun P => { P with weir := { P.weir with waited := true } })).onTask p
             (fun t => { t with wait := some ⟨.weir (BitVec.ofNat 16 w) thr, s.tb⟩ })))))) ∧
     (Accepts t { ra := .any, imm := 0x0FFF0000 } f → inc ≠ 0 → a % 4 = 0 → place a ≠ .unmapped → weirWindowOpen s a = true →
       exec (.wrRsignal p f) s = goesTo { s with sent := s.sent ++ [(t.sreg f.ra, .signal (BitVec.ofNat 12 inc))] } p t 8) ∧
     (n < 90112 → (bounds s.polders[p].terp.bnd).any (fun b => b.covers false (scratchAddr p (4096 * n)) 4096
         || b.covers true (scratchAddr p (4096 * n)) 4096) = true → Accepts t { ra := .any, imm := 0x1FFFF } f →
       (s.tag p n = true → exec (.wrSwait p f) s = goesTo s p t 8) ∧
       (s.tag p n = false →
         exec (.wrSwait p f) s = .next (s.onTask p (fun t => { t with wait := some ⟨.slot (BitVec.ofNat 17 n), s.tb⟩ }))) ∧
       exec (.wrSfree p f) s = .next ((if s.tag p n then s.setTag p n false else s.terpFlag p 2 true).past p t 8) ∧
       (s.tag p n = false → exec (.wrSfill p f) s = .next ((s.setTag p n true).past p t 8)) ∧
       (s.tag p n = true → n ∉ s.polders[p].terp.ended → exec (.wrSfill p f) s = .next ((s.terpFlag p 2 true).past p t 8)) ∧
       (s.tag p n = true → n ∈ s.polders[p].terp.ended → ∃ x,
         exec (.wrSfill p f) s = .next ((s.fresh.2.terpFlag p 2 x).past p t 8))))

/-- mm.fence goes on at once where no array work is outstanding, and waits otherwise (10 R229). A waiting task goes on past its
instruction when what it waits for holds: an own weir that meets its threshold, the notice of a watch on one elsewhere, a full slot (11
R258), or a fence all of whose array work is done (10 R229); not before. A wait that has lasted WAIT_LIMIT µs faults with WAIT_TIMEOUT
and the number of the weir or slot, unless its condition is met, which completes it instead, and lets an access go on with its
instruction; WAIT_LIMIT 0 sets no limit, and a HALT holds intervals (11 R253, 14 R335).
A fence has no number, so its INFO is a free value (log entry 3). -/
def Obligations.WaitsComplete : Prop :=
  (∀ (s : State) (p : Pid) (t : Task) (f : Fields), CanIssue s p t → Accepts t {} f →
     (arrayIdle s.polders[p] = true → exec (.mmFence p f) s = goesTo s p t 8) ∧
     (arrayIdle s.polders[p] = false →
       exec (.mmFence p f) s = .next (s.onTask p (fun t => { t with wait := some ⟨.fence, s.tb⟩ })))) ∧
  (∀ (s : State) (p : Pid) (t : Task) (w : Wait), s.arithOn = true → s.polders[p].task = some t → t.wait = some w →
     (let past : State := { s with watches := s.watches.filter (fun x => x.p != p) }
      let goes : Prop := exec (.waitComplete p) s = goesTo past p t 8
      let stays : Prop := exec (.waitComplete p) s = .next s
      (∀ n thr, w.kind = .weir n thr →
        (weirHome n.toNat = some p →
          (meets (s.weir n.toNat).count thr = true → goes) ∧ (meets (s.weir n.toNat).count thr = false → stays)) ∧
        (weirHome n.toNat ≠ some p →
          ((∃ x ∈ s.watches, x.p = p ∧ x.sent = true) → goes) ∧ ((∀ x ∈ s.watches, x.p = p → x.sent = false) → stays))) ∧
      (∀ n, w.kind = .slot n → (s.tag p n.toNat = true → goes) ∧ (s.tag p n.toNat = false → stays)) ∧
      (w.kind = .fence →
        (arrayIdle s.polders[p] = true → exec (.fenceComplete p) s = goesTo past p t 8) ∧
        (arrayIdle s.polders[p] = false → exec (.fenceComplete p) s = .next s)))) ∧
  (∀ (s : State) (p : Pid) (t : Task) (w : Wait), s.arithOn = true → s.polders[p].task = some t → t.wait = some w →
     (let limit := t.stage.waitLimit.toNat
      let passed : Prop := s.holdWaits = false ∧ limit ≠ 0 ∧ w.start.toNat + 1000 * limit ≤ s.tb.toNat
      (¬ passed → exec (.waitTimeout p) s = .next s) ∧
      let past : State := { s with watches := s.watches.filter (fun x => x.p != p) }
      (passed → waitNow s p w.kind = true →
        ((∀ q n b, w.kind ≠ .access q n b) → exec (.waitTimeout p) s = goesTo past p t 8) ∧
        (∀ q n b, w.kind = .access q n b → exec (.waitTimeout p) s = .next (s.onTask p (fun t => { t with wait := none })))) ∧
      (passed → waitNow s p w.kind = false →
        (∀ n thr, w.kind = .weir n thr → exec (.waitTimeout p) s = .next (s.taskFault p 0x18 (n.setWidth 32))) ∧
        (∀ n, (w.kind = .slot n ∨ ∃ q b, w.kind = .access q n b) → exec (.waitTimeout p) s = .next (s.taskFault p 0x18 (n.setWidth 32))) ∧
        (w.kind = .fence → ∃ info, exec (.waitTimeout p) s = .next (s.fresh.2.taskFault p 0x18 info)))))

/-- A write of WEIR_ADD_i adds to the count modulo 2^32, WEIR_SET_i sets it, WEIR_THRESH_i sets THRESH, and each sets NOTIFIED where
NOTIFY_EN is 1 and the weir meets its threshold now and did not before; WEIR_CTL_i writes NOTIFY_EN, clears NOTIFIED with a 1, and
sets it where it enables a weir that meets its threshold. An update that has crossed from another domain adds its increment. No
other weir changes (11 R254-R257, R260). The oldest update in flight to a weir that has the clocks to take it leaves the crossing
and adds to the count, as WEIR_ADD_i does (11 R257); with none in flight nothing changes. -/
def Obligations.WeirUpdates : Prop :=
  (∀ (s : State) (w : Fin 16384) (v : U32), s.pm.state = .run →
     (let x := s.weir w.val
      let after := fun (c : Instr) (y : Weir) => ∃ t, exec c s = .next t ∧ t.weir w.val = y ∧ ∀ u, u ≠ w.val → t.weir u = s.weir u
      let hit := fun (count thresh : U32) =>
        x.notifyEn && decide ((count - thresh).toNat < 2 ^ 31) && !decide ((x.count - x.thresh).toNat < 2 ^ 31)
      after (.weirAddWrite w v) { x with count := x.count + v, notified := x.notified || hit (x.count + v) x.thresh } ∧
      after (.weirSetWrite w v) { x with count := v, notified := x.notified || hit v x.thresh } ∧
      after (.weirThreshWrite w v) { x with thresh := v, notified := x.notified || hit x.count v } ∧
      after (.weirCtlWrite w v) { x with notifyEn := v.getLsbD 0, notified :=
        (x.notified && !v.getLsbD 1) || (v.getLsbD 0 && decide ((x.count - x.thresh).toNat < 2 ^ 31)) })) ∧
  (∀ (s : State) (w : Fin 16384), s.arithOn = true →
     (∀ inc, s.flight.find? (fun x => x.1 == w.val) = some (w.val, inc) →
       ∃ t, exec (.weirUpdateArrival w) s = .next t ∧ (t.weir w.val).count = (s.weir w.val).count + inc ∧
         (∀ u, u ≠ w.val → t.weir u = s.weir u) ∧ t.mem = s.mem) ∧
     (s.flight.find? (fun x => x.1 == w.val) = none → exec (.weirUpdateArrival w) s = .next s))

/-- A write of SEQ_LAUNCH word 7 appends the record of the eight words to the queue, or, with eight queued, sets REFUSED; FLUSH
empties the queue; RESUME clears HALTED; ABORT drops the task without a signal, its completion record with STATE 3 where COMP names
memory, written at once where its bank and tag let it and owed until they do otherwise (09 R194, R206, R211; 11 R242, R250). The TAP's pin instructions hold launch records off (18 R434). -/
def Obligations.SequencerCommands : Prop :=
  ∀ (s : State) (p : Pid) (w7 : U64), s.pm.state = .run →
    (let s' := s.wakeQuad (quadOf p)
     let Q := s.polders[p].seq
     let ws := Q.words.set 7 w7
     (s.tapHolds = false → Q.queue.length < 8 → exec (.launchCommit p w7) s =
       .next (s'.onSeq p (fun Q => { Q with words := ws, queue := Q.queue ++ [ofWords ws.toList] }))) ∧
     (s.tapHolds = false → 8 ≤ Q.queue.length → exec (.launchCommit p w7) s =
       .next (s'.onSeq p (fun Q => { Q with words := ws, refused := true }))) ∧
     exec (.seqCtlFlush p) s = .next (s'.onSeq p (fun Q => { Q with queue := [] })) ∧
     exec (.seqCtlResume p) s = .next (s'.onSeq p (fun Q => { Q with halted := false })) ∧
     (s.polders[p].task = none → exec (.seqCtlAbort p) s = .next s') ∧
     (∀ t, s.polders[p].task = some t → ∃ r, exec (.seqCtlAbort p) s = .next r ∧ r.polders[p].task = none ∧
       r.polders[p].terp.bnd = 0 ∧ r.weirs = s.weirs ∧ r.flight = s.flight ∧
       r.polders[p].arr.loads = [] ∧ r.polders[p].arr.passes = [] ∧
       r.polders[p].sump.opened = none ∧ r.polders[p].sump.closed = [] ∧ r.polders[p].sump.shadow = none ∧
       (let comp := lField t.launch 24 8
        (gate s true (compSlots t.launch) = .ok () → r.polders[p].seq = Q ∧
          (comp ≠ 0 → comp % 32 = 0 → inMemory comp 32 = true → r.byte (comp + 2) = 3)) ∧
        (gate s true (compSlots t.launch) ≠ .ok () → r.mem = s.mem ∧ ∃ x : List Byte,
          x[2]? = some 3 ∧ r.polders[p].seq = { Q with owed := Q.owed ++ [(comp, x)] }) ∧
        ∀ a < 2 ^ 63, (comp = 0 ∨ a < comp ∨ comp + 32 ≤ a) → r.byte a = s.byte a)))

/-- The record at the head of an idle polder's queue starts a task with the registers of 09 Table 9-3 and TERP_BND from the stage
record; with an effective fill count of 0 it ends at once, counted, recorded as done and signalled; one that fails LAUNCH_FORMAT or
whose FILL exceeds FILL_BOUND halts the polder with that fault, FAULT_PC 0xFFFF_FFFF and no instruction issued (09 R194-R196, R200,
R201). A task that asked for its end and whose work is done ends: its registers go, TERP_BND clears, it counts, its completion record
says done, and WEIR_A then WEIR_B are signalled by 1, 0xFFFF naming none; with a frame still open it faults with SUMP_STATE instead (09
R202, 04 R76). Until then it stays. A completion record waits on the bank and the tag of its slot as any write does (11 R242, R250).
-/
def Obligations.TaskLifecycle : Prop :=
  (∀ (s : State) (p : Pid) (l : BitVec 512) (rest : List (BitVec 512)), s.arithOn = true →
     s.polders[p].task = none → s.polders[p].seq.halted = false → workLeft s p = false → s.polders[p].seq.queue = l :: rest →
     (let a := s.polders[p].seq.stageBase.toNat + 1152 * lField l 4 2
      let r := stageRec s a
      let q := s.onSeq p (fun Q => { Q with queue := rest })
      let fill := if lField l 3 1 % 2 = 1 then BitVec.ofNat 32 (lField l 12 4) else r.fillBound
      let tooFull := lField l 3 1 % 2 = 1 ∧ r.fillBound.toNat < lField l 12 4
      (∀ b, launchFormat s p l r = some b → ∃ t, exec (.taskStart p) s = .next t ∧ t.polders[p].task = none ∧
        t.polders[p].seq.queue = rest ∧ t.polders[p].seq.halted = true ∧ t.polders[p].seq.faultPc = 0xFFFFFFFF ∧
        t.polders[p].seq.fault = BitVec.ofNat 64 (0x03 * 2 ^ 56 + b % 2 ^ 32) ∧
        t.polders[p].seq.faults = s.polders[p].seq.faults + 1 ∧ t.polders[p].seq.faultTime = s.tb) ∧
      (launchFormat s p l r = none → tooFull → ∃ t, exec (.taskStart p) s = .next t ∧ t.polders[p].task = none ∧
        t.polders[p].seq.halted = true ∧ t.polders[p].seq.fault = BitVec.ofNat 64 (0x04 * 2 ^ 56 + lField l 12 4)) ∧
      (launchFormat s p l r = none → ¬ tooFull → fill = 0 → gate s true (compSlots l) = .ok () → ∃ t,
        exec (.taskStart p) s = .next t ∧
        t.polders[p].task = none ∧ t.polders[p].seq.queue = rest ∧ t.polders[p].seq.halted = false ∧
        t.polders[p].seq.tasks = s.polders[p].seq.tasks + 1 ∧
        t.weirs = (s.signalEnd p l).weirs ∧ t.flight = (s.signalEnd p l).flight ∧
        (∀ a, compAddr l = some a → t.byte (a + 2) = 1) ∧
        ∀ a < 2 ^ 63, (∀ c, compAddr l = some c → a < c ∨ c + 32 ≤ a) → t.byte a = s.byte a) ∧
      (launchFormat s p l r = none → ¬ tooFull → fill ≠ 0 →
        exec (.taskStart p) s = .next (q.onPolder p (fun P =>
          { P with task := some (newTask s p l r a), terp := { P.terp with bnd := ofBytes 832 (s.bytes (a + 24) 104) } })) ∧
        (let t := newTask s p l r a
         t.sreg 0 = 0 ∧ t.sreg 1 = fill.setWidth 64 ∧ t.sreg 2 = BitVec.ofNat 64 (lField l 20 4) ∧
         t.sreg 3 = BitVec.ofNat 64 (lField l 32 8) ∧ t.sreg 4 = BitVec.ofNat 64 (lField l 40 8) ∧
         t.sreg 5 = BitVec.ofNat 64 (lField l 48 8) ∧ t.sreg 6 = BitVec.ofNat 64 (lField l 56 8) ∧
         t.sreg 7 = BitVec.ofNat 64 p.val ∧ t.sreg 8 = r.stage.setWidth 64 ∧ (∀ k : BitVec 5, 9 ≤ k.toNat → t.sreg k = 0) ∧
         (∀ k : BitVec 4, t.dreg k = ofBytes 512 (s.bytes (a + 128 + 64 * k.toNat) 64)) ∧ (∀ k : BitVec 5, t.vreg k = 0) ∧
         (∀ k : BitVec 3, t.mreg k = BitVec.allOnes 128) ∧ t.pc = BitVec.ofNat 32 (lField l 8 4))))) ∧
  (∀ (s : State) (p : Pid) (t : Task), s.arithOn = true → s.polders[p].task = some t →
     (let P := s.polders[p]
      let idle := arrayIdle { P with sump := { P.sump with opened := none } } && !s.transfers.any (fun x => x.p == p)
      let comp := lField t.launch 24 8
      (t.ending = false ∨ idle = false → exec (.taskEnd p) s = .next s) ∧
      (t.ending = true → idle = true → P.sump.opened.isSome = true →
        exec (.taskEnd p) s = .next (s.taskFaultAt p t.pc 0x10 0)) ∧
      (t.ending = true → idle = true → P.sump.opened = none →
        gate s true (compSlots t.launch) = .ok () →
        ∃ r, exec (.taskEnd p) s = .next r ∧ r.polders[p].task = none ∧ r.polders[p].terp.bnd = 0 ∧
          r.polders[p].seq.tasks = P.seq.tasks + 1 ∧ r.polders[p].seq.halted = P.seq.halted ∧ r.polders[p].seq.queue = P.seq.queue ∧
          (let signal := fun (s : State) (w : Nat) => if w = 0xFFFF then s else s.weirSend p w 1
           let told := signal (signal s (lField t.launch 16 2)) (lField t.launch 18 2)
           r.weirs = told.weirs ∧ r.flight = told.flight ∧ r.notices = told.notices) ∧
          (comp ≠ 0 → comp % 32 = 0 → inMemory comp 32 = true → r.byte (comp + 2) = 1 ∧ r.byte comp = 0 ∧ r.byte (comp + 1) = 0) ∧
          ∀ a < 2 ^ 63, (comp = 0 ∨ a < comp ∨ comp + 32 ≤ a) → r.byte a = s.byte a)))

/-- A task that faults: "It writes SEQ_FAULT, SEQ_FAULT_PC and SEQ_FAULT_TIME", its completion record has STATE 2, SEQ_FAULTS
counts, HALTED is set, the task and its array work are gone (09 R205), and nothing of another polder changes; where the record's bank or
tag holds it back, it is owed and no memory changes (11 R242, R250). Stated for the shared operation and for an instruction that breaks
an encoding rule (10 R214). -/
def Obligations.TaskFaultEffects : Prop :=
  (∀ (s : State) (p : Pid) (t : Task) (pc : U32) (code : Byte) (info : U32), s.polders[p].task = some t →
    (let r := s.taskFaultAt p pc code info
     let comp := lField t.launch 24 8
     r.polders[p].task = none ∧ r.polders[p].seq.halted = true ∧
     r.polders[p].seq.fault = BitVec.ofNat 64 (code.toNat * 2 ^ 56 + info.toNat) ∧ r.polders[p].seq.faultPc = pc ∧
     r.polders[p].seq.faultTime = s.tb ∧ r.polders[p].seq.faults = s.polders[p].seq.faults + 1 ∧
     r.polders[p].seq.queue = s.polders[p].seq.queue ∧ r.polders[p].terp.bnd = 0 ∧
     r.polders[p].sump.opened = none ∧ r.polders[p].sump.closed = [] ∧ r.polders[p].sump.shadow = none ∧
     r.polders[p].arr.loads = [] ∧ r.polders[p].arr.loading = none ∧ r.polders[p].arr.passes = [] ∧
     r.weirs = s.weirs ∧ r.flight = s.flight ∧ r.transfers = s.transfers ∧
     (gate s true (compSlots t.launch) = .ok () → ∀ q, q ≠ p → r.polders[q] = s.polders[q]) ∧
     (gate s true (compSlots t.launch) ≠ .ok () → r.mem = s.mem ∧ ∃ x : List Byte,
       x[2]? = some 2 ∧ r.polders[p].seq.owed = s.polders[p].seq.owed ++ [(comp, x)]) ∧
     (gate s true (compSlots t.launch) = .ok () → comp ≠ 0 → comp % 32 = 0 → inMemory comp 32 = true →
       r.byte comp = code ∧ r.byte (comp + 1) = 0 ∧ r.byte (comp + 2) = 2 ∧ r.byte (comp + 3) = 0 ∧
       leNat ((List.range 4).map (fun k => r.byte (comp + 4 + k))) = pc.toNat ∧
       leNat ((List.range 4).map (fun k => r.byte (comp + 28 + k))) = info.toNat) ∧
     ∀ a < 2 ^ 63, (comp = 0 ∨ a < comp ∨ comp + 32 ≤ a) → r.byte a = s.byte a)) ∧
  (∀ (s : State) (p : Pid) (t : Task) (f : Fields), CanIssue s p t → t.pc.toNat + Fields.bytes f ≤ t.stage.codeLen.toNat →
    (f.long = true ∨ f.mask ≠ 0 ∨ f.z = true ∨ f.imm ≠ 0 ∨ f.rc ≠ 0 →
      exec (.ctlAdd p f) s = .next (s.taskFault p 0x01 0)) ∧
    (f.rd.toNat > 7 → exec (.mvMnot p f) s = .next (s.taskFault p 0x01 0)) ∧
    (f.ra.toNat > 15 → exec (.mvDget p f) s = .next (s.taskFault p 0x01 0)) ∧
    (f.ra.toNat % 2 = 1 → exec (.eeGather p f) s = .next (s.taskFault p 0x01 0)) ∧
    (t.stage.level.toNat < 2 → exec (.pwEnergy p f) s = .next (s.taskFault p 0x01 0)) ∧
    (t.stage.level.toNat < 3 → exec (.spOpen p f) s = .next (s.taskFault p 0x01 0)))

/-- "A claim of a free entry records its claimant. A claim of a held entry fails with RESOURCE_HELD and changes nothing, even when
the claimant already holds the entry. A release by anyone other than the owner is refused and changes nothing" (09 R208): RESULT and
RES_REFUSED report it, no other entry changes, and what hardware holds stays held. -/
def Obligations.ResourceClaims : Prop :=
  ∀ (s : State) (owner : BitVec 4) (entry : Byte), s.pm.state = .run →
    (∀ h : entry.toNat < 96,
      (let e : Fin 96 := ⟨entry.toNat, h⟩
       let res := s.res
       (s.owner e = 0 → exec (.resClaimClaim owner entry) s =
         .next { s with res := { res with owner := res.owner.set e owner, result := 0 } }) ∧
       (s.owner e ≠ 0 → exec (.resClaimClaim owner entry) s =
         .next { s with res := { res with refused := res.refused + 1, result := 1 } }) ∧
       (s.owner e = owner → owner ≠ 0 → owner ≠ 15 → exec (.resClaimRelease owner entry) s =
         .next { s with res := { res with owner := res.owner.set e 0, result := 0 } }) ∧
       (s.owner e ≠ owner ∨ owner = 0 ∨ owner = 15 → exec (.resClaimRelease owner entry) s =
         .next { s with res := { res with result := 2 } }))) ∧
    (96 ≤ entry.toNat → exec (.resClaimClaim owner entry) s = .next { s with res := { s.res with result := 3 } } ∧
      exec (.resClaimRelease owner entry) s = .next { s with res := { s.res with result := 3 } })

/-- A write of TERP_TAG_OP starts a bulk operation, or sets REFUSED while one runs; when it is done it has set the tags of slots
FIRST to FIRST + COUNT − 1 to FULL and no other tag (11 R267). BANK_READY clears BUSY (11 R245). A write of TERP_BANK_CTL_b that
would change PROT or TAGS or turn the bank OFF while a region or an open window covers it changes nothing but REFUSED, and answers
RESOURCE_HELD; otherwise the bank takes PROT, TAGS and POWER (3 leaves POWER; a bank that was OFF powers up ON), a change of PROT or
of power off or on leaves it zeroed with empty tags, a change of TAGS empties its tags, and a fill sets BUSY (11 R241-R245, Table
11-3). -/
def Obligations.BankAndTagControl : Prop :=
  ((∀ (s : State) (p : Pid) (v : U64), s.pm.state = .run →
     (let s' := s.wakeQuad (quadOf p)
      (s.polders[p].terp.tagOp = none → exec (.terpTagOp p v) s = .next (s'.onTerp p (fun T => { T with tagOp := some v }))) ∧
      (s.polders[p].terp.tagOp ≠ none →
        exec (.terpTagOp p v) s = .next (s'.onTerp p (fun T => { T with status := T.status ||| 2 })))) ∧
     (s.polders[p].terp.tagOp = some v → ∃ x : BitVec 90112,
       exec (.tagOpDone p) s = .next (s.onTerp p (fun T => { T with tagOp := none, slots := x })) ∧
       ∀ n < 90112, x.getLsbD n =
         if (v.extractLsb' 0 17).toNat ≤ n ∧ n < (v.extractLsb' 0 17).toNat + (v.extractLsb' 32 17).toNat then v.getLsbD 63
         else s.tag p n)) ∧
   (∀ (s : State) (p : Pid) (b : Fin 44), s.pm.state = .run → s.polders[p].terp.banks[b].busy = true →
     exec (.bankReady p b) s = .next (s.onTerp p (fun T => { T with banks := T.banks.set b { T.banks[b] with busy := false } })))) ∧
  (∀ (s : State) (p : Pid) (b : Fin 44) (v : U32), s.pm.state = .run →
     (let s' := s.wakeQuad (quadOf p)
      let x := s.polders[p].terp.banks[b]
      let prot := v.getLsbD 0
      let tags := v.getLsbD 1
      let power := v.extractLsb' 2 2
      let changes := (prot ≠ x.prot ∨ tags ≠ x.tags ∨ power = 2)
      let wakes := x.power = 2 ∧ (power = 0 ∨ power = 1)
      let fills := wakes ∨ (prot ≠ x.prot ∧ x.power ≠ 2 ∧ power ≠ 2)
      (changes → rangeHeld s p (0x800000 * b.val) 0x800000 = true → exec (.terpBankCtlWrite p b v) s =
        .next { s'.onTerp p (fun T => { T with status := T.status ||| 2 }) with reply := .status 0x05 }) ∧
      (¬ changes ∨ rangeHeld s p (0x800000 * b.val) 0x800000 = false → ∃ t, exec (.terpBankCtlWrite p b v) s = .next t ∧
        t.polders[p].terp.banks[b].prot = prot ∧ t.polders[p].terp.banks[b].tags = tags ∧
        t.polders[p].terp.banks[b].power = (if power = 3 then x.power else if wakes then 0 else power) ∧
        (t.polders[p].terp.banks[b].busy = true ↔ x.busy = true ∨ fills) ∧
        (∀ c, c ≠ b → t.polders[p].terp.banks[c] = s.polders[p].terp.banks[c]) ∧
        (∀ a < 2 ^ 63, t.byte a =
          if (fills ∨ power = 2) ∧ scratchAddr p (0x800000 * b.val) ≤ a ∧ a < scratchAddr p (0x800000 * b.val) + 0x800000 then 0
          else s.byte a) ∧
        (∀ n < 90112, t.tag p n =
          if (fills ∨ power = 2 ∨ tags ≠ x.tags) ∧ n / 2048 = b.val then false else s.tag p n))))

/-- A write of TERP_RWIN_CTL_w opens, closes or reconfigures a window, opening with its arrival counter at 0, or is refused: an open
window keeps its type and rights, and a window opens only clear of another of its type, inside the scratchpad and over banks that
are neither OFF nor busy (11 R264, R265). A packet at the head of a landing port that its window admits lands: a write stores its
bytes and no other, adds its length to the arrival counter and, at a slot's end in a bank with TAGS = 1, sets the slot full; a read
answers with the bytes it names; an increment goes to the weir of its window. One that the window does not admit is dropped, counted
and sets REMOTE_REFUSED, and the refusal goes back to its sender. The packet leaves the port in each case (11 R261-R264). One that waits
on a tag or a bank stays, judged as it was when it arrived (R265). -/
def Obligations.RemoteWindows : Prop :=
  (∀ (s : State) (p : Pid) (w : Fin 4) (v : U32), s.pm.state = .run →
     (let s' := s.wakeQuad (quadOf p)
      let x := s.polders[p].terp.windows[w]
      let y : Window := { x with isOpen := v.getLsbD 31, weirs := v.getLsbD 30, wr := v.getLsbD 29, rd := v.getLsbD 28,
                                 arrWeir := v.extractLsb' 0 16 }
      let retypes := x.isOpen = true ∧ (y.weirs ≠ x.weirs ∨ y.wr ≠ x.wr ∨ y.rd ≠ x.rd)
      let blocked := y.isOpen = true ∧ x.isOpen = false ∧ mayOpen s p w y.weirs = false
      (retypes ∨ blocked → exec (.terpRwinCtlWrite p w v) s =
        .next (s'.onTerp p (fun T => { T with status := T.status ||| 2 }))) ∧
      (¬ (retypes ∨ blocked) → exec (.terpRwinCtlWrite p w v) s =
        (let z := if y.isOpen = true ∧ x.isOpen = false then { y with arr := 0 } else y
         .next (s'.onTerp p (fun T => { T with windows := T.windows.set w z })))))) ∧
  (∀ (s : State) (p : Pid) (l : Landing) (rest : List Landing), s.pm.state = .run → s.polders[p].terp.landing = l :: rest →
     (let s' := s.wakeQuad (quadOf p)
      let x := s.polders[p].terp.windows[l.window]
      let base := l.base.getD x.base.toNat
      let a := scratchAddr p (4096 * base + l.offset.toNat)
      let gone := s'.onTerp p (fun T => { T with refused := T.refused + 1, status := T.status ||| 16, landing := rest })
      (packetOk s p l = false →
        (l.sender = none → exec (.remotePacketArrival p) s = .next gone) ∧
        (∀ from_, l.sender = some from_ → exec (.remotePacketArrival p) s = .next { gone with
          sent := s.sent ++ [(BitVec.ofNat 64 from_, .refused l.tag.1 l.tag.2 (l.offset.setWidth 32))] })) ∧
      (∀ data slotEnd q n full, l.op = .write data slotEnd → packetOk s p l = true →
        gate s' true (slotsOf [(a, data.length)]) = .error (.blocked q n full) → exec (.remotePacketArrival p) s =
          .next (s'.onTerp p (fun T => { T with landing := { l with base := some base } :: rest }))) ∧
      (∀ data slotEnd, l.op = .write data slotEnd → packetOk s p l = true → a + data.length ≤ 2 ^ 63 →
        gate s' true (slotsOf [(a, data.length)]) = .ok () →
        ∃ t, exec (.remotePacketArrival p) s = .next t ∧ t.polders[p].terp.landing = rest ∧ t.bytes a data.length = data ∧
          (∀ b < 2 ^ 63, b < a ∨ a + data.length ≤ b → t.byte b = s.byte b) ∧
          t.polders[p].terp.windows[l.window] = { x with arr := x.arr + BitVec.ofNat 64 data.length } ∧
          (let n := (4096 * base + l.offset.toNat + data.length - 1) / 4096
           (slotEnd = true → s.polders[p].terp.banks[bankIx n].tags = true → n < 90112 → t.tag p n = true)) ∧
          (x.arrWeir = 0xFFFF → t.weirs = s.weirs ∧ t.flight = s.flight)) ∧
      (∀ len, l.op = .read len → packetOk s p l = true → gate s' false (slotsOf [(a, len.toNat)]) = .ok () →
        exec (.remotePacketArrival p) s = .next { s'.onTerp p (fun T => { T with landing := rest }) with
          sent := s.sent ++ [(BitVec.ofNat 64 (l.sender.getD 0), .write (s.bytes a len.toNat) false)] }) ∧
      (∀ inc, l.op = .signal inc → packetOk s p l = true → ∃ t, exec (.remotePacketArrival p) s = .next t ∧
        t.polders[p].terp.landing = rest ∧ t.mem = s.mem ∧
        t.weirs = (s'.weirSend p (base + l.offset.toNat / 4) (inc.setWidth 32)).weirs ∧
        t.flight = (s'.weirSend p (base + l.offset.toNat / 4) (inc.setWidth 32)).flight)))

/-- REGISTER_WRITE answers ADDR_RANGE where no register range holds the address, ALIGN where it is no multiple of 4, and REG_WIDTH
where the width is not the register's, and changes nothing else; otherwise the register takes the write by its access types: RW
fields take the value, W1C bits clear where a 1 is written, read-only and reserved places ignore it (00 Table 0-2). -/
def Obligations.RegisterWriteRules : Prop :=
  ∀ (s : State) (addr : U64) (wide : Bool) (v : U64), s.pm.state = .run →
    (let x := place addr.toNat
     let ok : State := { s with reply := .status 0 }
     (regAt s x = none → exec (.registerWrite addr wide v) s = .next { s with reply := .status 0x08 }) ∧
     (∀ r, regAt s x = some r → addr.toNat % 4 ≠ 0 → exec (.registerWrite addr wide v) s = .next { s with reply := .status 0x0A }) ∧
     (∀ r, regAt s x = some r → addr.toNat % 4 = 0 → r.real = true → r.wide ≠ wide →
       exec (.registerWrite addr wide v) s = .next { s with reply := .status 0x06 }) ∧
     (∀ p o, x = .window p o → o % 4 = 0 →
       (let w := ok.wakeQuad (quadOf p)
        (o = 0x20 → wide = true → exec (.registerWrite addr wide v) s = .next (w.onSeq p (fun Q => { Q with stageBase := v }))) ∧
        (o = 0x28 ∨ o = 0x30 → wide = true → exec (.registerWrite addr wide v) s = .next w) ∧
        (o = 0x1000 → wide = false → exec (.registerWrite addr wide v) s =
          .next (w.onPolder p (fun P => { P with bpe := { P.bpe with ctl := v.setWidth 32 &&& 3 } }))) ∧
        (o = 0x7000 → wide = false → exec (.registerWrite addr wide v) s =
          .next (w.onPolder p (fun P => { P with ee := { P.ee with status := P.ee.status &&& ~~~ (v.setWidth 32 &&& 3) } }))) ∧
        (o = 0x4100 → wide = true → exec (.registerWrite addr wide v) s =
          .next (w.onPolder p (fun P => { P with qz := { P.qz with keys := P.qz.keys.set 0 v } }))))) ∧
     (∀ o, x = .control o → o < 0x400 → o % 8 = 0 → wide = true → exec (.registerWrite addr wide v) s = .next ok) ∧
     (∀ k, x = .edge k 0x400008 → k = 0 → wide = true → exec (.registerWrite addr wide v) s =
       .next { ok with pnx := { s.pnx with sendAddr := v } }) ∧
     (x = .system 0x20008 → wide = true → exec (.registerWrite addr wide v) s = .next { ok with ckpt := { s.ckpt with addr := v } }) ∧
     (x = .system 0x60018 → wide = false → exec (.registerWrite addr wide v) s =
       .next { ok with gander := { s.gander with wov := v.setWidth 32 } }))

/-- "RSH(x, s) is x / 2^s, rounded to nearest with ties to even" (02 R38). -/
def Obligations.RoundingShiftNearestEven : Prop :=
  ∀ (x : Int) (k : Nat),
    (let r := rsh x k
     2 * (r * 2 ^ k - x).natAbs ≤ 2 ^ k ∧ (2 * (r * 2 ^ k - x).natAbs = 2 ^ k → r % 2 = 0) ∧ rsh x 0 = x)

/-- "ACC32 is 32-bit two's complement restricted to the range −(2^31 − 1) to +(2^31 − 1). The code 0x8000_0000 (−2^31) is the ACC32
sentinel" (02 R28). In ACC32 and ACCX an exact sum outside the range is the sentinel, as is every sum with it (R30), and a finite
value or the sentinel survives its container (R29). -/
def Obligations.AccumulatorRules : Prop :=
  (∀ c < 2 ^ 32, accRead false c = if c = 0x80000000 then .sentinel else .val (BitVec.ofNat 32 c).toInt) ∧
  (∀ c x, c < 2 ^ 32 → accRead false c = .val x → -(2 ^ 31 - 1) ≤ x ∧ x ≤ 2 ^ 31 - 1 ∧ accCode false (.val x) = c) ∧
  (∀ (accX : Bool) (x y : Int),
    (let most : Int := if accX then 2 ^ 47 - 1 else 2 ^ 31 - 1
     (accAdd accX (.val x) (.val y) = if -most ≤ x + y ∧ x + y ≤ most then .val (x + y) else .sentinel) ∧
     (∀ a, accAdd accX .sentinel a = .sentinel ∧ accAdd accX a .sentinel = .sentinel) ∧
     (-most ≤ x → x ≤ most → accRead accX (accCode accX (.val x)) = .val x) ∧
     accRead accX (accCode accX .sentinel) = .sentinel))

/-- "INT16 operations form the exact integer result and then apply R40. A result beyond ±32,767 clamps to the nearer extreme and
sets SAT"; with an operand of 0x8000 the result is 0x8000, a multiplication by 0 included, and a comparison is false for eq, lt and
le, and true for ne (08 R161). -/
def Obligations.Int16Operations : Prop :=
  ∀ (imm : Nat) (u : Option Nat) (cond : Bool) (a b c : BitVec 16),
    (let run := fun op => native op 1 imm u cond a b c
     let clamped := fun (op : Nat) (x : Int) =>
       (run op).1.toInt = max (-32767) (min 32767 x) ∧ ((run op).2 = true ↔ x < -32767 ∨ 32767 < x)
     let bad : BitVec 16 := 0x8000
     (a ≠ bad → b ≠ bad →
       clamped 1 (a.toInt + b.toInt) ∧ clamped 2 (a.toInt - b.toInt) ∧ clamped 3 (a.toInt * b.toInt) ∧
       (c ≠ bad → clamped 4 (a.toInt * b.toInt + c.toInt)) ∧
       clamped 5 (min a.toInt b.toInt) ∧ clamped 6 (max a.toInt b.toInt) ∧
       ((run 7).1 = (if a.toInt = b.toInt then 0xFFFF else 0)) ∧ ((run 8).1 = (if a.toInt ≠ b.toInt then 0xFFFF else 0)) ∧
       ((run 9).1 = (if a.toInt < b.toInt then 0xFFFF else 0)) ∧ ((run 10).1 = (if a.toInt ≤ b.toInt then 0xFFFF else 0))) ∧
     (a ≠ bad → clamped 12 a.toInt.natAbs ∧ clamped 13 (-a.toInt) ∧ clamped 14 (rsh a.toInt (imm % 16))) ∧
     (a = bad ∨ b = bad → run 1 = (bad, false) ∧ run 2 = (bad, false) ∧ run 3 = (bad, false) ∧ run 4 = (bad, false) ∧
       run 5 = (bad, false) ∧ run 6 = (bad, false) ∧ (run 7).1 = 0 ∧ (run 8).1 = 0xFFFF ∧ (run 9).1 = 0 ∧ (run 10).1 = 0) ∧
     (c = bad → run 4 = (bad, false)) ∧
     (a = bad → run 12 = (bad, false) ∧ run 13 = (bad, false) ∧ run 14 = (bad, false)))

/-- BF16 special cases (08 R160, R163): "Any NaN operand gives 0x7FC0. So do ∞ − ∞, 0 × ∞, ee.rsq or ee.lg2 of any negative value";
the zero sums, the reciprocals of zeros and infinities, minimum and maximum of the two zeros, and comparisons. -/
def Obligations.Bf16SpecialCases : Prop :=
  ∀ (a b : BitVec 16),
    (let run := fun op (x y z : BitVec 16) => (native op 0 0 none false x y z).1
     let nan : BitVec 16 := 0x7FC0
     (bfIsNan a = true → ∀ x y : BitVec 16,
       (∀ op ∈ [1, 2, 3, 4, 5, 6, 12, 13, 16, 17, 18, 19], run op a x y = nan) ∧
       (∀ op ∈ [1, 2, 3, 4, 5, 6], run op x a y = nan) ∧ run 4 x y a = nan ∧
       run 7 a x y = 0 ∧ run 9 a x y = 0 ∧ run 10 a x y = 0 ∧ run 8 a x y = 0xFFFF ∧
       run 7 x a y = 0 ∧ run 9 x a y = 0 ∧ run 10 x a y = 0 ∧ run 8 x a y = 0xFFFF) ∧
     (bfIsInf a = true → bfIsInf b = true → bfNeg a ≠ bfNeg b → run 1 a b 0 = nan) ∧
     (bfIsInf a = true → bfIsInf b = true → bfNeg a = bfNeg b → run 2 a b 0 = nan) ∧
     (bfIsInf a = true → bfIsZero b = true → ∀ z, run 3 a b z = nan ∧ run 3 b a z = nan ∧ run 4 a b z = nan) ∧
     (bfIsNan a = false → bfIsZero a = false → bfNeg a = true → run 17 a b 0 = nan ∧ run 19 a b 0 = nan) ∧
     (bfIsZero a = true → bfIsZero b = true →
       run 1 a b 0 = (if bfNeg a && bfNeg b then 0x8000 else 0) ∧ run 7 a b 0 = 0xFFFF ∧
       run 5 a b 0 = (if bfNeg a || bfNeg b then 0x8000 else 0) ∧ run 6 a b 0 = (if bfNeg a && bfNeg b then 0x8000 else 0)) ∧
     (bfIsZero a = true → run 16 a b 0 = (if bfNeg a then 0xFF80 else 0x7F80) ∧ run 17 a b 0 = 0x7F80 ∧ run 19 a b 0 = 0xFF80) ∧
     run 18 0x7F80 b 0 = 0x7F80 ∧ run 18 0xFF80 b 0 = 0 ∧ run 19 0x7F80 b 0 = 0x7F80 ∧ run 17 0x7F80 b 0 = 0 ∧
     run 16 0x7F80 b 0 = 0 ∧ run 16 0xFF80 b 0 = 0x8000)

/-- The ee operations by their codes of 08 Table 8-1. -/
def Claims.eeOps : List ((Pid → Fields → Instr) × Nat) :=
  [(.eePass, 0x00), (.eeAdd, 0x01), (.eeSub, 0x02), (.eeMul, 0x03), (.eeFma, 0x04), (.eeMin, 0x05), (.eeMax, 0x06),
   (.eeCmpEq, 0x07), (.eeCmpNe, 0x08), (.eeCmpLt, 0x09), (.eeCmpLe, 0x0A), (.eeSel, 0x0B), (.eeAbs, 0x0C), (.eeNeg, 0x0D),
   (.eeRsh, 0x0E), (.eeCvt, 0x0F), (.eeRcp, 0x10), (.eeRsq, 0x11), (.eeEx2, 0x12), (.eeLg2, 0x13), (.eeLmul, 0x14),
   (.eeLdiv, 0x15), (.eeLexp, 0x16)]

/-- Every ee operation in register form, defined for its format, completes: each unmasked lane of the destination takes the native
result of the source lanes (an LG8 result in bits [7:0], the rest 0), and a comparison its truth in the mask's bit; a masked lane or
bit keeps its value, or takes 0 with .z; SAT is set where an unmasked lane clamped. No other register, no memory and no other polder
changes (08 R156, R157, R162, R164). -/
def Obligations.EeRegisterForm : Prop :=
  ∀ (s : State) (p : Pid) (t : Task) (f : Fields), CanIssue s p t → eeForm f = 0 → ∀ x ∈ Claims.eeOps,
    Accepts t (eeUse x.2 f) f → eeOpOk x.2 f = true →
    (let on := fun (l : Nat) => (t.mreg f.mask).getLsbD l
     let draw := fun (l : Nat) => if cvtDraws x.2 f then some (s.drawU p (w1Gen f) (w1Sid f) (epochOf t) l) else none
     let res := fun (l : Nat) => native x.2 (eeFmt f) (eeSub f) (draw l) ((t.mreg (mnum f.rc)).getLsbD l)
       (lane (t.vreg f.ra) l) (lane (t.vreg f.rb) l) (lane (t.vreg f.rc) l)
     let lg := opResult x.2 (eeFmt f) (eeSub f % 4) = 2
     ∃ r u, exec (x.1 p f) s = .next r ∧ r.polders[p].task = some u ∧
       u.pc = t.pc + BitVec.ofNat 32 (if eeSr x.2 f then 16 else 8) ∧ u.wait = none ∧ u.s = t.s ∧ u.d = t.d ∧ u.ending = false ∧
       (opCompares x.2 = true → u.v = t.v ∧ (∀ k, k ≠ mnum f.rd → u.mreg k = t.mreg k) ∧
         (mnum f.rd ≠ 0 → ∀ l < 128, (u.mreg (mnum f.rd)).getLsbD l =
           if on l then decide ((res l).1 ≠ 0) else !f.z && (t.mreg (mnum f.rd)).getLsbD l)) ∧
       (opCompares x.2 = false → u.m = t.m ∧ (∀ k, k ≠ f.rd → u.vreg k = t.vreg k) ∧
         ∀ l < 128, lane (u.vreg f.rd) l =
           if on l then (if lg then (res l).1 &&& 0xFF else (res l).1) else if f.z then 0 else lane (t.vreg f.rd) l) ∧
       (r.polders[p].ee.status.getLsbD 0 = true ↔
         s.polders[p].ee.status.getLsbD 0 = true ∨ ∃ l < 128, on l = true ∧ (res l).2 = true) ∧
       r.mem = s.mem ∧ r.weirs = s.weirs ∧ r.res = s.res ∧ ∀ q, q ≠ p → r.polders[q] = s.polders[q])

/-- An ee operation in descriptor form, row or column broadcast, whose operands pass their checks and wait on nothing completes with
the walk of its destination: each live element in order takes the native result of its sources' elements, and no byte outside the
places of the live elements and of the padding after a planar line changes (02 R36; 08 R164, R165; 10 R231). -/
def Obligations.EeTensorForms : Prop :=
  ∀ (s : State) (p : Pid) (t : Task) (f : Fields), CanIssue s p t → eeForm f ≠ 0 → ∀ x ∈ Claims.eeOps,
    Accepts t (eeUse x.2 f) f → eeOpOk x.2 f = true → ∀ (A D : Tensor) (b c : Source),
    readDesc s p t f.ra = .ok A → readDesc s p t f.rd = .ok D →
    (if opUnary x.2 = true then b = .none
     else if eeForm f = 2 then b = .row (t.vreg f.rb)
     else ∃ T, readDesc s p t f.rb = .ok T ∧ b = (if eeForm f = 3 then .column f.rb T else .tensor f.rb T)) →
    (if x.2 = 4 then ∃ T, readDesc s p t f.rc = .ok T ∧ c = .tensor f.rc T else c = .none) →
    (let a := Source.tensor f.ra A
     let live := eeLive D [a, b, c] t.fill.toNat (t.mreg f.mask)
     checkParts s p (a.parts ++ b.parts ++ c.parts ++ D.parts true) = .ok () →
     (∀ y ∈ [a, b, c], y.isFmt (eeFmt f) = true ∧ y.misfit D = none ∧ gate s false (y.slots s D live) = .ok ()) →
     isFmt D (opResult x.2 (eeFmt f) (eeSub f % 4)) = true → gate s true (D.writeSlots live) = .ok () →
     ∃ r, exec (x.1 p f) s = .next r ∧ r.mem = (eeWalk x.2 p f t D a b c s live).1.mem ∧
       (∀ a < 2 ^ 63, (∀ i ∈ live, ∀ y ∈ D.putAt i, y.1 ≠ a) → r.byte a = s.byte a) ∧
       (∃ u, r.polders[p].task = some u ∧ u.pc = t.pc + BitVec.ofNat 32 (if eeSr x.2 f then 16 else 8) ∧
         u.s = t.s ∧ u.d = t.d ∧ u.v = t.v ∧ u.m = t.m) ∧
       r.weirs = s.weirs ∧ r.res = s.res ∧ ∀ q, q ≠ p → r.polders[q] = s.polders[q])

/-- An element written to a dense tensor reads back, and one bit at a time: storing a code at an element's place makes the element
read that code cut to its width, and an element none of whose bits lies there, or in the padding that the last element of a planar line
brings, reads as before; that padding takes 0 bits (02 R36, 07 R133). -/
def Obligations.ElementReadsBack : Prop :=
  ∀ (s : State) (T : Tensor) (i : Ix) (c : Nat), T.form ≤ 1 → T.layout ≤ 1 → T.zstride0 = false →
    (∀ y ∈ T.putAt i, y.1 < 2 ^ 63) →
    (T.code (T.put s i c) i = c % 2 ^ T.width ∧
     (∀ j, (∀ y ∈ T.bitsAt j, y.1 < 2 ^ 63 ∧ y ∉ T.putAt i) → T.code (T.put s i c) j = T.code s j) ∧
     ∀ y ∈ T.padBits i, ((T.put s i c).byte y.1).getLsbD y.2 = false)

/-- ee.gather gives each unmasked lane the element at its index, and a masked lane its value or 0 with .z; an unmasked index at or
beyond the extent faults with EE_INDEX and the lane's number (08 R167); a vector that mismatches reissues and counts (17 R397). ee.chain and ee.uload load their entry or slot from
scratchpad once their image passes its checks and no latched tile uses it (08 R172-R175). -/
def Obligations.GatherChainUload : Prop :=
  ∀ (s : State) (p : Pid) (t : Task) (f : Fields), CanIssue s p t →
    ((let fmt := (f.imm.extractLsb' 0 2).toNat
      let ix := fun (l : Nat) => pairLane t f.ra l
      let on := fun (l : Nat) => (t.mreg f.mask).getLsbD l
      Accepts t { level := if fmt = 2 then 3 else 1, rd := .any, ra := .pair, rc := .desc, mask := true, z := true, imm := 3 } f →
      ∀ T, readDesc s p t f.rc = .ok T → checkParts s p (T.parts false) = .ok () → isFmt T fmt = true →
        (∀ k < 128, on k = true → T.e0 ≤ ix k → (∀ l < k, on l = true → ix l < T.e0) →
          exec (.eeGather p f) s = .next (s.taskFault p 0x15 (BitVec.ofNat 32 k))) ∧
        ((∀ l < 128, on l = true → ix l < T.e0) →
          (let live := fun (l : Nat) => on l && T.live t.fill.toNat ⟨ix l, 0, 0, 0⟩
           gate s false (T.readSlots s (((List.range 128).filter live).map (fun l => ⟨ix l, 0, 0, 0⟩))) = .ok () →
           ∃ (r : State) (x : BitVec 2048),
             exec (.eeGather p f) s = .next (((r.onTask p (fun _ => t.setV f.rd x)).reissue p f.upsets).past p t 8) ∧
             r.mem = s.mem ∧ r.weirs = s.weirs ∧ (∀ q, q ≠ p → r.polders[q] = s.polders[q]) ∧
             (∃ u, r.polders[p].task = some u) ∧
             ∀ l < 128, lane x l =
               if live l then (if fmt = 2 then BitVec.ofNat 16 (T.code s ⟨ix l, 0, 0, 0⟩) &&& 0xFF
                 else BitVec.ofNat 16 (T.code s ⟨ix l, 0, 0, 0⟩))
               else if f.z then 0 else lane (t.vreg f.rd) l))) ∧
     (let a := (t.sreg f.ra).toNat
      let n : Fin 16 := Fin.ofNat 16 f.imm.toNat
      let c := chainImage s t a
      Accepts t { level := 2, ra := .any, imm := 0xF } f → a % 256 = 0 → access s p false [(a, 2304)] [(a, 2304)] = .ok () →
      let regAt := fun (k : Nat) => ((s.byte (a + k)).setWidth 4).setWidth 5
      (c.cbEn = true → ∃ T, readDesc s p t (regAt 72) = .ok T ∧ checkParts s p (T.parts false) = .ok ()) →
      (c.tapEn = true → 3 ≤ t.stage.level.toNat ∧ ∃ T, readDesc s p t (regAt 136) = .ok T ∧
        checkParts s p (T.parts true) = .ok ()) →
      c.count ≤ 8 → c.tapF ≤ 47 →
      c.live.all (stageOk c t.stage.level.toNat) = true → chainHeld s.polders[p] n = false →
      exec (.eeChain p f) s =
        goesTo (s.onPolder p (fun P => { P with ee := { P.ee with chains := P.ee.chains.set n c } })) p t 8) ∧
     (let a := (t.sreg f.ra).toNat
      let n : Fin 32 := Fin.ofNat 32 f.imm.toNat
      let len := f.imm.toNat / 32
      let ws := (List.range len).map (fun k => BitVec.ofNat 32 (s.num (a + 4 * k) 4))
      Accepts t { level := 3, ra := .any, imm := 0x3FF } f → a % 8 = 0 → 1 ≤ len → len ≤ 16 →
      access s p false [(a, 4 * len)] [(a, 4 * len)] = .ok () →
      (ws.all muOk = true → uprogHeld s.polders[p] n = false → exec (.eeUload p f) s =
        goesTo (s.onPolder p (fun P => { P with ee := { P.ee with uprogs := P.ee.uprogs.set n ws } })) p t 8) ∧
      (∀ k < len, muOk (ws.getD k 0) = false → (∀ j < k, muOk (ws.getD j 0) = true) →
        exec (.eeUload p f) s = .next (s.taskFault p 0x16 (BitVec.ofNat 32 k)))))

/-- The ru operations by their codes of 08 Table 8-7. -/
def Claims.ruOps : List ((Pid → Fields → Instr) × Nat) :=
  [(.ruCount, 0), (.ruSum, 1), (.ruSumsq, 2), (.ruMv, 3), (.ruMvp, 4), (.ruMvf, 5), (.ruMax, 6), (.ruMin, 7), (.ruArgmax, 8),
   (.ruArgmin, 9), (.ruLsum, 10)]

/-- The fields a ru operation uses (10 Table 10-11). -/
def Claims.ruUse (op : Nat) : Use :=
  { level := if op = 10 then 3 else 2, rd := .desc, ra := .desc, rb := if ruTwo op then .desc else .unused, mask := true,
    imm := if op = 4 then 0x7FFFFF else if op = 1 ∨ op = 2 ∨ op = 3 then 0x7F else 1 }

/-- A ru operation whose operands pass their checks and wait on nothing completes: every walked line's results go to their elements
of the result tensors in line order, those below the fill count (09 R200), RU_LINES and RU_EMPTY_LINES count the lines, the sticky flags collect, and no register of the
task and no other polder changes (08 R178-R184, 10 R232). -/
def Obligations.RuCompletes : Prop :=
  ∀ (s : State) (p : Pid) (t : Task) (f : Fields), CanIssue s p t → ∀ x ∈ Claims.ruOps, Accepts t (Claims.ruUse x.2) f →
    ∀ (T D E : Tensor), readDesc s p t f.ra = .ok T → readDesc s p t f.rd = .ok D →
    (if ruTwo x.2 = true then readDesc s p t f.rb = .ok E else E = D) → ruF f ≤ 47 →
    (let fill := t.fill.toNat
     let mask := t.mreg f.mask
     let ls := linesOf s T (ruAxis f) fill mask
     let n := lineCount T (ruAxis f)
     let two := ruTwo x.2
     let w := ruWidth x.2
     let on := (ls.zipIdx.filter (fun y => y.1.walked)).map (·.2)
     checkParts s p (T.parts false ++ D.parts true ++ (if two then E.parts true else [])) = .ok () →
     (x.2 = 5 → ∀ l ∈ ls, l.walked = true → ∀ r ∈ recordsOf l, r.K = (totals (recordsOf l)).K ∧ r.F = (totals (recordsOf l)).F) →
     ruSourceOk x.2 T = true → ruResultOk x.2 T D = true → (two = true → E.kind = .bf16) →
     D.e0 * D.e1 * D.e2 * D.e3 = n * w → (two = true → E.e0 * E.e1 * E.e2 * E.e3 = n) →
     gate s false (T.readSlots s (T.liveIx fill mask)) = .ok () →
     gate s true (D.lineSlots fill w on) = .ok () → (two = true → gate s true (E.lineSlots fill 1 on) = .ok ()) →
     ∃ r : State, exec (x.1 p f) s = .next ((r.reissue p f.upsets).past p t 8) ∧
       r.mem = (putLines D E w fill s 0 (ls.map (fun l => (l.walked, lineOut x.2 f T D l)))).mem ∧
       r.polders[p].ru.lines = s.polders[p].ru.lines + BitVec.ofNat 64 (ls.filter Line.walked).length ∧
       r.polders[p].ru.emptied = s.polders[p].ru.emptied +
         BitVec.ofNat 64 ((ls.filter Line.walked).filter (fun l => (lineOut x.2 f T D l).empty)).length ∧
       r.polders[p].task = some t ∧ r.weirs = s.weirs ∧ r.res = s.res ∧ ∀ q, q ≠ p → r.polders[q] = s.polders[q])

/-- What a line of integers gives (08 R178-R182): its count, its exact sum and sum of squares where they stay within ACCX, its
largest and smallest values, and the lowest position of each; an empty line gives the empty results. -/
def Obligations.RuLineResults : Prop :=
  ∀ (f : Fields) (T D : Tensor) (l : Line), T.kind = .int → T.entryW = 16 →
    (∀ c ∈ l.vals, c < 65536 ∧ c ≠ 0x8000) →
    (let v := fun (c : Nat) => (BitVec.ofNat 16 c).toInt
     let sum := (l.vals.map v).sum
     let sumsq := (l.vals.map (fun c => v c * v c)).sum
     let bound : Int := 2 ^ 47 - 1
     (lineOut 0 f T D l).res = [l.vals.length] ∧
     (D.kind = .accx → (l.vals.length : Int) * 32767 ≤ bound → (lineOut 1 f T D l).res = [accCode true (.val sum)]) ∧
     (D.kind = .accx → (l.vals.length : Int) * (32767 * 32767) ≤ bound →
       (lineOut 2 f T D l).res = [accCode true (.val sumsq)]) ∧
     (∀ op ∈ [6, 7, 8, 9], (lineOut op f T D l).empty = l.vals.isEmpty) ∧
     (l.vals ≠ [] →
       (∃ c ∈ l.vals, (lineOut 6 f T D l).res = [c] ∧ ∀ d ∈ l.vals, v d ≤ v c) ∧
       (∃ c ∈ l.vals, (lineOut 7 f T D l).res = [c] ∧ ∀ d ∈ l.vals, v c ≤ v d) ∧
       (∃ k c, l.elems[k]? = some (some c) ∧ (lineOut 8 f T D l).res = [k % 65536, k / 65536] ∧
         ∀ j d, l.elems[j]? = some (some d) → v d ≤ v c ∧ (j < k → v d < v c)) ∧
       (∃ k c, l.elems[k]? = some (some c) ∧ (lineOut 9 f T D l).res = [k % 65536, k / 65536] ∧
         ∀ j d, l.elems[j]? = some (some d) → v c ≤ v d ∧ (j < k → v c < v d))) ∧
     (l.vals = [] → (lineOut 6 f T D l).res = [0x8001] ∧ (lineOut 7 f T D l).res = [0x7FFF] ∧
       (lineOut 8 f T D l).res = [0xFFFF, 0xFFFF] ∧ (lineOut 9 f T D l).res = [0xFFFF, 0xFFFF]))

/-- qz.cbk fills a bank that no queued or running load names, and sets QZ_STATUS bit 2 where an entry saturated and NARROW_OVF where one
had no overflow code (06 R113, R114; 02 R40, R43);
qz.survey, qz.quant and qz.opt whose operands pass their checks and wait on nothing complete with the stores of 06 R115, R116, R124.
No register of the task, no other bank and no other polder changes. -/
def Obligations.QzCompletes : Prop :=
  ∀ (s : State) (p : Pid) (t : Task) (f : Fields), CanIssue s p t →
    (let fill := t.fill.toNat
     let mask := t.mreg f.mask
     (Accepts t { level := 2, ra := .any, imm := 0xFFFF } f →
       let bank : Fin 2 := Fin.ofNat 2 f.imm.toNat
       let big := f.imm.getLsbD 1
       let n := if big then 256 else 16
       let ident := f.imm.getLsbD 15
       let w := (f.imm.extractLsb' 10 5).toNat
       let a := (t.sreg f.ra).toNat
       (ident = false → a % 32 = 0 ∧ access s p false [(a, 2 * n)] [(a, 2 * n)] = .ok ()) → 2 ≤ w → w ≤ 16 →
       bankInUse s.polders[p] bank = false →
       let base := (List.range n).map (fun i => if ident then identBase big i else BitVec.ofNat 16 (s.num (a + 2 * i) 2))
       let filled := (s.polders[p].qz.banks[bank]).fill w (if ident then 0 else (f.imm.extractLsb' 2 4).toNat)
         (f.imm.extractLsb' 6 4).toNat base
       exec (.qzCbk p f) s = .next ((((s.onPolder p (fun P => { P with qz := { P.qz with
         status := if filled.2.1 then P.qz.status ||| 4 else P.qz.status, banks := P.qz.banks.set bank filled.1 } })).eeFlags p false
           filled.2.2).reissue p f.upsets).past p t 8)) ∧
     (Accepts t { level := 2, rd := .desc, ra := .desc, rb := .desc, mask := true, imm := 0xFFFF } f → ∀ A L D : Tensor,
       readDesc s p t f.ra = .ok A → readDesc s p t f.rb = .ok L → readDesc s p t f.rd = .ok D →
       let out := [(D.scales, D.groups * D.columns), (D.s2, 2 * D.columns)]
       let live := (A.liveIx fill mask).filter (fun i => D.live fill i)
       checkParts s p (A.parts false ++ A.scaleParts ++ L.parts true ++ [(false, D.auxRun)] ++ out.map (fun r => (true, [r]))) = .ok () →
       D.group ≠ 0 → D.streamed = false → L.kind = .bf16 → sameShape A D = true →
       L.e0 * L.e1 * L.e2 * L.e3 = D.groups * D.columns → gate s false (A.readSlots s live) = .ok () →
       gate s false (slotsOf A.scaleRuns) = .ok () → gate s true (L.lineSlots fill 1 (List.range (D.groups * D.columns))) = .ok () →
       gate s true (slotsOf out) = .ok () →
       exec (.qzSurvey p f) s = .next (((D.outer.foldl (fun r o =>
         let found := surveyColumn s p A D fill mask (f.imm.setWidth 16) o
         storeColumn p D L fill r o found.1 found.2) s).reissue p f.upsets).past p t 8)) ∧
     (Accepts t { level := 2, long := true, rd := .desc, ra := .desc, rc := if f.imm.getLsbD 0 then .desc else .unused,
                  mask := true, imm := 1, w1 := 0x1FFFFFFFFF } f → ∀ (A D : Tensor) (masks : Nat → BitVec 16),
       readDesc s p t f.ra = .ok A → readDesc s p t f.rd = .ok D →
       checkParts s p (A.parts false ++ A.scaleParts ++ D.parts true ++ D.scaleParts) = .ok () → checkMask s p t f D = .ok masks → sameShape A D = true →
       let j : QuantJob := { s, p, t, f, A, D, mask }
       let live := (D.liveIx fill mask).filter (fun i => A.live fill i)
       let stores : List QStore :=
         if D.form = 3 then j.blocks masks else if D.form = 2 then j.segments else if D.layout = 2 then j.tiles else []
       let plain := if 2 ≤ D.form ∨ D.layout = 2 then [] else live.filterMap (fun i => (j.out i).map (fun o => (i, o)))
       gate s false (A.readSlots s live) = .ok () → gate s false (slotsOf (A.scaleRuns ++ D.scaleRuns)) = .ok () →
       gate s true (slotsOf (stores.map (fun x => (x.1, x.2.1.length))
         ++ plain.flatMap (fun x => (D.putAt x.1).map (fun y => (y.1, 1))))) = .ok () →
       ∃ r, exec (.qzQuant p f) s = .next r ∧
         r.mem = (plain.foldl (fun (r : State) x => D.put r x.1 x.2.code) (stores.foldl (fun r x => r.putBytes x.1 x.2.1) s)).mem ∧
         r.polders[p].qz.elements = s.polders[p].qz.elements + BitVec.ofNat 64 (stores.flatMap (·.2.2) ++ plain.map (·.2)).length ∧
         (let outs := stores.flatMap (·.2.2) ++ plain.map (·.2)
          r.polders[p].ee.status = (s.eeFlags p (outs.any QOut.sat) (outs.any QOut.narrow)).polders[p].ee.status) ∧
         (∃ u, r.polders[p].task = some u ∧ u.pc = t.pc + 16 ∧ u.s = t.s ∧ u.v = t.v ∧ u.m = t.m ∧ u.d = t.d) ∧
         r.weirs = s.weirs ∧ ∀ q, q ≠ p → r.polders[q] = s.polders[q]) ∧
     (Accepts t { level := 2, long := true, rd := .desc, ra := .desc, rb := .desc, rc := .desc, mask := true,
                  w1 := 0x1FFFFFFFFFF } f → ∀ g m v w : Tensor,
       readDesc s p t f.ra = .ok g → readDesc s p t f.rb = .ok m → readDesc s p t f.rc = .ok v → readDesc s p t f.rd = .ok w →
       let a := (t.sreg (f.w1.extractLsb' 36 5)).toNat
       let live := (w.liveIx fill mask).filter (fun i => g.live fill i && m.live fill i && v.live fill i)
       checkParts s p ([g, m, v, w].flatMap (fun T => T.parts false ++ T.scaleParts)
         ++ [m, v, w].flatMap (fun T => T.parts true)) = .ok () → a % 16 = 0 → access s p false [(a, 16)] [(a, 16)] = .ok () →
       s.num (a + 12) 4 = 0 → w.kind = .int → w.entryW = 16 → w.form ≤ 1 → g.kind = .int → g.entryW = 8 → g.form ≤ 1 →
       m.kind = .cb8 → m.form ≤ 1 → v.kind = .lg8 → v.form ≤ 1 →
       sameShape g w = true → sameShape m w = true → sameShape v w = true →
       gate s false (g.readSlots s live) = .ok () → gate s false (slotsOf ([g, m, v, w].flatMap Tensor.scaleRuns)) = .ok () →
       (∀ T ∈ [m, v, w], gate s true (T.writeSlots live) = .ok ()) →
       exec (.qzOpt p f) s =
         .next (((live.foldl (optElem p t f (hyperAt s a) ⟨w, g, m, v⟩) s).reissue p f.upsets).past p t 16)))

/-- The cx primitives by their OP. -/
def Claims.cxOps : List ((Pid → Fields → Instr) × Nat) :=
  [(.cxAllreduce, 0), (.cxReducescatter, 1), (.cxAllgather, 2), (.cxBroadcast, 3)]

/-- A collective whose operands pass their checks, on a handle whose set holds this member, starts one transfer and counts for its
handle and polder; a barrier needs no tensors. A member outside the set faults with CX_MISMATCH (10 R236; 14 R337, R338, R340).
COLLECTIVE_COMPLETE, no earlier collective of the member on the handle outstanding and every signature agreeing, writes what 14
Table 14-8 gives this member, ends the transfer and signals its weir once by 1; a signature that differs ends it with CX_MISMATCH
against its instruction; with an earlier one outstanding, or a share not yet there, it waits (14 R338-R340). An element beyond the fill
count gives a free value and takes none (09 R200; log entry 25). -/
def Obligations.Collectives : Prop :=
  (∀ (s : State) (p : Pid) (t : Task) (f : Fields), CanIssue s p t →
     (let h := (t.sreg f.rb).toNat
      let w : BitVec 16 := f.imm.extractLsb' 3 16
      let key := h * 32 + p.val
      let starts := fun (work : Work) => goesTo { s with
        herd := { s.herd with cxCount := sput 0 s.herd.cxCount key (sget 0 s.herd.cxCount key + 1) },
        transfers := s.transfers ++ [⟨s.nextId, p, t.pc, t.stage.prog, t.fill, work, w⟩], nextId := s.nextId + 1 } p t 8
      weirGranted s.polders[p].terp.bnd w.toNat = true →
      (Accepts t { level := 3, rb := .any, imm := 0x7FFF8 } f →
        ((s.rankIn h p).isSome = true → exec (.cxBarrier p f) s = starts (.collective 4 0 0 0 0 0 h 0)) ∧
        (s.rankIn h p = none → exec (.cxBarrier p f) s = .next (s.taskFault p 0x1A (s.cad.coord.setWidth 32)))) ∧
      ∀ c ∈ Claims.cxOps, Accepts t { level := 3, rd := .desc, ra := .desc, rb := .any, rc := if c.2 = 3 then .any else .unused,
                                      imm := if c.2 ≤ 1 then 0x7FFFF else 0x7FFF8 } f →
        ∀ x y : Tensor, (f.imm.extractLsb' 0 3).toNat ≤ 2 → readDesc s p t f.ra = .ok x → readDesc s p t f.rd = .ok y →
        checkParts s p (x.parts false ++ y.parts true) = .ok () →
        cxLayout x = true → cxLayout y = true → x.kind = y.kind → x.width = y.width →
        (2 ≤ c.2 ∨ cxPair (f.imm.extractLsb' 0 3).toNat x.kind x.width = true) →
        (let root := (t.sreg f.rc).toNat
         cxShape c.2 (s.memberSet h).length (s.rankIn h p == some root) x y f.ra f.rd = none →
         (s.rankIn h p).isSome = true →
         let src := t.dreg (dnum f.ra)
         let dst := t.dreg (dnum f.rd)
         exec (c.1 p f) s =
           starts (.collective (BitVec.ofNat 6 c.2) (f.imm.extractLsb' 0 3) src dst (sideOf s src) (sideOf s dst) h root)))) ∧
  (∀ (s : State) (x : Transfer) (prim : BitVec 6) (red : BitVec 3) (src dst : DescWord) (ss ds : BitVec 256) (h root : Nat)
     (peers : List PeerShare), s.pm.state = .run →
     s.transfers.find? (fun y => y.id == x.id) = some x → x.work = .collective prim red src dst ss ds h root →
     (let gone := s.transfers.filter (fun y => y.id != x.id)
      (earlierCx s x h = true → exec (.collectiveComplete x.id peers) s = .next s) ∧
      (earlierCx s x h = false →
        (∀ q, peers.find? (fun q => cxSig s x != some q.sig) = some q → exec (.collectiveComplete x.id peers) s =
          .next ({ s with transfers := gone }.taskFaultAt x.p x.pc 0x1A (q.coord.setWidth 32))) ∧
        (∀ r, (∀ q ∈ peers, cxSig s x = some q.sig) → s.rankIn h x.p = some r →
          let X := tensor src ss
          let Y := tensor dst ds
          let n := (s.memberSet h).length
          let F := x.fill.toNat
          let mine := if prim = 4 then [] else X.allIx.zipIdx.map (fun y =>
            if X.live F y.1 then X.code s y.1 else X.freeCode (Config.freeWord (s.freeIx + y.2)))
          (cxResult prim.toNat red.toNat n r root Y.count X mine peers = none →
            exec (.collectiveComplete x.id peers) s = .next s) ∧
          (∀ k codes, cxResult prim.toNat red.toNat n r root Y.count X mine peers = some (k, codes) →
            let reads := if prim = 4 ∨ (prim = 3 ∧ root ≠ r) then [] else X.readSlots s (X.allIx.filter (X.live F))
            let writes := if prim = 4 then [] else Y.writeSlots ((List.range codes.length).filterMap (fun e =>
              if Y.live F (Y.unlinear (k + e)) then some (Y.unlinear (k + e)) else none))
            let s' := s.wakeSlots (reads ++ writes)
            gate s' false reads = .ok () → gate s' true writes = .ok () →
            exec (.collectiveComplete x.id peers) s =
              .next (({ ((if prim = 4 then s' else Y.putRun F { s' with freeIx := s.freeIx + X.count } k codes).markEnds
                          s.sent.length).slotEnds writes with
                        transfers := gone }).signalWork x.p x.weir))))))

/-- sp.open takes a free spillway for the program, clears it and sets its salt and region; sp.add and sp.merge apply their updates
in order, writing the records that spill; sp.flush writes every entry out in order, gives the count in sRD and releases the spillway,
its entry where the program holds it, and with too little room faults with SPILL_FULL and changes nothing else
(07 R148-R152, 09 R204, R208; 10 R235). An update of the spillway adds to the value of its key, or takes the lowest free way of the key's bucket,
or, the bucket full, spills its record; no other key's value changes (07 R149-R151). -/
def Obligations.Spillway : Prop :=
  (∀ (s : State) (p : Pid) (t : Task) (f : Fields), CanIssue s p t →
     (let e : Fin 96 := ⟨32 + p.val, by omega⟩
      let q := s.polders[p].spw
      let applies := fun (c : Instr) (idle : Nat) (us : List (Nat × Update)) =>
        ∀ q' rs, q.run us = (q', rs, none) → gate s true (slotsOf (rs.map (fun r => (r.1, 16)))) = .ok () →
          exec c s = .next (((rs.foldl (fun r x => r.putBytes x.1 x.2) (s.onSpw p (fun _ =>
            { q' with conflicts := q'.conflicts + BitVec.ofNat 64 (bankLoad q.salt (us.map (·.2)) - idle) }))).reissue p f.upsets).past p t 8)
      (Accepts t { level := 3, ra := .any, rb := .any, rc := .any } f →
        (let slot := (t.sreg f.rb).toNat
         let n := (t.sreg f.rc).toNat
         let a := scratchAddr p (4096 * slot)
         (s.owner e ≠ 0 ∨ q.isOpen = true → exec (.spOpen p f) s =
           .next ({ s with res := { s.res with refused := s.res.refused + 1 } }.taskFault p 0x05 (BitVec.ofNat 32 e.val))) ∧
         (s.owner e = 0 → q.isOpen = false → n ≠ 0 → slot + n ≤ 90112 →
           (bounds s.polders[p].terp.bnd).any (fun b => b.covers true a (4096 * n)) = true → exec (.spOpen p f) s =
           .next ((((s.setOwner e (BitVec.ofNat 4 (t.stage.prog.val + 1))).onSpw p (fun q =>
             { q with isOpen := true, cells := [], salt := (t.sreg f.ra).setWidth 32, count := 0, spilled := 0,
                      regionBase := a, regionLen := 4096 * n })).reissue p f.upsets).past p t 8)))) ∧
      (q.isOpen = true →
        (Accepts t { level := 3, ra := .pair, rb := if f.imm.getLsbD 0 then .pair else .any, mask := true, imm := 1 } f →
          applies (.spAdd p f) 8 (((List.range 128).filter (fun l => (t.mreg f.mask).getLsbD l)).map
            (fun l => (l, BitVec.ofNat 32 (pairLane t f.ra l), spValue t f l)))) ∧
        (Accepts t { level := 3, ra := .any, rb := .any } f →
          (let a := (t.sreg f.ra).toNat
           let n := (t.sreg f.rb).toNat
           a % 16 = 0 → checkRuns s p false [(a, 16 * n)] = .ok () →
           (n = 0 ∨ a + 16 * n ≤ q.regionBase ∨ q.regionBase + q.regionLen ≤ a) → gate s false (slotsOf [(a, 16 * n)]) = .ok () →
           applies (.spMerge p f) ((n + 15) / 16) ((List.range n).map (fun k => (k, recordAt s (a + 16 * k)))))) ∧
        (Accepts t { level := 3, rd := .any, ra := .any, rb := .any } f →
          (let a := (t.sreg f.ra).toNat
           let n := (t.sreg f.rb).toNat
           a % 16 = 0 → 16 * q.cells.length ≤ n →
           checkRuns s p true [(a, n)] = .ok () → gate s true (slotsOf [(a, 16 * q.cells.length)]) = .ok () →
           exec (.spFlush p f) s = .next ((((((s.putBytes a (q.cells.flatMap (fun c => recordBytes c.2.1 c.2.2))).onSpw p (fun q =>
             { q with isOpen := false, cells := [] })).freeEntry e (progOwner t.stage.prog)).onTask p
               (fun t => t.setS f.rd (BitVec.ofNat 64 q.cells.length))).reissue p f.upsets).past p t 8)) ∧
          (let a := (t.sreg f.ra).toNat
           let n := (t.sreg f.rb).toNat
           a % 16 = 0 → n < 16 * q.cells.length → checkRuns s p true [(a, n)] = .ok () →
           exec (.spFlush p f) s = .next (s.taskFault p 0x12 (BitVec.ofNat 32 (n / 16)))))))) ∧
  (∀ (q : Spw) (k : U32) (v : Acc), k ≠ 0xFFFFFFFF →
     (∀ c ∈ q.cells, c.1 / 8 = bucketOf q.salt c.2.1) → (q.cells.map (·.1)).Nodup → (q.cells.map (·.2.1)).Nodup →
     (let value := fun (q : Spw) (k : U32) => (q.find k).map (·.2)
      let full := ∀ way < 8, ∃ c ∈ q.cells, c.1 = 8 * bucketOf q.salt k + way
      (∀ u, value q k = some u → ∃ q', q.step (k, v) = some (q', none) ∧ value q' k = some (accAdd true u v) ∧
        (∀ j, j ≠ k → value q' j = value q j) ∧ q'.count = q.count ∧ q'.updates = q.updates + 1) ∧
      (value q k = none → ¬ full → ∃ q', q.step (k, v) = some (q', none) ∧ value q' k = some v ∧
        (∀ j, j ≠ k → value q' j = value q j) ∧ q'.count = q.count + 1 ∧ q'.updates = q.updates + 1) ∧
      (value q k = none → full → 16 * q.spilled.toNat + 16 ≤ q.regionLen →
        ∃ q', q.step (k, v) = some (q', some (q.regionBase + 16 * q.spilled.toNat, recordBytes k v)) ∧ q'.cells = q.cells ∧
          q'.spills = q.spills + 1 ∧ q'.spilled = q.spilled + 1) ∧
      (value q k = none → full → q.regionLen < 16 * q.spilled.toNat + 16 → q.step (k, v) = none)))

/-- mm.ld queues its load in a free place of four and names it in the half it writes, or in both halves for an operand wider than 8
bits; with four queued it waits. The weights' format, place and alignment are checked first (10 R226). mm.bp queues its pass with
the values of its tile parameter block, in a free place of four; with four queued it waits. Its load, descriptors, memory, block and
pair of formats are checked first (10 R227, R228; 02 R37). -/
def Obligations.LoadsAndPassesQueue : Prop :=
  (∀ (s : State) (p : Pid) (t : Task) (f : Fields) (T : Tensor), CanIssue s p t →
     Accepts t { long := true, ra := .desc, rb := .any, rc := .any, imm := 1, w1 := 0xFFFFFF } f → readDesc s p t f.ra = .ok T →
     (let k0 := (t.sreg f.rb).toNat
      let c0 := (t.sreg f.rc).toNat
      let klen := f.w1.toNat % 2 ^ 17
      let ncols := f.w1.toNat / 2 ^ 17 + 1
      let two4 := decide (2 ≤ T.form)
      let rs := weightRuns T k0 klen c0 ncols ++ codeRunsOf T k0 klen c0 ncols ++ s2RunsOf T k0 klen c0 ncols
      let half : Fin 2 := Fin.ofNat 2 f.imm.toNat
      let d := t.dreg (dnum f.ra)
      let A := s.polders[p].arr
      let r : LoadReq := ⟨A.nextLoad, t.pc, f.ra, d, sideOf s d, k0, klen, c0, ncols, half, loadWidth s p T⟩
      checkParts s p (loadParts T k0 klen c0 ncols) = .ok () → T.kind ≠ .bf16 → T.kind ≠ .acc32 → T.kind ≠ .accx → outsideOwn p rs = none →
      1 ≤ klen → klen ≤ (if two4 then 65536 else 32768) → k0 < T.redExt → c0 < T.colExt → expandable T c0 = true →
      k0 % (if two4 then 512 else 256) = 0 →
      (4 ≤ A.loads.length → exec (.mmLd p f) s = .next s) ∧
      (A.loads.length < 4 → exec (.mmLd p f) s =
        goesTo (s.onPolder p (fun P => { P with arr := { P.arr with nextLoad := A.nextLoad + 1, loads := A.loads ++ [r] } })) p
          { t with loaded := if 8 < r.w then Vector.replicate 2 (some r) else t.loaded.set half (some r) } 16))) ∧
  (∀ (s : State) (p : Pid) (t : Task) (f : Fields) (ld : LoadReq) (A D : Tensor) (path : Path), CanIssue s p t →
     Accepts t { long := true, rd := .desc, ra := .desc, rb := .any, rc := .any, imm := 0x3F, w1 := 0xFFFFFFFFFFFFFF } f →
     (let half : Fin 2 := Fin.ofNat 2 f.imm.toNat
      let m := f.w1.toNat / 2 ^ 44 + 1
      let r0 := (t.sreg f.rb).toNat
      let a := (t.sreg f.rc).toNat
      let W := tensor ld.desc ld.side
      let b := tpbAt s a
      let od := t.dreg (dnum f.rd)
      let ad := t.dreg (dnum f.ra)
      let q : PassReq :=
        { pc := t.pc, outReg := f.rd, actReg := f.ra, outD := od, outSide := sideOf s od, act := ad, actSide := sideOf s ad,
          load := ld, half, close := f.imm.getLsbD 1, trunc := f.imm.toNat / 4, m, chunks := f.w1.toNat / 2 ^ 28 % 2 ^ 16,
          chunk := f.w1.toNat / 2 ^ 12 % 2 ^ 16, frame := f.w1.toNat % 2 ^ 12, r0, tpb := b, epoch := (t.sreg 2).setWidth 32 }
      t.loaded[half] = some ld → readDesc s p t f.ra = .ok A → readDesc s p t f.rd = .ok D →
      checkParts s p ([(false, A.auxRun), (false, D.auxRun)] ++ actParts A m r0 ld.k0 ld.klen ++
        outParts D m r0 ld.c0 ld.ncols) = .ok () → a % 32 = 0 → access s p false [(a, 32)] [(a, 32)] = .ok () →
      tpbOk s a = true →
      ((s.byte (a + 11)).getLsbD 0 = true → access s p false [(s.num (a + 16) 8, 512)] [(s.num (a + 16) 8, 512)] = .ok ()) →
      (D.kind = .int ∨ D.kind = .uint ∨ D.kind = .int1 → 1 ≤ b.nc ∧ b.nc ≤ D.width) → (A.kind = .lg8 ∨ b.sigma = 0) →
      pairPath W A = some path → pathOk path W b.accX = true → (surveysColumns D = true → m % D.group = 0) →
      (D.layout = 2 → r0 % D.tileM = 0 ∧ m ≤ D.tileM) → ld.c0 % 128 = 0 → min W.redExt (ld.k0 + ld.klen) ≤ A.e0 →
      (4 ≤ s.polders[p].arr.passes.length → exec (.mmBp p f) s = .next s) ∧
      (s.polders[p].arr.passes.length < 4 → exec (.mmBp p f) s =
        goesTo (s.onPolder p (fun P => { P with arr := { P.arr with passes := P.arr.passes ++ [q] } })) p t 16)))

/-- The load at the head of the queue starts once no queued pass still reads the planes it writes. When done it has put its weights
into the half it names, the low and the high 8 planes of each into the two halves for an operand wider than 8 bits; a stored form that
does not hold faults with SPARSE_FORMAT against the load's instruction. A narrow load leaves the other half as it was, so a pass of an
earlier wide load still reads that half's planes (04 R67-R70; 07 R132, R142, R146). -/
def Obligations.WeightLoadRuns : Prop :=
  (∀ (s : State) (p : Pid) (r : LoadReq), s.arithOn = true →
    (let A := s.polders[p].arr
     (∀ rest, A.loads = r :: rest → A.loading = none → (∀ q ∈ A.passes, blocksLoad r q = false) →
       exec (.weightLoadStart p) s = .next (s.onPolder p (fun P => { P with arr := { P.arr with loads := rest, loading := some r } }))) ∧
     (∀ rest, A.loads = r :: rest → (A.loading.isSome = true ∨ ∃ q ∈ A.passes, blocksLoad r q = true) →
       exec (.weightLoadStart p) s = .next s) ∧
     (A.loading = some r →
       (let T := tensor r.desc r.side
        gate s false (slotsOf (weightNeeds s T r.k0 r.klen r.c0 r.ncols ++ codeRunsOf T r.k0 r.klen r.c0 r.ncols ++
          s2RunsOf T r.k0 r.klen r.c0 r.ncols)) = .ok () →
        (∀ upset, sparseOk s r = false →
          exec (.weightLoadDone ⟨p, upset⟩) s = .next (s.taskFaultAt p r.pc 0x11 (r.dreg.setWidth 32))) ∧
        (sparseOk s r = true → ∃ t, exec (.weightLoadDone ⟨p, false⟩) s = .next t ∧ t.polders[p].arr.loading = none ∧
          (∀ h : Fin 2, t.polders[p].arr.latches[h] =
            if 8 < r.w ∨ h = r.half then some (latchOf s p r h) else A.latches[h]) ∧
          t.polders[p].arr.loads = A.loads ∧ t.polders[p].arr.passes = A.passes ∧ t.polders[p].task = s.polders[p].task ∧
          t.polders[p].sump = s.polders[p].sump ∧ t.mem = s.mem ∧ ∀ q, q ≠ p → t.polders[q] = s.polders[q]) ∧
        (sparseOk s r = true → T.coded = true → ∃ t, exec (.weightLoadDone ⟨p, true⟩) s = .next t ∧
          t.polders[p].arr = A ∧ t.mem = s.mem ∧
          t.integ.sites[s.siteOf p].replay = s.integ.sites[s.siteOf p].replay + 1 ∧
          t.polders[p].task = s.polders[p].task.map (fun k => { k with replays := k.replays + 1 })))))) ∧
  (∀ (s : State) (p : Pid) (r : LoadReq) (c k : Nat),
    (let T := tensor r.desc r.side
     let x := (loadOperand s p T r.w (r.k0 + k) (r.c0 + c)).1
     let read := fun (l : Vector (Option Latch) 2) =>
       (((latchedOperands l r.half r (r.columns T) (r.valid T)).getD c []).getD k 0 : Int)
     c < r.columns T → k < r.valid T → T.kind ≠ .int1 →
     (8 < r.w → r.w ≤ 16 → read #v[some (latchOf s p r 0), some (latchOf s p r 1)] = x % (2 ^ r.w : Nat)) ∧
     (r.w ≤ 8 → ∀ l : Vector (Option Latch) 2, l[r.half] = some (latchOf s p r r.half) → read l = x % (2 ^ r.w : Nat))))

/-- The pass at the head of the queue, its load in the latches, no drain stall, and every check of 04 Table 4-4 and 08 R173 passed,
leaves the queue and adds its sums to its frame, which starts clean for chunk 0; its group stays open, or with CLOSE joins the groups
that await their swap. The other frames of the group and memory do not change, nor the task unless a check point disagrees. A check
that fails faults with its code and check number against the pass's instruction; a stall or a load that is not in the latches holds
the pass (04 R72, R75-R79, R83; 10 R219). A pass that a mismatch makes replay, within REPLAY_MAX, adds what one without the transient
error adds, and leaves the same memory (03 R63; 04 R82, 17 R398). -/
def Obligations.PassRuns : Prop :=
  (∀ (s : State) (p : Pid) (t : Task) (q : PassReq) (rest : List PassReq) (L : Latch) (slip : Option Slip), s.arithOn = true →
     s.polders[p].task = some t → s.polders[p].arr.passes = q :: rest → s.polders[p].arr.latches[q.half] = some L →
     (let S := s.polders[p].sump
      let A := tensor q.act q.actSide
      let rec0 := recOf s p t q
      let F := (S.opened.bind (Group.frame · q.frame)).getD (newFrame rec0)
      let e := passEnv s s.polders[p].arr.latches L q F.tile slip
      let F' := (PassEnv.run (if e.caught F then { e with slip := none } else e) F).1
      ((L.load.id ≠ q.load.id ∨ S.wait = true) → exec (.passStart p slip) s = .next s) ∧
      (L.load.id = q.load.id → S.wait = false →
        (∀ c i, passCheck S.opened q rec0 = some (c, i) →
          exec (.passStart p slip) s = .next (s.taskFaultAt p q.pc c (BitVec.ofNat 32 i))) ∧
        (passCheck S.opened q rec0 = none → (q.chunk = 0 → chainCheck s p q = none) →
          gate s false (slotsOf (actRuns s A e.k0 e.valid q.r0 F.tile.live)) = .ok () →
          actTilesOk s A e.k0 e.valid q.r0 F.tile.live = true →
          (e.caught F = true → s.replayLimit ((S.opened.map (·.replays)).getD 0) = false) →
          ∃ r g, exec (.passStart p slip) s = .next r ∧ r.polders[p].arr.passes = rest ∧
            (q.close = true → r.polders[p].sump.closed = S.closed ++ [g] ∧ r.polders[p].sump.opened = none) ∧
            (q.close = false → r.polders[p].sump.opened = some g ∧ r.polders[p].sump.closed = S.closed) ∧
            (g.frames.find? (fun x => x.1 == q.frame)).map (·.2) = some F' ∧
            (∀ k, k ≠ q.frame → (g.frames.find? (fun x => x.1 == k)).map (·.2) = S.opened.bind (Group.frame · k)) ∧
            r.polders[p].sump.shadow = S.shadow ∧ r.mem = s.mem ∧ r.weirs = s.weirs ∧
            (e.caught F = false → r.polders[p].task = some t) ∧
            (e.caught F = true → r.polders[p].task = some { t with replays := t.replays + 1 } ∧
              r.integ.sites[s.siteOf p].replay = s.integ.sites[s.siteOf p].replay + 1) ∧
            ∀ k, k ≠ p → r.polders[k] = s.polders[k])))) ∧
  (∀ (s : State) (p : Pid) (x : Slip), s.replayLimit ((s.polders[p].sump.opened.map (·.replays)).getD 0) = false →
     (∀ t q rest L, s.polders[p].task = some t → s.polders[p].arr.passes = q :: rest → s.polders[p].arr.latches[q.half] = some L →
       (let F := (s.polders[p].sump.opened.bind (Group.frame · q.frame)).getD (newFrame (recOf s p t q))
        (passEnv s s.polders[p].arr.latches L q F.tile (some x)).caught F = true)) →
     ∃ a b, exec (.passStart p (some x)) s = .next a ∧ exec (.passStart p none) s = .next b ∧
       a.polders[p].sump.opened.map (·.frames) = b.polders[p].sump.opened.map (·.frames) ∧
       a.polders[p].sump.closed.map (·.frames) = b.polders[p].sump.closed.map (·.frames) ∧
       a.polders[p].arr = b.polders[p].arr ∧ a.mem = b.mem ∧ a.weirs = b.weirs)

/-- "The value of an integer operand element is the sum over its planes p of b_p × g(p)" (02 R26), so the plane pairs of a walk
without truncation and without a transient error add to an entry the exact dot product of the operands' values, where no partial sum
leaves the accumulator; and the entry's residue register stays the entry mod 7 (03 R45, R49, R62; 04 R83). -/
def Obligations.PlanePairsAreTheDotProduct : Prop :=
  ∀ (e : PassEnv) (P : Nat) (a ws : List Nat) (x : Int), e.T = 0 → 1 ≤ P → 1 ≤ e.r.wWidth → a.length = ws.length →
    (∀ c ∈ a, c < 2 ^ P) → (∀ y ∈ ws, y < 2 ^ e.r.wWidth) →
    (x.natAbs : Int) + a.length * 2 ^ (P + e.r.wWidth) ≤ accMax e.r.tpb.accX →
    (let value := fun (signed : Bool) (w : Nat) (c : Nat) => if signed then (BitVec.ofNat w c).toInt else (c : Int)
     let y := x + ((a.zip ws).map (fun z => value e.aInt P z.1 * value e.wInt e.r.wWidth z.2)).sum
     e.addPairs P a ws none (.val x, res7 x) = (.val y, res7 y))

/-- The last product of a closed group retires once; the sets then swap when the shadow set is clean, the group draining from its
first unmasked row and SUMP_SWAPS counting, and not before (04 R79, R80). The next row of the draining group leaves for the element
engine where the drain is not held and the output compressor has room: the drain moves to the next unmasked row, EE_ROWS and
SUMP_ROWS_DRAINED count it, and memory does not change; held or without room it waits (04 R80, R87; 08 R169, R445). A row that a
check finds wrong stays: its group swaps and drains again up to that row, the rows before it counting a second time and the output
compressor keeping what it has, or, past REPLAY_MAX, the site fails with HARD_SEEN and a rollback starts (17 R396, R398). Debug access to
the sumps: without it a START write and a hold only set DENIED; with it START takes a snapshot unless one is outstanding, and
DRAIN_HOLD takes its bit. The snapshot lands in SUMP_DBG_DATA with DONE, and changes no sump (04 R87, 17 R420). -/
def Obligations.SumpSwapAndDrain : Prop :=
  (∀ (s : State) (p : Pid) (g : Group) (rest : List Group), s.arithOn = true → s.polders[p].sump.closed = g :: rest →
     (let S := s.polders[p].sump
      let put := fun (x : Sump) => Host.Outcome.next (s.onPolder p (fun P => { P with sump := x }))
      (S.retired = false → exec (.lastProductRetire p) s =
          put { S with retired := true, wait := S.shadow.isSome, waited := S.waited || S.shadow.isSome } ∧
        exec (.setSwap p) s = .next s) ∧
      (S.retired = true → exec (.lastProductRetire p) s = .next s ∧
        (S.shadow.isSome = true → exec (.setSwap p) s = .next s) ∧
        (S.shadow = none → exec (.setSwap p) s =
          put { S with closed := rest, retired := false, wait := false, swaps := S.swaps + 1,
                       shadow := (nextRow g 0 0).map (fun x => (g, x.1, x.2)) })))) ∧
  (∀ (s : State) (p : Pid) (g : Group) (k i n : Nat) (F : SumpFrame) (slip : Option DrainSlip), s.arithOn = true →
     s.polders[p].sump.shadow = some (g, k, i) → g.frames[k]? = some (n, F) →
     (let P := s.polders[p]
      let roomy := P.oc.recv.all (fun t => !t.full)
      (P.sump.hold = true ∨ roomy = false → exec (.drainRow p slip) s = .next s) ∧
      (P.sump.hold = false → roomy = true → slip.any (DrainSlip.caught (F.rows.getD i [])) = true → s.replayLimit g.replays = false →
        ∃ r, exec (.drainRow p slip) s = .next r ∧ r.polders[p].sump.shadow = some ({ g with replays := g.replays + 1 }, k, i) ∧
          r.polders[p].sump.swaps = P.sump.swaps + 1 ∧
          r.polders[p].sump.drained = P.sump.drained + BitVec.ofNat 64 (rowsBefore g k i).length ∧
          r.polders[p].ee.rows = P.ee.rows + BitVec.ofNat 64 (rowsBefore g k i).length ∧
          r.polders[p].sump.opened = P.sump.opened ∧ r.polders[p].sump.closed = P.sump.closed ∧
          r.polders[p].oc.recv.map (·.rows) = P.oc.recv.map (·.rows) ∧
          r.polders[p].task = P.task.map (fun k => { k with replays := k.replays + 1 }) ∧ r.mem = s.mem) ∧
      (P.sump.hold = false → roomy = true → slip.any (DrainSlip.caught (F.rows.getD i [])) = true → s.replayLimit g.replays = true →
        ∃ r, exec (.drainRow p slip) s = .next r ∧ r.integ.hardSeen = true ∧ r.integ.cause.isSome = true ∧
          r.polders = s.polders ∧ r.mem = s.mem) ∧
      (P.sump.hold = false → roomy = true → slip.any (DrainSlip.caught (F.rows.getD i [])) = false →
        ∃ r, exec (.drainRow p slip) s = .next r ∧
        r.polders[p].sump.shadow = (nextRow g k (i + 1)).map (fun x => (g, x.1, x.2)) ∧
        r.polders[p].sump.drained = P.sump.drained + 1 ∧ r.polders[p].ee.rows = P.ee.rows + 1 ∧
        r.polders[p].sump.opened = P.sump.opened ∧ r.polders[p].sump.closed = P.sump.closed ∧
        r.polders[p].arr = P.arr ∧ r.mem = s.mem ∧ r.weirs = s.weirs ∧ ∀ q, q ≠ p → r.polders[q] = s.polders[q]))) ∧
  (∀ (s : State) (p : Pid) (v : U32), s.pm.state = .run →
     (let s' := s.wakeQuad (quadOf p)
      let S := s.polders[p].sump
      let put := fun (r : State) (x : Sump) => Host.Outcome.next (r.onPolder p (fun P => { P with sump := x }))
      (s.sumpDebug = false → exec (.sumpDbgStart p v) s = put s' { S with dbgStat := S.dbgStat ||| 8 } ∧
        (v.getLsbD 0 = true → exec (.drainHoldWrite p v) s = put s' { S with dbgStat := S.dbgStat ||| 8 })) ∧
      (s.sumpDebug = true → v.getLsbD 31 = true → S.snap = none → exec (.sumpDbgStart p v) s =
        put s' { S with dbgAddr := v &&& 0x4FFF007F, dbgStat := S.dbgStat &&& ~~~ 1#32,
                        snap := some ⟨v.getLsbD 30, (v.extractLsb' 16 12).toNat, (v.extractLsb' 0 7).toNat⟩ }) ∧
      (v.getLsbD 0 = false ∨ s.sumpDebug = true → exec (.drainHoldWrite p v) s = put s' { S with hold := v.getLsbD 0 }) ∧
      (∀ q, S.snap = some q → s.arithOn = true → ∃ r, exec (.snapshotDone p) s = .next r ∧ r.polders[p].sump.snap = none ∧
        r.polders[p].sump.dbgStat.getLsbD 0 = true ∧ r.polders[p].sump.opened = S.opened ∧ r.polders[p].sump.closed = S.closed ∧
        r.polders[p].sump.shadow = S.shadow ∧ r.mem = s.mem ∧
        ∀ g F rows e, q.shadow = false → S.closed = [] → S.opened = some g → q.entry < sumpEntries g.accX →
          g.frames.find? (fun x => x.1 == q.entry / g.m) = some F → F.2.rows[q.entry % g.m]? = some rows →
          rows[q.column]? = some e → r.polders[p].sump.dbgData = snapData g.accX e)))

/-- A tile the output compressor holds whole, waiting on nothing, is written out: its buffer is free and the tile next received takes
it. Its row headers, then its elements or its stored tile, then the codes and scales of its survey, then its tap records lie in memory,
no other byte changes, and the slots whose last byte was written are full. QZ_ELEMENTS counts its elements and QZ_CLIPPED those
clipped; a tile over its budget counts there and, where it may widen, at the next width of the ladder; OC counts it packed or dense
with its zero codes (08 R445; 06 R119-R122; 07 R131, R135). With no whole tile the command changes nothing. A tile at which the
duplicated datapath disagrees stays whole in its buffer and nothing of it is written: its group replays, or past REPLAY_MAX the site
fails (17 R395, R396, R398). -/
def Obligations.OutputTileIsWritten : Prop :=
  (∀ (s : State) (p : Pid) (upset : Bool), s.arithOn = false ∨ s.polders[p].oc.ready = none →
     exec (.ocTileWrite ⟨p, upset⟩) s = .next s) ∧
  (∀ (s : State) (p : Pid) (t : OcTile), s.arithOn = true → s.polders[p].oc.ready = some t →
    (let D := tensor t.tile.outD t.tile.outSide
     let r := t.tile
     let rows := ocRows D t
     let o := if D.coded then ocSurvey s p D r rows else ocPlain D r rows
     let w := ocStores D r (o.codes.map (fun r => r.map (fun x => x.1.code)))
     let taps := tapStores s t
     let body : List Run := match w.tile with
       | some i => [(w.addr, i.bytes.length)]
       | none => (elemBytes D w.elems).map (fun a => (a, 1))
     let tapRuns : List Run := match taps with | some (T, es) => (elemBytes T es).map (fun a => (a, 1)) | none => []
     let extra := o.extra.map (fun x => (x.1, x.2.length))
     let slots := slotsOf (body ++ extra ++ tapRuns)
     let stored := fun (s : State) =>
       let s := w.hdrs.foldl (fun s x => s.putBytes x.1 x.2) s
       let s := match w.tile with
         | some i => s.putBytes w.addr i.bytes
         | none => w.elems.foldl (fun (s : State) (e : Ix × Nat) => D.put s e.1 e.2) s
       let s := o.extra.foldl (fun s x => s.putBytes x.1 x.2) s
       match taps with | some (T, es) => es.foldl (fun (s : State) (e : Ix × Nat) => T.put s e.1 e.2) s | none => s
     let n := o.codes.flatten.length
     let c := (o.codes.flatten.filter (·.2)).length
     let excess := D.kind ≠ .acc32 ∧ D.kind ≠ .accx ∧ r.tpb.budget ≠ 0xFFFF ∧ n ≠ 0 ∧ r.tpb.budget.toNat * n < c * 65536
     let P := s.polders[p]
     (gate s true slots = .ok () →
      ∃ x, exec (.ocTileWrite ⟨p, false⟩) s = .next x ∧ x.mem = (stored s).mem ∧
       (∀ a < 2 ^ 63, (∀ y ∈ body ++ extra ++ tapRuns ++ w.hdrs.map (fun h => (h.1, h.2.length)), ¬ (y.1 ≤ a ∧ a < y.1 + y.2)) →
         x.byte a = s.byte a) ∧
       (∀ q : Pid, x.polders[q].terp = (((stored s).markEnds s.sent.length).slotEnds slots).polders[q].terp) ∧
       x.polders[p].qz.elements = P.qz.elements + BitVec.ofNat 64 n ∧
       x.polders[p].qz.clipped = P.qz.clipped + BitVec.ofNat 64 c ∧
       (excess → x.polders[p].qz.excess = P.qz.excess + 1) ∧ (¬ excess → x.polders[p].qz.excess = P.qz.excess) ∧
       x.polders[p].qz.widened = P.qz.widened + (if o.widened = true then 1 else 0) ∧
       x.polders[p].oc.zeros = P.oc.zeros +
         BitVec.ofNat 64 (o.codes.flatten.filter (fun y => D.isZero y.1.code)).length ∧
       (∀ i, w.tile = some i →
         x.polders[p].oc.packed = P.oc.packed + (if i.packed = true then 1 else 0) ∧
         x.polders[p].oc.dense = P.oc.dense + (if i.packed = true then 0 else 1)) ∧
       (P.oc.recv = none → x.polders[p].oc.recv = none ∧ x.polders[p].oc.ready = none) ∧
       (∀ u, P.oc.recv = some u → u.full = true → x.polders[p].oc.recv = none ∧ x.polders[p].oc.ready = some u) ∧
       (∀ u, P.oc.recv = some u → u.full = false → x.polders[p].oc.recv = some u ∧ x.polders[p].oc.ready = none) ∧
       x.polders[p].sump = P.sump ∧ x.polders[p].arr = P.arr ∧ x.weirs = s.weirs) ∧
     (s.replayLimit t.group.replays = false → ∃ x, exec (.ocTileWrite ⟨p, true⟩) s = .next x ∧
       x.mem = s.mem ∧ x.weirs = s.weirs ∧ x.polders[p].oc.ready = some { t with group := { t.group with replays := t.group.replays + 1 } } ∧
       x.polders[p].arr = P.arr ∧ x.polders[p].sump.swaps = P.sump.swaps + 1 ∧
       x.integ.sites[s.siteOf p].replay = s.integ.sites[s.siteOf p].replay + 1) ∧
     (s.replayLimit t.group.replays = true → ∃ x, exec (.ocTileWrite ⟨p, true⟩) s = .next x ∧
       x.mem = s.mem ∧ x.polders = s.polders ∧ x.integ.hardSeen = true ∧ x.integ.cause.isSome = true)))

/-- A packet that an agent sends into the mesh waits at the output of its route with SRCS 1, if it enters where 13 R289 lets it and the
64-flit queue of an embankment port has room. The sender that the turns and promotions of 13 R292 pick leaves its queue for the link
where the link has room; it carries as SRCS the sum of the latest counts of the inputs whose activity runs, at least 1 and at most 63
(R291), the router counts its flits, and the neighbour takes it into the queue of its next output; with two networks waiting the flits
alternate, and the packet with fewer of them is through first (R292). A queue without room holds its sender back (R287). A head that
waited more than 512 fabric cycles is promoted, an activity timer that has run out leaves the sum, and every hop brings a packet one
site nearer its destination (R289). No packet moves while the fabric is off (16 Table 16-1). -/
def Obligations.FabricForwarding : Prop :=
  (∀ (s : State) (n : Site) (o inp : Port) (net : Net) (now : Nat) (xs : List (Port × FabPacket)) (taken : Nat × Nat),
    s.running = false → ∀ c : Instr, c = .fabricPacketForward n o now xs taken ∨ c = .packetPromotion n o net inp now ∨
      c = .activityTimerExpire n inp o now → exec c s = .next s) ∧
  (∀ (s : State) (n : Site) (o : Port) (net : Net) (now : Nat), s.running = true →
    (let P := s.routers[n].outs[Port.ix o]
     let N := P.nets[netIx net]
     let other : Net := if net = .request then .response else .request
     let queue := fun (r : State) (v : Net) (m : Site) (q : Port) (inp : Port) =>
       ((r.routers[m].outs[Port.ix q]).nets[netIx v]).queues[Port.ix inp]
     let idle := P.wire[netIx net] = none ∧ P.wire[netIx other] = none
     let count := fun (i : Fin 7) (k : FabPacket) => min 63 (max 1 (((List.finRange 7).map (fun j =>
       if j = i then k.srcs.toNat else match P.last[j] with
         | some (v, u) => if now < u then v.toNat else 0
         | none => 0)).sum))
     (∀ inp k rest taken, exec (.fabricPacketForward n o now ((inp, k) :: rest) taken) s =
         exec (.fabricPacketForward n o now rest taken) (s.packetEnters n now inp k) ∧
       (∀ q, injects inp = true → hasPort n inp = true → entersAt n inp k.dest = true → route n k.dest = some q →
         (inp = .here ∨ flitsFrom s.routers[n] inp k.kind.net + packetFlits k ≤ 64) →
         queue (s.packetEnters n now inp k) k.kind.net n q inp = queue s k.kind.net n q inp ++ [({ k with srcs := 1 }, now, false)]) ∧
       (inp ≠ .here → 64 < flitsFrom s.routers[n] inp k.kind.net + packetFlits k → s.packetEnters n now inp k = s)) ∧
     (∀ i M k t b rest, idle → nextSender N = some (i, M) → N.queues[i] = (k, t, b) :: rest →
       nextSender P.nets[netIx other] = none →
       (linkRoom s n o k = false → exec (.fabricPacketForward n o now [] (0, 0)) s = .next s) ∧
       (linkRoom s n o k = true →
        ∃ r k', exec (.fabricPacketForward n o now [] (0, 0)) s = .next r ∧ r.reply = .packet k' ∧
         k' = { k with srcs := k'.srcs } ∧ k'.srcs.toNat = count i k ∧
         r.routers[n].flits = s.routers[n].flits + BitVec.ofNat 64 (max 1 ((k.len.toNat + 511) / 512)) ∧
         queue r net n o (if i = 0 then .north else if i = 1 then .east else if i = 2 then .south else if i = 3 then .west
           else if i = 4 then .here else if i = 5 then .embankment else .side) = rest ∧
         (r.routers[n].outs[Port.ix o]).last[i] = some (k.srcs, now + 1024) ∧
         (∀ m inp q, neighbour n o = some (m, inp) → route m k.dest = some q → queue r k.kind.net m q inp =
           queue s k.kind.net m q inp ++ [(k', now + packetFlits k - 1 + (3 + if crosses n m then 7 else 1), false)]) ∧
         r.mem = s.mem ∧ r.polders = s.polders)) ∧
     (∀ i M k t b rest j M' k' t' b' rest', idle → netIx net = P.lastNet + 1 → nextSender N = some (i, M) →
       N.queues[i] = (k, t, b) :: rest → nextSender P.nets[netIx other] = some (j, M') →
       (P.nets[netIx other]).queues[j] = (k', t', b') :: rest' → linkRoom s n o k = true → linkRoom s n o k' = true →
       ∃ r x, exec (.fabricPacketForward n o now [] (0, 0)) s = .next r ∧ r.reply = .packet x ∧ r.mem = s.mem ∧
         (packetFlits k ≤ packetFlits k' → x = { k with srcs := x.srcs } ∧
           r.routers[n].flits = s.routers[n].flits + BitVec.ofNat 64 (2 * packetFlits k - 1) ∧
           ((r.routers[n].outs[Port.ix o]).wire[netIx other]).map (fun y => (y.2.1, y.2.2)) =
             some (j, packetFlits k' - (packetFlits k - 1))) ∧
         (packetFlits k' < packetFlits k → x = { k' with srcs := x.srcs } ∧
           r.routers[n].flits = s.routers[n].flits + BitVec.ofNat 64 (2 * packetFlits k') ∧
           ((r.routers[n].outs[Port.ix o]).wire[netIx net]).map (fun y => (y.2.1, y.2.2)) =
             some (i, packetFlits k - packetFlits k'))) ∧
     (idle → nextSender N = none → nextSender P.nets[netIx other] = none →
       exec (.fabricPacketForward n o now [] (0, 0)) s = .next s) ∧
     (∀ inp k t rest, queue s net n o inp = (k, t, false) :: rest →
       (now ≤ t + 512 → exec (.packetPromotion n o net inp now) s = .next s) ∧
       (t + 512 < now → ∃ r, exec (.packetPromotion n o net inp now) s = .next r ∧
         queue r net n o inp = (k, t, true) :: rest ∧ r.routers[n].promoted = s.routers[n].promoted + 1 ∧
         r.routers[n].flits = s.routers[n].flits ∧ ∀ m, m ≠ n → r.routers[m] = s.routers[m])) ∧
     (∀ inp v t, P.last[Port.ix inp] = some (v, t) →
       (now < t → exec (.activityTimerExpire n inp o now) s = .next s) ∧
       (t ≤ now → ∃ r, exec (.activityTimerExpire n inp o now) s = .next r ∧
         (∀ j, (r.routers[n].outs[Port.ix o]).last[j] = if j = Port.ix inp then none else P.last[j]) ∧
         (r.routers[n].outs[Port.ix o]).nets = P.nets ∧ ∀ m, m ≠ n → r.routers[m] = s.routers[m])))) ∧
  (let apart := fun (a b : Site) => ((siteCol a : Int) - siteCol b).natAbs + ((siteRow a : Int) - siteRow b).natAbs
   ∀ n d : Site, if n = d then route n (BitVec.ofNat 6 d.val) = some .here
     else ∃ o m inp, route n (BitVec.ofNat 6 d.val) = some o ∧ neighbour n o = some (m, inp) ∧ hasPort m inp = true ∧
       apart m d + 1 = apart n d)

/-- A cache serves an access whose sector it holds and counts a hit; an access that misses counts a miss and, its line fetched where
it is read, holds the sector afterwards, dirty where it was written, unless its range says NO_ALLOCATE. No access changes memory. A
flush leaves every sector clean and is busy until FLUSH_DONE counts its write-backs (13 R295-R298). Accesses of one fabric cycle are
served by ascending attachment site, link ports last, and one that waits holds back the later ones to its line only (13 R296, R306). A
range register of a cache (13
R297): an enabled range changes only by clearing EN, a range may not be enabled over another enabled one, and POLICY 3 is refused; a
refused write changes nothing but REFUSED. Disabling a PINNED range unpins its blocks. -/
def Obligations.MemorySideCaches : Prop :=
  ((∀ (s : State) (site : Option Site) (addr : U64) (kind : MscKind) (errs : LineErrs), s.running = true → addr.toNat < 2 ^ 39 →
     (let run := exec (.mscAccess addr kind ⟨site, errs, []⟩) s
      let B := addr.toNat / 2048
      let sector := addr.toNat / 64 % 32
      let m := (locate addr.toNat).1
      let l := (locate addr.toNat).2
      let k : Fin 4 := Fin.ofNat 4 (m.val / 2)
      let c := s.msc[k]
      let has := fun (c : Msc) (f : MscWay → U32) =>
        ∃ w, c.find B = some w ∧ (f (c.way (cacheSet B) w)).getLsbD sector = true
      let fetches := kind ≠ .writeWhole
      (has c (·.valid) → ∃ r, run = .next r ∧ has r.msc[k] (·.valid) ∧
        r.msc[k].hits = c.hits + 1 ∧ r.msc[k].misses = c.misses ∧
        (has r.msc[k] (·.dirty) ↔ kind ≠ .read ∨ has c (·.dirty)) ∧
        r.mem = s.mem ∧ r.mc = s.mc ∧ ∀ j, j ≠ k → r.msc[j] = s.msc[j]) ∧
      (¬ has c (·.valid) → missWaits s c addr.toNat kind = true → run = .next s) ∧
      (¬ has c (·.valid) → missWaits s c addr.toNat kind = false → (fetches → errs = {} ∧ s.mc[m].failed = []) →
        ∃ r, run = .next r ∧ r.msc[k].misses = c.misses + 1 ∧ r.msc[k].hits = c.hits ∧
          ((c.find B).isSome = true ∨ c.policy B ≠ 2 → has r.msc[k] (·.valid) ∧ (kind ≠ .read → has r.msc[k] (·.dirty))) ∧
          (c.find B = none → c.policy B = 2 → r.msc[k].ways = c.ways ∧ r.msc[k].writebacks = c.writebacks) ∧
          r.mem = s.mem ∧ (∀ j : Fin 8, r.mc[j] = { s.mc[j] with rows := r.mc[j].rows }) ∧ ∀ j, j ≠ k → r.msc[j] = s.msc[j]))) ∧
   (∀ (s s1 s2 : State) (x y : MscAcc), s.running = true →
     (siteRank x ≤ siteRank y → s.mscServe x = some s1 → s1.mscServe y = some s2 →
       exec (.mscAccess x.addr x.kind ⟨x.site, x.errs, [y]⟩) s = .next s2 ∧ (siteRank x < siteRank y → exec (.mscAccess y.addr y.kind ⟨y.site, y.errs, [x]⟩) s = .next s2)) ∧
     (siteRank x ≤ siteRank y → s.mscServe x = none →
       (x.addr.toNat / 64 = y.addr.toNat / 64 → exec (.mscAccess x.addr x.kind ⟨x.site, x.errs, [y]⟩) s = .next s) ∧
       (x.addr.toNat / 64 ≠ y.addr.toNat / 64 → s.mscServe y = some s2 → exec (.mscAccess x.addr x.kind ⟨x.site, x.errs, [y]⟩) s = .next s2))) ∧
   (∀ (s : State) (k : Fin 4),
     (s.running = true → ∃ r, exec (.mscCtlFlush k) s = .next r ∧ r.msc[k].flushing.isSome = true ∧ r.mem = s.mem ∧
       (∀ set w, (r.msc[k].way set w) = { (s.msc[k].way set w) with dirty := 0 }) ∧ ∀ j, j ≠ k → r.msc[j] = s.msc[j]) ∧
     (∀ n, s.msc[k].flushing = some n → ∃ r, exec (.flushDone k) s = .next r ∧ r.msc[k].flushing = none ∧
       r.msc[k].writebacks = s.msc[k].writebacks + BitVec.ofNat 64 n ∧ r.msc[k].ways = s.msc[k].ways ∧ r.mem = s.mem) ∧
     (s.msc[k].flushing = none → exec (.flushDone k) s = .next s))) ∧
  (∀ (s : State) (k : Fin 4) (n : Fin 16) (v : U64), s.running = true →
     (let c := s.msc[k]
      let on := c.lim[n].getLsbD 61
      let b := v &&& 0x0000007FFFFFF800
      let l := v &&& 0xE000007FFFFFF800
      let block := fun (x : U64) => (x.extractLsb' 11 28).toNat
      let gives := fun (lim : Bool) (x : Msc) => exec (.mscRangeWrite k n lim v) s = .next { s with msc := s.msc.set k x }
      let refused : Msc := { c with status := c.status ||| 2 }
      let meets := ∃ j, j ≠ n ∧ c.lim[j].getLsbD 61 = true ∧ block c.base[n] ≤ block c.lim[j] ∧ block c.base[j] ≤ block v
      let bad := v.extractLsb' 62 2 = 3 ∨ (on = true ∧ v.getLsbD 61 = true ∧ l ≠ c.lim[n]) ∨
        (on = false ∧ v.getLsbD 61 = true ∧ meets)
      (on = true → gives false (if b = c.base[n] then c else refused)) ∧
      (on = false → gives false { c with base := c.base.set n b }) ∧
      (bad → gives true refused) ∧
      (¬ bad → ∃ r, exec (.mscRangeWrite k n true v) s = .next r ∧ r.msc[k].lim = c.lim.set n l ∧ r.msc[k].base = c.base ∧
        r.msc[k].status = c.status ∧ r.mem = s.mem ∧
        (∀ set w, (r.msc[k].way set w).block = (c.way set w).block ∧ (r.msc[k].way set w).valid = (c.way set w).valid ∧
          (r.msc[k].way set w).dirty = (c.way set w).dirty) ∧
        (on = true → v.getLsbD 61 = false → c.lim[n].extractLsb' 62 2 = 1 → ∀ set w,
          block c.base[n] ≤ (c.way set w).block → (c.way set w).block ≤ block c.lim[n] →
          (r.msc[k].way set w).pinned = false))))

/-- A controller refreshes a bank, reads the device reports every 16 ms and tracks the clock of a channel every 1 ms (13 R300,
R301). The patrol reads line after line and counts a pass at the last (R305); a corrected line counts, and after four errors its
half is copied to a spare or SPARE_OUT is set; an uncorrectable line counts, is rewritten from its resident image where it has one,
and starts a rollback where it has none (R303, R306; 17 R403). Of a line with errors in one symbol the code makes a corrected line and
of one with two or three an uncorrectable one; with more, either (R303; which, the model leaves free: log entry 62). Reading opens the
line's row in its bank, and link retries count (R299, R300). A finished copy enters the remap table; a failed channel is noted
(R306, R307). Every visible line has one place: the address of the place where an address lies is that of its line (R302). -/
def Obligations.MemoryControllers : Prop :=
  (∀ a < 2 ^ 39, addrOf (locate a).1 (locate a).2 = some (a / 64 * 64) ∧ (locate a).2.set < 8 ∧ (locate a).2.stripe < 524288 ∧
    (locate a).2.channel < 9 ∧ locOf (locate a).2.id = (locate a).2) ∧
  ∀ (s : State) (m : Fin 8), s.running = true → s.mc[m].trained = true →
    (let c := s.mc[m]
     let l := locOf c.scrubPos
     let half := c.servedHalf (l.id / 16)
     let others := fun (r : State) => ∀ j, j ≠ m → r.mc[j] = s.mc[j]
     let next := (c.scrubPos + 1) % 1207959552
     let moved := fun (r : State) => r.mc[m].scrubPos = next ∧
       r.mc[m].scrubs = (if next = 0 then c.scrubs + 1 else c.scrubs) ∧ others r ∧
       sget 0 r.mc[m].rows (locOf (16 * half)).bank = (cellOf (locOf (16 * half)).stripe).row + 1
     (∀ (ch : Fin 72) (bank : Fin 16), ∃ r, exec (.refpb m ch bank) s = .next r ∧ r.mem = s.mem ∧ others r ∧
       sget 0 r.mc[m].rows (16 * ch.val + bank.val) = 0 ∧
       ∀ k, sget 0 r.mc[m].refreshes k = if k = 16 * ch.val + bank.val then sget 0 c.refreshes k + 1 else sget 0 c.refreshes k) ∧
     (∀ rs, (16000000 ≤ (s.tb - c.reportAt).toNat → exec (.tempReportPoll m rs) s =
         .next { s with mc := s.mc.set m { c with reports := rs, reportAt := s.tb } }) ∧
       ((s.tb - c.reportAt).toNat < 16000000 → exec (.tempReportPoll m rs) s = .next s)) ∧
     (∀ ch : Fin 72,
       (1000000 ≤ (s.tb - sget 0 c.drift ch.val).toNat → ∃ r, exec (.wckDriftTracking m ch) s = .next r ∧
         sget 0 r.mc[m].drift ch.val = s.tb ∧ r.mem = s.mem ∧ others r) ∧
       ((s.tb - sget 0 c.drift ch.val).toNat < 1000000 → exec (.wckDriftTracking m ch) s = .next s)) ∧
     (∀ e, lineWaits s m l = true → exec (.patrolScrubRead m e) s = .next s) ∧
     (lineWaits s m l = false → c.failed = [] →
       (∀ e, symbolsOf e = [] → ∃ r, exec (.patrolScrubRead m e) s = .next r ∧ moved r ∧ r.mem = s.mem ∧ r.mc[m].ce = c.ce ∧
         r.mc[m].ue = c.ue ∧ r.mc[m].linkRetry = c.linkRetry + BitVec.ofNat 64 e.retries) ∧
       (∀ e y, symbolsOf e = [y] → ∃ r, exec (.patrolScrubRead m e) s = .next r ∧ moved r ∧ r.mem = s.mem ∧ r.mc[m].ce = c.ce + 1 ∧
         r.mc[m].status.getLsbD 1 = true ∧ sget 0 r.mc[m].errors half = sget 0 c.errors half + 1 ∧
         (3 ≤ sget 0 c.errors half →
           r.mc[m].copying.any (fun e => e.1 == half) = true ∨ r.mc[m].status.getLsbD 3 = true)) ∧
       (∀ e, 4 ≤ (symbolsOf e).length → ∃ r, exec (.patrolScrubRead m e) s = .next r ∧ moved r ∧
         (r.mc[m].ue = c.ue + 1 ∧ r.mc[m].ce = c.ce ∨ r.mc[m].ce = c.ce + 1 ∧ r.mc[m].ue = c.ue)) ∧
       (∀ a e, addrOf m l = some a → (symbolsOf e).length = 2 ∨ (symbolsOf e).length = 3 →
         ∃ r, exec (.patrolScrubRead m e) s = .next r ∧ moved r ∧
         r.mc[m].ue = c.ue + 1 ∧ r.mc[m].status.getLsbD 2 = true ∧
         (imageOf s (a / 64 * 64) = none → r.mem = s.mem ∧ r.integ.cause.isSome = true ∧
           (s.integ.cause = none → r.integ.cause = some (.line (BitVec.ofNat 64 (a / 64 * 64))))) ∧
         (∀ w, imageOf s (a / 64 * 64) = some w → r.integ.rebuilt = s.integ.rebuilt + 1 ∧ r.integ.cause = s.integ.cause ∧
           ∀ b < 2 ^ 63, r.byte b = if a / 64 * 64 ≤ b ∧ b < a / 64 * 64 + 64 then s.byte (w + (b - a / 64 * 64)) else s.byte b))) ∧
     (∀ e rest, c.copying = e :: rest → exec (.spareCopyDone m) s =
       .next { s with mc := s.mc.set m { c with copying := rest, remap := c.remap ++ [e] } }) ∧
     (∀ ch : Fin 72, ∃ r, exec (.channelFailure m ch) s = .next r ∧ ch ∈ r.mc[m].failed ∧ (∀ x ∈ c.failed, x ∈ r.mc[m].failed) ∧
       r.mem = s.mem ∧ others r))

/-- A patrol of a scratchpad word counts a corrected word for its site, and takes an uncorrectable one to its refetch in a covered
weight bank, and elsewhere counts it and starts a rollback (17 R399-R401). A refetch makes the slot equal its image and counts
(R400). A write of CKPT_CTL takes DIR, and GO starts a copy of what the registers hold then unless one runs or its range passes the
reserve, which sets ERR; a save puts 960 bytes per unit into the reserve with the check bytes of their lines in line 15 (13 R304), a
restore puts them back, and a restore that met an uncorrectable unit, or one on a failed channel, changes no memory and sets UE (R402,
R409). -/
def Obligations.ProtectionAndCheckpoints : Prop :=
  (∀ (s : State) (p : Pid) (addr : BitVec 29), s.running = true → addr.toNat < scratchBytes →
    (let n := addr.toNat / 4096
     let b := s.polders[p].terp.banks[bankIx n]
     let site := s.siteOf p
     b.busy = false → b.power = 0 → s.integ.refetching.contains (p, n) = false →
     exec (.terpPatrolScrub p addr .clean) s = .next s ∧
     (∀ y, ∃ r, exec (.terpPatrolScrub p addr (.corrected y)) s = .next r ∧
       r.integ.sites[site].ce = s.integ.sites[site].ce + 1 ∧ (∀ k, k ≠ site → r.integ.sites[k] = s.integ.sites[k]) ∧ r.mem = s.mem) ∧
     (b.prot = true → (refetchImage s p n).isSome = true → ∃ r, exec (.terpPatrolScrub p addr .uncorrectable) s = .next r ∧
       r.integ.refetching = s.integ.refetching ++ [(p, n)] ∧ r.integ.sites = s.integ.sites ∧ r.integ.cause = s.integ.cause ∧
       r.mem = s.mem) ∧
     (b.prot = false ∨ refetchImage s p n = none → ∃ r, exec (.terpPatrolScrub p addr .uncorrectable) s = .next r ∧
       r.integ.sites[site].ue = s.integ.sites[site].ue + 1 ∧ r.integ.cause.isSome = true ∧ r.mem = s.mem ∧
       (∀ t, s.integ.sites[site].firstUe = some t → (s.tb - t).toNat < 86400000000000 → site ∈ r.integ.planned)))) ∧
  (∀ (s : State) (p : Pid) (slot : BitVec 17) (a : Nat), s.running = true →
    s.integ.refetching.contains (p, slot.toNat) = true → refetchImage s p slot.toNat = some a →
    (let base := scratchAddr p (4096 * slot.toNat)
     ∃ r, exec (.refetchDone p slot) s = .next r ∧ r.integ.refetching = s.integ.refetching.erase (p, slot.toNat) ∧
       r.integ.sites[s.siteOf p].refetch = s.integ.sites[s.siteOf p].refetch + 1 ∧
       ∀ b < 2 ^ 63, r.byte b = if base ≤ b ∧ b < base + 4096 then s.byte (a + (b - base)) else s.byte b)) ∧
  (∀ (s : State) (v : U32), s.running = true →
    (let c := s.ckpt
     let dir := v &&& 0x40000000
     (c.busy = true → exec (.ckptCtlGo v) s = .next { s with ckpt := { c with ctl := dir } }) ∧
     (c.busy = false → 33521664 < c.unit.toNat + c.units.toNat →
       exec (.ckptCtlGo v) s = .next { s with ckpt := { c with ctl := dir, status := c.status ||| 8 } }) ∧
     (c.busy = false → c.unit.toNat + c.units.toNat ≤ 33521664 →
       exec (.ckptCtlGo v) s = .next { s with ckpt := { c with
         ctl := dir, busy := true,
         job := { restore := v.getLsbD 30, addr := c.addr.toNat, unit := c.unit.toNat, units := c.units.toNat } } }))) ∧
  (∀ (s : State) (ue : Bool), s.running = true → s.ckpt.busy = true →
    (let c := s.ckpt
     let j := c.job
     let a := j.addr
     let unit := fun (b : Nat) => 1024 * (j.unit + b / 960)
     let lost := ue || unitsDead s j.unit j.units
     ∃ r, exec (.ckptCopyDone ue) s = .next r ∧ r.ckpt.busy = false ∧ r.ckpt.status.getLsbD 1 = true ∧
       (j.restore = false → r.mem = s.mem ∧
         (∀ b < 960 * j.units, sget 0 r.ckpt.reserve (unit b + b % 960) = s.byte (a + b)) ∧
         (∀ k < j.units, ∀ line < 15, ∀ i < 4, sget 0 r.ckpt.reserve (unit (960 * k) + 960 + 4 * line + i) =
           (leBytes 4 (Config.rsCheck (s.bytes (a + 960 * k + 64 * line) 64)).toNat).getD i 0) ∧
         ∀ k, k < 1024 * j.unit ∨ 1024 * (j.unit + j.units) ≤ k → sget 0 r.ckpt.reserve k = sget 0 c.reserve k) ∧
       (j.restore = true → lost = true → r.mem = s.mem ∧ r.ckpt.reserve = c.reserve ∧ r.ckpt.status.getLsbD 2 = true) ∧
       (j.restore = true → lost = false → r.ckpt.reserve = c.reserve ∧ ∀ b < 2 ^ 63,
         r.byte b = if a ≤ b ∧ b < a + 960 * j.units then sget 0 c.reserve (unit (b - a) + (b - a) % 960) else s.byte b)))

/-- Frames on a trained lane (14 R311-R315, Table 14-3). A COMMAND in order with room is stored and ACCEPTed, without room answered
BUSY, beyond the expected SEQ GAP and before it DUP, and stored in none of these; a HEARTBEAT is answered HB and not stored; a frame
with a bad CRC counts and is not answered. An ACK releases the frames up to its ACK_SEQ, or has every waiting frame sent again. A
frame without acknowledgement for 6 µs goes again on the other lane with the later ones, an idle lane carries a HEARTBEAT after 5
µs, and 30 µs without an intact frame lose the link and tell Herd. An ACK or HEARTBEAT with a payload is discarded, and what the
engine sends is intact. -/
def Obligations.ControlFrames : Prop :=
  (∀ (s : State) (lane : Bool) (f : Frame), s.running = true → s.pnx.laneUp lane = true →
    (let q := s.pnx
     let acked := fun (r : State) (status : Byte) => ∃ a, r.reply = .frame a ∧ a.type = 2 ∧ a.ackSeq = f.seq ∧ a.status = status ∧
       frameIntact a = true
     let keeps := fun (r : State) => r.pnx.rxNext = q.rxNext ∧ r.pnx.accepted = q.accepted ∧ r.pnx.cmds = q.cmds ∧
       r.pnx.txBuf = q.txBuf ∧ r.mem = s.mem ∧ r.polders = s.polders
     let known := ∀ x, (q.cmds ++ [f]).head? = some x → knownClass x.cls = true
     (frameIntact f = true → f.type = 1 →
       (f.seq = q.rxNext → q.cmds.length < 256 → ∃ r, exec (.commandFrame lane f) s = .next r ∧ acked r 0 ∧
         r.pnx.rxNext = q.rxNext + 1 ∧ r.pnx.accepted = q.accepted + 1 ∧ r.pnx.active = lane ∧ r.mem = s.mem ∧
         r.polders = s.polders ∧ (known → r.pnx.cmds = q.cmds ++ [f] ∧ r.pnx.txBuf = q.txBuf)) ∧
       (f.seq = q.rxNext → 256 ≤ q.cmds.length → ∃ r, exec (.commandFrame lane f) s = .next r ∧ acked r 3 ∧ keeps r ∧
         r.pnx.ackBusy = q.ackBusy + 1) ∧
       (f.seq ≠ q.rxNext → ∃ r, exec (.commandFrame lane f) s = .next r ∧ keeps r ∧
         acked r (if 2 ^ 31 ≤ (f.seq - q.rxNext).toNat then 1 else 2))) ∧
     (frameIntact f = true → f.type = 3 → ∃ r, exec (.heartbeatFrame lane f) s = .next r ∧ keeps r ∧ acked r 4) ∧
     (f.crcOk = false → ∀ c : Instr, c = .commandFrame lane f ∨ c = .heartbeatFrame lane f ∨ c = .ackFrame lane f →
       exec c s = .next { s with pnx := { q with crcDrop := q.crcDrop + 1 } }) ∧
     (f.crcOk = true → f.type = 2 ∨ f.type = 3 → f.len ≠ 0 → ∀ c : Instr, c = .commandFrame lane f ∨ c = .heartbeatFrame lane f ∨
       c = .ackFrame lane f → exec c s = .next s) ∧
     (frameIntact f = true → f.type = 2 →
       ((f.status = 0 ∨ f.status = 1) → (∀ x, q.cmds.head? = some x → knownClass x.cls = true) →
         ∃ r, exec (.ackFrame lane f) s = .next r ∧ r.pnx.cmds = q.cmds ∧ r.pnx.lost = false ∧
           r.pnx.txBuf = q.txBuf.filter (fun x => x.1.seq != f.ackSeq && decide ((x.1.seq - f.ackSeq).toNat < 2 ^ 31))) ∧
       ((f.status = 2 ∨ f.status = 3) → ∃ r, exec (.ackFrame lane f) s = .next r ∧
         r.pnx.resent = q.resent + BitVec.ofNat 64 q.txBuf.length ∧
         r.pnx.txBuf.map (fun x => x.1.seq) = q.txBuf.map (fun x => x.1.seq) ∧ (∀ x ∈ r.pnx.txBuf, x.2 = s.tb) ∧
         r.pnx.cmds = q.cmds ∧ r.pnx.txLane = q.txLane)))) ∧
  (∀ s : State, s.running = true →
    (let q := s.pnx
     let overdue := fun (x : Frame × U64) => decide (6000 ≤ (s.tb - x.2).toNat)
     ((∀ x ∈ q.txBuf, overdue x = false) → exec .frameResendTimeout s = .next s) ∧
     (∀ i, q.txBuf.findIdx? overdue = some i → ∃ r, exec .frameResendTimeout s = .next r ∧ r.pnx.txLane = !q.txLane ∧
       r.pnx.resent = q.resent + BitVec.ofNat 64 (q.txBuf.length - i) ∧ r.pnx.txBuf.take i = q.txBuf.take i ∧
       r.pnx.txBuf.map (fun x => x.1.seq) = q.txBuf.map (fun x => x.1.seq) ∧ (∀ x ∈ r.pnx.txBuf.drop i, x.2 = s.tb)) ∧
     (∀ lane, q.laneUp lane = true → 5000 ≤ (s.tb - q.lastTx[laneIx lane]).toNat →
       ∃ r a, exec (.heartbeatIdleTimeout lane) s = .next r ∧ r.reply = .frame a ∧ a.type = 3 ∧ frameIntact a = true ∧ a.seq = q.txNext ∧
         a.ackSeq = q.rxNext ∧ r.pnx.txBuf = q.txBuf ∧ r.pnx.txNext = q.txNext ∧ r.pnx.lastTx[laneIx lane] = s.tb) ∧
     (∀ lane, q.laneUp lane = false ∨ (s.tb - q.lastTx[laneIx lane]).toNat < 5000 →
       exec (.heartbeatIdleTimeout lane) s = .next s) ∧
     (q.lost = false → 30000 ≤ (s.tb - q.lastRx).toNat → exec .controlLinkLost s =
       .next { s with pnx := { q with lost := true, status := q.status ||| 0x10 }, herd := { s.herd with linkEvent := true } }) ∧
     (q.lost = true ∨ (s.tb - q.lastRx).toNat < 30000 → exec .controlLinkLost s = .next s)))

/-- Streams (14 R317-R320). A packet of an open inbound stream in its turn lands at BASE + OFFSET and changes no other byte; one out
of turn waits for its replay, one that its type's pool has no credits for stays with its sender, one with a bad CRC draws a NAK, and
one of no open stream sets STREAM_FAULT and lands nowhere; the credits of what landed go back in a CREDIT packet. The
stream whose bytes are all there is done once and signals its weir by 1. PNX_SEND with GO starts an open outbound stream, or sets
SEND_REFUSED while one is sent; its end clears SEND_BUSY. Credits return to their pool, a NAK replays from its LSEQ, and a retrained
channel replays from the first unacknowledged packet. -/
def Obligations.Streams : Prop :=
  ∀ s : State, s.running = true →
    (let q := s.pnx
     (∀ v : U64,
       (let id := v.extractLsb' 48 8
        let sent := (v ||| 0x8000000000000000) &&& 0x00FFFFFFFFFFFFFF
        (q.sending.isSome = true → exec (.pnxSendGo v) s =
          .next { s with pnx := { q with send := sent, status := q.status ||| 0x20 } }) ∧
        (q.sending = none → (∀ x, q.find id = some x → outboundType x.type = false) → exec (.pnxSendGo v) s =
          .next { s with pnx := { q with send := sent } }) ∧
        (∀ x, q.sending = none → q.find id = some x → outboundType x.type = true → ∃ r y, exec (.pnxSendGo v) s = .next r ∧
          r.pnx.sending = some y ∧ y.stream = id ∧ y.addr = q.sendAddr.toNat ∧ y.len = (v.extractLsb' 0 48).toNat ∧ y.sent ≤ y.len ∧
          (q.sWidth = 0 → y.sent = 0) ∧ r.mem = s.mem ∧ r.polders = s.polders))) ∧
     (∀ x, q.sending = some x → x.len ≤ x.sent → (∀ g P, s.prog g = some P → P.records = []) →
       exec .streamSendDone s = .next { s with pnx := { q with sending := none } }) ∧
     (∀ x, q.sending = some x → x.sent < x.len → exec .streamSendDone s = .next s) ∧
     (q.sWidth = 0 → (∀ k, exec (.streamPacketArrival k) s = .next s) ∧ (∀ t n, exec (.streamCredit t n) s = .next s) ∧
       ∀ n, exec (.streamNak n) s = .next s) ∧
     (q.sWidth ≠ 0 →
       (∀ (t : BitVec 3) (n : BitVec 29), q.sending = none → ∃ r, exec (.streamCredit t n) s = .next r ∧
         (∀ u : Fin 8, r.pnx.credits[u] = if u.val = t.toNat then q.credits[u] + n.toNat else q.credits[u]) ∧
         r.pnx.retry.Sublist q.retry ∧
         r.pnx.retry.filter (fun k => k.type != t.setWidth 8) = q.retry.filter (fun k => k.type != t.setWidth 8)) ∧
       (∀ lseq : U32,
         (let n := (q.retry.filter (fun k => decide ((k.lseq - lseq).toNat < 2 ^ 31))).length
          ∃ r, exec (.streamNak lseq) s = .next r ∧ r = { s with
            pnx := { q with replays := q.replays + BitVec.ofNat 64 n }, reply := r.reply } ∧
            ∀ x, (q.retry.filter (fun k => decide ((k.lseq - lseq).toNat < 2 ^ 31))).getLast? = some x → r.reply = .stream x)) ∧
       (∀ k : StreamPacket, k.crcOk = false → ∃ r a, exec (.streamPacketArrival k) s = .next r ∧ r.reply = .stream a ∧
         a.type = 0 ∧ a.lseq = k.lseq ∧ a.flags = 1 ∧ a.crcOk = true ∧ r.pnx.rxLseq = q.rxLseq ∧ r.mem = s.mem) ∧
       (∀ k : StreamPacket, k.crcOk = true → k.type ≠ 0 →
         (k.lseq ≠ q.rxLseq → exec (.streamPacketArrival k) s = .next s) ∧
         (inboundType k.type = true → q.rxFree (Fin.ofNat 8 k.type.toNat) < creditsOf k.data.length →
           exec (.streamPacketArrival k) s = .next s) ∧
         (k.lseq = q.rxLseq → k.cred = 0 →
           (inboundType k.type = true → creditsOf k.data.length ≤ q.rxFree (Fin.ofNat 8 k.type.toNat)) →
           (q.find k.stream = none → (∀ g, s.prog g = none) → ∃ r, exec (.streamPacketArrival k) s = .next r ∧
             r.pnx.status.getLsbD 0 = true ∧ r.pnx.rxLseq = q.rxLseq + 1 ∧ r.pnx.find k.stream = none ∧ r.mem = s.mem) ∧
           (∀ x, q.find k.stream = some x → x.type = k.type → inboundType x.type = true →
             k.offset.toNat + k.data.length ≤ x.length.toNat →
             (let a := x.base.toNat + k.offset.toNat
              let slots := slotsOf [(a, k.data.length)]
              gate (s.wakeSlots slots) true slots = .ok () → ∃ r, exec (.streamPacketArrival k) s = .next r ∧
                r.pnx.rxLseq = q.rxLseq + 1 ∧ r.weirs = s.weirs ∧
                ((∀ t : Fin 8, q.rxHeld[t] = 0) → k.data ≠ [] → k.data.length ≤ 16384 → (∀ t : Fin 8, r.pnx.rxHeld[t] = 0) ∧ ∃ a, r.reply = .stream a ∧
                  a.type = 0 ∧ a.flags = 0 ∧ a.cred.toNat = k.type.toNat * 2 ^ 29 + (k.data.length + 511) / 512) ∧
                ∀ b < 2 ^ 63, r.byte b = if a ≤ b ∧ b < a + k.data.length then k.data.getD (b - a) 0 else s.byte b))))) ∧
     (∀ working : Byte, q.sending = none →
       (let again : List StreamPacket := match q.retry with
          | k :: _ => q.retry.filter (fun x => decide ((x.lseq - k.lseq).toNat < 2 ^ 31))
          | [] => []
        let q' : Pnx := { q with sWidth := laneWidth working, replays := q.replays + BitVec.ofNat 64 again.length }
        ∃ r, exec (.streamLaneRetrain working) s = .next r ∧ r = { s with pnx := q', reply := r.reply } ∧
          ∀ x, again.getLast? = some x → r.reply = .stream x)) ∧
     (∀ (id : Byte) (x : Stream), q.find id = some x → inboundType x.type = true →
       (x.done = true → exec (.streamDone id) s = .next s) ∧
       (x.done = false → x.landed = [(0, x.length.toNat)] ∨ x.length = 0 → ∃ r, exec (.streamDone id) s = .next r ∧
         (r.pnx.find id).map (·.done) = some true ∧ r.mem = s.mem ∧
         r.flight = if x.weir = 0xFFFF then s.flight else s.flight ++ [(x.weir.toNat, 1)])))

/-- A Wilvar port trains at 16, 8 or 4 working lanes and stays down with fewer; it learns its peer, and one that the cabling rules
do not predict sets MISCABLED; a replay counts; a wake pattern repeats every 100 µs until the link trains; a port that goes down is
not trained (14 R321-R326). A packet for this member reaches the landing port of the polder its offset names; one for another member
leaves by the first hop in the order X, Y, Z, the shorter way round and the plus direction on a tie, and waits there in the virtual channel of
its network and dateline (R323); a refusal faults the instruction that sent the packet (11 R262). When the output turns to a virtual
channel with a packet to send, the packet leaves with the sources merged into its stream (R325). -/
def Obligations.WilvarPorts : Prop :=
  ∀ (s : State) (w : Fin 6), s.running = true →
    (let x := s.wlv[w]
     let c := s.cad
     let others := fun (r : State) => ∀ v, v ≠ w → r.wlv[v] = s.wlv[v]
     (∀ lanes, ∃ r, exec (.wilvarTrain w lanes) s = .next r ∧ others r ∧ r.mem = s.mem ∧
       r.wlv[w].width.toNat = (if 16 ≤ lanes then 3 else if 8 ≤ lanes then 2 else if 4 ≤ lanes then 1 else 0) ∧
       (r.wlv[w].trained = true ↔ 4 ≤ lanes)) ∧
     (∀ (job : U64) (coord : BitVec 12), s.pnx.job.isSome = true → x.trained = true → 1 < c.extent (w.val / 2) →
       ∃ r, exec (.wilvarPeerExchange w job coord) s = .next r ∧ r.wlv[w].peer = coord ∧ r.wlv[w].peerValid = true ∧
         (r.wlv[w].miscabled = true ↔ s.pnx.job ≠ some job ∨ coord ≠ expectedPeer c w) ∧ others r ∧ r.mem = s.mem) ∧
     (x.trained = true → exec (.wilvarFlitReplay w) s =
       .next { s with wlv := s.wlv.set w { x with replays := x.replays + 1 } }) ∧
     (x.trained = false → (x.wakeAt = none ∨ ∃ t, x.wakeAt = some t ∧ 100000 ≤ (s.tb - t).toNat) →
       exec (.wakePatternRepeat w) s = .next { s with wlv := s.wlv.set w { x with wakeAt := some s.tb } }) ∧
     (x.trained = true ∨ (∃ t, x.wakeAt = some t ∧ (s.tb - t).toNat < 100000) → exec (.wakePatternRepeat w) s = .next s) ∧
     (exec (.wilvarPortDown w) s = .next { s with wlv := s.wlv.set w { x with trained := false, width := 0 } }) ∧
     (∀ k : WilvarPacket, s.pnx.job.isSome = true → x.trained = true → x.miscabled = false →
       (k.dest = c.coord → k.net = .request →
         (let p : Pid := Fin.ofNat 32 (k.offset.toNat / 2 ^ 43)
          let l : Landing := { window := Fin.ofNat 4 (k.offset.toNat / 2 ^ 41), offset := k.offset.setWidth 41, op := k.op,
                               sender := some (2 ^ 63 + k.source.toNat * 2 ^ 48), tag := k.tag }
          ∃ r, exec (.wilvarPacketArrival w k) s = .next r ∧ r.polders[p].terp.landing = s.polders[p].terp.landing ++ [l] ∧
            (∀ y, y ≠ p → r.polders[y] = s.polders[y]) ∧ r.wlvOut = s.wlvOut ∧ r.mem = s.mem)) ∧
       (∀ o, k.dest ≠ c.coord → nextHop c k.dest = some o → s.wlv[o].trained = true → s.wlv[o].miscabled = false →
         ∃ r k', exec (.wilvarPacketArrival w k) s = .next r ∧ k' = { k with dateline := k'.dateline } ∧
           (k'.dateline = true ↔ (o.val / 2 = w.val / 2 ∧ k.dateline = true) ∨ crossesWrap c o = true) ∧
           (r.wlv[o].nets[wilvarChannel k']).queues[w.castSucc] =
             (s.wlv[o].nets[wilvarChannel k']).queues[w.castSucc] ++ [(k', fabricCycles s.tb, false)] ∧
           (∀ ch j, ch ≠ wilvarChannel k' ∨ j ≠ w.castSucc → (r.wlv[o].nets[ch]).queues[j] = (s.wlv[o].nets[ch]).queues[j]) ∧
           r.wlvOut = s.wlvOut ∧ r.polders = s.polders ∧ r.mem = s.mem) ∧
       (∀ p pc info, k.dest = c.coord → k.net = .response → k.op = .refused p pc info →
         exec (.wilvarPacketArrival w k) s = .next ({ s with
           wlv := s.wlv.set w { x with rx := x.rx + 1 },
           transfers := s.transfers.filter (fun t => !(t.p == p && t.pc == pc)) }.taskFaultAt p pc 0x19 info))) ∧
     (let now := fabricCycles s.tb
      let ch := x.lastNet + 1
      (x.trained = false ∨ x.miscabled = true → s.portSend w = s) ∧
      (∀ i N k t b rest, x.trained = true → x.miscabled = false →
        pickSender (fun k => k.wsrc.toNat) wilvarCost (x.nets[ch].promote now) = some (i, N) → N.queues[i] = (k, t, b) :: rest →
        ∃ k', (s.portSend w).wlvOut = s.wlvOut ++ [(w, k')] ∧ k' = { k with wsrc := k'.wsrc } ∧
          k'.wsrc.toNat = min 63 (max 1 (((List.finRange 7).map (fun j =>
            if j = i then k.wsrc.toNat else match x.last[j] with
              | some (v, u) => if now < u then v.toNat else 0
              | none => 0)).sum)) ∧
          (((s.portSend w).wlv[w]).nets[ch]).queues[i] = rest ∧
          (s.portSend w).wlv[w].tx = x.tx + wilvarFlits k ∧
          (s.portSend w).wlv[w].forwarded = (if i = 6 then x.forwarded else x.forwarded + 1) ∧
          (s.portSend w).wlv[w].lastNet = ch ∧ others (s.portSend w) ∧ (s.portSend w).mem = s.mem)) ∧
     (∀ (dst : BitVec 12) (o : Fin 6), nextHop c dst = some o →
       (let d := o.val / 2
        let ahead := (coordIn dst d + c.extent d - coordIn c.coord d % c.extent d) % c.extent d
        ahead ≠ 0 ∧ (o.val % 2 = 0 ↔ ahead ≤ c.extent d - ahead) ∧
        ∀ e < d, (coordIn dst e + c.extent e - coordIn c.coord e % c.extent e) % c.extent e = 0)))

/-- Announcements (14 R330-R332, R335): the first copy of an announcement that comes in is flooded on every other port of the job
and held for the first epoch boundary at or after STAMP + 8,000 ns, or, when that has passed, for the next one, and counts in
CAD_LATE; a later copy changes nothing. A HALT counts and holds the wait intervals, and the RESUME of the last origin that holds
ends the hold. -/
def Obligations.Announcements : Prop :=
  ∀ (s : State) (w : Fin 6) (a : Announce), s.running = true → s.pnx.job.isSome = true → s.wlv[w].trained = true →
    (let c := s.cad
     let cmds : List (BitVec 4 × Instr) := [(1, .announceLocked w a), (2, .announceTarget w a), (3, .announceCap w a),
       (4, .announceRelease w a), (5, .announceHalt w a), (6, .announceResume w a)]
     let floods := fun (r : State) => ∃ ports, r.cad.sent = c.sent ++ [(a, ports)] ∧ r.cad.announces = c.announces + 1 ∧
       (a.origin, a.seq) ∈ r.cad.seen ∧
       ∀ v, v ∈ ports ↔ v ≠ w ∧ s.wlv[v].trained = true ∧ s.wlv[v].miscabled = false ∧ 1 < c.extent (v.val / 2)
     let due := (a.stamp.toNat + 8000 + 19999) / 20000 * 20000
     ∀ x ∈ cmds,
       (a.kind ≠ x.1 ∨ (a.origin, a.seq) ∈ c.seen → exec x.2 s = .next s) ∧
       (a.kind = x.1 → (a.origin, a.seq) ∉ c.seen → ∃ r, exec x.2 s = .next r ∧ floods r ∧ r.mem = s.mem ∧ r.disc = s.disc ∧
         (x.1.toNat ≤ 4 →
           (s.tb.toNat ≤ due → r.cad.held = c.held ++ [(a, due)] ∧ r.cad.late = c.late) ∧
           (due < s.tb.toNat → r.cad.held = c.held ++ [(a, (s.tb.toNat + 19999) / 20000 * 20000)] ∧ r.cad.late = c.late + 1)) ∧
         (x.1 = 5 → r.cad.halts = c.halts + 1 ∧ r.holdWaits = true ∧ a.origin ∈ r.cad.haltsHeld ∧ r.cad.held = c.held) ∧
         (x.1 = 6 → a.origin ∉ r.cad.haltsHeld ∧ r.cad.held = c.held ∧
           (r.holdWaits = true ↔ ∃ o ∈ c.haltsHeld, o ≠ a.origin))))

/-- A sync exchange, at most once in 10 µs, gives the member its offset ((T2 − T1) − (T4 − T3)) / 2 and the steering of at most 200
ppm; the first after JOB_OPEN steps the timebase to the parent's, the 100th in a row within 0.8 ns locks the member, and one outside
ends the lock (14 R327, R328). A parent's port that goes down makes the member hold its rate and take another parent, and without
one it is not locked (R329). At the first boundary of an epoch not yet begun, the member applies the announcements due and begins
the epoch at the TARGET, lowered to every CAP and LOCKED cap in force, at most one point above the epoch before and never above its
class; before a TARGET it runs at OP0 (14 R332, R333; 16 R370). Within an epoch the command changes nothing. -/
def Obligations.TimebaseAndEpochs : Prop :=
  (∀ (s : State) (w : Fin 6), s.running = true → s.pnx.job.isSome = true → s.cad.coord ≠ 0 → s.cad.parent = some w →
     (let c := s.cad
      (∀ t : SyncStamps, s.wlv[w].trained = true → 10000 ≤ (s.tb - c.exchangeAt).toNat →
        (let off := ((t.t2 - t.t1) - (t.t4 - t.t3)) / 2
         let inside := -800 ≤ off ∧ off ≤ 800
         ∃ r, exec (.syncExchange t) s = .next r ∧ r.cad.offset = BitVec.ofInt 32 off ∧ r.cad.stepped = true ∧
           (c.stepped = false → r.tb = t.parentTb ∧ r.cad.slew = 0) ∧
           (c.stepped = true → r.tb = s.tb ∧ -2000 ≤ r.cad.slew ∧ r.cad.slew ≤ 2000 ∧
             (-2000 ≤ off → off ≤ 2000 → r.cad.slew = off)) ∧
           (inside → r.cad.inBand = c.inBand + 1 ∧ (r.cad.locked = true ↔ c.locked = true ∨ 99 ≤ c.inBand)) ∧
           (¬ inside → r.cad.inBand = 0 ∧ r.cad.locked = false) ∧ r.mem = s.mem ∧ r.polders = s.polders)) ∧
      (∀ t : SyncStamps, s.wlv[w].trained = false ∨ (s.tb - c.exchangeAt).toNat < 10000 → exec (.syncExchange t) s = .next s) ∧
      (s.wlv[w].trained = true → exec .parentPortDown s = .next s) ∧
      (s.wlv[w].trained = false → ∃ r, exec .parentPortDown s = .next r ∧ r.cad.rateHeld = true ∧ r.cad.slew = c.slew ∧ r.tb = s.tb ∧
        (∀ v, r.cad.parent = some v → s.wlv[v].trained = true ∧ r.cad.reparent = c.reparent + 1 ∧ r.cad.locked = c.locked) ∧
        (r.cad.parent = none → r.cad.locked = false ∧ r.cad.reparent = c.reparent)))) ∧
  (∀ (s : State) (i : EpochInputs), s.running = true →
     (let k := s.tb.toNat / 20000
      let c := s.cad.applyDue (20000 * k)
      (k = s.cad.epoch → exec (.epochBoundary i) s = .next s) ∧
      (k ≠ s.cad.epoch → ∃ r, exec (.epochBoundary i) s = .next r ∧ r.cad.epoch = k ∧
        (∀ e ∈ r.cad.held, 20000 * k < e.2) ∧
        (∀ e ∈ c.caps ++ c.lockCaps, r.disc.opNow.toNat ≤ e.2) ∧ r.disc.opNow.toNat ≤ s.disc.opNow.toNat + 1 ∧
        r.disc.opNow.toNat ≤ classOpMax s.pm.coolClass ∧ (c.cadence = false → r.disc.opNow = 0) ∧
        (c.cadence = true → r.disc.opNow.toNat ≤ c.targetOp ∧
          ((∀ e ∈ c.caps ++ c.lockCaps, c.targetOp ≤ e.2) → c.targetOp ≤ s.disc.opNow.toNat + 1 →
            c.targetOp ≤ classOpMax s.pm.coolClass → r.disc.opNow.toNat = c.targetOp)) ∧
        r.disc.arithMhz.toNat = opMhz r.disc.opNow.toNat ∧ r.mem = s.mem ∧ r.polders = s.polders ∧ r.weirs = s.weirs)))

/-- Herd may take the one command of its buffer, which has the class given (14 R316, R313). -/
def Claims.served (s : State) (f : Frame) (cls : Byte) : Prop :=
  s.herdUp = true ∧ s.sendRoom = true ∧ s.pnx.cmds = [f] ∧ f.cls = cls

/-- What Herd answered: the last frame of the send buffer is a RESPONSE of the command's CLASS and TAG whose payload begins with the
bytes given, and the command buffer is empty (14 R316). -/
def Claims.answered (r : State) (f : Frame) (bs : List Byte) : Prop :=
  r.pnx.cmds = [] ∧ ∃ x, r.pnx.txBuf.getLast? = some x ∧ x.1.type = 4 ∧ x.1.cls = f.cls ∧ x.1.tag = f.tag ∧
    x.1.payload.take bs.length = bs

/-- The commands of the node by class, with the bytes their payload names (14 Table 14-2, 15 Table 15-2). -/
def Claims.nodeCommands : List (Byte × Instr × Nat) :=
  [(0x01, .jobOpen, 14), (0x02, .jobClose, 8), (0x03, .streamOpen, 24), (0x04, .streamClose, 1), (0x12, .progUnbind, 1),
   (0x13, .progRestart, 1), (0x20, .reqSubmit, 64), (0x21, .reqCancel, 8), (0x28, .trainStart, 64), (0x29, .trainStop, 1),
   (0x30, .statsRead, 1)]

/-- JOB_OPEN takes the job where none is open and Herd takes jobs, with the member's place, and is refused otherwise; JOB_CLOSE of
the job ends it with its streams and windows. STREAM_OPEN opens a stream that is not open, of a type of Table 14-4 and mapped, and
is refused otherwise; STREAM_CLOSE closes one. STATUS_READ and STATS_READ answer the registers. Each waits for its command at the
head of the buffer and for room to answer; a payload shorter than its form answers 2 and changes no program (14 R316, R319; 15
R344). -/
def Obligations.JobAndStreamCommands : Prop :=
  (∀ (s : State), ∀ x ∈ Claims.nodeCommands, (∀ g P, s.prog g = some P → P.replaying = false) → s.integ.rolling = false →
    (s.herdUp = false ∨ s.sendRoom = false ∨ (∀ f, s.pnx.cmds.head? = some f → f.cls ≠ x.1) → exec x.2.1 s = .next s) ∧
    (∀ f, Claims.served s f x.1 → f.payload.length < x.2.2 → ∃ r, exec x.2.1 s = .next r ∧ Claims.answered r f [2] ∧
      r.herd = s.herd ∧ r.mem = s.mem ∧ r.polders = s.polders ∧ r.pnx.job = s.pnx.job ∧ r.pnx.streams = s.pnx.streams)) ∧
  (∀ (s : State) (f : Frame),
    (Claims.served s f 0x01 → plForm f 14 (fun i => i < 14) = true →
      (∀ d < 3, plNum f (8 + d) 1 < 16 ∧ plNum f (11 + d) 1 ≤ 16 ∧ plNum f (8 + d) 1 < plNum f (11 + d) 1) →
      (s.pnx.job = none → s.herd.noJobs = false → s.herd.outOfService = false → ∃ r, exec .jobOpen s = .next r ∧
        Claims.answered r f [0] ∧ r.pnx.job = some (BitVec.ofNat 64 (plNum f 0 8)) ∧
        r.cad.coord = mkCoord (plNum f 8 1) (plNum f 9 1) (plNum f 10 1) ∧ (∀ d < 3, r.cad.extent d = plNum f (11 + d) 1) ∧
        (r.cad.locked = true ↔ r.cad.coord = 0) ∧ r.pm.energyJob = 0 ∧ r.pm.jobFrom = some s.tb ∧ r.polders = s.polders ∧
        r.mem = s.mem) ∧
      (s.pnx.job.isSome = true ∨ s.herd.noJobs = true ∨ s.herd.outOfService = true → ∃ r, exec .jobOpen s = .next r ∧
        Claims.answered r f [1] ∧ r.pnx.job = s.pnx.job ∧ r.cad = s.cad ∧ r.herd.refused = s.herd.refused + 1)) ∧
    (Claims.served s f 0x02 → plForm f 8 (fun i => i < 8) = true →
      (s.pnx.job = some (BitVec.ofNat 64 (plNum f 0 8)) → ∃ r, exec .jobClose s = .next r ∧ Claims.answered r f [0] ∧
        r.pnx.job = none ∧ r.pnx.streams = [] ∧ r.pnx.sending = none ∧ r.herd.models = [] ∧ r.pm.jobTo = some s.tb ∧
        ∀ (p : Pid) (w : Fin 4), r.polders[p].terp.windows[w].isOpen = false) ∧
      (s.pnx.job ≠ some (BitVec.ofNat 64 (plNum f 0 8)) → ∃ r, exec .jobClose s = .next r ∧ Claims.answered r f [1] ∧
        r.pnx.job = s.pnx.job ∧ r.pnx.streams = s.pnx.streams ∧ r.polders = s.polders)) ∧
    (Claims.served s f 0x03 → plForm f 24 (fun i => i < 4 || (8 ≤ i && i < 24)) = true → plNum f 8 8 % 64 = 0 →
      (let id := BitVec.ofNat 8 (plNum f 0 1)
       let type := plNum f 1 1
       let ok := s.pnx.find id = none ∧ 1 ≤ type ∧ type ≤ 5 ∧ mapped (plNum f 8 8) (plNum f 16 8) = true
       (ok → ∃ r, exec .streamOpen s = .next r ∧ Claims.answered r f [0] ∧ r.mem = s.mem ∧
         (r.pnx.find id).map (fun x => (x.type, x.weir, x.base, x.length)) =
           some (BitVec.ofNat 8 type, BitVec.ofNat 16 (plNum f 2 2), BitVec.ofNat 64 (plNum f 8 8), BitVec.ofNat 64 (plNum f 16 8))) ∧
       (¬ ok → ∃ r, exec .streamOpen s = .next r ∧ Claims.answered r f [1] ∧ r.pnx.streams = s.pnx.streams))) ∧
    (Claims.served s f 0x04 → plForm f 1 (fun i => i < 1) = true →
      (let id := BitVec.ofNat 8 (plNum f 0 1)
       ((s.pnx.find id).isSome = true → ∃ r, exec .streamClose s = .next r ∧ Claims.answered r f [0] ∧ r.pnx.find id = none ∧
         r.pnx.streams = s.pnx.streams.filter (fun x => x.id != id) ∧ r.mem = s.mem) ∧
       (s.pnx.find id = none → ∃ r, exec .streamClose s = .next r ∧ Claims.answered r f [1] ∧ r.pnx.streams = s.pnx.streams))) ∧
    (Claims.served s f 0x40 → plForm f 0 (fun _ => false) = true → ∃ r, exec .statusRead s = .next r ∧
      Claims.answered r f ([0] ++ leBytes 4 (pnxStatus s).toNat ++ leBytes 4 (cadStatus s).toNat ++
        leBytes 8 (s.pnx.job.getD 0).toNat) ∧ r.herd = s.herd ∧ r.cad = s.cad ∧ r.mem = s.mem) ∧
    (Claims.served s f 0x30 → plForm f 1 (fun i => i < 1) = true → (plNum f 0 1 < 4 ∨ plNum f 0 1 = 0xFF) →
      ∃ r, exec .statsRead s = .next r ∧ Claims.answered r f (0 :: herdImage s) ∧ r.herd = s.herd ∧ r.mem = s.mem))

/-- MODEL_LOAD records the package that Herd's check accepts; PROG_BIND binds a program where everything fits, with its slots empty
and its polders owned, and refuses with reason 1, 7 or 8 otherwise; PROG_UNBIND frees it; PROG_RESTART ends STOPPED with every slot
empty. A PROG_BIND with the inputs of an earlier one takes the plan of that one (12 R269). REQ_SUBMIT queues a request that passes 15 R347 and refuses another with its reason; REQ_CANCEL ends a queued request at
once, waits for the boundary of a live one, and refuses any other with ENDED. TRAIN_START takes up its run and TRAIN_STOP ends it
with the step in progress, refusing with reasons 1, 6, 10 and 11 (15 R344, R347, R355, R359, R360, R364). What the tiler decides: row
tiles of at most E rows that cover the rows, blocks that fit the sump, full chunks but the last, the largest rescale shift, blocks once
each in Hilbert order, the split of least load, ranges that differ by at most one, and the micro-batches (12 R272, R278, R281, R283; 06
R107). -/
def Obligations.ProgramCommands : Prop :=
  (∀ (s : State) (f : Frame),
    (let g : Fin 4 := Fin.ofNat 4 (plNum f 0 1)
     let one := plForm f 1 (fun i => i < 1) = true ∧ plNum f 0 1 < 4
     let refuses := fun (c : Instr) (reason : Byte) => ∃ r, exec c s = .next r ∧ Claims.answered r f [1, reason] ∧
       r.herd.progs = s.herd.progs ∧ r.herd.refused = s.herd.refused + 1 ∧ r.mem = s.mem ∧ r.polders = s.polders
     let others := fun (r : State) (g : Fin 4) => ∀ h, h ≠ g → r.prog h = s.prog h
     (∀ ok, Claims.served s f 0x10 → plForm f 24 (fun i => i < 4 || (8 ≤ i && i < 24)) = true →
       (s.pnx.job.isSome = true → ok = true → ∃ r, exec (.modelLoad ok) s = .next r ∧ Claims.answered r f [0] ∧
         (BitVec.ofNat 32 (plNum f 0 4), BitVec.ofNat 64 (plNum f 8 8), BitVec.ofNat 64 (plNum f 16 8)) ∈ r.herd.models ∧
         r.herd.progs = s.herd.progs ∧ r.mem = s.mem) ∧
       (s.pnx.job = none ∨ ok = false → refuses (.modelLoad ok) 1)) ∧
     (∀ plan : BindPlan, Claims.served s f 0x11 → bindForm f = true →
       (let b : Fin 4 := Fin.ofNat 4 (plNum f 4 1)
        let model := BitVec.ofNat 32 (plNum f 0 4)
        let slots := plNum f 8 4
        let prefill := plNum f 16 4
        let key := tilerKey s model (plNum f 5 1 == 1) slots (plNum f 12 4) prefill
        let given := tiledPlan s key plan
        let loaded := s.pnx.job.isSome = true ∧ ∃ m ∈ s.herd.models, m.1 = model
        let regions := bindRegions given (plNum f 32 8) (plNum f 40 8)
        let fits := s.herd.outOfService = false ∧ bindFits s b given slots prefill regions = true
        (¬ loaded → refuses (.progBind plan) 1) ∧
        (loaded → 256 < s.slotSum + slots → refuses (.progBind plan) 7) ∧
        (loaded → s.slotSum + slots ≤ 256 → ¬ fits → refuses (.progBind plan) 8) ∧
        (loaded → s.slotSum + slots ≤ 256 → fits → ∃ r P, exec (.progBind plan) s = .next r ∧ Claims.answered r f [0] ∧
          r.prog b = some P ∧ P.model = model ∧ P.plan = given ∧ P.stopped = false ∧ P.tables.slots = List.replicate slots none ∧
          P.tables.queue = [] ∧ (P.training = true ↔ plNum f 5 1 = 1) ∧ P.m = microBatchesOf given ∧ P.m ∣ slots ∧
          (∀ p ∈ planPolders given, r.ownerOf p.val = progOwner b) ∧ ∀ other, tiledPlan r key other = given) ∧
        (∀ x, loaded → s.slotSum + slots ≤ 256 → s.herd.outOfService = false →
          bindFault s b given slots prefill regions = some x → ∃ r, exec (.progBind plan) s = .next r ∧ r.herd.bindFault = x ∧
            r.res.refused = s.res.refused + (if x.1 = 0x05 then 1 else 0)) ∧
        ((s.prog b).isSome = false → (given.level = 0 ∨ 3 < given.level.toNat) →
          bindFault s b given slots prefill regions = some (0x02, given.level.toNat)) ∧
        (∀ p, (s.prog b).isSome = false → 1 ≤ given.level.toNat → given.level.toNat ≤ 3 → 2 ≤ (planPolders given).count p →
          ∃ q, bindFault s b given slots prefill regions = some (0x05, q)))) ∧
     (Claims.served s f 0x12 → one →
       (s.prog g = none → refuses .progUnbind 1) ∧
       (∀ P, s.prog g = some P → ∃ r, exec .progUnbind s = .next r ∧ Claims.answered r f [0] ∧ r.prog g = none ∧ others r g ∧
         (∀ p ∈ planPolders P.plan, r.polders[p].task = none ∧ r.polders[p].seq.queue = [] ∧
           r.ownerOf p.val = if s.ownerOf p.val = progOwner g then 0 else s.ownerOf p.val) ∧
         (∀ x ∈ r.claimedRegions, x.1 ≠ g) ∧ ∀ x ∈ r.claimedWeirs, x.1 ≠ g)) ∧
     (Claims.served s f 0x13 → one →
       (s.prog g = none → refuses .progRestart 1) ∧
       (∀ P, s.prog g = some P → ∃ r Q, exec .progRestart s = .next r ∧ Claims.answered r f [0] ∧ r.prog g = some Q ∧
         Q.stopped = false ∧ (P.stopped = false → Q = P) ∧
         (P.stopped = true → Q.tables.live = [] ∧ Q.tables.slots.length = P.tables.slots.length) ∧ others r g)) ∧
     ((∀ h P, s.prog h = some P → P.replaying = false) → s.integ.rolling = false →
       (Claims.served s f 0x20 → submitForm f = true →
         (let b : Fin 4 := Fin.ofNat 4 (plNum f 8 1)
          let q := requestOf s f
          (∀ c, submitRefusal s b q = some c → refuses .reqSubmit c) ∧
          (∀ P, submitRefusal s b q = none → s.prog b = some P → ∃ r Q, exec .reqSubmit s = .next r ∧ Claims.answered r f [0] ∧
            r.prog b = some Q ∧ Q.tables.queue = P.tables.queue ++ [q] ∧ Q.tables.slots = P.tables.slots ∧ others r b ∧
            r.mem = s.mem))) ∧
       (Claims.served s f 0x21 → plForm f 8 (fun i => i < 8) = true →
         (let id := BitVec.ofNat 64 (plNum f 0 8)
          let queued := fun (P : Prog) => P.tables.queue.any (fun q => q.id == id)
          let live := fun (P : Prog) => P.tables.live.any (fun q => q.req.id == id)
          ((∀ h P, s.prog h = some P → queued P = false ∧ live P = false) → refuses .reqCancel 9) ∧
          (∀ h P, s.prog h = some P → (∀ j Q, j < h → s.prog j = some Q → queued Q = false ∧ live Q = false) →
            (queued P = true → ∃ r Q, exec .reqCancel s = .next r ∧ Claims.answered r f [0] ∧ r.prog h = some Q ∧
              Q.tables.queue = P.tables.queue.filter (fun q => q.id != id) ∧ Q.tables.slots = P.tables.slots) ∧
            (queued P = false → live P = true → ∃ r Q, exec .reqCancel s = .next r ∧ r.prog h = some Q ∧
              Q.cancels = P.cancels ++ [(id, some f)] ∧ Q.tables = P.tables ∧ r.pnx.cmds = [] ∧
              r.pnx.txBuf = s.pnx.txBuf))))) ∧
     (Claims.served s f 0x28 → trainForm f = true →
       (s.prog g = none → refuses .trainStart 1) ∧
       (∀ P, s.prog g = some P →
         (let run := runOf f P.tables.runs
          let big := 32180797440 < P.plan.ckptBytes ∧ run.external = false
          (P.stopped = true → refuses .trainStart 6) ∧
          (P.stopped = false → (P.training = false ∨ P.tables.train.isSome = true) → refuses .trainStart 10) ∧
          (P.stopped = false → P.training = true → P.tables.train = none → big → refuses .trainStart 11) ∧
          (P.stopped = false → P.training = true → P.tables.train = none → ¬ big → ∃ r Q, exec .trainStart s = .next r ∧
            Claims.answered r f [0] ∧ r.prog g = some Q ∧ Q.tables.train = some run ∧ Q.tables.runs = P.tables.runs + 1 ∧
            others r g ∧ r.mem = s.mem)))) ∧
     (Claims.served s f 0x29 → one →
       (s.prog g = none → refuses .trainStop 1) ∧
       (∀ P, s.prog g = some P → ∃ r Q, exec .trainStop s = .next r ∧ Claims.answered r f [0] ∧ r.prog g = some Q ∧
         Q.tables.train = P.tables.train.map (fun t => { t with stopAt := some t.step }) ∧ others r g ∧ r.mem = s.mem)))) ∧
  ((∀ (L : Layer) (rows : Nat), 1 ≤ rows →
     (let t := L.rowTiles rows
      let M := L.tileRows rows
      (L.survey = 0 → M ≤ L.entries ∧ rows ≤ t * M ∧ t * (M - 1) < rows) ∧ (L.survey ≠ 0 → L.survey ∣ M ∧ rows ≤ t * M) ∧
      (t - 1) * L.entries < rows ∧ rows ≤ t * L.entries ∧
      L.blockTiles rows ≤ t ∧ L.blockTiles rows * M ≤ L.entries ∧
      (L.chunks.map (·.2)).sum = L.k ∧ (∀ x ∈ L.chunks.dropLast, x.2 = L.chunkLen) ∧
      (∀ i x, L.chunks[i]? = some x → x.1 = i * L.chunkLen ∧ 1 ≤ x.2))) ∧
   (∀ (rs : List (Nat × Nat)), (∀ r ∈ rs, multiplier 0 r < 2 ^ 32) →
     (∀ r ∈ rs, multiplier (shiftOf rs) r < 2 ^ 32) ∧ shiftOf rs ≤ 63 ∧
     ∀ k ≤ 63, (∀ r ∈ rs, multiplier k r < 2 ^ 32) → k ≤ shiftOf rs) ∧
   (∀ br cs : Nat, 1 ≤ br → 1 ≤ cs → max br cs ≤ 2 ^ 63 →
     (let e := log2Up (max br cs)
      (visitOrder br cs).Nodup ∧ (∀ b c, (b, c) ∈ visitOrder br cs ↔ b < br ∧ c < cs) ∧
      (visitOrder br cs).Pairwise (fun x y => hilbertKey e x.1 x.2 ≤ hilbertKey e y.1 y.2) ∧ max br cs ≤ 2 ^ e ∧
      ∀ k, max br cs ≤ 2 ^ k → e ≤ k)) ∧
   (∀ P rowTiles colTiles : Nat, 1 ≤ P →
     (let legal := fun (x : Nat × Nat) => x.1 * x.2 = P ∧ x.1 ≤ rowTiles ∧ x.2 ≤ colTiles
      (chooseSplit P rowTiles colTiles = none → ∀ x, ¬ legal x) ∧
      ∀ x, chooseSplit P rowTiles colTiles = some x → legal x ∧ ∀ y, legal y →
        splitLoad rowTiles colTiles x ≤ splitLoad rowTiles colTiles y ∧
        (splitLoad rowTiles colTiles x = splitLoad rowTiles colTiles y → x.1 ≤ y.1))) ∧
   (∀ total n : Nat, 1 ≤ n →
     ((List.range n).map (fun i => (dealt total n i).2)).sum = total ∧ (dealt total n 0).1 = 0 ∧
     (∀ i, (dealt total n (i + 1)).1 = (dealt total n i).1 + (dealt total n i).2) ∧
     ∀ i j, i ≤ j → (dealt total n j).2 ≤ (dealt total n i).2 ∧ (dealt total n i).2 ≤ (dealt total n j).2 + 1) ∧
   (∀ b : BindPlan, b.visits.length ≤ 2 ^ 63 →
     ∃ e, microBatchesOf b = 2 ^ e ∧ b.visits.length ≤ 2 ^ e ∧ ∀ k, max 1 b.visits.length ≤ 2 ^ k → e ≤ k))

/-- What Herd does on its own account. A boundary of a serving program's micro-batch, its logits there, counts a boundary and a step
of that micro-batch and touches no other program; without them, or without room to answer, it waits (15 R351). The fault handler
takes the polders of bound programs in order of their faults: the program's requests end, it is STOPPED, and the polder resumes
(R359), and every core is interrupted while a polder of its program halts (09 R205). The oldest event moves into a send buffer with
room (R345). A training step is launched once its batch has landed; when its launches have ended it leaves what it wrote, with codebooks
and masks recompressed where due, and its run goes on to the next step or ends (R361, R363, R364). A mask keeps the largest sum of
magnitudes among the 90 allowed, the lowest among equals (R363). A rollback waits while a checkpoint is saved and while transfers
complete; one that needs no spare drops every task, counts, and is done; one that fails loses the integrity of the module and stops
every program (17 R404, R405, R408). A spare that passes its self-test takes the number of the site it replaces, one that fails is
retired, and the map changes either way (09 R191, 17 R406). -/
def Obligations.HerdServices : Prop :=
  (∀ (s : State) (g : Fin 4) (P : Prog) (b : Nat) (rows : List LogitRow), s.herdUp = true → s.prog g = some P → P.stopped = false →
    P.training = false → b < P.m → P.replay = [] → s.integ.rolling = false →
    (let n := P.perBatch
     let inBatch := fun (i : Nat) => b * n ≤ i ∧ i < b * n + n
     let sampled := ∀ i q, P.tables.slots[i]? = some (some q) → inBatch i → P.tables.samples q = true → ∃ x ∈ rows, x.slot = i
     let room := s.pnx.txBuf.length + P.cancels.length ≤ 64
     (¬ (sampled ∧ room) → exec (.microbatchBoundary g b rows) s = .next s) ∧
     (sampled → room → ∃ r Q, exec (.microbatchBoundary g b rows) s = .next r ∧ r.prog g = some Q ∧
       Q.tables.boundaries = P.tables.boundaries + 1 ∧ Q.tables.steps = P.tables.steps.set b (P.tables.steps.getD b 0 + 1) ∧
       (∀ h, h ≠ g → r.prog h = s.prog h) ∧ r.pnx.job = s.pnx.job ∧ r.pnx.cmds = s.pnx.cmds))) ∧
  (∀ (s : State) (p : Pid) (g : Fin 4) (P : Prog), s.herdUp = true →
    (firstHalted s ≠ some p → exec (.herdFaultHandler p) s = .next s) ∧
    (firstHalted s = some p → s.progOf p = some (g, P) → ∃ r Q, exec (.herdFaultHandler p) s = .next r ∧ r.prog g = some Q ∧
      Q.stopped = true ∧ Q.tables.live = [] ∧ Q.tables.queue = [] ∧ r.polders[p].seq.halted = false ∧
      (∀ k ∈ planPolders P.plan, r.polders[k].task = none ∧ r.polders[k].seq.queue = []) ∧ ∀ h, h ≠ g → r.prog h = s.prog h)) ∧
  (∀ (s : State) (core : Nat), s.interrupts core = true ↔
    ∃ p g P, s.polders[p].seq.halted = true ∧ s.progOf p = some (g, P) ∧ core = 1 + g.val) ∧
  (∀ (s : State) (code : Byte) (bs : List Byte) (rest : List (Byte × List Byte)), s.herd.events = (code, bs) :: rest →
    (s.herdUp = true → s.sendRoom = true → ∃ r x, exec .eventLogSend s = .next r ∧ r.herd.events = rest ∧
      r.pnx.txBuf = s.pnx.txBuf ++ [x] ∧ x.1.type = 5 ∧ x.1.cls = code ∧ x.1.payload.take bs.length = bs ∧ r.mem = s.mem) ∧
    (s.herdUp = false ∨ s.sendRoom = false → exec .eventLogSend s = .next s)) ∧
  (∀ (s : State) (g : Fin 4) (i : TrainInputs) (P : Prog) (t : TrainRun), s.herdUp = true → s.prog g = some P → P.stopped = false →
    P.tables.train = some t → P.replay = [] → s.integ.rolling = false →
    (t.launched = false → batchLanded s t = false → s.trainTurn g = s) ∧
    (t.launched = false → batchLanded s t = true → ∃ Q left, (s.trainTurn g).prog g = some Q ∧
      Q.tables.train = some { t with launched := true, left } ∧ left.Sublist (stepLaunches P t) ∧
      (∀ x ∈ left, 8 ≤ ((s.trainTurn g).polders[x.1].seq.queue).length)) ∧
    (t.launched = false ∨ t.left ≠ [] → exec (.trainStep g i) s = .next s) ∧
    (t.launched = true → t.left = [] → ∃ r Q, exec (.trainStep g i) s = .next r ∧ r.prog g = some Q ∧
      (let ends := t.steps ≤ t.step + 1 - t.first ∨ ∃ n, t.stopAt = some n ∧ n ≤ t.step
       (ends → Q.tables.train = none) ∧
       (¬ ends → ∃ t', Q.tables.train = some t' ∧ t'.step = t.step + 1 ∧ t'.number = t.number ∧ t'.launched = false ∧
         t'.gradUnit = scaleUnit t.gradUnit (unitStep i.peak.toNat i.setOverflow))) ∧
      (let put := fun (s : State) (xs : List (U64 × List Byte)) => xs.foldl (fun (s : State) x => s.putBytes x.1.toNat x.2) s
       let due := (t.step + 1 - t.first) % t.recompEvery = 0
       r.mem = (put (if due then P.plan.recomp.foldl State.recompress (put s i.written) else put s i.written) i.recoded).mem) ∧
      ∀ h, h ≠ g → r.prog h = s.prog h)) ∧
  (∀ (mags : List Nat), maskOk (chooseMask mags) = true ∧ ∀ m, maskOk m = true → keptSum mags m ≤ keptSum mags (chooseMask mags) ∧
    (keptSum mags m = keptSum mags (chooseMask mags) → (chooseMask mags).toNat ≤ m.toNat)) ∧
  (∀ (s : State) (i : RollbackInputs), s.herdUp = true →
    (s.integ.cause = none → i.cause ≠ .herdFailure → i.cause ≠ .joined → exec (.rollback i) s = .next s) ∧
    (∀ c, rollCause s i = some c →
      (s.ckpt.busy = true → s.ckpt.job.restore = false → exec (.rollback i) s = .next s) ∧
      (s.ckpt.busy = false ∨ s.ckpt.job.restore = true → sitesOf s c = [] →
       (let s' := ({ s with integ := { s.integ with cause := some c } } : State).rollStart
        (s.integ.rolling = false → s'.herd.rollbacks = s.herd.rollbacks + 1 ∧ ∀ p : Pid, s'.polders[p].task = none ∧
          s'.polders[p].seq.queue = []) ∧
        (s'.rollWaits = true → exec (.rollback i) s = .next s') ∧
        (s'.rollWaits = false → ∃ r, exec (.rollback i) s = .next r ∧ r.integ.cause = none ∧ r.integ.rolling = false ∧
          r.herd.rollbacks = s'.herd.rollbacks ∧ r.transfers = s'.transfers ∧
          (s.integ.rolling = false → ∀ p : Pid, r.polders[p].task = none) ∧
          (i.restore = .done → r.integ.lost = s.integ.lost) ∧
          (i.restore ≠ .done → r.integ.lost = true ∧ r.flash.log = s.flash.log ++ [0x02] ∧ r.herd.noJobs = s.herd.noJobs ∧
            ∀ g P, r.prog g = some P → P.stopped = true)))))) ∧
  (∀ (s : State) (site : Site) (p : Pid) (m : Site), logicalAt s.disc site = some p → spareFor s.disc site = some m →
    (let r := (s.activate site true).1
     (s.activate site true).2 = true ∧ r.disc.siteOf[p] = m ∧ r.disc.state[site] = 2 ∧ r.disc.state[m] = 0 ∧
       r.disc.mapGen = s.disc.mapGen + 1 ∧ r.integ.spareActs = s.integ.spareActs + 1 ∧
       (∀ q, q ≠ p → r.disc.siteOf[q] = s.disc.siteOf[q] ∧ r.polders[q] = s.polders[q]) ∧
       (∀ a, scratchAddr p 0 ≤ a → a < scratchAddr p 0 + scratchBytes → r.byte a = 0) ∧
       (∀ w, weirHome w = some p → (r.weir w).count = 0)) ∧
    (let r := (s.activate site false).1
     (s.activate site false).2 = false ∧ r.disc.siteOf = s.disc.siteOf ∧ r.disc.state[m] = 2 ∧ r.disc.mapGen = s.disc.mapGen + 1 ∧
       r.polders = s.polders ∧ r.mem = s.mem))

/-- pw.hint stamps the phase into the polder's mailbox of 16, a seventeenth over the oldest; pw.pref overwrites the phase's
preferred point, cut to OP_MAX; pw.energy gives the job's energy (10 R237, R238). A regulator's report joins the window that its
microsecond belongs to (log entry 67), the first of a window closing the one before; where
reports and estimate keep the window within the limit nothing is stretched, and else every clock on the rail is stretched and the
sluice need lies no higher (16 R371-R373). A window closes with its mean, and one over the limit sets LIMIT_OVER, counts and asserts
ALERT_N for 1 ms (R372). A droop counts and stretches its quadrant until its release (R374). An estimate interval adds its energy to
ENERGY_TOTAL with fractions carried (R376). The berm moves one unit a step towards its demand (R378), and a quadrant idle for 1 µs
at level 0 enters A1 (Table 16-4). -/
def Obligations.PowerControl : Prop :=
  (∀ (s : State) (p : Pid) (t : Task) (f : Fields), CanIssue s p t →
     (let phase : BitVec 6 := f.imm.extractLsb' 0 6
      let g := t.stage.prog
      (Accepts t { level := 2, imm := 0x3FFFFF } f → ∃ hs, exec (.pwHint p f) s =
          goesTo (s.onPolder p (fun P => { P with hints := hs })) p t 8 ∧
        hs.getLast? = some (g, phase, s.tb, f.imm.extractLsb' 6 16) ∧
        (s.polders[p].hints.length < 16 → hs.dropLast = s.polders[p].hints) ∧
        (s.polders[p].hints.length = 16 → hs.dropLast = s.polders[p].hints.tail)) ∧
      (Accepts t { level := 2, imm := 0x1FF } f → ∃ r, exec (.pwPref p f) s = goesTo r p t 8 ∧
        (r.pm.phases[g])[phase.toFin] =
          { (s.pm.phases[g])[phase.toFin] with pref := some (min (f.imm.extractLsb' 6 3).toNat s.disc.opMax.toNat) } ∧
        (∀ h k, (h ≠ g ∨ k ≠ phase.toFin) → (r.pm.phases[h])[k] = (s.pm.phases[h])[k]) ∧
        r.polders = s.polders ∧ r.mem = s.mem ∧ r.disc = s.disc) ∧
      (Accepts t { level := 2, rd := .any } f → exec (.pwEnergy p f) s = goesTo s p (t.setS f.rd s.pm.energyJob) 8))) ∧
  ((∀ (s : State) (r : Fin 14) (mean : U32), s.running = true →
     (let x := s.pm.rails[r]
      let k := (s.tb.toNat / 1000 - 1) / 10
      let reports := x.reports ++ [mean.toNat]
      let above := 10 * x.limit.toNat < reports.sum + s.pm.estimate[r] * (10 - reports.length)
      (x.window ≠ k → exec (.currentReport r mean) s = exec (.currentReport r mean) (s.closeWindow r k)) ∧
      (x.window = k → ∃ t, exec (.currentReport r mean) s = .next t ∧ t.pm.rails = s.pm.rails.set r { x with reports := reports, window := k } ∧
        t.mem = s.mem ∧ t.polders = s.polders ∧ t.disc = s.disc ∧
        (¬ above → t.pm.sluiceMhz = s.pm.sluiceMhz ∧ t.pm.nSluice = s.pm.nSluice ∧ t.cad = s.cad) ∧
        (above → (∀ q : Fin 4, 4 ≤ r.val ∨ r.val = q.val → t.pm.sluiceMhz[q].isSome = true) ∧
          (∀ q : Fin 4, r.val < 4 → r.val ≠ q.val → t.pm.sluiceMhz[q] = s.pm.sluiceMhz[q]) ∧
          ∃ n, t.pm.nSluice = some n ∧ n ≤ s.disc.opNow.toNat ∧ ∀ m, s.pm.nSluice = some m → n ≤ m)))) ∧
   (∀ (s : State) (r : Fin 14), s.running = true →
     (let x := s.pm.rails[r]
      let k := s.tb.toNat / 10000
      let sum := x.reports.sum
      let y : Rail := { x with mean := BitVec.ofNat 32 (sum / 10), reports := [], window := k }
      (k ≤ x.window → exec (.limitWindowClose r) s = .next s) ∧
      (x.window < k → ∃ t, s.closeWindow r k = t ∧ exec (.limitWindowClose r) s = .next t ∧ t.pm.rails = s.pm.rails.set r y ∧
        (10 * x.limit.toNat < sum → t.pm.limitOver = true ∧ t.pm.limitOvers = s.pm.limitOvers + 1 ∧ t.pm.alertAt = some s.tb ∧
          t.alert = true) ∧
        (sum ≤ 10 * x.limit.toNat → t.pm.limitOver = s.pm.limitOver ∧ t.pm.limitOvers = s.pm.limitOvers ∧
          t.pm.alertAt = s.pm.alertAt)))) ∧
   (∀ (s : State) (t : U64), s.pm.alertAt = some t →
     (1000000 ≤ (s.tb - t).toNat → exec .alertPulseEnd s = .next { s with pm := { s.pm with alertAt := none } }) ∧
     ((s.tb - t).toNat < 1000000 → exec .alertPulseEnd s = .next s)) ∧
   (∀ (s : State) (q : Quad), s.running = true →
     (s.pm.droop[q] = true → exec (.droopDetect q) s = .next s) ∧
     (s.pm.droop[q] = false → ∃ r, exec (.droopDetect q) s = .next r ∧ r.pm.droop = s.pm.droop.set q true ∧
       r.pm.droops = s.pm.droops + 1 ∧ r.pm.droopEpoch[q] = s.pm.droopEpoch[q] + 1 ∧ r.stretched q = true) ∧
     (exec (.droopRelease q) s = .next { s with pm := { s.pm with droop := s.pm.droop.set q false } })) ∧
   (∀ (s : State) (rails : List Nat) (input : Nat), s.running = true →
     (s.pm.estCut = none → s.tb.toNat < s.pm.estStart.toNat + 2000 → exec (.estimateIntervalClose rails input) s = .next s) ∧
     (s.pm.estCut.isSome = true ∨ s.pm.estStart.toNat + 2000 ≤ s.tb.toNat → ∃ r,
       exec (.estimateIntervalClose rails input) s = .next r ∧
       r.pm.energyTotal = s.pm.energyTotal + BitVec.ofNat 64 ((s.pm.fracTotal + input) / 1000) ∧
       r.pm.fracTotal = (s.pm.fracTotal + input) % 1000 ∧ r.pm.powerEst.toNat = min 65535 (input / 250) ∧
       (s.pm.jobFrom = none → r.pm.energyJob = s.pm.energyJob) ∧ r.pm.estCut = none ∧ r.pm.epochNj = s.pm.epochNj + input ∧
       r.mem = s.mem)) ∧
   (∀ (s : State) (q : Quad) (b : BermInputs), s.arithOn = true →
     (let k := s.tb.toNat / 125
      (s.pm.bermStep[q] = k → exec (.bermStep q b) s = .next s) ∧
      (s.pm.bermStep[q] ≠ k → ∃ r, exec (.bermStep q b) s = .next r ∧ r.pm.bermGaps = s.pm.bermGaps + b.gaps.setWidth 64 ∧
        r.pm.bermFills = s.pm.bermFills + b.fills.setWidth 64 ∧ (∀ j, j ≠ q → r.pm.berm[j] = s.pm.berm[j]) ∧
        ((r.pm.berm[q] : Int) - s.pm.berm[q]).natAbs ≤ 1 ∧
        (∀ d, d = min 64 b.demand.toNat → s.pm.berm[q] ≠ d →
          ((r.pm.berm[q] : Int) - d).natAbs + 1 = ((s.pm.berm[q] : Int) - d).natAbs)))) ∧
   (∀ (s : State) (q : Quad), s.arithOn = true →
     (s.pm.a1[q] = false → s.pm.berm[q] = 0 → quadIdle s q = true → 1000 ≤ (s.tb - s.pm.idleAt[q]).toNat →
       exec (.a1Entry q) s = .next { s with pm := { s.pm with a1 := s.pm.a1.set q true } }) ∧
     (s.pm.berm[q] ≠ 0 ∨ quadIdle s q = false ∨ (s.tb - s.pm.idleAt[q]).toNat < 1000 → exec (.a1Entry q) s = .next s)))

/-- A request for S1 or S2 is refused while a job is open or a program is bound, and else begins the entry, as S1_IDLE_MS without
use does for S1. An entry that is done leaves the module in its state; S2 keeps the saved set, LPDDR5X and what the always-on part
holds, and the terps lose theirs. A wake source asleep or on the way is recorded, the first with its time, and awake it changes
nothing; a wake from S1 keeps every register and comes up at OP0; one from S2 goes through the boot ROM (16 R383-R386, Tables 16-4,
16-5). -/
def Obligations.PowerStates : Prop :=
  (∀ s : State, s.running = true → s.pm.entering = none →
    (let begun := fun (r : State) (goal : PowerState) => r.pm.entering = some goal ∧ r.pm.state = .run ∧ r.pm.wakeLatched = false ∧
       r.gander.wakeSrc = 0 ∧ r.mem = s.mem ∧ r.polders = s.polders
     let asks : List (Instr × PowerState) := [(.pmCtlS1Req, .s1), (.pmCtlS2Req, .s2)]
     let limit := (s.pm.ctl.extractLsb' 8 8).toNat
     (∀ x ∈ asks, (s.unused = true → ∃ r, exec x.1 s = .next r ∧ begun r x.2) ∧
       (s.unused = false → exec x.1 s = .next { s with reply := .status 1 })) ∧
     (s.unused = true → limit ≠ 0 → 1000000 * limit ≤ (s.tb - s.pm.idleSince).toNat →
       ∃ r, exec .s1IdleTimeout s = .next r ∧ begun r .s1) ∧
     (s.unused = false ∨ limit = 0 ∨ (s.tb - s.pm.idleSince).toNat < 1000000 * limit → exec .s1IdleTimeout s = .next s))) ∧
  (∀ s : State,
    (s.pm.entering = none → exec .powerStateEntryComplete s = .next s) ∧
    (s.pm.entering = some .s1 → exec .powerStateEntryComplete s =
      .next { s with pm := { s.pm with entering := none, state := .s1 } }) ∧
    (s.pm.entering = some .s2 → ∃ r, exec .powerStateEntryComplete s = .next r ∧ r.pm.state = .s2 ∧ r.pm.entering = none ∧
      r.pm.saved = some (s.disc.siteOf, s.disc.state, s.disc.mapGen, Vector.ofFn (fun k => s.ownerOf (64 + k.val))) ∧
      (∀ a, a < 0x8000000000 → r.byte a = s.byte a) ∧ (∀ a, 0x8000000000 ≤ a → a < 2 ^ 63 → r.byte a = 0) ∧
      r.gander = s.gander ∧ r.timers = s.timers ∧ r.tb = s.tb)) ∧
  (∀ (s : State) (src : LinkDetector) (pattern : Bool),
    (let asleep := s.pm.state = .s1 ∨ s.pm.state = .s2 ∨ s.pm.entering.isSome = true
     let wakes := fun (c : Instr) (bits : U32) => asleep → ∃ r, exec c s = .next r ∧ r.pm.wakeLatched = true ∧
       r.gander.wakeSrc = (s.gander.wakeSrc ||| bits ||| 1) ∧
       r.gander.wakeTime = (if s.gander.wakeSrc.getLsbD 0 then s.gander.wakeTime else s.tb) ∧ r.mem = s.mem
     wakes .wakeNAssert 8 ∧ (¬ asleep → exec .wakeNAssert s = .next s) ∧
     (s.pm.state ≠ .off → s.pm.state ≠ .refused →
       (∀ lane, src = .palnex lane → wakes (.linkSignalDetect src pattern) 4) ∧
       (∀ w, src = .wilvar w → wakes (.linkSignalDetect src pattern) 2 ∧ ∃ r, exec (.linkSignalDetect src pattern) s = .next r ∧
         (r.wlv[w].wakeSeen = true ↔ pattern = true ∨ s.wlv[w].wakeSeen = true))))) ∧
  (∀ (s : State) (b : BootInputs),
    (s.pm.wakeLatched = false → exec (.wake b) s = .next s) ∧
    (s.pm.wakeLatched = true → s.pm.state = .s1 → s.pm.entering = none → s.mgt.updates = [] → ∃ r, exec (.wake b) s = .next r ∧
      r.pm.state = .run ∧ r.disc.opNow = 0 ∧ (∀ q : Fin 4, r.pm.berm[q] = 0 ∧ r.pm.a1[q] = false) ∧ r.polders = s.polders ∧
      r.mem = s.mem ∧ r.weirs = s.weirs ∧ r.res = s.res ∧ r.gander = s.gander ∧ r.mc = s.mc ∧ r.msc = s.msc ∧ r.tb = s.tb) ∧
    (s.pm.wakeLatched = true → s.pm.state = .s2 → ∃ r, exec (.wake b) s = .next r ∧ (r.pm.state = .run ∨ r.pm.state = .recovery ∨
      r.pm.state = .refused) ∧ r.sec.fuseCtr.toNat ≥ s.sec.fuseCtr.toNat ∧ r.sec.debugLock = s.sec.debugLock))

/-- A comparator takes a valid sample of its channel into GANDER_VALUE and is active by its threshold and hysteresis while it is
enabled; a sample of another channel changes nothing (16 R391). G0 becoming active trips the module, and so does TJ_MAX at 115.0 °C
whatever G0 is set to: arithmetic halts and the trip counts, a third within 1 s locks it out (R390). After 1 ms at or below 95.0 °C it restarts, unless it is locked out. A write of
GANDER_CMP or GANDER_THR by a wrong OWNER sets REFUSED and answers RESOURCE_HELD, and changes no comparator (R392). -/
def Obligations.GanderAndTrip : Prop :=
  (∀ (s : State) (n : Fin 8) (v : U32), s.running = true → n ≠ 7 →
    (let g := s.gander
     let c := g.cmp[n]
     let src := c.extractLsb' 18 4
     let thr := (g.thr[n].extractLsb' 0 28).toInt
     let hyst : Int := (c.extractLsb' 0 16).toNat
     let on := c.getLsbD 27 = true ∧ (if c.getLsbD 26 = true then v.toInt ≤ thr ∨ (g.active[n] = true ∧ v.toInt < thr + hyst)
       else thr ≤ v.toInt ∨ (g.active[n] = true ∧ thr - hyst < v.toInt))
     let hot := n = 0 ∧ 920 ≤ v.toInt
     (∀ other, other ≠ src → exec (.ganderSample n other v) s = .next (if hot ∧ other = 0 then s.trip else s)) ∧
     (channelValid s src.toNat = true → ∃ r, exec (.ganderSample n src v) s = .next r ∧ r.gander.value[n] = v ∧
       (r.gander.active[n] = true ↔ on) ∧ r.pm.sensors[src.toFin] = some v ∧ r.mem = s.mem ∧ r.disc = s.disc ∧
       (∀ k, k ≠ n → r.gander.active[k] = g.active[k] ∧ r.gander.value[k] = g.value[k]) ∧
       (n = 0 → on → g.active[n] = false → s.pm.halted = false → r.pm.halted = true ∧ r.pm.trips = s.pm.trips + 1 ∧
         r.arithOn = false) ∧
       (hot → src = 0 → r.pm.halted = true) ∧
       (¬ (n = 0 ∧ on) → ¬ (hot ∧ src = 0) → r.pm.halted = s.pm.halted ∧ r.pm.trips = s.pm.trips)) ∧
     (channelValid s src.toNat = false → ∃ r, exec (.ganderSample n src v) s = .next r ∧ r.gander.value[n] = 0x80000000 ∧
       r.gander.active[n] = false ∧ r.pm.halted = s.pm.halted))) ∧
  (∀ s : State, (s.pm.halted = true → s.trip = s) ∧ (s.pm.halted = false → s.trip.pm.halted = true ∧
    s.trip.holdWaits = true ∧ s.trip.polders = s.polders ∧
    (2 ≤ (s.pm.tripTimes.filter (fun t => decide ((s.tb - t).toNat < 1000000000))).length → s.trip.pm.lockout = true))) ∧
  (∀ (s : State) (t : U64), s.running = true → s.pm.halted = true → s.pm.coolSince = some t →
    (s.pm.lockout = true ∨ (s.tb - t).toNat < 1000000 → exec .tripRestart s = .next s) ∧
    (s.pm.lockout = false → 1000000 ≤ (s.tb - t).toNat → ∃ r, exec .tripRestart s = .next r ∧ r.pm.halted = false ∧
      r.pm.hardMhz = true ∧ r.pm.nThrottle = some 0 ∧ r.pm.trips = s.pm.trips ∧ r.mem = s.mem ∧ r.arithOn = true)) ∧
  (∀ (s : State) (n : Fin 8) (v : U32), s.running = true →
    (let e : Fin 96 := ⟨64 + n.val, by omega⟩
     let g := s.gander
     (v.extractLsb' 28 4 ≠ s.owner e → ∀ c : Instr, c = .ganderCmpWrite n v ∨ c = .ganderThrWrite n v →
       exec c s = .next { s with gander := { g with refused := true }, reply := .status 5 }) ∧
     (v.extractLsb' 28 4 = s.owner e →
       exec (.ganderThrWrite n v) s = .next { s with gander := { g with thr := g.thr.set n v } } ∧
       ∃ r, exec (.ganderCmpWrite n v) s = .next r ∧ r.gander.cmp = g.cmp.set n (v &&& 0xFFFCFFFF) ∧ r.gander.thr = g.thr ∧
         r.gander.refused = g.refused ∧ r.mem = s.mem ∧ (v.getLsbD 27 = true → r.gander.active = g.active) ∧
         (v.getLsbD 27 = false → r.gander.active[n] = false))))

/-- In A0, A1 and S1, the boot measurements recorded, every SPDM request draws an answer, of which an in-band interrupt tells the
controller unless events are disabled (18 R432), and changes nothing else; GET_MEASUREMENTS
answers the blocks of Table 17-8, unsigned or with a signature over them and the nonce, and a slot other than 0, an algorithm not
offered and an unsupported request draw ERROR (17 R416). Elsewhere a request changes nothing. A debug token grants its rights only
where its device, nonce, rights, reserved word and signature hold and DEBUG_LOCK is not blown; it then consumes the nonce, and any
other token changes nothing (17 R420). REVOKE ends a grant, and NEW_NONCE replaces the nonce by the next draw that is not 0 (R420,
R421). -/
def Obligations.AttestationAndDebug : Prop :=
  (∀ (s : State) (asym hash : U32) (slot : BitVec 4) (off len : BitVec 16) (nonce : BitVec 256) (index code : Byte) (signed : Bool),
     (let cmds : List Instr := [.getVersion, .getCapabilities, .negotiateAlgorithms asym hash, .getDigests,
        .getCertificate slot off len, .challenge slot nonce, .getMeasurements index signed nonce, .unsupportedRequest code]
      let serves := s.running = true ∨ s.pm.state = .s1
      let tells := fun (c : Instr) (bs : List Byte) => exec c s = .next ({ s with reply := .bytes bs } : State).interrupt
      (¬ serves ∨ s.sec.measured = none → ∀ c ∈ cmds, exec c s = .next s) ∧
      (∀ m, serves → s.sec.measured = some m →
        (∀ c ∈ cmds, ∃ r bs, exec c s = .next r ∧ r.reply = .bytes bs ∧
          { r with reply := s.reply, mgt := s.mgt } = s ∧
          { r.mgt with negotiated := s.mgt.negotiated, ibis := s.mgt.ibis } = s.mgt ∧
          r.mgt.ibis = s.mgt.ibis + (if s.mgt.events.getLsbD 0 then 1 else 0)) ∧
        tells .getCapabilities [0x61, 0x16, 0, 0, 0] ∧ tells (.unsupportedRequest code) [0x7F, 7, code] ∧
        tells .getDigests ([0x01, 0x01] ++ Config.sha3 (certificate m)) ∧
        (slot ≠ 0 → tells (.getCertificate slot off len) [0x7F, 1, 0] ∧ tells (.challenge slot nonce) [0x7F, 1, 0]) ∧
        (slot = 0 →
          tells (.getCertificate slot off len) ([0x02, 0x00] ++ ((certificate m).drop off.toNat).take len.toNat) ∧
          (let body := Config.sha3 (certificate m) ++ leBytes 32 nonce.toNat
           tells (.challenge slot nonce) ([0x03, 0x00] ++ body ++ Config.sign (aliasSeed m) body))) ∧
        (asym.getLsbD 1 = false ∨ hash.getLsbD 3 = false → tells (.negotiateAlgorithms asym hash) [0x7F, 1, 0]) ∧
        (let blocks : List (List Byte) := [m.rom, m.header ++ [if m.slotB then 1 else 0, m.svn], [m.ctr.setWidth 8],
           m.cal ++ [m.origin.setWidth 8], [s.sec.granted.setWidth 8],
           s.flash.retired.map (fun n => BitVec.ofNat 8 n.val) ++ [s.disc.mapGen]]
         let signedBy := fun (bs : List Byte) =>
           if signed then bs ++ leBytes 32 nonce.toNat ++ Config.sign (aliasSeed m) (bs ++ leBytes 32 nonce.toNat) else bs
         (∀ k bs, blocks[k]? = some bs → index = BitVec.ofNat 8 (k + 1) →
           tells (.getMeasurements index signed nonce) ([0x60, index] ++ signedBy bs)) ∧
         (index = 0xFF → tells (.getMeasurements index signed nonce) ([0x60, index] ++ signedBy blocks.flatten)) ∧
         (index = 0 → tells (.getMeasurements index signed nonce) ([0x60, index] ++ signedBy [6])) ∧
         (6 < index.toNat → index ≠ 0xFF → tells (.getMeasurements index signed nonce) [0x7F, 1, 0]))))) ∧
  (∀ (s : State) (tok : List Byte) (draws : List (BitVec 256)), s.running = true →
     (let n := leNat ((tok.drop 64).take 4)
      let accepted := tok.length = 3381 ∧ tok.take 32 = deviceId ∧ s.sec.nonce ≠ 0 ∧
        leNat ((tok.drop 32).take 32) = s.sec.nonce.toNat ∧ n < 8 ∧ leNat ((tok.drop 68).take 4) = 0 ∧ s.sec.debugLock = false ∧
        Config.verifies Config.dbgKey (Config.sha3 (tok.take 72)) (tok.drop 72) = true
      let drawn := fun (old new : BitVec 256) => (∀ d ∈ draws, d = 0) ∧ new = old ∨ new ≠ 0 ∧ new ∈ draws
      (¬ accepted → exec (.debugToken tok draws) s = .next s) ∧
      (accepted → ∃ x, drawn 0 x ∧
        exec (.debugToken tok draws) s = .next { s with sec := { s.sec with granted := 1, rights := BitVec.ofNat 32 n, nonce := x } }) ∧
      (∃ x, drawn s.sec.nonce x ∧ exec (.secDbgNewNonce draws) s = .next { s with sec := { s.sec with nonce := x } }) ∧
      (∃ r, exec .secDbgRevoke s = .next r ∧ r.sec.granted ≠ 1 ∧ r.sec.rights = 0 ∧ r.sumpDebug = false ∧ r.mem = s.mem ∧
        (s.sec.granted ≠ 1 → r.sec.granted = s.sec.granted) ∧ r.sec.nonce = s.sec.nonce ∧ r.sec.fuseCtr = s.sec.fuseCtr)))

/-- Input valid samples the straps and powers the module up: a strap code 3 stops it refused, and else it runs, every rail at the
limit of its class, or is in recovery with no slot to boot. Input out of range or EN low powers it down: every register is as after
power-on reset, but for the queue, the flash and the fuses; a flash write in progress completes first, and MRST_N waits for it too
and restarts the module with the straps kept (18 R427-R429, R436-R439). A module that the integrity log says left service takes no
jobs after a later power-up either (17 R407; log entry 67). -/
def Obligations.PowerUpAndDown : Prop :=
  (∀ (s : State) (straps : Straps) (b : BootInputs),
    (s.pm.state ≠ .off ∨ s.mgt.downWaits = true → exec (.inputValid straps b) s = .next s) ∧
    (s.pm.state = .off → s.mgt.downWaits = false → ∃ r, exec (.inputValid straps b) s = .next r ∧ r.mgt.straps = straps ∧
      r.pm.coolClass = straps.coolClass ∧ r.mem = [] ∧ r.weirs = [] ∧ r.polders = Vector.replicate 32 {} ∧
      (straps.coolClass = 3 → r.pm.state = .refused ∧ r.mgt.strapRefused = true) ∧
      (straps.coolClass ≠ 3 → r.mgt.modPg = true ∧ (r.pm.state = .run ∨ r.pm.state = .recovery) ∧
        (r.pm.state = .run ↔ (s.flash.settle.bootable s.sec.fuseCtr).isSome = true) ∧
        (r.pm.state = .run → r.herd.ready = true ∧ r.herd.noJobs = s.flash.log.contains 1 ∧ r.disc.opNow = 0 ∧ r.disc.opMax = BitVec.ofNat 8 (classOpMax straps.coolClass) ∧
          r.cad.locked = true) ∧
        ∀ k : Fin 14, r.pm.rails[k].limit = railLimit straps.coolClass k.val))) ∧
  (∀ (s : State),
    (let off : State := { State.reset with
       pending := s.pending, freeIx := s.freeIx, flash := s.flash,
       sec := { State.reset.sec with fuseCtr := s.sec.fuseCtr, debugLock := s.sec.debugLock } }
     (∀ c : Instr, c = .vinUndervoltage ∨ c = .vinOvervoltage ∨ c = .enInFall → ∃ r, exec c s = .next r ∧
       (s.pm.state ≠ .off → r.pm.state = .off ∧ r.mgt.modPg = false) ∧
       (s.pm.state ≠ .off → s.flash.writing = false → { r with mgt := off.mgt } = off) ∧
       (s.pm.state ≠ .off → s.flash.writing = true → r.mgt.downWaits = true ∧ r.flash = s.flash ∧ r.running = false) ∧
       (s.pm.state = .off → { r with mgt := s.mgt } = s) ∧ (c = .enInFall → r.mgt.enIn = false)) ∧
     (s.flash.writing = false → exec .flashWriteComplete s = .next s) ∧
     (s.flash.writing = true → s.mgt.downWaits = true → ∃ r, exec .flashWriteComplete s = .next r ∧
       { r with mgt := off.mgt, flash := off.flash } = off ∧ r.flash = { s.flash with writing := false }) ∧
     (s.flash.writing = true → s.mgt.downWaits = false → s.mgt.mrstWaits = none →
       exec .flashWriteComplete s = .next { s with flash := { s.flash with writing := false } }))) ∧
  (∀ (s : State) (b : BootInputs),
    (s.pm.state = .off → exec (.mrstN b) s = .next s) ∧
    (s.pm.state ≠ .off → s.flash.writing = true → ∃ r, exec (.mrstN b) s = .next r ∧ r.mgt.mrstWaits = some b ∧ r.mem = s.mem ∧
      r.pm = s.pm ∧ r.polders = s.polders) ∧
    (s.pm.state ≠ .off → s.flash.writing = false → ∃ r, exec (.mrstN b) s = .next r ∧ r.mgt.mrstSeen = true ∧
      r.mgt.straps = s.mgt.straps ∧ r.tb = 0 ∧ r.mem = [] ∧ r.polders = Vector.replicate 32 {} ∧ r.pm.state ≠ .off ∧
      r.sec.debugLock = s.sec.debugLock))

/-- While the management block runs, the I3C target answers: a dynamic address is given by SETDASA at the static address of its
straps or by ENTDAA where it has none, changed by SETNEWDA and dropped by RSTDAA; the lengths written are at most 256; the
provisional ID names the maker and ADDR_SEL; the other reads answer and change nothing. In off and S2 no access has an effect (18
R432). MGT_SB_CFG_n is refused with RESOURCE_HELD for a wrong OWNER, never changes for pins 0 to 2, ignores FUNC 6, and else takes
FUNC, level and OWNER (18 R430). The TAP takes its instruction while input is valid; EXTEST, CLAMP and HIGHZ are accepted only in
the refused state or with no job and every quadrant in A1, and BYPASS is in force where they are not (R434). -/
def Obligations.I3cSidebandAndTap : Prop :=
  (∀ (s : State) (a d : BitVec 7) (ev : Byte) (len : BitVec 16),
     (let M := s.mgt
      let gets : List Instr := [.i3cGetpid, .i3cGetbcr, .i3cGetdcr, .i3cGetstatus, .i3cGetmwl, .i3cGetmrl]
      let sets : List (Instr × Mgt) :=
        [(.i3cSetdasa a d, if a.toNat = 0x50 + M.straps.addrSel.toNat ∧ M.dynAddr = none then { M with dynAddr := some d } else M),
         (.i3cEntdaa d, if M.dynAddr = none then { M with dynAddr := some d } else M),
         (.i3cSetnewda d, if M.dynAddr = none then M else { M with dynAddr := some d }),
         (.i3cRstdaa, { M with dynAddr := none }),
         (.i3cEnec ev, { M with events := M.events ||| ev }), (.i3cDisec ev, { M with events := M.events &&& ~~~ ev }),
         (.i3cSetmwl len, { M with mwl := BitVec.ofNat 16 (min 256 len.toNat) }),
         (.i3cSetmrl len, { M with mrl := BitVec.ofNat 16 (min 256 len.toNat) })]
      (s.pm.state = .off ∨ s.pm.state = .s2 → (∀ c ∈ gets, exec c s = .next s) ∧ ∀ x ∈ sets, exec x.1 s = .next s) ∧
      (s.pm.state ≠ .off → s.pm.state ≠ .s2 →
        (∀ x ∈ sets, exec x.1 s = .next { s with mgt := x.2 }) ∧
        (∀ c ∈ gets, ∃ r v, exec c s = .next r ∧ r.reply = .value v ∧ { r with reply := s.reply, freeIx := s.freeIx } = s) ∧
        exec .i3cGetmwl s = .next { s with reply := .value (M.mwl.setWidth 64) } ∧
        exec .i3cGetmrl s = .next { s with reply := .value (M.mrl.setWidth 64) } ∧
        (∃ v : U64, exec .i3cGetpid s = .next { s with reply := .value v } ∧ v.extractLsb' 16 16 = 0x4736 ∧
          v.extractLsb' 12 2 = M.straps.addrSel)))) ∧
  ((∀ (s : State) (n : Fin 8) (v : U32), s.running = true →
     (let e : Fin 96 := ⟨88 + n.val, by omega⟩
      let M := s.mgt
      (v.extractLsb' 28 4 ≠ s.owner e → exec (.mgtSbCfgWrite n v) s =
        .next { s with mgt := { M with refused := true }, reply := .status 5 }) ∧
      (v.extractLsb' 28 4 = s.owner e →
        (n.val < 3 ∨ v.extractLsb' 0 3 = 6 → exec (.mgtSbCfgWrite n v) s = .next s) ∧
        (3 ≤ n.val → v.extractLsb' 0 3 ≠ 6 → exec (.mgtSbCfgWrite n v) s =
          .next { s with mgt := { M with sbCfg := M.sbCfg.set n (v &&& 0xF0000017) } })))) ∧
   (∀ (s : State) (pins preload : BitVec 64),
     (let takes := fun (c : Instr) (i : TapIns) => exec c s = .next { s with mgt := { s.mgt with tap := i } }
      let permits := s.pm.state = .refused ∨
        (s.running = true ∧ s.pnx.job = none ∧ ∀ q : Fin 4, s.pm.a1[q] = true)
      let pinCmds : List (Instr × TapIns) := [(.tapExtest, .extest), (.tapClamp, .clamp), (.tapHighz, .highz)]
      (s.pm.state = .off → ∀ c ∈ ([.tapBypass, .tapIdcode, .tapSamplePreload pins preload] : List Instr) ++ pinCmds.map (·.1),
        exec c s = .next s) ∧
      (s.pm.state ≠ .off → takes .tapBypass .bypass ∧
        exec .tapIdcode s = .next { s with reply := .value 0x147360FB, mgt := { s.mgt with tap := .idcode } } ∧
        exec (.tapSamplePreload pins preload) s =
          .next { s with reply := .value pins, mgt := { s.mgt with boundary := preload, tap := .samplePreload } } ∧
        ∀ x ∈ pinCmds, (permits → takes x.1 x.2) ∧ (¬ permits → takes x.1 .bypass)))))

/-- PLDM services (18 R433, Table 18-9; 17 R413, R419): a sensor is read where it is served and answers NOT_READY elsewhere; entry
to S1 or S2 begins in an unused module; a lockout is cleared; DEBUG_LOCK is burnt for good; an image goes to the slot that does not
run, with three tries; a calibration set without origin is refused; in S1 an update wakes the module and waits. Every answer raises an
in-band interrupt unless events are disabled (R432). -/
def Obligations.PldmServices : Prop :=
  ∀ (s : State), s.mgtRuns = true →
    (let notReady := fun (c : Instr) => exec c s = .next ({ s with reply := .status 4 } : State).interrupt
     let serves := s.running = true ∨ s.pm.state = .recovery
     exec .pldmSteppingRead s = .next ({ s with reply := .value 0x00004736A1030000 } : State).interrupt ∧
     (∀ id, sensorServed s id = false → notReady (.pldmSensorRead id)) ∧
     (∀ id, sensorServed s id = true → ∃ r, exec (.pldmSensorRead id) s = .next r ∧
       { r with reply := s.reply, freeIx := s.freeIx } = s.interrupt) ∧
     (s.running = true →
       exec (.pldmSensorRead .energyTotal) s = .next ({ s with reply := .value s.pm.energyTotal } : State).interrupt ∧
       exec (.pldmSensorRead .thermalLockout) s =
         .next ({ s with reply := .value (if s.pm.lockout then 1 else 0) } : State).interrupt ∧
       exec (.pldmSensorRead .trainingFailure) s = .next ({ s with
         reply := .value (if ∀ m : Fin 8, s.mc[m].trained = true ∧ s.mc[m].failed = [] then 0 else 1) } : State).interrupt) ∧
     (s.pm.entering = none →
       (s.running = true → s.unused = true → (∃ r, exec .pldmEnterS1 s = .next r ∧ r.pm.entering = some .s1 ∧ r.mem = s.mem) ∧
         ∃ r, exec .pldmEnterS2 s = .next r ∧ r.pm.entering = some .s2 ∧ r.mem = s.mem) ∧
       (s.pm.state = .s1 → notReady .pldmEnterS1 ∧ ∃ r, exec .pldmEnterS2 s = .next r ∧ r.pm.entering = some .s2) ∧
       (s.unused = false → s.pm.state ≠ .s1 → notReady .pldmEnterS1 ∧ notReady .pldmEnterS2)) ∧
     (s.running = true → s.pm.lockout = true → ∃ r, exec .pldmClearLockout s = .next r ∧ r.pm.lockout = false ∧
       r.pm.halted = s.pm.halted ∧ r.reply = .status 0 ∧ r.mem = s.mem) ∧
     (s.running = false ∨ s.pm.lockout = false → notReady .pldmClearLockout) ∧
     (serves → exec .pldmBurnDebugLock s =
       .next ({ s with sec := { s.sec with debugLock := true }, reply := .status 0 } : State).interrupt) ∧
     (¬ serves → notReady .pldmBurnDebugLock) ∧
     (∀ (i : FwImage) (cal : List Byte),
       (serves → (∃ r, exec (.pldmFwUpdateImage i) s = .next r ∧ r.reply = .status 0 ∧ r.flash.writing = true ∧ r.flash.tries = 3 ∧
           r.flash.cal = s.flash.cal ∧ r.mem = s.mem ∧ ∃ b, r.flash.pending = some b ∧ r.flash.preferB = b ∧ r.flash.slot b = i ∧
           r.flash.slot (!b) = s.flash.slot (!b) ∧ (s.sec.recovery = false → b = !s.sec.slotB)) ∧
         (calOrigin cal = 0 → exec (.pldmFwUpdateCalibration cal) s = .next ({ s with reply := .status 1 } : State).interrupt) ∧
         (calOrigin cal ≠ 0 → exec (.pldmFwUpdateCalibration cal) s =
           .next ({ s with flash := { s.flash with cal := cal, writing := true }, reply := .status 0 } : State).interrupt)) ∧
       (s.pm.state = .s1 → ∀ c u, (c = .pldmFwUpdateImage i ∧ u = FwUpdate.image i) ∨
           (c = .pldmFwUpdateCalibration cal ∧ u = FwUpdate.calibration cal) →
         ∃ r, exec c s = .next r ∧ r.mgt.updates = s.mgt.updates ++ [u] ∧ r.pm.wakeLatched = true ∧ r.flash = s.flash) ∧
       (s.pm.state = .refused → notReady (.pldmFwUpdateImage i) ∧ notReady (.pldmFwUpdateCalibration cal))))

/-- Every command answers a next state (no command of this block stops, log entry 7), leaves the queue of waiting commands as it
was, and moves the fuses one way: "The counter never decreases" (17 R413), and DEBUG_LOCK, once blown, stays so (R420). -/
def Obligations.EveryCommandCompletes : Prop :=
  ∀ (c : Instr) (s : State), ∃ t, exec c s = .next t ∧ t.pending = s.pending ∧
    s.sec.fuseCtr.toNat ≤ t.sec.fuseCtr.toNat ∧ (s.sec.debugLock = true → t.sec.debugLock = true)

/-- Every step keeps the memory in its canonical form: equal memories are equal data (log entry 1). -/
def Obligations.MemoryStaysCanonical : Prop :=
  ∀ s t : State, s.memoryCanonical → step s = .next t → t.memoryCanonical

/-- Every step keeps with hardware the resource entries it takes at power-up: no claim, release, binding or wake gives G0, G1, G7,
TRIP_N, ALERT_N or WAKE_N away (09 R207, R208; 16 R384, R392; 18 R430). -/
def Obligations.HardwareKeepsItsEntries : Prop :=
  ∀ s t : State, s.hardwareHolds → step s = .next t → t.hardwareHolds

/-- Every step keeps every launch queue at eight records or fewer (09 R194). -/
def Obligations.LaunchQueuesStayFit : Prop :=
  ∀ s t : State, s.queuesFit → step s = .next t → t.queuesFit

/-- The invariants hold after reset, and every register has its reset value where the manual gives one: counters, weirs, tags and
queues are 0 or empty, all tasks idle, BPE_CTL 1, PM_CTL 0x0A60, INTEG_CTL 0x0040_0003, the comparators G0, G1 and G7, the pins 0 to
2, the factory map, input not valid (01 R12; 03 R66; 09 R207; 16 R392, R394; 17 R422; 18 R430, R443). -/
def Obligations.ResetState : Prop :=
  let s := State.reset
  s.memoryCanonical ∧ s.hardwareHolds ∧ s.queuesFit ∧ s.pending = [] ∧ s.pm.state = .off ∧ s.tb = 0 ∧ s.mem = [] ∧
  (∀ p : Pid, s.polders[p].task = none ∧ s.polders[p].seq = {} ∧ s.polders[p].bpe.ctl = 1 ∧ s.polders[p].bpe.issued = 0 ∧
    s.polders[p].terp.slots = 0 ∧ s.polders[p].terp.bnd = 0 ∧ s.polders[p].sump = {} ∧ s.polders[p].hints = [] ∧
    ∀ w : Fin 4, s.polders[p].terp.windows[w].isOpen = false) ∧
  (∀ w, s.weir w = ⟨0, 0, false, false⟩) ∧
  (∀ e : Fin 96, s.res.owner[e] = if e ∈ hardwareEntries then 15 else 0) ∧
  (∀ p : Pid, s.disc.state[s.disc.siteOf[p]] = 0) ∧ (∀ q : Fin 4, s.disc.state[([7, 10, 28, 25] : List Site).getD q.val 0] = 1) ∧
  s.pm.ctl = 0xA60 ∧ s.integ.ctl = 0x400003 ∧ s.gander.cmp[(0 : Fin 8)] = 0xF98000A0 ∧ s.gander.thr[(0 : Fin 8)] = 0xF0000398 ∧
  s.mgt.sbCfg[(0 : Fin 8)] = 0xF0000007 ∧ s.mgt.sbCfg[(3 : Fin 8)] = 0 ∧ (∀ n : Fin 16, s.timers[n].armed = false) ∧
  (∀ m : Fin 8, s.mc[m].ce = 0 ∧ s.mc[m].ue = 0) ∧ (∀ k : Fin 4, s.msc[k].hits = 0 ∧ s.msc[k].ways = []) ∧
  (∀ n : Site, s.routers[n].flits = 0) ∧ s.herd.ready = false ∧ (∀ g, s.prog g = none) ∧ s.pnx.job = none ∧
  s.cad.cadence = false ∧ s.ckpt.busy = false ∧ s.sec.granted = 0 ∧ s.mgt.modPg = false
end

