-- ==== Sys2Proof/Laws/Dispatch.lean ====
section
/-! SUPPORT. The dispatch, arm by arm: what exec calls for each command. -/

namespace Sys2Proof.Machine

@[simp] theorem exec_ctlNop (p f s) : exec (.ctlNop p f) s = execCtlNop p f s := rfl
@[simp] theorem exec_ctlEnd (p f s) : exec (.ctlEnd p f) s = execCtlEnd p f s := rfl
@[simp] theorem exec_ctlJmp (p f s) : exec (.ctlJmp p f) s = execCtlJmp p f s := rfl
@[simp] theorem exec_ctlBeq (p f s) : exec (.ctlBeq p f) s = execCtlBeq p f s := rfl
@[simp] theorem exec_ctlBne (p f s) : exec (.ctlBne p f) s = execCtlBne p f s := rfl
@[simp] theorem exec_ctlBlt (p f s) : exec (.ctlBlt p f) s = execCtlBlt p f s := rfl
@[simp] theorem exec_ctlBge (p f s) : exec (.ctlBge p f) s = execCtlBge p f s := rfl
@[simp] theorem exec_ctlBltu (p f s) : exec (.ctlBltu p f) s = execCtlBltu p f s := rfl
@[simp] theorem exec_ctlBgeu (p f s) : exec (.ctlBgeu p f) s = execCtlBgeu p f s := rfl
@[simp] theorem exec_ctlAdd (p f s) : exec (.ctlAdd p f) s = execCtlAdd p f s := rfl
@[simp] theorem exec_ctlSub (p f s) : exec (.ctlSub p f) s = execCtlSub p f s := rfl
@[simp] theorem exec_ctlMul (p f s) : exec (.ctlMul p f) s = execCtlMul p f s := rfl
@[simp] theorem exec_ctlAnd (p f s) : exec (.ctlAnd p f) s = execCtlAnd p f s := rfl
@[simp] theorem exec_ctlOr (p f s) : exec (.ctlOr p f) s = execCtlOr p f s := rfl
@[simp] theorem exec_ctlXor (p f s) : exec (.ctlXor p f) s = execCtlXor p f s := rfl
@[simp] theorem exec_ctlShl (p f s) : exec (.ctlShl p f) s = execCtlShl p f s := rfl
@[simp] theorem exec_ctlShr (p f s) : exec (.ctlShr p f) s = execCtlShr p f s := rfl
@[simp] theorem exec_ctlSra (p f s) : exec (.ctlSra p f) s = execCtlSra p f s := rfl
@[simp] theorem exec_ctlAddi (p f s) : exec (.ctlAddi p f) s = execCtlAddi p f s := rfl
@[simp] theorem exec_ctlShli (p f s) : exec (.ctlShli p f) s = execCtlShli p f s := rfl
@[simp] theorem exec_ctlShri (p f s) : exec (.ctlShri p f) s = execCtlShri p f s := rfl
@[simp] theorem exec_ctlAndi (p f s) : exec (.ctlAndi p f) s = execCtlAndi p f s := rfl
@[simp] theorem exec_ctlLi (p f s) : exec (.ctlLi p f) s = execCtlLi p f s := rfl
@[simp] theorem exec_ctlTime (p f s) : exec (.ctlTime p f) s = execCtlTime p f s := rfl
@[simp] theorem exec_ctlTimerClaim (p f s) : exec (.ctlTimerClaim p f) s = execCtlTimerClaim p f s := rfl
@[simp] theorem exec_ctlTimerArm (p f s) : exec (.ctlTimerArm p f) s = execCtlTimerArm p f s := rfl
@[simp] theorem exec_ctlTimerRelease (p f s) : exec (.ctlTimerRelease p f) s = execCtlTimerRelease p f s := rfl
@[simp] theorem exec_ctlTimerRead (p f s) : exec (.ctlTimerRead p f) s = execCtlTimerRead p f s := rfl
@[simp] theorem exec_timerExpiry (n s) : exec (.timerExpiry n) s = execTimerExpiry n s := rfl
@[simp] theorem exec_mvLd (p f s) : exec (.mvLd p f) s = execMvLd p f s := rfl
@[simp] theorem exec_mvSt (p f s) : exec (.mvSt p f) s = execMvSt p f s := rfl
@[simp] theorem exec_mvLane (p f s) : exec (.mvLane p f) s = execMvLane p f s := rfl
@[simp] theorem exec_mvSplat (p f s) : exec (.mvSplat p f) s = execMvSplat p f s := rfl
@[simp] theorem exec_mvDget (p f s) : exec (.mvDget p f) s = execMvDget p f s := rfl
@[simp] theorem exec_mvDput (p f s) : exec (.mvDput p f) s = execMvDput p f s := rfl
@[simp] theorem exec_mvMand (p f s) : exec (.mvMand p f) s = execMvMand p f s := rfl
@[simp] theorem exec_mvMor (p f s) : exec (.mvMor p f) s = execMvMor p f s := rfl
@[simp] theorem exec_mvMnot (p f s) : exec (.mvMnot p f) s = execMvMnot p f s := rfl
@[simp] theorem exec_mvMset (p f s) : exec (.mvMset p f) s = execMvMset p f s := rfl
@[simp] theorem exec_mvCopy (p f s) : exec (.mvCopy p f) s = execMvCopy p f s := rfl
@[simp] theorem exec_mvBytes (p f s) : exec (.mvBytes p f) s = execMvBytes p f s := rfl
@[simp] theorem exec_moveComplete (id s) : exec (.moveComplete id) s = execMoveComplete id s := rfl
@[simp] theorem exec_wrSignal (p f s) : exec (.wrSignal p f) s = execWrSignal p f s := rfl
@[simp] theorem exec_wrWait (p f s) : exec (.wrWait p f) s = execWrWait p f s := rfl
@[simp] theorem exec_wrRead (p f s) : exec (.wrRead p f) s = execWrRead p f s := rfl
@[simp] theorem exec_wrRsignal (p f s) : exec (.wrRsignal p f) s = execWrRsignal p f s := rfl
@[simp] theorem exec_wrSwait (p f s) : exec (.wrSwait p f) s = execWrSwait p f s := rfl
@[simp] theorem exec_wrSfree (p f s) : exec (.wrSfree p f) s = execWrSfree p f s := rfl
@[simp] theorem exec_wrSfill (p f s) : exec (.wrSfill p f) s = execWrSfill p f s := rfl
@[simp] theorem exec_waitComplete (p s) : exec (.waitComplete p) s = execWaitComplete p s := rfl
@[simp] theorem exec_waitTimeout (p s) : exec (.waitTimeout p) s = execWaitTimeout p s := rfl
@[simp] theorem exec_mmLd (p f s) : exec (.mmLd p f) s = execMmLd p f s := rfl
@[simp] theorem exec_mmBp (p f s) : exec (.mmBp p f) s = execMmBp p f s := rfl
@[simp] theorem exec_mmFence (p f s) : exec (.mmFence p f) s = execMmFence p f s := rfl
@[simp] theorem exec_fenceComplete (p s) : exec (.fenceComplete p) s = execFenceComplete p s := rfl
@[simp] theorem exec_weightLoadStart (p s) : exec (.weightLoadStart p) s = execWeightLoadStart p s := rfl
@[simp] theorem exec_weightLoadDone (e s) : exec (.weightLoadDone e) s = execWeightLoadDone e s := rfl
@[simp] theorem exec_passStart (p upset s) : exec (.passStart p upset) s = execPassStart p upset s := rfl
@[simp] theorem exec_lastProductRetire (p s) : exec (.lastProductRetire p) s = execLastProductRetire p s := rfl
@[simp] theorem exec_setSwap (p s) : exec (.setSwap p) s = execSetSwap p s := rfl
@[simp] theorem exec_drainRow (p upset s) : exec (.drainRow p upset) s = execDrainRow p upset s := rfl
@[simp] theorem exec_ocTileWrite (e s) : exec (.ocTileWrite e) s = execOcTileWrite e s := rfl
@[simp] theorem exec_sumpDbgStart (p v s) : exec (.sumpDbgStart p v) s = execSumpDbgStart p v s := rfl
@[simp] theorem exec_snapshotDone (p s) : exec (.snapshotDone p) s = execSnapshotDone p s := rfl
@[simp] theorem exec_drainHoldWrite (p v s) : exec (.drainHoldWrite p v) s = execDrainHoldWrite p v s := rfl
@[simp] theorem exec_eePass (p f s) : exec (.eePass p f) s = execEePass p f s := rfl
@[simp] theorem exec_eeAdd (p f s) : exec (.eeAdd p f) s = execEeAdd p f s := rfl
@[simp] theorem exec_eeSub (p f s) : exec (.eeSub p f) s = execEeSub p f s := rfl
@[simp] theorem exec_eeMul (p f s) : exec (.eeMul p f) s = execEeMul p f s := rfl
@[simp] theorem exec_eeFma (p f s) : exec (.eeFma p f) s = execEeFma p f s := rfl
@[simp] theorem exec_eeMin (p f s) : exec (.eeMin p f) s = execEeMin p f s := rfl
@[simp] theorem exec_eeMax (p f s) : exec (.eeMax p f) s = execEeMax p f s := rfl
@[simp] theorem exec_eeCmpEq (p f s) : exec (.eeCmpEq p f) s = execEeCmpEq p f s := rfl
@[simp] theorem exec_eeCmpNe (p f s) : exec (.eeCmpNe p f) s = execEeCmpNe p f s := rfl
@[simp] theorem exec_eeCmpLt (p f s) : exec (.eeCmpLt p f) s = execEeCmpLt p f s := rfl
@[simp] theorem exec_eeCmpLe (p f s) : exec (.eeCmpLe p f) s = execEeCmpLe p f s := rfl
@[simp] theorem exec_eeSel (p f s) : exec (.eeSel p f) s = execEeSel p f s := rfl
@[simp] theorem exec_eeAbs (p f s) : exec (.eeAbs p f) s = execEeAbs p f s := rfl
@[simp] theorem exec_eeNeg (p f s) : exec (.eeNeg p f) s = execEeNeg p f s := rfl
@[simp] theorem exec_eeRsh (p f s) : exec (.eeRsh p f) s = execEeRsh p f s := rfl
@[simp] theorem exec_eeCvt (p f s) : exec (.eeCvt p f) s = execEeCvt p f s := rfl
@[simp] theorem exec_eeRcp (p f s) : exec (.eeRcp p f) s = execEeRcp p f s := rfl
@[simp] theorem exec_eeRsq (p f s) : exec (.eeRsq p f) s = execEeRsq p f s := rfl
@[simp] theorem exec_eeEx2 (p f s) : exec (.eeEx2 p f) s = execEeEx2 p f s := rfl
@[simp] theorem exec_eeLg2 (p f s) : exec (.eeLg2 p f) s = execEeLg2 p f s := rfl
@[simp] theorem exec_eeLmul (p f s) : exec (.eeLmul p f) s = execEeLmul p f s := rfl
@[simp] theorem exec_eeLdiv (p f s) : exec (.eeLdiv p f) s = execEeLdiv p f s := rfl
@[simp] theorem exec_eeLexp (p f s) : exec (.eeLexp p f) s = execEeLexp p f s := rfl
@[simp] theorem exec_eeGather (p f s) : exec (.eeGather p f) s = execEeGather p f s := rfl
@[simp] theorem exec_eeChain (p f s) : exec (.eeChain p f) s = execEeChain p f s := rfl
@[simp] theorem exec_eeUload (p f s) : exec (.eeUload p f) s = execEeUload p f s := rfl
@[simp] theorem exec_ruCount (p f s) : exec (.ruCount p f) s = execRuCount p f s := rfl
@[simp] theorem exec_ruSum (p f s) : exec (.ruSum p f) s = execRuSum p f s := rfl
@[simp] theorem exec_ruSumsq (p f s) : exec (.ruSumsq p f) s = execRuSumsq p f s := rfl
@[simp] theorem exec_ruMv (p f s) : exec (.ruMv p f) s = execRuMv p f s := rfl
@[simp] theorem exec_ruMvp (p f s) : exec (.ruMvp p f) s = execRuMvp p f s := rfl
@[simp] theorem exec_ruMvf (p f s) : exec (.ruMvf p f) s = execRuMvf p f s := rfl
@[simp] theorem exec_ruMax (p f s) : exec (.ruMax p f) s = execRuMax p f s := rfl
@[simp] theorem exec_ruMin (p f s) : exec (.ruMin p f) s = execRuMin p f s := rfl
@[simp] theorem exec_ruArgmax (p f s) : exec (.ruArgmax p f) s = execRuArgmax p f s := rfl
@[simp] theorem exec_ruArgmin (p f s) : exec (.ruArgmin p f) s = execRuArgmin p f s := rfl
@[simp] theorem exec_ruLsum (p f s) : exec (.ruLsum p f) s = execRuLsum p f s := rfl
@[simp] theorem exec_qzCbk (p f s) : exec (.qzCbk p f) s = execQzCbk p f s := rfl
@[simp] theorem exec_qzSurvey (p f s) : exec (.qzSurvey p f) s = execQzSurvey p f s := rfl
@[simp] theorem exec_qzQuant (p f s) : exec (.qzQuant p f) s = execQzQuant p f s := rfl
@[simp] theorem exec_qzOpt (p f s) : exec (.qzOpt p f) s = execQzOpt p f s := rfl
@[simp] theorem exec_pwHint (p f s) : exec (.pwHint p f) s = execPwHint p f s := rfl
@[simp] theorem exec_pwPref (p f s) : exec (.pwPref p f) s = execPwPref p f s := rfl
@[simp] theorem exec_pwEnergy (p f s) : exec (.pwEnergy p f) s = execPwEnergy p f s := rfl
@[simp] theorem exec_cxAllreduce (p f s) : exec (.cxAllreduce p f) s = execCxAllreduce p f s := rfl
@[simp] theorem exec_cxReducescatter (p f s) : exec (.cxReducescatter p f) s = execCxReducescatter p f s := rfl
@[simp] theorem exec_cxAllgather (p f s) : exec (.cxAllgather p f) s = execCxAllgather p f s := rfl
@[simp] theorem exec_cxBroadcast (p f s) : exec (.cxBroadcast p f) s = execCxBroadcast p f s := rfl
@[simp] theorem exec_cxBarrier (p f s) : exec (.cxBarrier p f) s = execCxBarrier p f s := rfl
@[simp] theorem exec_collectiveComplete (id peers s) : exec (.collectiveComplete id peers) s = execCollectiveComplete id peers s := rfl
@[simp] theorem exec_spOpen (p f s) : exec (.spOpen p f) s = execSpOpen p f s := rfl
@[simp] theorem exec_spAdd (p f s) : exec (.spAdd p f) s = execSpAdd p f s := rfl
@[simp] theorem exec_spFlush (p f s) : exec (.spFlush p f) s = execSpFlush p f s := rfl
@[simp] theorem exec_spMerge (p f s) : exec (.spMerge p f) s = execSpMerge p f s := rfl
@[simp] theorem exec_launchCommit (p w7 s) : exec (.launchCommit p w7) s = execLaunchCommit p w7 s := rfl
@[simp] theorem exec_taskStart (p s) : exec (.taskStart p) s = execTaskStart p s := rfl
@[simp] theorem exec_taskEnd (p s) : exec (.taskEnd p) s = execTaskEnd p s := rfl
@[simp] theorem exec_seqCtlFlush (p s) : exec (.seqCtlFlush p) s = execSeqCtlFlush p s := rfl
@[simp] theorem exec_seqCtlAbort (p s) : exec (.seqCtlAbort p) s = execSeqCtlAbort p s := rfl
@[simp] theorem exec_seqCtlResume (p s) : exec (.seqCtlResume p) s = execSeqCtlResume p s := rfl
@[simp] theorem exec_resClaimClaim (owner entry s) : exec (.resClaimClaim owner entry) s = execResClaimClaim owner entry s := rfl
@[simp] theorem exec_resClaimRelease (owner entry s) : exec (.resClaimRelease owner entry) s = execResClaimRelease owner entry s := rfl
@[simp] theorem exec_terpTagOp (p v s) : exec (.terpTagOp p v) s = execTerpTagOp p v s := rfl
@[simp] theorem exec_tagOpDone (p s) : exec (.tagOpDone p) s = execTagOpDone p s := rfl
@[simp] theorem exec_terpBankCtlWrite (p b v s) : exec (.terpBankCtlWrite p b v) s = execTerpBankCtlWrite p b v s := rfl
@[simp] theorem exec_bankReady (p b s) : exec (.bankReady p b) s = execBankReady p b s := rfl
@[simp] theorem exec_terpRwinCtlWrite (p w v s) : exec (.terpRwinCtlWrite p w v) s = execTerpRwinCtlWrite p w v s := rfl
@[simp] theorem exec_weirAddWrite (w v s) : exec (.weirAddWrite w v) s = execWeirAddWrite w v s := rfl
@[simp] theorem exec_weirSetWrite (w v s) : exec (.weirSetWrite w v) s = execWeirSetWrite w v s := rfl
@[simp] theorem exec_weirThreshWrite (w v s) : exec (.weirThreshWrite w v) s = execWeirThreshWrite w v s := rfl
@[simp] theorem exec_weirCtlWrite (w v s) : exec (.weirCtlWrite w v) s = execWeirCtlWrite w v s := rfl
@[simp] theorem exec_weirUpdateArrival (w s) : exec (.weirUpdateArrival w) s = execWeirUpdateArrival w s := rfl
@[simp] theorem exec_remotePacketArrival (p s) : exec (.remotePacketArrival p) s = execRemotePacketArrival p s := rfl
@[simp] theorem exec_registerWrite (addr wide v s) : exec (.registerWrite addr wide v) s = execRegisterWrite addr wide v s := rfl
@[simp] theorem exec_fabricPacketForward (site out now arrivals taken s) : exec (.fabricPacketForward site out now arrivals taken) s = execFabricPacketForward site out now arrivals taken s := rfl
@[simp] theorem exec_packetPromotion (site out net inp now s) : exec (.packetPromotion site out net inp now) s = execPacketPromotion site out net inp now s := rfl
@[simp] theorem exec_activityTimerExpire (site inp out now s) : exec (.activityTimerExpire site inp out now) s = execActivityTimerExpire site inp out now s := rfl
@[simp] theorem exec_mscAccess (addr kind x s) : exec (.mscAccess addr kind x) s = execMscAccess addr kind x s := rfl
@[simp] theorem exec_mscCtlFlush (k s) : exec (.mscCtlFlush k) s = execMscCtlFlush k s := rfl
@[simp] theorem exec_flushDone (k s) : exec (.flushDone k) s = execFlushDone k s := rfl
@[simp] theorem exec_mscRangeWrite (k n lim v s) : exec (.mscRangeWrite k n lim v) s = execMscRangeWrite k n lim v s := rfl
@[simp] theorem exec_refpb (mc ch bank s) : exec (.refpb mc ch bank) s = execRefpb mc ch bank s := rfl
@[simp] theorem exec_tempReportPoll (mc reports s) : exec (.tempReportPoll mc reports) s = execTempReportPoll mc reports s := rfl
@[simp] theorem exec_wckDriftTracking (mc ch s) : exec (.wckDriftTracking mc ch) s = execWckDriftTracking mc ch s := rfl
@[simp] theorem exec_patrolScrubRead (mc errs s) : exec (.patrolScrubRead mc errs) s = execPatrolScrubRead mc errs s := rfl
@[simp] theorem exec_spareCopyDone (mc s) : exec (.spareCopyDone mc) s = execSpareCopyDone mc s := rfl
@[simp] theorem exec_channelFailure (mc ch s) : exec (.channelFailure mc ch) s = execChannelFailure mc ch s := rfl
@[simp] theorem exec_terpPatrolScrub (p addr ecc s) : exec (.terpPatrolScrub p addr ecc) s = execTerpPatrolScrub p addr ecc s := rfl
@[simp] theorem exec_refetchDone (p slot s) : exec (.refetchDone p slot) s = execRefetchDone p slot s := rfl
@[simp] theorem exec_commandFrame (lane fr s) : exec (.commandFrame lane fr) s = execCommandFrame lane fr s := rfl
@[simp] theorem exec_heartbeatFrame (lane fr s) : exec (.heartbeatFrame lane fr) s = execHeartbeatFrame lane fr s := rfl
@[simp] theorem exec_ackFrame (lane fr s) : exec (.ackFrame lane fr) s = execAckFrame lane fr s := rfl
@[simp] theorem exec_frameResendTimeout (s) : exec (.frameResendTimeout) s = execFrameResendTimeout s := rfl
@[simp] theorem exec_heartbeatIdleTimeout (lane s) : exec (.heartbeatIdleTimeout lane) s = execHeartbeatIdleTimeout lane s := rfl
@[simp] theorem exec_controlLinkLost (s) : exec (.controlLinkLost) s = execControlLinkLost s := rfl
@[simp] theorem exec_jobOpen (s) : exec (.jobOpen) s = execJobOpen s := rfl
@[simp] theorem exec_jobClose (s) : exec (.jobClose) s = execJobClose s := rfl
@[simp] theorem exec_streamOpen (s) : exec (.streamOpen) s = execStreamOpen s := rfl
@[simp] theorem exec_streamClose (s) : exec (.streamClose) s = execStreamClose s := rfl
@[simp] theorem exec_statusRead (s) : exec (.statusRead) s = execStatusRead s := rfl
@[simp] theorem exec_modelLoad (packageOk s) : exec (.modelLoad packageOk) s = execModelLoad packageOk s := rfl
@[simp] theorem exec_progBind (plan s) : exec (.progBind plan) s = execProgBind plan s := rfl
@[simp] theorem exec_progUnbind (s) : exec (.progUnbind) s = execProgUnbind s := rfl
@[simp] theorem exec_progRestart (s) : exec (.progRestart) s = execProgRestart s := rfl
@[simp] theorem exec_reqSubmit (s) : exec (.reqSubmit) s = execReqSubmit s := rfl
@[simp] theorem exec_reqCancel (s) : exec (.reqCancel) s = execReqCancel s := rfl
@[simp] theorem exec_trainStart (s) : exec (.trainStart) s = execTrainStart s := rfl
@[simp] theorem exec_trainStop (s) : exec (.trainStop) s = execTrainStop s := rfl
@[simp] theorem exec_statsRead (s) : exec (.statsRead) s = execStatsRead s := rfl
@[simp] theorem exec_streamPacketArrival (pk s) : exec (.streamPacketArrival pk) s = execStreamPacketArrival pk s := rfl
@[simp] theorem exec_streamDone (stream s) : exec (.streamDone stream) s = execStreamDone stream s := rfl
@[simp] theorem exec_streamCredit (type count s) : exec (.streamCredit type count) s = execStreamCredit type count s := rfl
@[simp] theorem exec_streamNak (lseq s) : exec (.streamNak lseq) s = execStreamNak lseq s := rfl
@[simp] theorem exec_pnxSendGo (v s) : exec (.pnxSendGo v) s = execPnxSendGo v s := rfl
@[simp] theorem exec_streamSendDone (s) : exec (.streamSendDone) s = execStreamSendDone s := rfl
@[simp] theorem exec_streamLaneRetrain (working s) : exec (.streamLaneRetrain working) s = execStreamLaneRetrain working s := rfl
@[simp] theorem exec_wilvarTrain (w lanes s) : exec (.wilvarTrain w lanes) s = execWilvarTrain w lanes s := rfl
@[simp] theorem exec_wilvarPeerExchange (w jobId coord s) : exec (.wilvarPeerExchange w jobId coord) s = execWilvarPeerExchange w jobId coord s := rfl
@[simp] theorem exec_wilvarPacketArrival (w pk s) : exec (.wilvarPacketArrival w pk) s = execWilvarPacketArrival w pk s := rfl
@[simp] theorem exec_wilvarFlitReplay (w s) : exec (.wilvarFlitReplay w) s = execWilvarFlitReplay w s := rfl
@[simp] theorem exec_wakePatternRepeat (w s) : exec (.wakePatternRepeat w) s = execWakePatternRepeat w s := rfl
@[simp] theorem exec_syncExchange (t s) : exec (.syncExchange t) s = execSyncExchange t s := rfl
@[simp] theorem exec_parentPortDown (s) : exec (.parentPortDown) s = execParentPortDown s := rfl
@[simp] theorem exec_announceLocked (port a s) : exec (.announceLocked port a) s = execAnnounceLocked port a s := rfl
@[simp] theorem exec_announceTarget (port a s) : exec (.announceTarget port a) s = execAnnounceTarget port a s := rfl
@[simp] theorem exec_announceCap (port a s) : exec (.announceCap port a) s = execAnnounceCap port a s := rfl
@[simp] theorem exec_announceRelease (port a s) : exec (.announceRelease port a) s = execAnnounceRelease port a s := rfl
@[simp] theorem exec_announceHalt (port a s) : exec (.announceHalt port a) s = execAnnounceHalt port a s := rfl
@[simp] theorem exec_announceResume (port a s) : exec (.announceResume port a) s = execAnnounceResume port a s := rfl
@[simp] theorem exec_epochBoundary (inputs s) : exec (.epochBoundary inputs) s = execEpochBoundary inputs s := rfl
@[simp] theorem exec_currentReport (r mean s) : exec (.currentReport r mean) s = execCurrentReport r mean s := rfl
@[simp] theorem exec_limitWindowClose (r s) : exec (.limitWindowClose r) s = execLimitWindowClose r s := rfl
@[simp] theorem exec_alertPulseEnd (s) : exec (.alertPulseEnd) s = execAlertPulseEnd s := rfl
@[simp] theorem exec_droopDetect (q s) : exec (.droopDetect q) s = execDroopDetect q s := rfl
@[simp] theorem exec_droopRelease (q s) : exec (.droopRelease q) s = execDroopRelease q s := rfl
@[simp] theorem exec_estimateIntervalClose (railNj inputNj s) : exec (.estimateIntervalClose railNj inputNj) s = execEstimateIntervalClose railNj inputNj s := rfl
@[simp] theorem exec_bermStep (q b s) : exec (.bermStep q b) s = execBermStep q b s := rfl
@[simp] theorem exec_a1Entry (q s) : exec (.a1Entry q) s = execA1Entry q s := rfl
@[simp] theorem exec_pmCtlS1Req (s) : exec (.pmCtlS1Req) s = execPmCtlS1Req s := rfl
@[simp] theorem exec_pmCtlS2Req (s) : exec (.pmCtlS2Req) s = execPmCtlS2Req s := rfl
@[simp] theorem exec_s1IdleTimeout (s) : exec (.s1IdleTimeout) s = execS1IdleTimeout s := rfl
@[simp] theorem exec_wakeNAssert (s) : exec (.wakeNAssert) s = execWakeNAssert s := rfl
@[simp] theorem exec_linkSignalDetect (src pattern s) : exec (.linkSignalDetect src pattern) s = execLinkSignalDetect src pattern s := rfl
@[simp] theorem exec_wake (b s) : exec (.wake b) s = execWake b s := rfl
@[simp] theorem exec_ganderSample (n src value s) : exec (.ganderSample n src value) s = execGanderSample n src value s := rfl
@[simp] theorem exec_tripRestart (s) : exec (.tripRestart) s = execTripRestart s := rfl
@[simp] theorem exec_ganderCmpWrite (n v s) : exec (.ganderCmpWrite n v) s = execGanderCmpWrite n v s := rfl
@[simp] theorem exec_ganderThrWrite (n v s) : exec (.ganderThrWrite n v) s = execGanderThrWrite n v s := rfl
@[simp] theorem exec_microbatchBoundary (prog b rows s) : exec (.microbatchBoundary prog b rows) s = execMicrobatchBoundary prog b rows s := rfl
@[simp] theorem exec_herdFaultHandler (p s) : exec (.herdFaultHandler p) s = execHerdFaultHandler p s := rfl
@[simp] theorem exec_eventLogSend (s) : exec (.eventLogSend) s = execEventLogSend s := rfl
@[simp] theorem exec_trainStep (prog inputs s) : exec (.trainStep prog inputs) s = execTrainStep prog inputs s := rfl
@[simp] theorem exec_rollback (inputs s) : exec (.rollback inputs) s = execRollback inputs s := rfl
@[simp] theorem exec_ckptCtlGo (v s) : exec (.ckptCtlGo v) s = execCkptCtlGo v s := rfl
@[simp] theorem exec_ckptCopyDone (ue s) : exec (.ckptCopyDone ue) s = execCkptCopyDone ue s := rfl
@[simp] theorem exec_secDbgRevoke (s) : exec (.secDbgRevoke) s = execSecDbgRevoke s := rfl
@[simp] theorem exec_secDbgNewNonce (entropy s) : exec (.secDbgNewNonce entropy) s = execSecDbgNewNonce entropy s := rfl
@[simp] theorem exec_debugToken (tok entropy s) : exec (.debugToken tok entropy) s = execDebugToken tok entropy s := rfl
@[simp] theorem exec_mgtSbCfgWrite (n v s) : exec (.mgtSbCfgWrite n v) s = execMgtSbCfgWrite n v s := rfl
@[simp] theorem exec_inputValid (straps b s) : exec (.inputValid straps b) s = execInputValid straps b s := rfl
@[simp] theorem exec_vinUndervoltage (s) : exec (.vinUndervoltage) s = execVinUndervoltage s := rfl
@[simp] theorem exec_vinOvervoltage (s) : exec (.vinOvervoltage) s = execVinOvervoltage s := rfl
@[simp] theorem exec_enInFall (s) : exec (.enInFall) s = execEnInFall s := rfl
@[simp] theorem exec_mrstN (b s) : exec (.mrstN b) s = execMrstN b s := rfl
@[simp] theorem exec_i3cSetdasa (static dyn s) : exec (.i3cSetdasa static dyn) s = execI3cSetdasa static dyn s := rfl
@[simp] theorem exec_i3cEntdaa (dyn s) : exec (.i3cEntdaa dyn) s = execI3cEntdaa dyn s := rfl
@[simp] theorem exec_i3cSetnewda (dyn s) : exec (.i3cSetnewda dyn) s = execI3cSetnewda dyn s := rfl
@[simp] theorem exec_i3cRstdaa (s) : exec (.i3cRstdaa) s = execI3cRstdaa s := rfl
@[simp] theorem exec_i3cGetpid (s) : exec (.i3cGetpid) s = execI3cGetpid s := rfl
@[simp] theorem exec_i3cGetbcr (s) : exec (.i3cGetbcr) s = execI3cGetbcr s := rfl
@[simp] theorem exec_i3cGetdcr (s) : exec (.i3cGetdcr) s = execI3cGetdcr s := rfl
@[simp] theorem exec_i3cGetstatus (s) : exec (.i3cGetstatus) s = execI3cGetstatus s := rfl
@[simp] theorem exec_i3cEnec (ev s) : exec (.i3cEnec ev) s = execI3cEnec ev s := rfl
@[simp] theorem exec_i3cDisec (ev s) : exec (.i3cDisec ev) s = execI3cDisec ev s := rfl
@[simp] theorem exec_i3cGetmwl (s) : exec (.i3cGetmwl) s = execI3cGetmwl s := rfl
@[simp] theorem exec_i3cSetmwl (len s) : exec (.i3cSetmwl len) s = execI3cSetmwl len s := rfl
@[simp] theorem exec_i3cGetmrl (s) : exec (.i3cGetmrl) s = execI3cGetmrl s := rfl
@[simp] theorem exec_i3cSetmrl (len s) : exec (.i3cSetmrl len) s = execI3cSetmrl len s := rfl
@[simp] theorem exec_pldmSensorRead (id s) : exec (.pldmSensorRead id) s = execPldmSensorRead id s := rfl
@[simp] theorem exec_pldmEnterS1 (s) : exec (.pldmEnterS1) s = execPldmEnterS1 s := rfl
@[simp] theorem exec_pldmEnterS2 (s) : exec (.pldmEnterS2) s = execPldmEnterS2 s := rfl
@[simp] theorem exec_pldmClearLockout (s) : exec (.pldmClearLockout) s = execPldmClearLockout s := rfl
@[simp] theorem exec_pldmBurnDebugLock (s) : exec (.pldmBurnDebugLock) s = execPldmBurnDebugLock s := rfl
@[simp] theorem exec_pldmFwUpdateImage (image s) : exec (.pldmFwUpdateImage image) s = execPldmFwUpdateImage image s := rfl
@[simp] theorem exec_pldmFwUpdateCalibration (cal s) : exec (.pldmFwUpdateCalibration cal) s = execPldmFwUpdateCalibration cal s := rfl
@[simp] theorem exec_pldmSteppingRead (s) : exec (.pldmSteppingRead) s = execPldmSteppingRead s := rfl
@[simp] theorem exec_getVersion (s) : exec (.getVersion) s = execGetVersion s := rfl
@[simp] theorem exec_getCapabilities (s) : exec (.getCapabilities) s = execGetCapabilities s := rfl
@[simp] theorem exec_negotiateAlgorithms (asym hash s) : exec (.negotiateAlgorithms asym hash) s = execNegotiateAlgorithms asym hash s := rfl
@[simp] theorem exec_getDigests (s) : exec (.getDigests) s = execGetDigests s := rfl
@[simp] theorem exec_getCertificate (slot offset len s) : exec (.getCertificate slot offset len) s = execGetCertificate slot offset len s := rfl
@[simp] theorem exec_challenge (slot nonce s) : exec (.challenge slot nonce) s = execChallenge slot nonce s := rfl
@[simp] theorem exec_getMeasurements (index signed nonce s) : exec (.getMeasurements index signed nonce) s = execGetMeasurements index signed nonce s := rfl
@[simp] theorem exec_tapBypass (s) : exec (.tapBypass) s = execTapBypass s := rfl
@[simp] theorem exec_tapIdcode (s) : exec (.tapIdcode) s = execTapIdcode s := rfl
@[simp] theorem exec_tapSamplePreload (pins preload s) : exec (.tapSamplePreload pins preload) s = execTapSamplePreload pins preload s := rfl
@[simp] theorem exec_tapExtest (s) : exec (.tapExtest) s = execTapExtest s := rfl
@[simp] theorem exec_tapClamp (s) : exec (.tapClamp) s = execTapClamp s := rfl
@[simp] theorem exec_tapHighz (s) : exec (.tapHighz) s = execTapHighz s := rfl
@[simp] theorem exec_wilvarPortDown (w s) : exec (.wilvarPortDown w) s = execWilvarPortDown w s := rfl
@[simp] theorem exec_flashWriteComplete (s) : exec (.flashWriteComplete) s = execFlashWriteComplete s := rfl
@[simp] theorem exec_powerStateEntryComplete (s) : exec (.powerStateEntryComplete) s = execPowerStateEntryComplete s := rfl
@[simp] theorem exec_unsupportedRequest (code s) : exec (.unsupportedRequest code) s = execUnsupportedRequest code s := rfl

end Sys2Proof.Machine
end

