-- ==== Sys2Proof/Laws/State.lean ====
section
/-! SUPPORT. What each plain update of the state leaves alone: one lemma per field and update, true by rfl. -/

namespace Sys2Proof.Machine

@[simp] theorem State.fresh_pending (s : State) : s.fresh.2.pending = s.pending := rfl
@[simp] theorem State.fresh_reply (s : State) : s.fresh.2.reply = s.reply := rfl
@[simp] theorem State.fresh_tb (s : State) : s.fresh.2.tb = s.tb := rfl
@[simp] theorem State.fresh_mem (s : State) : s.fresh.2.mem = s.mem := rfl
@[simp] theorem State.fresh_polders (s : State) : s.fresh.2.polders = s.polders := rfl
@[simp] theorem State.fresh_weirs (s : State) : s.fresh.2.weirs = s.weirs := rfl
@[simp] theorem State.fresh_flight (s : State) : s.fresh.2.flight = s.flight := rfl
@[simp] theorem State.fresh_notices (s : State) : s.fresh.2.notices = s.notices := rfl
@[simp] theorem State.fresh_watches (s : State) : s.fresh.2.watches = s.watches := rfl
@[simp] theorem State.fresh_ccWeir (s : State) : s.fresh.2.ccWeir = s.ccWeir := rfl
@[simp] theorem State.fresh_transfers (s : State) : s.fresh.2.transfers = s.transfers := rfl
@[simp] theorem State.fresh_nextId (s : State) : s.fresh.2.nextId = s.nextId := rfl
@[simp] theorem State.fresh_sent (s : State) : s.fresh.2.sent = s.sent := rfl
@[simp] theorem State.fresh_handed (s : State) : s.fresh.2.handed = s.handed := rfl
@[simp] theorem State.fresh_claimedRegions (s : State) : s.fresh.2.claimedRegions = s.claimedRegions := rfl
@[simp] theorem State.fresh_claimedWeirs (s : State) : s.fresh.2.claimedWeirs = s.claimedWeirs := rfl
@[simp] theorem State.fresh_holdWaits (s : State) : s.fresh.2.holdWaits = s.holdWaits := rfl
@[simp] theorem State.fresh_timers (s : State) : s.fresh.2.timers = s.timers := rfl
@[simp] theorem State.fresh_disc (s : State) : s.fresh.2.disc = s.disc := rfl
@[simp] theorem State.fresh_res (s : State) : s.fresh.2.res = s.res := rfl
@[simp] theorem State.fresh_routers (s : State) : s.fresh.2.routers = s.routers := rfl
@[simp] theorem State.fresh_msc (s : State) : s.fresh.2.msc = s.msc := rfl
@[simp] theorem State.fresh_mc (s : State) : s.fresh.2.mc = s.mc := rfl
@[simp] theorem State.fresh_pnx (s : State) : s.fresh.2.pnx = s.pnx := rfl
@[simp] theorem State.fresh_wlv (s : State) : s.fresh.2.wlv = s.wlv := rfl
@[simp] theorem State.fresh_wlvOut (s : State) : s.fresh.2.wlvOut = s.wlvOut := rfl
@[simp] theorem State.fresh_cad (s : State) : s.fresh.2.cad = s.cad := rfl
@[simp] theorem State.fresh_herd (s : State) : s.fresh.2.herd = s.herd := rfl
@[simp] theorem State.fresh_pm (s : State) : s.fresh.2.pm = s.pm := rfl
@[simp] theorem State.fresh_gander (s : State) : s.fresh.2.gander = s.gander := rfl
@[simp] theorem State.fresh_sec (s : State) : s.fresh.2.sec = s.sec := rfl
@[simp] theorem State.fresh_integ (s : State) : s.fresh.2.integ = s.integ := rfl
@[simp] theorem State.fresh_ckpt (s : State) : s.fresh.2.ckpt = s.ckpt := rfl
@[simp] theorem State.fresh_flash (s : State) : s.fresh.2.flash = s.flash := rfl
@[simp] theorem State.fresh_mgt (s : State) : s.fresh.2.mgt = s.mgt := rfl

@[simp] theorem State.onPolder_pending (s : State) (p : Pid) (g : Polder → Polder) : (s.onPolder p g).pending = s.pending := rfl
@[simp] theorem State.onPolder_freeIx (s : State) (p : Pid) (g : Polder → Polder) : (s.onPolder p g).freeIx = s.freeIx := rfl
@[simp] theorem State.onPolder_reply (s : State) (p : Pid) (g : Polder → Polder) : (s.onPolder p g).reply = s.reply := rfl
@[simp] theorem State.onPolder_tb (s : State) (p : Pid) (g : Polder → Polder) : (s.onPolder p g).tb = s.tb := rfl
@[simp] theorem State.onPolder_mem (s : State) (p : Pid) (g : Polder → Polder) : (s.onPolder p g).mem = s.mem := rfl
@[simp] theorem State.onPolder_weirs (s : State) (p : Pid) (g : Polder → Polder) : (s.onPolder p g).weirs = s.weirs := rfl
@[simp] theorem State.onPolder_flight (s : State) (p : Pid) (g : Polder → Polder) : (s.onPolder p g).flight = s.flight := rfl
@[simp] theorem State.onPolder_notices (s : State) (p : Pid) (g : Polder → Polder) : (s.onPolder p g).notices = s.notices := rfl
@[simp] theorem State.onPolder_watches (s : State) (p : Pid) (g : Polder → Polder) : (s.onPolder p g).watches = s.watches := rfl
@[simp] theorem State.onPolder_ccWeir (s : State) (p : Pid) (g : Polder → Polder) : (s.onPolder p g).ccWeir = s.ccWeir := rfl
@[simp] theorem State.onPolder_transfers (s : State) (p : Pid) (g : Polder → Polder) : (s.onPolder p g).transfers = s.transfers := rfl
@[simp] theorem State.onPolder_nextId (s : State) (p : Pid) (g : Polder → Polder) : (s.onPolder p g).nextId = s.nextId := rfl
@[simp] theorem State.onPolder_sent (s : State) (p : Pid) (g : Polder → Polder) : (s.onPolder p g).sent = s.sent := rfl
@[simp] theorem State.onPolder_handed (s : State) (p : Pid) (g : Polder → Polder) : (s.onPolder p g).handed = s.handed := rfl
@[simp] theorem State.onPolder_claimedRegions (s : State) (p : Pid) (g : Polder → Polder) : (s.onPolder p g).claimedRegions = s.claimedRegions := rfl
@[simp] theorem State.onPolder_claimedWeirs (s : State) (p : Pid) (g : Polder → Polder) : (s.onPolder p g).claimedWeirs = s.claimedWeirs := rfl
@[simp] theorem State.onPolder_holdWaits (s : State) (p : Pid) (g : Polder → Polder) : (s.onPolder p g).holdWaits = s.holdWaits := rfl
@[simp] theorem State.onPolder_timers (s : State) (p : Pid) (g : Polder → Polder) : (s.onPolder p g).timers = s.timers := rfl
@[simp] theorem State.onPolder_disc (s : State) (p : Pid) (g : Polder → Polder) : (s.onPolder p g).disc = s.disc := rfl
@[simp] theorem State.onPolder_res (s : State) (p : Pid) (g : Polder → Polder) : (s.onPolder p g).res = s.res := rfl
@[simp] theorem State.onPolder_routers (s : State) (p : Pid) (g : Polder → Polder) : (s.onPolder p g).routers = s.routers := rfl
@[simp] theorem State.onPolder_msc (s : State) (p : Pid) (g : Polder → Polder) : (s.onPolder p g).msc = s.msc := rfl
@[simp] theorem State.onPolder_mc (s : State) (p : Pid) (g : Polder → Polder) : (s.onPolder p g).mc = s.mc := rfl
@[simp] theorem State.onPolder_pnx (s : State) (p : Pid) (g : Polder → Polder) : (s.onPolder p g).pnx = s.pnx := rfl
@[simp] theorem State.onPolder_wlv (s : State) (p : Pid) (g : Polder → Polder) : (s.onPolder p g).wlv = s.wlv := rfl
@[simp] theorem State.onPolder_wlvOut (s : State) (p : Pid) (g : Polder → Polder) : (s.onPolder p g).wlvOut = s.wlvOut := rfl
@[simp] theorem State.onPolder_cad (s : State) (p : Pid) (g : Polder → Polder) : (s.onPolder p g).cad = s.cad := rfl
@[simp] theorem State.onPolder_herd (s : State) (p : Pid) (g : Polder → Polder) : (s.onPolder p g).herd = s.herd := rfl
@[simp] theorem State.onPolder_pm (s : State) (p : Pid) (g : Polder → Polder) : (s.onPolder p g).pm = s.pm := rfl
@[simp] theorem State.onPolder_gander (s : State) (p : Pid) (g : Polder → Polder) : (s.onPolder p g).gander = s.gander := rfl
@[simp] theorem State.onPolder_sec (s : State) (p : Pid) (g : Polder → Polder) : (s.onPolder p g).sec = s.sec := rfl
@[simp] theorem State.onPolder_integ (s : State) (p : Pid) (g : Polder → Polder) : (s.onPolder p g).integ = s.integ := rfl
@[simp] theorem State.onPolder_ckpt (s : State) (p : Pid) (g : Polder → Polder) : (s.onPolder p g).ckpt = s.ckpt := rfl
@[simp] theorem State.onPolder_flash (s : State) (p : Pid) (g : Polder → Polder) : (s.onPolder p g).flash = s.flash := rfl
@[simp] theorem State.onPolder_mgt (s : State) (p : Pid) (g : Polder → Polder) : (s.onPolder p g).mgt = s.mgt := rfl

@[simp] theorem State.onTask_pending (s : State) (p : Pid) (g : Task → Task) : (s.onTask p g).pending = s.pending := rfl
@[simp] theorem State.onTask_freeIx (s : State) (p : Pid) (g : Task → Task) : (s.onTask p g).freeIx = s.freeIx := rfl
@[simp] theorem State.onTask_reply (s : State) (p : Pid) (g : Task → Task) : (s.onTask p g).reply = s.reply := rfl
@[simp] theorem State.onTask_tb (s : State) (p : Pid) (g : Task → Task) : (s.onTask p g).tb = s.tb := rfl
@[simp] theorem State.onTask_mem (s : State) (p : Pid) (g : Task → Task) : (s.onTask p g).mem = s.mem := rfl
@[simp] theorem State.onTask_weirs (s : State) (p : Pid) (g : Task → Task) : (s.onTask p g).weirs = s.weirs := rfl
@[simp] theorem State.onTask_flight (s : State) (p : Pid) (g : Task → Task) : (s.onTask p g).flight = s.flight := rfl
@[simp] theorem State.onTask_notices (s : State) (p : Pid) (g : Task → Task) : (s.onTask p g).notices = s.notices := rfl
@[simp] theorem State.onTask_watches (s : State) (p : Pid) (g : Task → Task) : (s.onTask p g).watches = s.watches := rfl
@[simp] theorem State.onTask_ccWeir (s : State) (p : Pid) (g : Task → Task) : (s.onTask p g).ccWeir = s.ccWeir := rfl
@[simp] theorem State.onTask_transfers (s : State) (p : Pid) (g : Task → Task) : (s.onTask p g).transfers = s.transfers := rfl
@[simp] theorem State.onTask_nextId (s : State) (p : Pid) (g : Task → Task) : (s.onTask p g).nextId = s.nextId := rfl
@[simp] theorem State.onTask_sent (s : State) (p : Pid) (g : Task → Task) : (s.onTask p g).sent = s.sent := rfl
@[simp] theorem State.onTask_handed (s : State) (p : Pid) (g : Task → Task) : (s.onTask p g).handed = s.handed := rfl
@[simp] theorem State.onTask_claimedRegions (s : State) (p : Pid) (g : Task → Task) : (s.onTask p g).claimedRegions = s.claimedRegions := rfl
@[simp] theorem State.onTask_claimedWeirs (s : State) (p : Pid) (g : Task → Task) : (s.onTask p g).claimedWeirs = s.claimedWeirs := rfl
@[simp] theorem State.onTask_holdWaits (s : State) (p : Pid) (g : Task → Task) : (s.onTask p g).holdWaits = s.holdWaits := rfl
@[simp] theorem State.onTask_timers (s : State) (p : Pid) (g : Task → Task) : (s.onTask p g).timers = s.timers := rfl
@[simp] theorem State.onTask_disc (s : State) (p : Pid) (g : Task → Task) : (s.onTask p g).disc = s.disc := rfl
@[simp] theorem State.onTask_res (s : State) (p : Pid) (g : Task → Task) : (s.onTask p g).res = s.res := rfl
@[simp] theorem State.onTask_routers (s : State) (p : Pid) (g : Task → Task) : (s.onTask p g).routers = s.routers := rfl
@[simp] theorem State.onTask_msc (s : State) (p : Pid) (g : Task → Task) : (s.onTask p g).msc = s.msc := rfl
@[simp] theorem State.onTask_mc (s : State) (p : Pid) (g : Task → Task) : (s.onTask p g).mc = s.mc := rfl
@[simp] theorem State.onTask_pnx (s : State) (p : Pid) (g : Task → Task) : (s.onTask p g).pnx = s.pnx := rfl
@[simp] theorem State.onTask_wlv (s : State) (p : Pid) (g : Task → Task) : (s.onTask p g).wlv = s.wlv := rfl
@[simp] theorem State.onTask_wlvOut (s : State) (p : Pid) (g : Task → Task) : (s.onTask p g).wlvOut = s.wlvOut := rfl
@[simp] theorem State.onTask_cad (s : State) (p : Pid) (g : Task → Task) : (s.onTask p g).cad = s.cad := rfl
@[simp] theorem State.onTask_herd (s : State) (p : Pid) (g : Task → Task) : (s.onTask p g).herd = s.herd := rfl
@[simp] theorem State.onTask_pm (s : State) (p : Pid) (g : Task → Task) : (s.onTask p g).pm = s.pm := rfl
@[simp] theorem State.onTask_gander (s : State) (p : Pid) (g : Task → Task) : (s.onTask p g).gander = s.gander := rfl
@[simp] theorem State.onTask_sec (s : State) (p : Pid) (g : Task → Task) : (s.onTask p g).sec = s.sec := rfl
@[simp] theorem State.onTask_integ (s : State) (p : Pid) (g : Task → Task) : (s.onTask p g).integ = s.integ := rfl
@[simp] theorem State.onTask_ckpt (s : State) (p : Pid) (g : Task → Task) : (s.onTask p g).ckpt = s.ckpt := rfl
@[simp] theorem State.onTask_flash (s : State) (p : Pid) (g : Task → Task) : (s.onTask p g).flash = s.flash := rfl
@[simp] theorem State.onTask_mgt (s : State) (p : Pid) (g : Task → Task) : (s.onTask p g).mgt = s.mgt := rfl

@[simp] theorem State.onTerp_pending (s : State) (p : Pid) (g : Terp → Terp) : (s.onTerp p g).pending = s.pending := rfl
@[simp] theorem State.onTerp_freeIx (s : State) (p : Pid) (g : Terp → Terp) : (s.onTerp p g).freeIx = s.freeIx := rfl
@[simp] theorem State.onTerp_reply (s : State) (p : Pid) (g : Terp → Terp) : (s.onTerp p g).reply = s.reply := rfl
@[simp] theorem State.onTerp_tb (s : State) (p : Pid) (g : Terp → Terp) : (s.onTerp p g).tb = s.tb := rfl
@[simp] theorem State.onTerp_mem (s : State) (p : Pid) (g : Terp → Terp) : (s.onTerp p g).mem = s.mem := rfl
@[simp] theorem State.onTerp_weirs (s : State) (p : Pid) (g : Terp → Terp) : (s.onTerp p g).weirs = s.weirs := rfl
@[simp] theorem State.onTerp_flight (s : State) (p : Pid) (g : Terp → Terp) : (s.onTerp p g).flight = s.flight := rfl
@[simp] theorem State.onTerp_notices (s : State) (p : Pid) (g : Terp → Terp) : (s.onTerp p g).notices = s.notices := rfl
@[simp] theorem State.onTerp_watches (s : State) (p : Pid) (g : Terp → Terp) : (s.onTerp p g).watches = s.watches := rfl
@[simp] theorem State.onTerp_ccWeir (s : State) (p : Pid) (g : Terp → Terp) : (s.onTerp p g).ccWeir = s.ccWeir := rfl
@[simp] theorem State.onTerp_transfers (s : State) (p : Pid) (g : Terp → Terp) : (s.onTerp p g).transfers = s.transfers := rfl
@[simp] theorem State.onTerp_nextId (s : State) (p : Pid) (g : Terp → Terp) : (s.onTerp p g).nextId = s.nextId := rfl
@[simp] theorem State.onTerp_sent (s : State) (p : Pid) (g : Terp → Terp) : (s.onTerp p g).sent = s.sent := rfl
@[simp] theorem State.onTerp_handed (s : State) (p : Pid) (g : Terp → Terp) : (s.onTerp p g).handed = s.handed := rfl
@[simp] theorem State.onTerp_claimedRegions (s : State) (p : Pid) (g : Terp → Terp) : (s.onTerp p g).claimedRegions = s.claimedRegions := rfl
@[simp] theorem State.onTerp_claimedWeirs (s : State) (p : Pid) (g : Terp → Terp) : (s.onTerp p g).claimedWeirs = s.claimedWeirs := rfl
@[simp] theorem State.onTerp_holdWaits (s : State) (p : Pid) (g : Terp → Terp) : (s.onTerp p g).holdWaits = s.holdWaits := rfl
@[simp] theorem State.onTerp_timers (s : State) (p : Pid) (g : Terp → Terp) : (s.onTerp p g).timers = s.timers := rfl
@[simp] theorem State.onTerp_disc (s : State) (p : Pid) (g : Terp → Terp) : (s.onTerp p g).disc = s.disc := rfl
@[simp] theorem State.onTerp_res (s : State) (p : Pid) (g : Terp → Terp) : (s.onTerp p g).res = s.res := rfl
@[simp] theorem State.onTerp_routers (s : State) (p : Pid) (g : Terp → Terp) : (s.onTerp p g).routers = s.routers := rfl
@[simp] theorem State.onTerp_msc (s : State) (p : Pid) (g : Terp → Terp) : (s.onTerp p g).msc = s.msc := rfl
@[simp] theorem State.onTerp_mc (s : State) (p : Pid) (g : Terp → Terp) : (s.onTerp p g).mc = s.mc := rfl
@[simp] theorem State.onTerp_pnx (s : State) (p : Pid) (g : Terp → Terp) : (s.onTerp p g).pnx = s.pnx := rfl
@[simp] theorem State.onTerp_wlv (s : State) (p : Pid) (g : Terp → Terp) : (s.onTerp p g).wlv = s.wlv := rfl
@[simp] theorem State.onTerp_wlvOut (s : State) (p : Pid) (g : Terp → Terp) : (s.onTerp p g).wlvOut = s.wlvOut := rfl
@[simp] theorem State.onTerp_cad (s : State) (p : Pid) (g : Terp → Terp) : (s.onTerp p g).cad = s.cad := rfl
@[simp] theorem State.onTerp_herd (s : State) (p : Pid) (g : Terp → Terp) : (s.onTerp p g).herd = s.herd := rfl
@[simp] theorem State.onTerp_pm (s : State) (p : Pid) (g : Terp → Terp) : (s.onTerp p g).pm = s.pm := rfl
@[simp] theorem State.onTerp_gander (s : State) (p : Pid) (g : Terp → Terp) : (s.onTerp p g).gander = s.gander := rfl
@[simp] theorem State.onTerp_sec (s : State) (p : Pid) (g : Terp → Terp) : (s.onTerp p g).sec = s.sec := rfl
@[simp] theorem State.onTerp_integ (s : State) (p : Pid) (g : Terp → Terp) : (s.onTerp p g).integ = s.integ := rfl
@[simp] theorem State.onTerp_ckpt (s : State) (p : Pid) (g : Terp → Terp) : (s.onTerp p g).ckpt = s.ckpt := rfl
@[simp] theorem State.onTerp_flash (s : State) (p : Pid) (g : Terp → Terp) : (s.onTerp p g).flash = s.flash := rfl
@[simp] theorem State.onTerp_mgt (s : State) (p : Pid) (g : Terp → Terp) : (s.onTerp p g).mgt = s.mgt := rfl

@[simp] theorem State.onSeq_pending (s : State) (p : Pid) (g : Seq → Seq) : (s.onSeq p g).pending = s.pending := rfl
@[simp] theorem State.onSeq_freeIx (s : State) (p : Pid) (g : Seq → Seq) : (s.onSeq p g).freeIx = s.freeIx := rfl
@[simp] theorem State.onSeq_reply (s : State) (p : Pid) (g : Seq → Seq) : (s.onSeq p g).reply = s.reply := rfl
@[simp] theorem State.onSeq_tb (s : State) (p : Pid) (g : Seq → Seq) : (s.onSeq p g).tb = s.tb := rfl
@[simp] theorem State.onSeq_mem (s : State) (p : Pid) (g : Seq → Seq) : (s.onSeq p g).mem = s.mem := rfl
@[simp] theorem State.onSeq_weirs (s : State) (p : Pid) (g : Seq → Seq) : (s.onSeq p g).weirs = s.weirs := rfl
@[simp] theorem State.onSeq_flight (s : State) (p : Pid) (g : Seq → Seq) : (s.onSeq p g).flight = s.flight := rfl
@[simp] theorem State.onSeq_notices (s : State) (p : Pid) (g : Seq → Seq) : (s.onSeq p g).notices = s.notices := rfl
@[simp] theorem State.onSeq_watches (s : State) (p : Pid) (g : Seq → Seq) : (s.onSeq p g).watches = s.watches := rfl
@[simp] theorem State.onSeq_ccWeir (s : State) (p : Pid) (g : Seq → Seq) : (s.onSeq p g).ccWeir = s.ccWeir := rfl
@[simp] theorem State.onSeq_transfers (s : State) (p : Pid) (g : Seq → Seq) : (s.onSeq p g).transfers = s.transfers := rfl
@[simp] theorem State.onSeq_nextId (s : State) (p : Pid) (g : Seq → Seq) : (s.onSeq p g).nextId = s.nextId := rfl
@[simp] theorem State.onSeq_sent (s : State) (p : Pid) (g : Seq → Seq) : (s.onSeq p g).sent = s.sent := rfl
@[simp] theorem State.onSeq_handed (s : State) (p : Pid) (g : Seq → Seq) : (s.onSeq p g).handed = s.handed := rfl
@[simp] theorem State.onSeq_claimedRegions (s : State) (p : Pid) (g : Seq → Seq) : (s.onSeq p g).claimedRegions = s.claimedRegions := rfl
@[simp] theorem State.onSeq_claimedWeirs (s : State) (p : Pid) (g : Seq → Seq) : (s.onSeq p g).claimedWeirs = s.claimedWeirs := rfl
@[simp] theorem State.onSeq_holdWaits (s : State) (p : Pid) (g : Seq → Seq) : (s.onSeq p g).holdWaits = s.holdWaits := rfl
@[simp] theorem State.onSeq_timers (s : State) (p : Pid) (g : Seq → Seq) : (s.onSeq p g).timers = s.timers := rfl
@[simp] theorem State.onSeq_disc (s : State) (p : Pid) (g : Seq → Seq) : (s.onSeq p g).disc = s.disc := rfl
@[simp] theorem State.onSeq_res (s : State) (p : Pid) (g : Seq → Seq) : (s.onSeq p g).res = s.res := rfl
@[simp] theorem State.onSeq_routers (s : State) (p : Pid) (g : Seq → Seq) : (s.onSeq p g).routers = s.routers := rfl
@[simp] theorem State.onSeq_msc (s : State) (p : Pid) (g : Seq → Seq) : (s.onSeq p g).msc = s.msc := rfl
@[simp] theorem State.onSeq_mc (s : State) (p : Pid) (g : Seq → Seq) : (s.onSeq p g).mc = s.mc := rfl
@[simp] theorem State.onSeq_pnx (s : State) (p : Pid) (g : Seq → Seq) : (s.onSeq p g).pnx = s.pnx := rfl
@[simp] theorem State.onSeq_wlv (s : State) (p : Pid) (g : Seq → Seq) : (s.onSeq p g).wlv = s.wlv := rfl
@[simp] theorem State.onSeq_wlvOut (s : State) (p : Pid) (g : Seq → Seq) : (s.onSeq p g).wlvOut = s.wlvOut := rfl
@[simp] theorem State.onSeq_cad (s : State) (p : Pid) (g : Seq → Seq) : (s.onSeq p g).cad = s.cad := rfl
@[simp] theorem State.onSeq_herd (s : State) (p : Pid) (g : Seq → Seq) : (s.onSeq p g).herd = s.herd := rfl
@[simp] theorem State.onSeq_pm (s : State) (p : Pid) (g : Seq → Seq) : (s.onSeq p g).pm = s.pm := rfl
@[simp] theorem State.onSeq_gander (s : State) (p : Pid) (g : Seq → Seq) : (s.onSeq p g).gander = s.gander := rfl
@[simp] theorem State.onSeq_sec (s : State) (p : Pid) (g : Seq → Seq) : (s.onSeq p g).sec = s.sec := rfl
@[simp] theorem State.onSeq_integ (s : State) (p : Pid) (g : Seq → Seq) : (s.onSeq p g).integ = s.integ := rfl
@[simp] theorem State.onSeq_ckpt (s : State) (p : Pid) (g : Seq → Seq) : (s.onSeq p g).ckpt = s.ckpt := rfl
@[simp] theorem State.onSeq_flash (s : State) (p : Pid) (g : Seq → Seq) : (s.onSeq p g).flash = s.flash := rfl
@[simp] theorem State.onSeq_mgt (s : State) (p : Pid) (g : Seq → Seq) : (s.onSeq p g).mgt = s.mgt := rfl

@[simp] theorem State.onSpw_pending (s : State) (p : Pid) (g : Spw → Spw) : (s.onSpw p g).pending = s.pending := rfl
@[simp] theorem State.onSpw_freeIx (s : State) (p : Pid) (g : Spw → Spw) : (s.onSpw p g).freeIx = s.freeIx := rfl
@[simp] theorem State.onSpw_reply (s : State) (p : Pid) (g : Spw → Spw) : (s.onSpw p g).reply = s.reply := rfl
@[simp] theorem State.onSpw_tb (s : State) (p : Pid) (g : Spw → Spw) : (s.onSpw p g).tb = s.tb := rfl
@[simp] theorem State.onSpw_mem (s : State) (p : Pid) (g : Spw → Spw) : (s.onSpw p g).mem = s.mem := rfl
@[simp] theorem State.onSpw_weirs (s : State) (p : Pid) (g : Spw → Spw) : (s.onSpw p g).weirs = s.weirs := rfl
@[simp] theorem State.onSpw_flight (s : State) (p : Pid) (g : Spw → Spw) : (s.onSpw p g).flight = s.flight := rfl
@[simp] theorem State.onSpw_notices (s : State) (p : Pid) (g : Spw → Spw) : (s.onSpw p g).notices = s.notices := rfl
@[simp] theorem State.onSpw_watches (s : State) (p : Pid) (g : Spw → Spw) : (s.onSpw p g).watches = s.watches := rfl
@[simp] theorem State.onSpw_ccWeir (s : State) (p : Pid) (g : Spw → Spw) : (s.onSpw p g).ccWeir = s.ccWeir := rfl
@[simp] theorem State.onSpw_transfers (s : State) (p : Pid) (g : Spw → Spw) : (s.onSpw p g).transfers = s.transfers := rfl
@[simp] theorem State.onSpw_nextId (s : State) (p : Pid) (g : Spw → Spw) : (s.onSpw p g).nextId = s.nextId := rfl
@[simp] theorem State.onSpw_sent (s : State) (p : Pid) (g : Spw → Spw) : (s.onSpw p g).sent = s.sent := rfl
@[simp] theorem State.onSpw_handed (s : State) (p : Pid) (g : Spw → Spw) : (s.onSpw p g).handed = s.handed := rfl
@[simp] theorem State.onSpw_claimedRegions (s : State) (p : Pid) (g : Spw → Spw) : (s.onSpw p g).claimedRegions = s.claimedRegions := rfl
@[simp] theorem State.onSpw_claimedWeirs (s : State) (p : Pid) (g : Spw → Spw) : (s.onSpw p g).claimedWeirs = s.claimedWeirs := rfl
@[simp] theorem State.onSpw_holdWaits (s : State) (p : Pid) (g : Spw → Spw) : (s.onSpw p g).holdWaits = s.holdWaits := rfl
@[simp] theorem State.onSpw_timers (s : State) (p : Pid) (g : Spw → Spw) : (s.onSpw p g).timers = s.timers := rfl
@[simp] theorem State.onSpw_disc (s : State) (p : Pid) (g : Spw → Spw) : (s.onSpw p g).disc = s.disc := rfl
@[simp] theorem State.onSpw_res (s : State) (p : Pid) (g : Spw → Spw) : (s.onSpw p g).res = s.res := rfl
@[simp] theorem State.onSpw_routers (s : State) (p : Pid) (g : Spw → Spw) : (s.onSpw p g).routers = s.routers := rfl
@[simp] theorem State.onSpw_msc (s : State) (p : Pid) (g : Spw → Spw) : (s.onSpw p g).msc = s.msc := rfl
@[simp] theorem State.onSpw_mc (s : State) (p : Pid) (g : Spw → Spw) : (s.onSpw p g).mc = s.mc := rfl
@[simp] theorem State.onSpw_pnx (s : State) (p : Pid) (g : Spw → Spw) : (s.onSpw p g).pnx = s.pnx := rfl
@[simp] theorem State.onSpw_wlv (s : State) (p : Pid) (g : Spw → Spw) : (s.onSpw p g).wlv = s.wlv := rfl
@[simp] theorem State.onSpw_wlvOut (s : State) (p : Pid) (g : Spw → Spw) : (s.onSpw p g).wlvOut = s.wlvOut := rfl
@[simp] theorem State.onSpw_cad (s : State) (p : Pid) (g : Spw → Spw) : (s.onSpw p g).cad = s.cad := rfl
@[simp] theorem State.onSpw_herd (s : State) (p : Pid) (g : Spw → Spw) : (s.onSpw p g).herd = s.herd := rfl
@[simp] theorem State.onSpw_pm (s : State) (p : Pid) (g : Spw → Spw) : (s.onSpw p g).pm = s.pm := rfl
@[simp] theorem State.onSpw_gander (s : State) (p : Pid) (g : Spw → Spw) : (s.onSpw p g).gander = s.gander := rfl
@[simp] theorem State.onSpw_sec (s : State) (p : Pid) (g : Spw → Spw) : (s.onSpw p g).sec = s.sec := rfl
@[simp] theorem State.onSpw_integ (s : State) (p : Pid) (g : Spw → Spw) : (s.onSpw p g).integ = s.integ := rfl
@[simp] theorem State.onSpw_ckpt (s : State) (p : Pid) (g : Spw → Spw) : (s.onSpw p g).ckpt = s.ckpt := rfl
@[simp] theorem State.onSpw_flash (s : State) (p : Pid) (g : Spw → Spw) : (s.onSpw p g).flash = s.flash := rfl
@[simp] theorem State.onSpw_mgt (s : State) (p : Pid) (g : Spw → Spw) : (s.onSpw p g).mgt = s.mgt := rfl

@[simp] theorem State.setTag_pending (s : State) (p : Pid) (n : Nat) (b : Bool) : (s.setTag p n b).pending = s.pending := rfl
@[simp] theorem State.setTag_freeIx (s : State) (p : Pid) (n : Nat) (b : Bool) : (s.setTag p n b).freeIx = s.freeIx := rfl
@[simp] theorem State.setTag_reply (s : State) (p : Pid) (n : Nat) (b : Bool) : (s.setTag p n b).reply = s.reply := rfl
@[simp] theorem State.setTag_tb (s : State) (p : Pid) (n : Nat) (b : Bool) : (s.setTag p n b).tb = s.tb := rfl
@[simp] theorem State.setTag_mem (s : State) (p : Pid) (n : Nat) (b : Bool) : (s.setTag p n b).mem = s.mem := rfl
@[simp] theorem State.setTag_weirs (s : State) (p : Pid) (n : Nat) (b : Bool) : (s.setTag p n b).weirs = s.weirs := rfl
@[simp] theorem State.setTag_flight (s : State) (p : Pid) (n : Nat) (b : Bool) : (s.setTag p n b).flight = s.flight := rfl
@[simp] theorem State.setTag_notices (s : State) (p : Pid) (n : Nat) (b : Bool) : (s.setTag p n b).notices = s.notices := rfl
@[simp] theorem State.setTag_watches (s : State) (p : Pid) (n : Nat) (b : Bool) : (s.setTag p n b).watches = s.watches := rfl
@[simp] theorem State.setTag_ccWeir (s : State) (p : Pid) (n : Nat) (b : Bool) : (s.setTag p n b).ccWeir = s.ccWeir := rfl
@[simp] theorem State.setTag_transfers (s : State) (p : Pid) (n : Nat) (b : Bool) : (s.setTag p n b).transfers = s.transfers := rfl
@[simp] theorem State.setTag_nextId (s : State) (p : Pid) (n : Nat) (b : Bool) : (s.setTag p n b).nextId = s.nextId := rfl
@[simp] theorem State.setTag_sent (s : State) (p : Pid) (n : Nat) (b : Bool) : (s.setTag p n b).sent = s.sent := rfl
@[simp] theorem State.setTag_handed (s : State) (p : Pid) (n : Nat) (b : Bool) : (s.setTag p n b).handed = s.handed := rfl
@[simp] theorem State.setTag_claimedRegions (s : State) (p : Pid) (n : Nat) (b : Bool) : (s.setTag p n b).claimedRegions = s.claimedRegions := rfl
@[simp] theorem State.setTag_claimedWeirs (s : State) (p : Pid) (n : Nat) (b : Bool) : (s.setTag p n b).claimedWeirs = s.claimedWeirs := rfl
@[simp] theorem State.setTag_holdWaits (s : State) (p : Pid) (n : Nat) (b : Bool) : (s.setTag p n b).holdWaits = s.holdWaits := rfl
@[simp] theorem State.setTag_timers (s : State) (p : Pid) (n : Nat) (b : Bool) : (s.setTag p n b).timers = s.timers := rfl
@[simp] theorem State.setTag_disc (s : State) (p : Pid) (n : Nat) (b : Bool) : (s.setTag p n b).disc = s.disc := rfl
@[simp] theorem State.setTag_res (s : State) (p : Pid) (n : Nat) (b : Bool) : (s.setTag p n b).res = s.res := rfl
@[simp] theorem State.setTag_routers (s : State) (p : Pid) (n : Nat) (b : Bool) : (s.setTag p n b).routers = s.routers := rfl
@[simp] theorem State.setTag_msc (s : State) (p : Pid) (n : Nat) (b : Bool) : (s.setTag p n b).msc = s.msc := rfl
@[simp] theorem State.setTag_mc (s : State) (p : Pid) (n : Nat) (b : Bool) : (s.setTag p n b).mc = s.mc := rfl
@[simp] theorem State.setTag_pnx (s : State) (p : Pid) (n : Nat) (b : Bool) : (s.setTag p n b).pnx = s.pnx := rfl
@[simp] theorem State.setTag_wlv (s : State) (p : Pid) (n : Nat) (b : Bool) : (s.setTag p n b).wlv = s.wlv := rfl
@[simp] theorem State.setTag_wlvOut (s : State) (p : Pid) (n : Nat) (b : Bool) : (s.setTag p n b).wlvOut = s.wlvOut := rfl
@[simp] theorem State.setTag_cad (s : State) (p : Pid) (n : Nat) (b : Bool) : (s.setTag p n b).cad = s.cad := rfl
@[simp] theorem State.setTag_herd (s : State) (p : Pid) (n : Nat) (b : Bool) : (s.setTag p n b).herd = s.herd := rfl
@[simp] theorem State.setTag_pm (s : State) (p : Pid) (n : Nat) (b : Bool) : (s.setTag p n b).pm = s.pm := rfl
@[simp] theorem State.setTag_gander (s : State) (p : Pid) (n : Nat) (b : Bool) : (s.setTag p n b).gander = s.gander := rfl
@[simp] theorem State.setTag_sec (s : State) (p : Pid) (n : Nat) (b : Bool) : (s.setTag p n b).sec = s.sec := rfl
@[simp] theorem State.setTag_integ (s : State) (p : Pid) (n : Nat) (b : Bool) : (s.setTag p n b).integ = s.integ := rfl
@[simp] theorem State.setTag_ckpt (s : State) (p : Pid) (n : Nat) (b : Bool) : (s.setTag p n b).ckpt = s.ckpt := rfl
@[simp] theorem State.setTag_flash (s : State) (p : Pid) (n : Nat) (b : Bool) : (s.setTag p n b).flash = s.flash := rfl
@[simp] theorem State.setTag_mgt (s : State) (p : Pid) (n : Nat) (b : Bool) : (s.setTag p n b).mgt = s.mgt := rfl

@[simp] theorem State.wakeBank_pending (s : State) (p : Pid) (b : Fin 44) : (s.wakeBank p b).pending = s.pending := rfl
@[simp] theorem State.wakeBank_freeIx (s : State) (p : Pid) (b : Fin 44) : (s.wakeBank p b).freeIx = s.freeIx := rfl
@[simp] theorem State.wakeBank_reply (s : State) (p : Pid) (b : Fin 44) : (s.wakeBank p b).reply = s.reply := rfl
@[simp] theorem State.wakeBank_tb (s : State) (p : Pid) (b : Fin 44) : (s.wakeBank p b).tb = s.tb := rfl
@[simp] theorem State.wakeBank_mem (s : State) (p : Pid) (b : Fin 44) : (s.wakeBank p b).mem = s.mem := rfl
@[simp] theorem State.wakeBank_weirs (s : State) (p : Pid) (b : Fin 44) : (s.wakeBank p b).weirs = s.weirs := rfl
@[simp] theorem State.wakeBank_flight (s : State) (p : Pid) (b : Fin 44) : (s.wakeBank p b).flight = s.flight := rfl
@[simp] theorem State.wakeBank_notices (s : State) (p : Pid) (b : Fin 44) : (s.wakeBank p b).notices = s.notices := rfl
@[simp] theorem State.wakeBank_watches (s : State) (p : Pid) (b : Fin 44) : (s.wakeBank p b).watches = s.watches := rfl
@[simp] theorem State.wakeBank_ccWeir (s : State) (p : Pid) (b : Fin 44) : (s.wakeBank p b).ccWeir = s.ccWeir := rfl
@[simp] theorem State.wakeBank_transfers (s : State) (p : Pid) (b : Fin 44) : (s.wakeBank p b).transfers = s.transfers := rfl
@[simp] theorem State.wakeBank_nextId (s : State) (p : Pid) (b : Fin 44) : (s.wakeBank p b).nextId = s.nextId := rfl
@[simp] theorem State.wakeBank_sent (s : State) (p : Pid) (b : Fin 44) : (s.wakeBank p b).sent = s.sent := rfl
@[simp] theorem State.wakeBank_handed (s : State) (p : Pid) (b : Fin 44) : (s.wakeBank p b).handed = s.handed := rfl
@[simp] theorem State.wakeBank_claimedRegions (s : State) (p : Pid) (b : Fin 44) : (s.wakeBank p b).claimedRegions = s.claimedRegions := rfl
@[simp] theorem State.wakeBank_claimedWeirs (s : State) (p : Pid) (b : Fin 44) : (s.wakeBank p b).claimedWeirs = s.claimedWeirs := rfl
@[simp] theorem State.wakeBank_holdWaits (s : State) (p : Pid) (b : Fin 44) : (s.wakeBank p b).holdWaits = s.holdWaits := rfl
@[simp] theorem State.wakeBank_timers (s : State) (p : Pid) (b : Fin 44) : (s.wakeBank p b).timers = s.timers := rfl
@[simp] theorem State.wakeBank_disc (s : State) (p : Pid) (b : Fin 44) : (s.wakeBank p b).disc = s.disc := rfl
@[simp] theorem State.wakeBank_res (s : State) (p : Pid) (b : Fin 44) : (s.wakeBank p b).res = s.res := rfl
@[simp] theorem State.wakeBank_routers (s : State) (p : Pid) (b : Fin 44) : (s.wakeBank p b).routers = s.routers := rfl
@[simp] theorem State.wakeBank_msc (s : State) (p : Pid) (b : Fin 44) : (s.wakeBank p b).msc = s.msc := rfl
@[simp] theorem State.wakeBank_mc (s : State) (p : Pid) (b : Fin 44) : (s.wakeBank p b).mc = s.mc := rfl
@[simp] theorem State.wakeBank_pnx (s : State) (p : Pid) (b : Fin 44) : (s.wakeBank p b).pnx = s.pnx := rfl
@[simp] theorem State.wakeBank_wlv (s : State) (p : Pid) (b : Fin 44) : (s.wakeBank p b).wlv = s.wlv := rfl
@[simp] theorem State.wakeBank_wlvOut (s : State) (p : Pid) (b : Fin 44) : (s.wakeBank p b).wlvOut = s.wlvOut := rfl
@[simp] theorem State.wakeBank_cad (s : State) (p : Pid) (b : Fin 44) : (s.wakeBank p b).cad = s.cad := rfl
@[simp] theorem State.wakeBank_herd (s : State) (p : Pid) (b : Fin 44) : (s.wakeBank p b).herd = s.herd := rfl
@[simp] theorem State.wakeBank_pm (s : State) (p : Pid) (b : Fin 44) : (s.wakeBank p b).pm = s.pm := rfl
@[simp] theorem State.wakeBank_gander (s : State) (p : Pid) (b : Fin 44) : (s.wakeBank p b).gander = s.gander := rfl
@[simp] theorem State.wakeBank_sec (s : State) (p : Pid) (b : Fin 44) : (s.wakeBank p b).sec = s.sec := rfl
@[simp] theorem State.wakeBank_integ (s : State) (p : Pid) (b : Fin 44) : (s.wakeBank p b).integ = s.integ := rfl
@[simp] theorem State.wakeBank_ckpt (s : State) (p : Pid) (b : Fin 44) : (s.wakeBank p b).ckpt = s.ckpt := rfl
@[simp] theorem State.wakeBank_flash (s : State) (p : Pid) (b : Fin 44) : (s.wakeBank p b).flash = s.flash := rfl
@[simp] theorem State.wakeBank_mgt (s : State) (p : Pid) (b : Fin 44) : (s.wakeBank p b).mgt = s.mgt := rfl

@[simp] theorem State.setPc_pending (s : State) (p : Pid) (pc : U32) : (s.setPc p pc).pending = s.pending := rfl
@[simp] theorem State.setPc_freeIx (s : State) (p : Pid) (pc : U32) : (s.setPc p pc).freeIx = s.freeIx := rfl
@[simp] theorem State.setPc_reply (s : State) (p : Pid) (pc : U32) : (s.setPc p pc).reply = s.reply := rfl
@[simp] theorem State.setPc_tb (s : State) (p : Pid) (pc : U32) : (s.setPc p pc).tb = s.tb := rfl
@[simp] theorem State.setPc_mem (s : State) (p : Pid) (pc : U32) : (s.setPc p pc).mem = s.mem := rfl
@[simp] theorem State.setPc_weirs (s : State) (p : Pid) (pc : U32) : (s.setPc p pc).weirs = s.weirs := rfl
@[simp] theorem State.setPc_flight (s : State) (p : Pid) (pc : U32) : (s.setPc p pc).flight = s.flight := rfl
@[simp] theorem State.setPc_notices (s : State) (p : Pid) (pc : U32) : (s.setPc p pc).notices = s.notices := rfl
@[simp] theorem State.setPc_watches (s : State) (p : Pid) (pc : U32) : (s.setPc p pc).watches = s.watches := rfl
@[simp] theorem State.setPc_ccWeir (s : State) (p : Pid) (pc : U32) : (s.setPc p pc).ccWeir = s.ccWeir := rfl
@[simp] theorem State.setPc_transfers (s : State) (p : Pid) (pc : U32) : (s.setPc p pc).transfers = s.transfers := rfl
@[simp] theorem State.setPc_nextId (s : State) (p : Pid) (pc : U32) : (s.setPc p pc).nextId = s.nextId := rfl
@[simp] theorem State.setPc_sent (s : State) (p : Pid) (pc : U32) : (s.setPc p pc).sent = s.sent := rfl
@[simp] theorem State.setPc_handed (s : State) (p : Pid) (pc : U32) : (s.setPc p pc).handed = s.handed := rfl
@[simp] theorem State.setPc_claimedRegions (s : State) (p : Pid) (pc : U32) : (s.setPc p pc).claimedRegions = s.claimedRegions := rfl
@[simp] theorem State.setPc_claimedWeirs (s : State) (p : Pid) (pc : U32) : (s.setPc p pc).claimedWeirs = s.claimedWeirs := rfl
@[simp] theorem State.setPc_holdWaits (s : State) (p : Pid) (pc : U32) : (s.setPc p pc).holdWaits = s.holdWaits := rfl
@[simp] theorem State.setPc_timers (s : State) (p : Pid) (pc : U32) : (s.setPc p pc).timers = s.timers := rfl
@[simp] theorem State.setPc_disc (s : State) (p : Pid) (pc : U32) : (s.setPc p pc).disc = s.disc := rfl
@[simp] theorem State.setPc_res (s : State) (p : Pid) (pc : U32) : (s.setPc p pc).res = s.res := rfl
@[simp] theorem State.setPc_routers (s : State) (p : Pid) (pc : U32) : (s.setPc p pc).routers = s.routers := rfl
@[simp] theorem State.setPc_msc (s : State) (p : Pid) (pc : U32) : (s.setPc p pc).msc = s.msc := rfl
@[simp] theorem State.setPc_mc (s : State) (p : Pid) (pc : U32) : (s.setPc p pc).mc = s.mc := rfl
@[simp] theorem State.setPc_pnx (s : State) (p : Pid) (pc : U32) : (s.setPc p pc).pnx = s.pnx := rfl
@[simp] theorem State.setPc_wlv (s : State) (p : Pid) (pc : U32) : (s.setPc p pc).wlv = s.wlv := rfl
@[simp] theorem State.setPc_wlvOut (s : State) (p : Pid) (pc : U32) : (s.setPc p pc).wlvOut = s.wlvOut := rfl
@[simp] theorem State.setPc_cad (s : State) (p : Pid) (pc : U32) : (s.setPc p pc).cad = s.cad := rfl
@[simp] theorem State.setPc_herd (s : State) (p : Pid) (pc : U32) : (s.setPc p pc).herd = s.herd := rfl
@[simp] theorem State.setPc_pm (s : State) (p : Pid) (pc : U32) : (s.setPc p pc).pm = s.pm := rfl
@[simp] theorem State.setPc_gander (s : State) (p : Pid) (pc : U32) : (s.setPc p pc).gander = s.gander := rfl
@[simp] theorem State.setPc_sec (s : State) (p : Pid) (pc : U32) : (s.setPc p pc).sec = s.sec := rfl
@[simp] theorem State.setPc_integ (s : State) (p : Pid) (pc : U32) : (s.setPc p pc).integ = s.integ := rfl
@[simp] theorem State.setPc_ckpt (s : State) (p : Pid) (pc : U32) : (s.setPc p pc).ckpt = s.ckpt := rfl
@[simp] theorem State.setPc_flash (s : State) (p : Pid) (pc : U32) : (s.setPc p pc).flash = s.flash := rfl
@[simp] theorem State.setPc_mgt (s : State) (p : Pid) (pc : U32) : (s.setPc p pc).mgt = s.mgt := rfl

@[simp] theorem State.blockOn_pending (s : State) (p q : Pid) (n : BitVec 17) (full : Bool) : (s.blockOn p q n full).pending = s.pending := rfl
@[simp] theorem State.blockOn_freeIx (s : State) (p q : Pid) (n : BitVec 17) (full : Bool) : (s.blockOn p q n full).freeIx = s.freeIx := rfl
@[simp] theorem State.blockOn_reply (s : State) (p q : Pid) (n : BitVec 17) (full : Bool) : (s.blockOn p q n full).reply = s.reply := rfl
@[simp] theorem State.blockOn_tb (s : State) (p q : Pid) (n : BitVec 17) (full : Bool) : (s.blockOn p q n full).tb = s.tb := rfl
@[simp] theorem State.blockOn_mem (s : State) (p q : Pid) (n : BitVec 17) (full : Bool) : (s.blockOn p q n full).mem = s.mem := rfl
@[simp] theorem State.blockOn_weirs (s : State) (p q : Pid) (n : BitVec 17) (full : Bool) : (s.blockOn p q n full).weirs = s.weirs := rfl
@[simp] theorem State.blockOn_flight (s : State) (p q : Pid) (n : BitVec 17) (full : Bool) : (s.blockOn p q n full).flight = s.flight := rfl
@[simp] theorem State.blockOn_notices (s : State) (p q : Pid) (n : BitVec 17) (full : Bool) : (s.blockOn p q n full).notices = s.notices := rfl
@[simp] theorem State.blockOn_watches (s : State) (p q : Pid) (n : BitVec 17) (full : Bool) : (s.blockOn p q n full).watches = s.watches := rfl
@[simp] theorem State.blockOn_ccWeir (s : State) (p q : Pid) (n : BitVec 17) (full : Bool) : (s.blockOn p q n full).ccWeir = s.ccWeir := rfl
@[simp] theorem State.blockOn_transfers (s : State) (p q : Pid) (n : BitVec 17) (full : Bool) : (s.blockOn p q n full).transfers = s.transfers := rfl
@[simp] theorem State.blockOn_nextId (s : State) (p q : Pid) (n : BitVec 17) (full : Bool) : (s.blockOn p q n full).nextId = s.nextId := rfl
@[simp] theorem State.blockOn_sent (s : State) (p q : Pid) (n : BitVec 17) (full : Bool) : (s.blockOn p q n full).sent = s.sent := rfl
@[simp] theorem State.blockOn_handed (s : State) (p q : Pid) (n : BitVec 17) (full : Bool) : (s.blockOn p q n full).handed = s.handed := rfl
@[simp] theorem State.blockOn_claimedRegions (s : State) (p q : Pid) (n : BitVec 17) (full : Bool) : (s.blockOn p q n full).claimedRegions = s.claimedRegions := rfl
@[simp] theorem State.blockOn_claimedWeirs (s : State) (p q : Pid) (n : BitVec 17) (full : Bool) : (s.blockOn p q n full).claimedWeirs = s.claimedWeirs := rfl
@[simp] theorem State.blockOn_holdWaits (s : State) (p q : Pid) (n : BitVec 17) (full : Bool) : (s.blockOn p q n full).holdWaits = s.holdWaits := rfl
@[simp] theorem State.blockOn_timers (s : State) (p q : Pid) (n : BitVec 17) (full : Bool) : (s.blockOn p q n full).timers = s.timers := rfl
@[simp] theorem State.blockOn_disc (s : State) (p q : Pid) (n : BitVec 17) (full : Bool) : (s.blockOn p q n full).disc = s.disc := rfl
@[simp] theorem State.blockOn_res (s : State) (p q : Pid) (n : BitVec 17) (full : Bool) : (s.blockOn p q n full).res = s.res := rfl
@[simp] theorem State.blockOn_routers (s : State) (p q : Pid) (n : BitVec 17) (full : Bool) : (s.blockOn p q n full).routers = s.routers := rfl
@[simp] theorem State.blockOn_msc (s : State) (p q : Pid) (n : BitVec 17) (full : Bool) : (s.blockOn p q n full).msc = s.msc := rfl
@[simp] theorem State.blockOn_mc (s : State) (p q : Pid) (n : BitVec 17) (full : Bool) : (s.blockOn p q n full).mc = s.mc := rfl
@[simp] theorem State.blockOn_pnx (s : State) (p q : Pid) (n : BitVec 17) (full : Bool) : (s.blockOn p q n full).pnx = s.pnx := rfl
@[simp] theorem State.blockOn_wlv (s : State) (p q : Pid) (n : BitVec 17) (full : Bool) : (s.blockOn p q n full).wlv = s.wlv := rfl
@[simp] theorem State.blockOn_wlvOut (s : State) (p q : Pid) (n : BitVec 17) (full : Bool) : (s.blockOn p q n full).wlvOut = s.wlvOut := rfl
@[simp] theorem State.blockOn_cad (s : State) (p q : Pid) (n : BitVec 17) (full : Bool) : (s.blockOn p q n full).cad = s.cad := rfl
@[simp] theorem State.blockOn_herd (s : State) (p q : Pid) (n : BitVec 17) (full : Bool) : (s.blockOn p q n full).herd = s.herd := rfl
@[simp] theorem State.blockOn_pm (s : State) (p q : Pid) (n : BitVec 17) (full : Bool) : (s.blockOn p q n full).pm = s.pm := rfl
@[simp] theorem State.blockOn_gander (s : State) (p q : Pid) (n : BitVec 17) (full : Bool) : (s.blockOn p q n full).gander = s.gander := rfl
@[simp] theorem State.blockOn_sec (s : State) (p q : Pid) (n : BitVec 17) (full : Bool) : (s.blockOn p q n full).sec = s.sec := rfl
@[simp] theorem State.blockOn_integ (s : State) (p q : Pid) (n : BitVec 17) (full : Bool) : (s.blockOn p q n full).integ = s.integ := rfl
@[simp] theorem State.blockOn_ckpt (s : State) (p q : Pid) (n : BitVec 17) (full : Bool) : (s.blockOn p q n full).ckpt = s.ckpt := rfl
@[simp] theorem State.blockOn_flash (s : State) (p q : Pid) (n : BitVec 17) (full : Bool) : (s.blockOn p q n full).flash = s.flash := rfl
@[simp] theorem State.blockOn_mgt (s : State) (p q : Pid) (n : BitVec 17) (full : Bool) : (s.blockOn p q n full).mgt = s.mgt := rfl

@[simp] theorem State.discardArray_pending (s : State) (p : Pid) : (s.discardArray p).pending = s.pending := rfl
@[simp] theorem State.discardArray_freeIx (s : State) (p : Pid) : (s.discardArray p).freeIx = s.freeIx := rfl
@[simp] theorem State.discardArray_reply (s : State) (p : Pid) : (s.discardArray p).reply = s.reply := rfl
@[simp] theorem State.discardArray_tb (s : State) (p : Pid) : (s.discardArray p).tb = s.tb := rfl
@[simp] theorem State.discardArray_mem (s : State) (p : Pid) : (s.discardArray p).mem = s.mem := rfl
@[simp] theorem State.discardArray_weirs (s : State) (p : Pid) : (s.discardArray p).weirs = s.weirs := rfl
@[simp] theorem State.discardArray_flight (s : State) (p : Pid) : (s.discardArray p).flight = s.flight := rfl
@[simp] theorem State.discardArray_notices (s : State) (p : Pid) : (s.discardArray p).notices = s.notices := rfl
@[simp] theorem State.discardArray_watches (s : State) (p : Pid) : (s.discardArray p).watches = s.watches := rfl
@[simp] theorem State.discardArray_ccWeir (s : State) (p : Pid) : (s.discardArray p).ccWeir = s.ccWeir := rfl
@[simp] theorem State.discardArray_transfers (s : State) (p : Pid) : (s.discardArray p).transfers = s.transfers := rfl
@[simp] theorem State.discardArray_nextId (s : State) (p : Pid) : (s.discardArray p).nextId = s.nextId := rfl
@[simp] theorem State.discardArray_sent (s : State) (p : Pid) : (s.discardArray p).sent = s.sent := rfl
@[simp] theorem State.discardArray_handed (s : State) (p : Pid) : (s.discardArray p).handed = s.handed := rfl
@[simp] theorem State.discardArray_claimedRegions (s : State) (p : Pid) : (s.discardArray p).claimedRegions = s.claimedRegions := rfl
@[simp] theorem State.discardArray_claimedWeirs (s : State) (p : Pid) : (s.discardArray p).claimedWeirs = s.claimedWeirs := rfl
@[simp] theorem State.discardArray_holdWaits (s : State) (p : Pid) : (s.discardArray p).holdWaits = s.holdWaits := rfl
@[simp] theorem State.discardArray_timers (s : State) (p : Pid) : (s.discardArray p).timers = s.timers := rfl
@[simp] theorem State.discardArray_disc (s : State) (p : Pid) : (s.discardArray p).disc = s.disc := rfl
@[simp] theorem State.discardArray_res (s : State) (p : Pid) : (s.discardArray p).res = s.res := rfl
@[simp] theorem State.discardArray_routers (s : State) (p : Pid) : (s.discardArray p).routers = s.routers := rfl
@[simp] theorem State.discardArray_msc (s : State) (p : Pid) : (s.discardArray p).msc = s.msc := rfl
@[simp] theorem State.discardArray_mc (s : State) (p : Pid) : (s.discardArray p).mc = s.mc := rfl
@[simp] theorem State.discardArray_pnx (s : State) (p : Pid) : (s.discardArray p).pnx = s.pnx := rfl
@[simp] theorem State.discardArray_wlv (s : State) (p : Pid) : (s.discardArray p).wlv = s.wlv := rfl
@[simp] theorem State.discardArray_wlvOut (s : State) (p : Pid) : (s.discardArray p).wlvOut = s.wlvOut := rfl
@[simp] theorem State.discardArray_cad (s : State) (p : Pid) : (s.discardArray p).cad = s.cad := rfl
@[simp] theorem State.discardArray_herd (s : State) (p : Pid) : (s.discardArray p).herd = s.herd := rfl
@[simp] theorem State.discardArray_pm (s : State) (p : Pid) : (s.discardArray p).pm = s.pm := rfl
@[simp] theorem State.discardArray_gander (s : State) (p : Pid) : (s.discardArray p).gander = s.gander := rfl
@[simp] theorem State.discardArray_sec (s : State) (p : Pid) : (s.discardArray p).sec = s.sec := rfl
@[simp] theorem State.discardArray_integ (s : State) (p : Pid) : (s.discardArray p).integ = s.integ := rfl
@[simp] theorem State.discardArray_ckpt (s : State) (p : Pid) : (s.discardArray p).ckpt = s.ckpt := rfl
@[simp] theorem State.discardArray_flash (s : State) (p : Pid) : (s.discardArray p).flash = s.flash := rfl
@[simp] theorem State.discardArray_mgt (s : State) (p : Pid) : (s.discardArray p).mgt = s.mgt := rfl

@[simp] theorem State.dropTask_pending (s : State) (p : Pid) : (s.dropTask p).pending = s.pending := rfl
@[simp] theorem State.dropTask_freeIx (s : State) (p : Pid) : (s.dropTask p).freeIx = s.freeIx := rfl
@[simp] theorem State.dropTask_reply (s : State) (p : Pid) : (s.dropTask p).reply = s.reply := rfl
@[simp] theorem State.dropTask_tb (s : State) (p : Pid) : (s.dropTask p).tb = s.tb := rfl
@[simp] theorem State.dropTask_mem (s : State) (p : Pid) : (s.dropTask p).mem = s.mem := rfl
@[simp] theorem State.dropTask_weirs (s : State) (p : Pid) : (s.dropTask p).weirs = s.weirs := rfl
@[simp] theorem State.dropTask_flight (s : State) (p : Pid) : (s.dropTask p).flight = s.flight := rfl
@[simp] theorem State.dropTask_notices (s : State) (p : Pid) : (s.dropTask p).notices = s.notices := rfl
@[simp] theorem State.dropTask_ccWeir (s : State) (p : Pid) : (s.dropTask p).ccWeir = s.ccWeir := rfl
@[simp] theorem State.dropTask_transfers (s : State) (p : Pid) : (s.dropTask p).transfers = s.transfers := rfl
@[simp] theorem State.dropTask_nextId (s : State) (p : Pid) : (s.dropTask p).nextId = s.nextId := rfl
@[simp] theorem State.dropTask_sent (s : State) (p : Pid) : (s.dropTask p).sent = s.sent := rfl
@[simp] theorem State.dropTask_handed (s : State) (p : Pid) : (s.dropTask p).handed = s.handed := rfl
@[simp] theorem State.dropTask_claimedRegions (s : State) (p : Pid) : (s.dropTask p).claimedRegions = s.claimedRegions := rfl
@[simp] theorem State.dropTask_claimedWeirs (s : State) (p : Pid) : (s.dropTask p).claimedWeirs = s.claimedWeirs := rfl
@[simp] theorem State.dropTask_holdWaits (s : State) (p : Pid) : (s.dropTask p).holdWaits = s.holdWaits := rfl
@[simp] theorem State.dropTask_timers (s : State) (p : Pid) : (s.dropTask p).timers = s.timers := rfl
@[simp] theorem State.dropTask_disc (s : State) (p : Pid) : (s.dropTask p).disc = s.disc := rfl
@[simp] theorem State.dropTask_routers (s : State) (p : Pid) : (s.dropTask p).routers = s.routers := rfl
@[simp] theorem State.dropTask_msc (s : State) (p : Pid) : (s.dropTask p).msc = s.msc := rfl
@[simp] theorem State.dropTask_mc (s : State) (p : Pid) : (s.dropTask p).mc = s.mc := rfl
@[simp] theorem State.dropTask_pnx (s : State) (p : Pid) : (s.dropTask p).pnx = s.pnx := rfl
@[simp] theorem State.dropTask_wlv (s : State) (p : Pid) : (s.dropTask p).wlv = s.wlv := rfl
@[simp] theorem State.dropTask_wlvOut (s : State) (p : Pid) : (s.dropTask p).wlvOut = s.wlvOut := rfl
@[simp] theorem State.dropTask_cad (s : State) (p : Pid) : (s.dropTask p).cad = s.cad := rfl
@[simp] theorem State.dropTask_herd (s : State) (p : Pid) : (s.dropTask p).herd = s.herd := rfl
@[simp] theorem State.dropTask_gander (s : State) (p : Pid) : (s.dropTask p).gander = s.gander := rfl
@[simp] theorem State.dropTask_sec (s : State) (p : Pid) : (s.dropTask p).sec = s.sec := rfl
@[simp] theorem State.dropTask_integ (s : State) (p : Pid) : (s.dropTask p).integ = s.integ := rfl
@[simp] theorem State.dropTask_ckpt (s : State) (p : Pid) : (s.dropTask p).ckpt = s.ckpt := rfl
@[simp] theorem State.dropTask_flash (s : State) (p : Pid) : (s.dropTask p).flash = s.flash := rfl
@[simp] theorem State.dropTask_mgt (s : State) (p : Pid) : (s.dropTask p).mgt = s.mgt := rfl

@[simp] theorem State.onTimer_pending (s : State) (n : Fin 16) (g : Timer → Timer) : (s.onTimer n g).pending = s.pending := rfl
@[simp] theorem State.onTimer_freeIx (s : State) (n : Fin 16) (g : Timer → Timer) : (s.onTimer n g).freeIx = s.freeIx := rfl
@[simp] theorem State.onTimer_reply (s : State) (n : Fin 16) (g : Timer → Timer) : (s.onTimer n g).reply = s.reply := rfl
@[simp] theorem State.onTimer_tb (s : State) (n : Fin 16) (g : Timer → Timer) : (s.onTimer n g).tb = s.tb := rfl
@[simp] theorem State.onTimer_mem (s : State) (n : Fin 16) (g : Timer → Timer) : (s.onTimer n g).mem = s.mem := rfl
@[simp] theorem State.onTimer_polders (s : State) (n : Fin 16) (g : Timer → Timer) : (s.onTimer n g).polders = s.polders := rfl
@[simp] theorem State.onTimer_weirs (s : State) (n : Fin 16) (g : Timer → Timer) : (s.onTimer n g).weirs = s.weirs := rfl
@[simp] theorem State.onTimer_flight (s : State) (n : Fin 16) (g : Timer → Timer) : (s.onTimer n g).flight = s.flight := rfl
@[simp] theorem State.onTimer_notices (s : State) (n : Fin 16) (g : Timer → Timer) : (s.onTimer n g).notices = s.notices := rfl
@[simp] theorem State.onTimer_watches (s : State) (n : Fin 16) (g : Timer → Timer) : (s.onTimer n g).watches = s.watches := rfl
@[simp] theorem State.onTimer_ccWeir (s : State) (n : Fin 16) (g : Timer → Timer) : (s.onTimer n g).ccWeir = s.ccWeir := rfl
@[simp] theorem State.onTimer_transfers (s : State) (n : Fin 16) (g : Timer → Timer) : (s.onTimer n g).transfers = s.transfers := rfl
@[simp] theorem State.onTimer_nextId (s : State) (n : Fin 16) (g : Timer → Timer) : (s.onTimer n g).nextId = s.nextId := rfl
@[simp] theorem State.onTimer_sent (s : State) (n : Fin 16) (g : Timer → Timer) : (s.onTimer n g).sent = s.sent := rfl
@[simp] theorem State.onTimer_handed (s : State) (n : Fin 16) (g : Timer → Timer) : (s.onTimer n g).handed = s.handed := rfl
@[simp] theorem State.onTimer_claimedRegions (s : State) (n : Fin 16) (g : Timer → Timer) : (s.onTimer n g).claimedRegions = s.claimedRegions := rfl
@[simp] theorem State.onTimer_claimedWeirs (s : State) (n : Fin 16) (g : Timer → Timer) : (s.onTimer n g).claimedWeirs = s.claimedWeirs := rfl
@[simp] theorem State.onTimer_holdWaits (s : State) (n : Fin 16) (g : Timer → Timer) : (s.onTimer n g).holdWaits = s.holdWaits := rfl
@[simp] theorem State.onTimer_disc (s : State) (n : Fin 16) (g : Timer → Timer) : (s.onTimer n g).disc = s.disc := rfl
@[simp] theorem State.onTimer_res (s : State) (n : Fin 16) (g : Timer → Timer) : (s.onTimer n g).res = s.res := rfl
@[simp] theorem State.onTimer_routers (s : State) (n : Fin 16) (g : Timer → Timer) : (s.onTimer n g).routers = s.routers := rfl
@[simp] theorem State.onTimer_msc (s : State) (n : Fin 16) (g : Timer → Timer) : (s.onTimer n g).msc = s.msc := rfl
@[simp] theorem State.onTimer_mc (s : State) (n : Fin 16) (g : Timer → Timer) : (s.onTimer n g).mc = s.mc := rfl
@[simp] theorem State.onTimer_pnx (s : State) (n : Fin 16) (g : Timer → Timer) : (s.onTimer n g).pnx = s.pnx := rfl
@[simp] theorem State.onTimer_wlv (s : State) (n : Fin 16) (g : Timer → Timer) : (s.onTimer n g).wlv = s.wlv := rfl
@[simp] theorem State.onTimer_wlvOut (s : State) (n : Fin 16) (g : Timer → Timer) : (s.onTimer n g).wlvOut = s.wlvOut := rfl
@[simp] theorem State.onTimer_cad (s : State) (n : Fin 16) (g : Timer → Timer) : (s.onTimer n g).cad = s.cad := rfl
@[simp] theorem State.onTimer_herd (s : State) (n : Fin 16) (g : Timer → Timer) : (s.onTimer n g).herd = s.herd := rfl
@[simp] theorem State.onTimer_pm (s : State) (n : Fin 16) (g : Timer → Timer) : (s.onTimer n g).pm = s.pm := rfl
@[simp] theorem State.onTimer_gander (s : State) (n : Fin 16) (g : Timer → Timer) : (s.onTimer n g).gander = s.gander := rfl
@[simp] theorem State.onTimer_sec (s : State) (n : Fin 16) (g : Timer → Timer) : (s.onTimer n g).sec = s.sec := rfl
@[simp] theorem State.onTimer_integ (s : State) (n : Fin 16) (g : Timer → Timer) : (s.onTimer n g).integ = s.integ := rfl
@[simp] theorem State.onTimer_ckpt (s : State) (n : Fin 16) (g : Timer → Timer) : (s.onTimer n g).ckpt = s.ckpt := rfl
@[simp] theorem State.onTimer_flash (s : State) (n : Fin 16) (g : Timer → Timer) : (s.onTimer n g).flash = s.flash := rfl
@[simp] theorem State.onTimer_mgt (s : State) (n : Fin 16) (g : Timer → Timer) : (s.onTimer n g).mgt = s.mgt := rfl

@[simp] theorem State.setOwner_pending (s : State) (e : Fin 96) (o : BitVec 4) : (s.setOwner e o).pending = s.pending := rfl
@[simp] theorem State.setOwner_freeIx (s : State) (e : Fin 96) (o : BitVec 4) : (s.setOwner e o).freeIx = s.freeIx := rfl
@[simp] theorem State.setOwner_reply (s : State) (e : Fin 96) (o : BitVec 4) : (s.setOwner e o).reply = s.reply := rfl
@[simp] theorem State.setOwner_tb (s : State) (e : Fin 96) (o : BitVec 4) : (s.setOwner e o).tb = s.tb := rfl
@[simp] theorem State.setOwner_mem (s : State) (e : Fin 96) (o : BitVec 4) : (s.setOwner e o).mem = s.mem := rfl
@[simp] theorem State.setOwner_polders (s : State) (e : Fin 96) (o : BitVec 4) : (s.setOwner e o).polders = s.polders := rfl
@[simp] theorem State.setOwner_weirs (s : State) (e : Fin 96) (o : BitVec 4) : (s.setOwner e o).weirs = s.weirs := rfl
@[simp] theorem State.setOwner_flight (s : State) (e : Fin 96) (o : BitVec 4) : (s.setOwner e o).flight = s.flight := rfl
@[simp] theorem State.setOwner_notices (s : State) (e : Fin 96) (o : BitVec 4) : (s.setOwner e o).notices = s.notices := rfl
@[simp] theorem State.setOwner_watches (s : State) (e : Fin 96) (o : BitVec 4) : (s.setOwner e o).watches = s.watches := rfl
@[simp] theorem State.setOwner_ccWeir (s : State) (e : Fin 96) (o : BitVec 4) : (s.setOwner e o).ccWeir = s.ccWeir := rfl
@[simp] theorem State.setOwner_transfers (s : State) (e : Fin 96) (o : BitVec 4) : (s.setOwner e o).transfers = s.transfers := rfl
@[simp] theorem State.setOwner_nextId (s : State) (e : Fin 96) (o : BitVec 4) : (s.setOwner e o).nextId = s.nextId := rfl
@[simp] theorem State.setOwner_sent (s : State) (e : Fin 96) (o : BitVec 4) : (s.setOwner e o).sent = s.sent := rfl
@[simp] theorem State.setOwner_handed (s : State) (e : Fin 96) (o : BitVec 4) : (s.setOwner e o).handed = s.handed := rfl
@[simp] theorem State.setOwner_claimedRegions (s : State) (e : Fin 96) (o : BitVec 4) : (s.setOwner e o).claimedRegions = s.claimedRegions := rfl
@[simp] theorem State.setOwner_claimedWeirs (s : State) (e : Fin 96) (o : BitVec 4) : (s.setOwner e o).claimedWeirs = s.claimedWeirs := rfl
@[simp] theorem State.setOwner_holdWaits (s : State) (e : Fin 96) (o : BitVec 4) : (s.setOwner e o).holdWaits = s.holdWaits := rfl
@[simp] theorem State.setOwner_timers (s : State) (e : Fin 96) (o : BitVec 4) : (s.setOwner e o).timers = s.timers := rfl
@[simp] theorem State.setOwner_disc (s : State) (e : Fin 96) (o : BitVec 4) : (s.setOwner e o).disc = s.disc := rfl
@[simp] theorem State.setOwner_routers (s : State) (e : Fin 96) (o : BitVec 4) : (s.setOwner e o).routers = s.routers := rfl
@[simp] theorem State.setOwner_msc (s : State) (e : Fin 96) (o : BitVec 4) : (s.setOwner e o).msc = s.msc := rfl
@[simp] theorem State.setOwner_mc (s : State) (e : Fin 96) (o : BitVec 4) : (s.setOwner e o).mc = s.mc := rfl
@[simp] theorem State.setOwner_pnx (s : State) (e : Fin 96) (o : BitVec 4) : (s.setOwner e o).pnx = s.pnx := rfl
@[simp] theorem State.setOwner_wlv (s : State) (e : Fin 96) (o : BitVec 4) : (s.setOwner e o).wlv = s.wlv := rfl
@[simp] theorem State.setOwner_wlvOut (s : State) (e : Fin 96) (o : BitVec 4) : (s.setOwner e o).wlvOut = s.wlvOut := rfl
@[simp] theorem State.setOwner_cad (s : State) (e : Fin 96) (o : BitVec 4) : (s.setOwner e o).cad = s.cad := rfl
@[simp] theorem State.setOwner_herd (s : State) (e : Fin 96) (o : BitVec 4) : (s.setOwner e o).herd = s.herd := rfl
@[simp] theorem State.setOwner_pm (s : State) (e : Fin 96) (o : BitVec 4) : (s.setOwner e o).pm = s.pm := rfl
@[simp] theorem State.setOwner_gander (s : State) (e : Fin 96) (o : BitVec 4) : (s.setOwner e o).gander = s.gander := rfl
@[simp] theorem State.setOwner_sec (s : State) (e : Fin 96) (o : BitVec 4) : (s.setOwner e o).sec = s.sec := rfl
@[simp] theorem State.setOwner_integ (s : State) (e : Fin 96) (o : BitVec 4) : (s.setOwner e o).integ = s.integ := rfl
@[simp] theorem State.setOwner_ckpt (s : State) (e : Fin 96) (o : BitVec 4) : (s.setOwner e o).ckpt = s.ckpt := rfl
@[simp] theorem State.setOwner_flash (s : State) (e : Fin 96) (o : BitVec 4) : (s.setOwner e o).flash = s.flash := rfl
@[simp] theorem State.setOwner_mgt (s : State) (e : Fin 96) (o : BitVec 4) : (s.setOwner e o).mgt = s.mgt := rfl

@[simp] theorem State.onMc_pending (s : State) (m : Fin 8) (g : Mc → Mc) : (s.onMc m g).pending = s.pending := rfl
@[simp] theorem State.onMc_freeIx (s : State) (m : Fin 8) (g : Mc → Mc) : (s.onMc m g).freeIx = s.freeIx := rfl
@[simp] theorem State.onMc_reply (s : State) (m : Fin 8) (g : Mc → Mc) : (s.onMc m g).reply = s.reply := rfl
@[simp] theorem State.onMc_tb (s : State) (m : Fin 8) (g : Mc → Mc) : (s.onMc m g).tb = s.tb := rfl
@[simp] theorem State.onMc_mem (s : State) (m : Fin 8) (g : Mc → Mc) : (s.onMc m g).mem = s.mem := rfl
@[simp] theorem State.onMc_polders (s : State) (m : Fin 8) (g : Mc → Mc) : (s.onMc m g).polders = s.polders := rfl
@[simp] theorem State.onMc_weirs (s : State) (m : Fin 8) (g : Mc → Mc) : (s.onMc m g).weirs = s.weirs := rfl
@[simp] theorem State.onMc_flight (s : State) (m : Fin 8) (g : Mc → Mc) : (s.onMc m g).flight = s.flight := rfl
@[simp] theorem State.onMc_notices (s : State) (m : Fin 8) (g : Mc → Mc) : (s.onMc m g).notices = s.notices := rfl
@[simp] theorem State.onMc_watches (s : State) (m : Fin 8) (g : Mc → Mc) : (s.onMc m g).watches = s.watches := rfl
@[simp] theorem State.onMc_ccWeir (s : State) (m : Fin 8) (g : Mc → Mc) : (s.onMc m g).ccWeir = s.ccWeir := rfl
@[simp] theorem State.onMc_transfers (s : State) (m : Fin 8) (g : Mc → Mc) : (s.onMc m g).transfers = s.transfers := rfl
@[simp] theorem State.onMc_nextId (s : State) (m : Fin 8) (g : Mc → Mc) : (s.onMc m g).nextId = s.nextId := rfl
@[simp] theorem State.onMc_sent (s : State) (m : Fin 8) (g : Mc → Mc) : (s.onMc m g).sent = s.sent := rfl
@[simp] theorem State.onMc_handed (s : State) (m : Fin 8) (g : Mc → Mc) : (s.onMc m g).handed = s.handed := rfl
@[simp] theorem State.onMc_claimedRegions (s : State) (m : Fin 8) (g : Mc → Mc) : (s.onMc m g).claimedRegions = s.claimedRegions := rfl
@[simp] theorem State.onMc_claimedWeirs (s : State) (m : Fin 8) (g : Mc → Mc) : (s.onMc m g).claimedWeirs = s.claimedWeirs := rfl
@[simp] theorem State.onMc_holdWaits (s : State) (m : Fin 8) (g : Mc → Mc) : (s.onMc m g).holdWaits = s.holdWaits := rfl
@[simp] theorem State.onMc_timers (s : State) (m : Fin 8) (g : Mc → Mc) : (s.onMc m g).timers = s.timers := rfl
@[simp] theorem State.onMc_disc (s : State) (m : Fin 8) (g : Mc → Mc) : (s.onMc m g).disc = s.disc := rfl
@[simp] theorem State.onMc_res (s : State) (m : Fin 8) (g : Mc → Mc) : (s.onMc m g).res = s.res := rfl
@[simp] theorem State.onMc_routers (s : State) (m : Fin 8) (g : Mc → Mc) : (s.onMc m g).routers = s.routers := rfl
@[simp] theorem State.onMc_msc (s : State) (m : Fin 8) (g : Mc → Mc) : (s.onMc m g).msc = s.msc := rfl
@[simp] theorem State.onMc_pnx (s : State) (m : Fin 8) (g : Mc → Mc) : (s.onMc m g).pnx = s.pnx := rfl
@[simp] theorem State.onMc_wlv (s : State) (m : Fin 8) (g : Mc → Mc) : (s.onMc m g).wlv = s.wlv := rfl
@[simp] theorem State.onMc_wlvOut (s : State) (m : Fin 8) (g : Mc → Mc) : (s.onMc m g).wlvOut = s.wlvOut := rfl
@[simp] theorem State.onMc_cad (s : State) (m : Fin 8) (g : Mc → Mc) : (s.onMc m g).cad = s.cad := rfl
@[simp] theorem State.onMc_herd (s : State) (m : Fin 8) (g : Mc → Mc) : (s.onMc m g).herd = s.herd := rfl
@[simp] theorem State.onMc_pm (s : State) (m : Fin 8) (g : Mc → Mc) : (s.onMc m g).pm = s.pm := rfl
@[simp] theorem State.onMc_gander (s : State) (m : Fin 8) (g : Mc → Mc) : (s.onMc m g).gander = s.gander := rfl
@[simp] theorem State.onMc_sec (s : State) (m : Fin 8) (g : Mc → Mc) : (s.onMc m g).sec = s.sec := rfl
@[simp] theorem State.onMc_integ (s : State) (m : Fin 8) (g : Mc → Mc) : (s.onMc m g).integ = s.integ := rfl
@[simp] theorem State.onMc_ckpt (s : State) (m : Fin 8) (g : Mc → Mc) : (s.onMc m g).ckpt = s.ckpt := rfl
@[simp] theorem State.onMc_flash (s : State) (m : Fin 8) (g : Mc → Mc) : (s.onMc m g).flash = s.flash := rfl
@[simp] theorem State.onMc_mgt (s : State) (m : Fin 8) (g : Mc → Mc) : (s.onMc m g).mgt = s.mgt := rfl

@[simp] theorem State.onMsc_pending (s : State) (k : Fin 4) (g : Msc → Msc) : (s.onMsc k g).pending = s.pending := rfl
@[simp] theorem State.onMsc_freeIx (s : State) (k : Fin 4) (g : Msc → Msc) : (s.onMsc k g).freeIx = s.freeIx := rfl
@[simp] theorem State.onMsc_reply (s : State) (k : Fin 4) (g : Msc → Msc) : (s.onMsc k g).reply = s.reply := rfl
@[simp] theorem State.onMsc_tb (s : State) (k : Fin 4) (g : Msc → Msc) : (s.onMsc k g).tb = s.tb := rfl
@[simp] theorem State.onMsc_mem (s : State) (k : Fin 4) (g : Msc → Msc) : (s.onMsc k g).mem = s.mem := rfl
@[simp] theorem State.onMsc_polders (s : State) (k : Fin 4) (g : Msc → Msc) : (s.onMsc k g).polders = s.polders := rfl
@[simp] theorem State.onMsc_weirs (s : State) (k : Fin 4) (g : Msc → Msc) : (s.onMsc k g).weirs = s.weirs := rfl
@[simp] theorem State.onMsc_flight (s : State) (k : Fin 4) (g : Msc → Msc) : (s.onMsc k g).flight = s.flight := rfl
@[simp] theorem State.onMsc_notices (s : State) (k : Fin 4) (g : Msc → Msc) : (s.onMsc k g).notices = s.notices := rfl
@[simp] theorem State.onMsc_watches (s : State) (k : Fin 4) (g : Msc → Msc) : (s.onMsc k g).watches = s.watches := rfl
@[simp] theorem State.onMsc_ccWeir (s : State) (k : Fin 4) (g : Msc → Msc) : (s.onMsc k g).ccWeir = s.ccWeir := rfl
@[simp] theorem State.onMsc_transfers (s : State) (k : Fin 4) (g : Msc → Msc) : (s.onMsc k g).transfers = s.transfers := rfl
@[simp] theorem State.onMsc_nextId (s : State) (k : Fin 4) (g : Msc → Msc) : (s.onMsc k g).nextId = s.nextId := rfl
@[simp] theorem State.onMsc_sent (s : State) (k : Fin 4) (g : Msc → Msc) : (s.onMsc k g).sent = s.sent := rfl
@[simp] theorem State.onMsc_handed (s : State) (k : Fin 4) (g : Msc → Msc) : (s.onMsc k g).handed = s.handed := rfl
@[simp] theorem State.onMsc_claimedRegions (s : State) (k : Fin 4) (g : Msc → Msc) : (s.onMsc k g).claimedRegions = s.claimedRegions := rfl
@[simp] theorem State.onMsc_claimedWeirs (s : State) (k : Fin 4) (g : Msc → Msc) : (s.onMsc k g).claimedWeirs = s.claimedWeirs := rfl
@[simp] theorem State.onMsc_holdWaits (s : State) (k : Fin 4) (g : Msc → Msc) : (s.onMsc k g).holdWaits = s.holdWaits := rfl
@[simp] theorem State.onMsc_timers (s : State) (k : Fin 4) (g : Msc → Msc) : (s.onMsc k g).timers = s.timers := rfl
@[simp] theorem State.onMsc_disc (s : State) (k : Fin 4) (g : Msc → Msc) : (s.onMsc k g).disc = s.disc := rfl
@[simp] theorem State.onMsc_res (s : State) (k : Fin 4) (g : Msc → Msc) : (s.onMsc k g).res = s.res := rfl
@[simp] theorem State.onMsc_routers (s : State) (k : Fin 4) (g : Msc → Msc) : (s.onMsc k g).routers = s.routers := rfl
@[simp] theorem State.onMsc_mc (s : State) (k : Fin 4) (g : Msc → Msc) : (s.onMsc k g).mc = s.mc := rfl
@[simp] theorem State.onMsc_pnx (s : State) (k : Fin 4) (g : Msc → Msc) : (s.onMsc k g).pnx = s.pnx := rfl
@[simp] theorem State.onMsc_wlv (s : State) (k : Fin 4) (g : Msc → Msc) : (s.onMsc k g).wlv = s.wlv := rfl
@[simp] theorem State.onMsc_wlvOut (s : State) (k : Fin 4) (g : Msc → Msc) : (s.onMsc k g).wlvOut = s.wlvOut := rfl
@[simp] theorem State.onMsc_cad (s : State) (k : Fin 4) (g : Msc → Msc) : (s.onMsc k g).cad = s.cad := rfl
@[simp] theorem State.onMsc_herd (s : State) (k : Fin 4) (g : Msc → Msc) : (s.onMsc k g).herd = s.herd := rfl
@[simp] theorem State.onMsc_pm (s : State) (k : Fin 4) (g : Msc → Msc) : (s.onMsc k g).pm = s.pm := rfl
@[simp] theorem State.onMsc_gander (s : State) (k : Fin 4) (g : Msc → Msc) : (s.onMsc k g).gander = s.gander := rfl
@[simp] theorem State.onMsc_sec (s : State) (k : Fin 4) (g : Msc → Msc) : (s.onMsc k g).sec = s.sec := rfl
@[simp] theorem State.onMsc_integ (s : State) (k : Fin 4) (g : Msc → Msc) : (s.onMsc k g).integ = s.integ := rfl
@[simp] theorem State.onMsc_ckpt (s : State) (k : Fin 4) (g : Msc → Msc) : (s.onMsc k g).ckpt = s.ckpt := rfl
@[simp] theorem State.onMsc_flash (s : State) (k : Fin 4) (g : Msc → Msc) : (s.onMsc k g).flash = s.flash := rfl
@[simp] theorem State.onMsc_mgt (s : State) (k : Fin 4) (g : Msc → Msc) : (s.onMsc k g).mgt = s.mgt := rfl

@[simp] theorem State.onNet_pending (s : State) (n : Site) (o : Port) (t : Net) (g : OutNet → OutNet) : (s.onNet n o t g).pending = s.pending := rfl
@[simp] theorem State.onNet_freeIx (s : State) (n : Site) (o : Port) (t : Net) (g : OutNet → OutNet) : (s.onNet n o t g).freeIx = s.freeIx := rfl
@[simp] theorem State.onNet_reply (s : State) (n : Site) (o : Port) (t : Net) (g : OutNet → OutNet) : (s.onNet n o t g).reply = s.reply := rfl
@[simp] theorem State.onNet_tb (s : State) (n : Site) (o : Port) (t : Net) (g : OutNet → OutNet) : (s.onNet n o t g).tb = s.tb := rfl
@[simp] theorem State.onNet_mem (s : State) (n : Site) (o : Port) (t : Net) (g : OutNet → OutNet) : (s.onNet n o t g).mem = s.mem := rfl
@[simp] theorem State.onNet_polders (s : State) (n : Site) (o : Port) (t : Net) (g : OutNet → OutNet) : (s.onNet n o t g).polders = s.polders := rfl
@[simp] theorem State.onNet_weirs (s : State) (n : Site) (o : Port) (t : Net) (g : OutNet → OutNet) : (s.onNet n o t g).weirs = s.weirs := rfl
@[simp] theorem State.onNet_flight (s : State) (n : Site) (o : Port) (t : Net) (g : OutNet → OutNet) : (s.onNet n o t g).flight = s.flight := rfl
@[simp] theorem State.onNet_notices (s : State) (n : Site) (o : Port) (t : Net) (g : OutNet → OutNet) : (s.onNet n o t g).notices = s.notices := rfl
@[simp] theorem State.onNet_watches (s : State) (n : Site) (o : Port) (t : Net) (g : OutNet → OutNet) : (s.onNet n o t g).watches = s.watches := rfl
@[simp] theorem State.onNet_ccWeir (s : State) (n : Site) (o : Port) (t : Net) (g : OutNet → OutNet) : (s.onNet n o t g).ccWeir = s.ccWeir := rfl
@[simp] theorem State.onNet_transfers (s : State) (n : Site) (o : Port) (t : Net) (g : OutNet → OutNet) : (s.onNet n o t g).transfers = s.transfers := rfl
@[simp] theorem State.onNet_nextId (s : State) (n : Site) (o : Port) (t : Net) (g : OutNet → OutNet) : (s.onNet n o t g).nextId = s.nextId := rfl
@[simp] theorem State.onNet_sent (s : State) (n : Site) (o : Port) (t : Net) (g : OutNet → OutNet) : (s.onNet n o t g).sent = s.sent := rfl
@[simp] theorem State.onNet_handed (s : State) (n : Site) (o : Port) (t : Net) (g : OutNet → OutNet) : (s.onNet n o t g).handed = s.handed := rfl
@[simp] theorem State.onNet_claimedRegions (s : State) (n : Site) (o : Port) (t : Net) (g : OutNet → OutNet) : (s.onNet n o t g).claimedRegions = s.claimedRegions := rfl
@[simp] theorem State.onNet_claimedWeirs (s : State) (n : Site) (o : Port) (t : Net) (g : OutNet → OutNet) : (s.onNet n o t g).claimedWeirs = s.claimedWeirs := rfl
@[simp] theorem State.onNet_holdWaits (s : State) (n : Site) (o : Port) (t : Net) (g : OutNet → OutNet) : (s.onNet n o t g).holdWaits = s.holdWaits := rfl
@[simp] theorem State.onNet_timers (s : State) (n : Site) (o : Port) (t : Net) (g : OutNet → OutNet) : (s.onNet n o t g).timers = s.timers := rfl
@[simp] theorem State.onNet_disc (s : State) (n : Site) (o : Port) (t : Net) (g : OutNet → OutNet) : (s.onNet n o t g).disc = s.disc := rfl
@[simp] theorem State.onNet_res (s : State) (n : Site) (o : Port) (t : Net) (g : OutNet → OutNet) : (s.onNet n o t g).res = s.res := rfl
@[simp] theorem State.onNet_msc (s : State) (n : Site) (o : Port) (t : Net) (g : OutNet → OutNet) : (s.onNet n o t g).msc = s.msc := rfl
@[simp] theorem State.onNet_mc (s : State) (n : Site) (o : Port) (t : Net) (g : OutNet → OutNet) : (s.onNet n o t g).mc = s.mc := rfl
@[simp] theorem State.onNet_pnx (s : State) (n : Site) (o : Port) (t : Net) (g : OutNet → OutNet) : (s.onNet n o t g).pnx = s.pnx := rfl
@[simp] theorem State.onNet_wlv (s : State) (n : Site) (o : Port) (t : Net) (g : OutNet → OutNet) : (s.onNet n o t g).wlv = s.wlv := rfl
@[simp] theorem State.onNet_wlvOut (s : State) (n : Site) (o : Port) (t : Net) (g : OutNet → OutNet) : (s.onNet n o t g).wlvOut = s.wlvOut := rfl
@[simp] theorem State.onNet_cad (s : State) (n : Site) (o : Port) (t : Net) (g : OutNet → OutNet) : (s.onNet n o t g).cad = s.cad := rfl
@[simp] theorem State.onNet_herd (s : State) (n : Site) (o : Port) (t : Net) (g : OutNet → OutNet) : (s.onNet n o t g).herd = s.herd := rfl
@[simp] theorem State.onNet_pm (s : State) (n : Site) (o : Port) (t : Net) (g : OutNet → OutNet) : (s.onNet n o t g).pm = s.pm := rfl
@[simp] theorem State.onNet_gander (s : State) (n : Site) (o : Port) (t : Net) (g : OutNet → OutNet) : (s.onNet n o t g).gander = s.gander := rfl
@[simp] theorem State.onNet_sec (s : State) (n : Site) (o : Port) (t : Net) (g : OutNet → OutNet) : (s.onNet n o t g).sec = s.sec := rfl
@[simp] theorem State.onNet_integ (s : State) (n : Site) (o : Port) (t : Net) (g : OutNet → OutNet) : (s.onNet n o t g).integ = s.integ := rfl
@[simp] theorem State.onNet_ckpt (s : State) (n : Site) (o : Port) (t : Net) (g : OutNet → OutNet) : (s.onNet n o t g).ckpt = s.ckpt := rfl
@[simp] theorem State.onNet_flash (s : State) (n : Site) (o : Port) (t : Net) (g : OutNet → OutNet) : (s.onNet n o t g).flash = s.flash := rfl
@[simp] theorem State.onNet_mgt (s : State) (n : Site) (o : Port) (t : Net) (g : OutNet → OutNet) : (s.onNet n o t g).mgt = s.mgt := rfl

@[simp] theorem State.onWlv_pending (s : State) (w : Fin 6) (g : Wlv → Wlv) : (s.onWlv w g).pending = s.pending := rfl
@[simp] theorem State.onWlv_freeIx (s : State) (w : Fin 6) (g : Wlv → Wlv) : (s.onWlv w g).freeIx = s.freeIx := rfl
@[simp] theorem State.onWlv_reply (s : State) (w : Fin 6) (g : Wlv → Wlv) : (s.onWlv w g).reply = s.reply := rfl
@[simp] theorem State.onWlv_tb (s : State) (w : Fin 6) (g : Wlv → Wlv) : (s.onWlv w g).tb = s.tb := rfl
@[simp] theorem State.onWlv_mem (s : State) (w : Fin 6) (g : Wlv → Wlv) : (s.onWlv w g).mem = s.mem := rfl
@[simp] theorem State.onWlv_polders (s : State) (w : Fin 6) (g : Wlv → Wlv) : (s.onWlv w g).polders = s.polders := rfl
@[simp] theorem State.onWlv_weirs (s : State) (w : Fin 6) (g : Wlv → Wlv) : (s.onWlv w g).weirs = s.weirs := rfl
@[simp] theorem State.onWlv_flight (s : State) (w : Fin 6) (g : Wlv → Wlv) : (s.onWlv w g).flight = s.flight := rfl
@[simp] theorem State.onWlv_notices (s : State) (w : Fin 6) (g : Wlv → Wlv) : (s.onWlv w g).notices = s.notices := rfl
@[simp] theorem State.onWlv_watches (s : State) (w : Fin 6) (g : Wlv → Wlv) : (s.onWlv w g).watches = s.watches := rfl
@[simp] theorem State.onWlv_ccWeir (s : State) (w : Fin 6) (g : Wlv → Wlv) : (s.onWlv w g).ccWeir = s.ccWeir := rfl
@[simp] theorem State.onWlv_transfers (s : State) (w : Fin 6) (g : Wlv → Wlv) : (s.onWlv w g).transfers = s.transfers := rfl
@[simp] theorem State.onWlv_nextId (s : State) (w : Fin 6) (g : Wlv → Wlv) : (s.onWlv w g).nextId = s.nextId := rfl
@[simp] theorem State.onWlv_sent (s : State) (w : Fin 6) (g : Wlv → Wlv) : (s.onWlv w g).sent = s.sent := rfl
@[simp] theorem State.onWlv_handed (s : State) (w : Fin 6) (g : Wlv → Wlv) : (s.onWlv w g).handed = s.handed := rfl
@[simp] theorem State.onWlv_claimedRegions (s : State) (w : Fin 6) (g : Wlv → Wlv) : (s.onWlv w g).claimedRegions = s.claimedRegions := rfl
@[simp] theorem State.onWlv_claimedWeirs (s : State) (w : Fin 6) (g : Wlv → Wlv) : (s.onWlv w g).claimedWeirs = s.claimedWeirs := rfl
@[simp] theorem State.onWlv_holdWaits (s : State) (w : Fin 6) (g : Wlv → Wlv) : (s.onWlv w g).holdWaits = s.holdWaits := rfl
@[simp] theorem State.onWlv_timers (s : State) (w : Fin 6) (g : Wlv → Wlv) : (s.onWlv w g).timers = s.timers := rfl
@[simp] theorem State.onWlv_disc (s : State) (w : Fin 6) (g : Wlv → Wlv) : (s.onWlv w g).disc = s.disc := rfl
@[simp] theorem State.onWlv_res (s : State) (w : Fin 6) (g : Wlv → Wlv) : (s.onWlv w g).res = s.res := rfl
@[simp] theorem State.onWlv_routers (s : State) (w : Fin 6) (g : Wlv → Wlv) : (s.onWlv w g).routers = s.routers := rfl
@[simp] theorem State.onWlv_msc (s : State) (w : Fin 6) (g : Wlv → Wlv) : (s.onWlv w g).msc = s.msc := rfl
@[simp] theorem State.onWlv_mc (s : State) (w : Fin 6) (g : Wlv → Wlv) : (s.onWlv w g).mc = s.mc := rfl
@[simp] theorem State.onWlv_pnx (s : State) (w : Fin 6) (g : Wlv → Wlv) : (s.onWlv w g).pnx = s.pnx := rfl
@[simp] theorem State.onWlv_wlvOut (s : State) (w : Fin 6) (g : Wlv → Wlv) : (s.onWlv w g).wlvOut = s.wlvOut := rfl
@[simp] theorem State.onWlv_cad (s : State) (w : Fin 6) (g : Wlv → Wlv) : (s.onWlv w g).cad = s.cad := rfl
@[simp] theorem State.onWlv_herd (s : State) (w : Fin 6) (g : Wlv → Wlv) : (s.onWlv w g).herd = s.herd := rfl
@[simp] theorem State.onWlv_pm (s : State) (w : Fin 6) (g : Wlv → Wlv) : (s.onWlv w g).pm = s.pm := rfl
@[simp] theorem State.onWlv_gander (s : State) (w : Fin 6) (g : Wlv → Wlv) : (s.onWlv w g).gander = s.gander := rfl
@[simp] theorem State.onWlv_sec (s : State) (w : Fin 6) (g : Wlv → Wlv) : (s.onWlv w g).sec = s.sec := rfl
@[simp] theorem State.onWlv_integ (s : State) (w : Fin 6) (g : Wlv → Wlv) : (s.onWlv w g).integ = s.integ := rfl
@[simp] theorem State.onWlv_ckpt (s : State) (w : Fin 6) (g : Wlv → Wlv) : (s.onWlv w g).ckpt = s.ckpt := rfl
@[simp] theorem State.onWlv_flash (s : State) (w : Fin 6) (g : Wlv → Wlv) : (s.onWlv w g).flash = s.flash := rfl
@[simp] theorem State.onWlv_mgt (s : State) (w : Fin 6) (g : Wlv → Wlv) : (s.onWlv w g).mgt = s.mgt := rfl

@[simp] theorem State.onSite_pending (s : State) (n : Site) (g : SiteInteg → SiteInteg) : (s.onSite n g).pending = s.pending := rfl
@[simp] theorem State.onSite_freeIx (s : State) (n : Site) (g : SiteInteg → SiteInteg) : (s.onSite n g).freeIx = s.freeIx := rfl
@[simp] theorem State.onSite_reply (s : State) (n : Site) (g : SiteInteg → SiteInteg) : (s.onSite n g).reply = s.reply := rfl
@[simp] theorem State.onSite_tb (s : State) (n : Site) (g : SiteInteg → SiteInteg) : (s.onSite n g).tb = s.tb := rfl
@[simp] theorem State.onSite_mem (s : State) (n : Site) (g : SiteInteg → SiteInteg) : (s.onSite n g).mem = s.mem := rfl
@[simp] theorem State.onSite_polders (s : State) (n : Site) (g : SiteInteg → SiteInteg) : (s.onSite n g).polders = s.polders := rfl
@[simp] theorem State.onSite_weirs (s : State) (n : Site) (g : SiteInteg → SiteInteg) : (s.onSite n g).weirs = s.weirs := rfl
@[simp] theorem State.onSite_flight (s : State) (n : Site) (g : SiteInteg → SiteInteg) : (s.onSite n g).flight = s.flight := rfl
@[simp] theorem State.onSite_notices (s : State) (n : Site) (g : SiteInteg → SiteInteg) : (s.onSite n g).notices = s.notices := rfl
@[simp] theorem State.onSite_watches (s : State) (n : Site) (g : SiteInteg → SiteInteg) : (s.onSite n g).watches = s.watches := rfl
@[simp] theorem State.onSite_ccWeir (s : State) (n : Site) (g : SiteInteg → SiteInteg) : (s.onSite n g).ccWeir = s.ccWeir := rfl
@[simp] theorem State.onSite_transfers (s : State) (n : Site) (g : SiteInteg → SiteInteg) : (s.onSite n g).transfers = s.transfers := rfl
@[simp] theorem State.onSite_nextId (s : State) (n : Site) (g : SiteInteg → SiteInteg) : (s.onSite n g).nextId = s.nextId := rfl
@[simp] theorem State.onSite_sent (s : State) (n : Site) (g : SiteInteg → SiteInteg) : (s.onSite n g).sent = s.sent := rfl
@[simp] theorem State.onSite_handed (s : State) (n : Site) (g : SiteInteg → SiteInteg) : (s.onSite n g).handed = s.handed := rfl
@[simp] theorem State.onSite_claimedRegions (s : State) (n : Site) (g : SiteInteg → SiteInteg) : (s.onSite n g).claimedRegions = s.claimedRegions := rfl
@[simp] theorem State.onSite_claimedWeirs (s : State) (n : Site) (g : SiteInteg → SiteInteg) : (s.onSite n g).claimedWeirs = s.claimedWeirs := rfl
@[simp] theorem State.onSite_holdWaits (s : State) (n : Site) (g : SiteInteg → SiteInteg) : (s.onSite n g).holdWaits = s.holdWaits := rfl
@[simp] theorem State.onSite_timers (s : State) (n : Site) (g : SiteInteg → SiteInteg) : (s.onSite n g).timers = s.timers := rfl
@[simp] theorem State.onSite_disc (s : State) (n : Site) (g : SiteInteg → SiteInteg) : (s.onSite n g).disc = s.disc := rfl
@[simp] theorem State.onSite_res (s : State) (n : Site) (g : SiteInteg → SiteInteg) : (s.onSite n g).res = s.res := rfl
@[simp] theorem State.onSite_routers (s : State) (n : Site) (g : SiteInteg → SiteInteg) : (s.onSite n g).routers = s.routers := rfl
@[simp] theorem State.onSite_msc (s : State) (n : Site) (g : SiteInteg → SiteInteg) : (s.onSite n g).msc = s.msc := rfl
@[simp] theorem State.onSite_mc (s : State) (n : Site) (g : SiteInteg → SiteInteg) : (s.onSite n g).mc = s.mc := rfl
@[simp] theorem State.onSite_pnx (s : State) (n : Site) (g : SiteInteg → SiteInteg) : (s.onSite n g).pnx = s.pnx := rfl
@[simp] theorem State.onSite_wlv (s : State) (n : Site) (g : SiteInteg → SiteInteg) : (s.onSite n g).wlv = s.wlv := rfl
@[simp] theorem State.onSite_wlvOut (s : State) (n : Site) (g : SiteInteg → SiteInteg) : (s.onSite n g).wlvOut = s.wlvOut := rfl
@[simp] theorem State.onSite_cad (s : State) (n : Site) (g : SiteInteg → SiteInteg) : (s.onSite n g).cad = s.cad := rfl
@[simp] theorem State.onSite_herd (s : State) (n : Site) (g : SiteInteg → SiteInteg) : (s.onSite n g).herd = s.herd := rfl
@[simp] theorem State.onSite_pm (s : State) (n : Site) (g : SiteInteg → SiteInteg) : (s.onSite n g).pm = s.pm := rfl
@[simp] theorem State.onSite_gander (s : State) (n : Site) (g : SiteInteg → SiteInteg) : (s.onSite n g).gander = s.gander := rfl
@[simp] theorem State.onSite_sec (s : State) (n : Site) (g : SiteInteg → SiteInteg) : (s.onSite n g).sec = s.sec := rfl
@[simp] theorem State.onSite_ckpt (s : State) (n : Site) (g : SiteInteg → SiteInteg) : (s.onSite n g).ckpt = s.ckpt := rfl
@[simp] theorem State.onSite_flash (s : State) (n : Site) (g : SiteInteg → SiteInteg) : (s.onSite n g).flash = s.flash := rfl
@[simp] theorem State.onSite_mgt (s : State) (n : Site) (g : SiteInteg → SiteInteg) : (s.onSite n g).mgt = s.mgt := rfl

@[simp] theorem State.startRollback_pending (s : State) (c : RollbackCause) : (s.startRollback c).pending = s.pending := rfl
@[simp] theorem State.startRollback_freeIx (s : State) (c : RollbackCause) : (s.startRollback c).freeIx = s.freeIx := rfl
@[simp] theorem State.startRollback_reply (s : State) (c : RollbackCause) : (s.startRollback c).reply = s.reply := rfl
@[simp] theorem State.startRollback_tb (s : State) (c : RollbackCause) : (s.startRollback c).tb = s.tb := rfl
@[simp] theorem State.startRollback_mem (s : State) (c : RollbackCause) : (s.startRollback c).mem = s.mem := rfl
@[simp] theorem State.startRollback_polders (s : State) (c : RollbackCause) : (s.startRollback c).polders = s.polders := rfl
@[simp] theorem State.startRollback_weirs (s : State) (c : RollbackCause) : (s.startRollback c).weirs = s.weirs := rfl
@[simp] theorem State.startRollback_flight (s : State) (c : RollbackCause) : (s.startRollback c).flight = s.flight := rfl
@[simp] theorem State.startRollback_notices (s : State) (c : RollbackCause) : (s.startRollback c).notices = s.notices := rfl
@[simp] theorem State.startRollback_watches (s : State) (c : RollbackCause) : (s.startRollback c).watches = s.watches := rfl
@[simp] theorem State.startRollback_ccWeir (s : State) (c : RollbackCause) : (s.startRollback c).ccWeir = s.ccWeir := rfl
@[simp] theorem State.startRollback_transfers (s : State) (c : RollbackCause) : (s.startRollback c).transfers = s.transfers := rfl
@[simp] theorem State.startRollback_nextId (s : State) (c : RollbackCause) : (s.startRollback c).nextId = s.nextId := rfl
@[simp] theorem State.startRollback_sent (s : State) (c : RollbackCause) : (s.startRollback c).sent = s.sent := rfl
@[simp] theorem State.startRollback_handed (s : State) (c : RollbackCause) : (s.startRollback c).handed = s.handed := rfl
@[simp] theorem State.startRollback_claimedRegions (s : State) (c : RollbackCause) : (s.startRollback c).claimedRegions = s.claimedRegions := rfl
@[simp] theorem State.startRollback_claimedWeirs (s : State) (c : RollbackCause) : (s.startRollback c).claimedWeirs = s.claimedWeirs := rfl
@[simp] theorem State.startRollback_holdWaits (s : State) (c : RollbackCause) : (s.startRollback c).holdWaits = s.holdWaits := rfl
@[simp] theorem State.startRollback_timers (s : State) (c : RollbackCause) : (s.startRollback c).timers = s.timers := rfl
@[simp] theorem State.startRollback_disc (s : State) (c : RollbackCause) : (s.startRollback c).disc = s.disc := rfl
@[simp] theorem State.startRollback_res (s : State) (c : RollbackCause) : (s.startRollback c).res = s.res := rfl
@[simp] theorem State.startRollback_routers (s : State) (c : RollbackCause) : (s.startRollback c).routers = s.routers := rfl
@[simp] theorem State.startRollback_msc (s : State) (c : RollbackCause) : (s.startRollback c).msc = s.msc := rfl
@[simp] theorem State.startRollback_mc (s : State) (c : RollbackCause) : (s.startRollback c).mc = s.mc := rfl
@[simp] theorem State.startRollback_pnx (s : State) (c : RollbackCause) : (s.startRollback c).pnx = s.pnx := rfl
@[simp] theorem State.startRollback_wlv (s : State) (c : RollbackCause) : (s.startRollback c).wlv = s.wlv := rfl
@[simp] theorem State.startRollback_wlvOut (s : State) (c : RollbackCause) : (s.startRollback c).wlvOut = s.wlvOut := rfl
@[simp] theorem State.startRollback_cad (s : State) (c : RollbackCause) : (s.startRollback c).cad = s.cad := rfl
@[simp] theorem State.startRollback_herd (s : State) (c : RollbackCause) : (s.startRollback c).herd = s.herd := rfl
@[simp] theorem State.startRollback_pm (s : State) (c : RollbackCause) : (s.startRollback c).pm = s.pm := rfl
@[simp] theorem State.startRollback_gander (s : State) (c : RollbackCause) : (s.startRollback c).gander = s.gander := rfl
@[simp] theorem State.startRollback_sec (s : State) (c : RollbackCause) : (s.startRollback c).sec = s.sec := rfl
@[simp] theorem State.startRollback_ckpt (s : State) (c : RollbackCause) : (s.startRollback c).ckpt = s.ckpt := rfl
@[simp] theorem State.startRollback_flash (s : State) (c : RollbackCause) : (s.startRollback c).flash = s.flash := rfl
@[simp] theorem State.startRollback_mgt (s : State) (c : RollbackCause) : (s.startRollback c).mgt = s.mgt := rfl

@[simp] theorem State.onStream_pending (s : State) (b : Byte) (g : Stream → Stream) : (s.onStream b g).pending = s.pending := rfl
@[simp] theorem State.onStream_freeIx (s : State) (b : Byte) (g : Stream → Stream) : (s.onStream b g).freeIx = s.freeIx := rfl
@[simp] theorem State.onStream_reply (s : State) (b : Byte) (g : Stream → Stream) : (s.onStream b g).reply = s.reply := rfl
@[simp] theorem State.onStream_tb (s : State) (b : Byte) (g : Stream → Stream) : (s.onStream b g).tb = s.tb := rfl
@[simp] theorem State.onStream_mem (s : State) (b : Byte) (g : Stream → Stream) : (s.onStream b g).mem = s.mem := rfl
@[simp] theorem State.onStream_polders (s : State) (b : Byte) (g : Stream → Stream) : (s.onStream b g).polders = s.polders := rfl
@[simp] theorem State.onStream_weirs (s : State) (b : Byte) (g : Stream → Stream) : (s.onStream b g).weirs = s.weirs := rfl
@[simp] theorem State.onStream_flight (s : State) (b : Byte) (g : Stream → Stream) : (s.onStream b g).flight = s.flight := rfl
@[simp] theorem State.onStream_notices (s : State) (b : Byte) (g : Stream → Stream) : (s.onStream b g).notices = s.notices := rfl
@[simp] theorem State.onStream_watches (s : State) (b : Byte) (g : Stream → Stream) : (s.onStream b g).watches = s.watches := rfl
@[simp] theorem State.onStream_ccWeir (s : State) (b : Byte) (g : Stream → Stream) : (s.onStream b g).ccWeir = s.ccWeir := rfl
@[simp] theorem State.onStream_transfers (s : State) (b : Byte) (g : Stream → Stream) : (s.onStream b g).transfers = s.transfers := rfl
@[simp] theorem State.onStream_nextId (s : State) (b : Byte) (g : Stream → Stream) : (s.onStream b g).nextId = s.nextId := rfl
@[simp] theorem State.onStream_sent (s : State) (b : Byte) (g : Stream → Stream) : (s.onStream b g).sent = s.sent := rfl
@[simp] theorem State.onStream_handed (s : State) (b : Byte) (g : Stream → Stream) : (s.onStream b g).handed = s.handed := rfl
@[simp] theorem State.onStream_claimedRegions (s : State) (b : Byte) (g : Stream → Stream) : (s.onStream b g).claimedRegions = s.claimedRegions := rfl
@[simp] theorem State.onStream_claimedWeirs (s : State) (b : Byte) (g : Stream → Stream) : (s.onStream b g).claimedWeirs = s.claimedWeirs := rfl
@[simp] theorem State.onStream_holdWaits (s : State) (b : Byte) (g : Stream → Stream) : (s.onStream b g).holdWaits = s.holdWaits := rfl
@[simp] theorem State.onStream_timers (s : State) (b : Byte) (g : Stream → Stream) : (s.onStream b g).timers = s.timers := rfl
@[simp] theorem State.onStream_disc (s : State) (b : Byte) (g : Stream → Stream) : (s.onStream b g).disc = s.disc := rfl
@[simp] theorem State.onStream_res (s : State) (b : Byte) (g : Stream → Stream) : (s.onStream b g).res = s.res := rfl
@[simp] theorem State.onStream_routers (s : State) (b : Byte) (g : Stream → Stream) : (s.onStream b g).routers = s.routers := rfl
@[simp] theorem State.onStream_msc (s : State) (b : Byte) (g : Stream → Stream) : (s.onStream b g).msc = s.msc := rfl
@[simp] theorem State.onStream_mc (s : State) (b : Byte) (g : Stream → Stream) : (s.onStream b g).mc = s.mc := rfl
@[simp] theorem State.onStream_wlv (s : State) (b : Byte) (g : Stream → Stream) : (s.onStream b g).wlv = s.wlv := rfl
@[simp] theorem State.onStream_wlvOut (s : State) (b : Byte) (g : Stream → Stream) : (s.onStream b g).wlvOut = s.wlvOut := rfl
@[simp] theorem State.onStream_cad (s : State) (b : Byte) (g : Stream → Stream) : (s.onStream b g).cad = s.cad := rfl
@[simp] theorem State.onStream_herd (s : State) (b : Byte) (g : Stream → Stream) : (s.onStream b g).herd = s.herd := rfl
@[simp] theorem State.onStream_pm (s : State) (b : Byte) (g : Stream → Stream) : (s.onStream b g).pm = s.pm := rfl
@[simp] theorem State.onStream_gander (s : State) (b : Byte) (g : Stream → Stream) : (s.onStream b g).gander = s.gander := rfl
@[simp] theorem State.onStream_sec (s : State) (b : Byte) (g : Stream → Stream) : (s.onStream b g).sec = s.sec := rfl
@[simp] theorem State.onStream_integ (s : State) (b : Byte) (g : Stream → Stream) : (s.onStream b g).integ = s.integ := rfl
@[simp] theorem State.onStream_ckpt (s : State) (b : Byte) (g : Stream → Stream) : (s.onStream b g).ckpt = s.ckpt := rfl
@[simp] theorem State.onStream_flash (s : State) (b : Byte) (g : Stream → Stream) : (s.onStream b g).flash = s.flash := rfl
@[simp] theorem State.onStream_mgt (s : State) (b : Byte) (g : Stream → Stream) : (s.onStream b g).mgt = s.mgt := rfl

@[simp] theorem State.onProg_pending (s : State) (k : Fin 4) (g : Prog → Prog) : (s.onProg k g).pending = s.pending := rfl
@[simp] theorem State.onProg_freeIx (s : State) (k : Fin 4) (g : Prog → Prog) : (s.onProg k g).freeIx = s.freeIx := rfl
@[simp] theorem State.onProg_reply (s : State) (k : Fin 4) (g : Prog → Prog) : (s.onProg k g).reply = s.reply := rfl
@[simp] theorem State.onProg_tb (s : State) (k : Fin 4) (g : Prog → Prog) : (s.onProg k g).tb = s.tb := rfl
@[simp] theorem State.onProg_mem (s : State) (k : Fin 4) (g : Prog → Prog) : (s.onProg k g).mem = s.mem := rfl
@[simp] theorem State.onProg_polders (s : State) (k : Fin 4) (g : Prog → Prog) : (s.onProg k g).polders = s.polders := rfl
@[simp] theorem State.onProg_weirs (s : State) (k : Fin 4) (g : Prog → Prog) : (s.onProg k g).weirs = s.weirs := rfl
@[simp] theorem State.onProg_flight (s : State) (k : Fin 4) (g : Prog → Prog) : (s.onProg k g).flight = s.flight := rfl
@[simp] theorem State.onProg_notices (s : State) (k : Fin 4) (g : Prog → Prog) : (s.onProg k g).notices = s.notices := rfl
@[simp] theorem State.onProg_watches (s : State) (k : Fin 4) (g : Prog → Prog) : (s.onProg k g).watches = s.watches := rfl
@[simp] theorem State.onProg_ccWeir (s : State) (k : Fin 4) (g : Prog → Prog) : (s.onProg k g).ccWeir = s.ccWeir := rfl
@[simp] theorem State.onProg_transfers (s : State) (k : Fin 4) (g : Prog → Prog) : (s.onProg k g).transfers = s.transfers := rfl
@[simp] theorem State.onProg_nextId (s : State) (k : Fin 4) (g : Prog → Prog) : (s.onProg k g).nextId = s.nextId := rfl
@[simp] theorem State.onProg_sent (s : State) (k : Fin 4) (g : Prog → Prog) : (s.onProg k g).sent = s.sent := rfl
@[simp] theorem State.onProg_handed (s : State) (k : Fin 4) (g : Prog → Prog) : (s.onProg k g).handed = s.handed := rfl
@[simp] theorem State.onProg_claimedRegions (s : State) (k : Fin 4) (g : Prog → Prog) : (s.onProg k g).claimedRegions = s.claimedRegions := rfl
@[simp] theorem State.onProg_claimedWeirs (s : State) (k : Fin 4) (g : Prog → Prog) : (s.onProg k g).claimedWeirs = s.claimedWeirs := rfl
@[simp] theorem State.onProg_holdWaits (s : State) (k : Fin 4) (g : Prog → Prog) : (s.onProg k g).holdWaits = s.holdWaits := rfl
@[simp] theorem State.onProg_timers (s : State) (k : Fin 4) (g : Prog → Prog) : (s.onProg k g).timers = s.timers := rfl
@[simp] theorem State.onProg_disc (s : State) (k : Fin 4) (g : Prog → Prog) : (s.onProg k g).disc = s.disc := rfl
@[simp] theorem State.onProg_res (s : State) (k : Fin 4) (g : Prog → Prog) : (s.onProg k g).res = s.res := rfl
@[simp] theorem State.onProg_routers (s : State) (k : Fin 4) (g : Prog → Prog) : (s.onProg k g).routers = s.routers := rfl
@[simp] theorem State.onProg_msc (s : State) (k : Fin 4) (g : Prog → Prog) : (s.onProg k g).msc = s.msc := rfl
@[simp] theorem State.onProg_mc (s : State) (k : Fin 4) (g : Prog → Prog) : (s.onProg k g).mc = s.mc := rfl
@[simp] theorem State.onProg_pnx (s : State) (k : Fin 4) (g : Prog → Prog) : (s.onProg k g).pnx = s.pnx := rfl
@[simp] theorem State.onProg_wlv (s : State) (k : Fin 4) (g : Prog → Prog) : (s.onProg k g).wlv = s.wlv := rfl
@[simp] theorem State.onProg_wlvOut (s : State) (k : Fin 4) (g : Prog → Prog) : (s.onProg k g).wlvOut = s.wlvOut := rfl
@[simp] theorem State.onProg_cad (s : State) (k : Fin 4) (g : Prog → Prog) : (s.onProg k g).cad = s.cad := rfl
@[simp] theorem State.onProg_pm (s : State) (k : Fin 4) (g : Prog → Prog) : (s.onProg k g).pm = s.pm := rfl
@[simp] theorem State.onProg_gander (s : State) (k : Fin 4) (g : Prog → Prog) : (s.onProg k g).gander = s.gander := rfl
@[simp] theorem State.onProg_sec (s : State) (k : Fin 4) (g : Prog → Prog) : (s.onProg k g).sec = s.sec := rfl
@[simp] theorem State.onProg_integ (s : State) (k : Fin 4) (g : Prog → Prog) : (s.onProg k g).integ = s.integ := rfl
@[simp] theorem State.onProg_ckpt (s : State) (k : Fin 4) (g : Prog → Prog) : (s.onProg k g).ckpt = s.ckpt := rfl
@[simp] theorem State.onProg_flash (s : State) (k : Fin 4) (g : Prog → Prog) : (s.onProg k g).flash = s.flash := rfl
@[simp] theorem State.onProg_mgt (s : State) (k : Fin 4) (g : Prog → Prog) : (s.onProg k g).mgt = s.mgt := rfl

@[simp] theorem State.onPhase_pending (s : State) (k : Fin 4) (n : BitVec 6) (g : Phase → Phase) : (s.onPhase k n g).pending = s.pending := rfl
@[simp] theorem State.onPhase_freeIx (s : State) (k : Fin 4) (n : BitVec 6) (g : Phase → Phase) : (s.onPhase k n g).freeIx = s.freeIx := rfl
@[simp] theorem State.onPhase_reply (s : State) (k : Fin 4) (n : BitVec 6) (g : Phase → Phase) : (s.onPhase k n g).reply = s.reply := rfl
@[simp] theorem State.onPhase_tb (s : State) (k : Fin 4) (n : BitVec 6) (g : Phase → Phase) : (s.onPhase k n g).tb = s.tb := rfl
@[simp] theorem State.onPhase_mem (s : State) (k : Fin 4) (n : BitVec 6) (g : Phase → Phase) : (s.onPhase k n g).mem = s.mem := rfl
@[simp] theorem State.onPhase_polders (s : State) (k : Fin 4) (n : BitVec 6) (g : Phase → Phase) : (s.onPhase k n g).polders = s.polders := rfl
@[simp] theorem State.onPhase_weirs (s : State) (k : Fin 4) (n : BitVec 6) (g : Phase → Phase) : (s.onPhase k n g).weirs = s.weirs := rfl
@[simp] theorem State.onPhase_flight (s : State) (k : Fin 4) (n : BitVec 6) (g : Phase → Phase) : (s.onPhase k n g).flight = s.flight := rfl
@[simp] theorem State.onPhase_notices (s : State) (k : Fin 4) (n : BitVec 6) (g : Phase → Phase) : (s.onPhase k n g).notices = s.notices := rfl
@[simp] theorem State.onPhase_watches (s : State) (k : Fin 4) (n : BitVec 6) (g : Phase → Phase) : (s.onPhase k n g).watches = s.watches := rfl
@[simp] theorem State.onPhase_ccWeir (s : State) (k : Fin 4) (n : BitVec 6) (g : Phase → Phase) : (s.onPhase k n g).ccWeir = s.ccWeir := rfl
@[simp] theorem State.onPhase_transfers (s : State) (k : Fin 4) (n : BitVec 6) (g : Phase → Phase) : (s.onPhase k n g).transfers = s.transfers := rfl
@[simp] theorem State.onPhase_nextId (s : State) (k : Fin 4) (n : BitVec 6) (g : Phase → Phase) : (s.onPhase k n g).nextId = s.nextId := rfl
@[simp] theorem State.onPhase_sent (s : State) (k : Fin 4) (n : BitVec 6) (g : Phase → Phase) : (s.onPhase k n g).sent = s.sent := rfl
@[simp] theorem State.onPhase_handed (s : State) (k : Fin 4) (n : BitVec 6) (g : Phase → Phase) : (s.onPhase k n g).handed = s.handed := rfl
@[simp] theorem State.onPhase_claimedRegions (s : State) (k : Fin 4) (n : BitVec 6) (g : Phase → Phase) : (s.onPhase k n g).claimedRegions = s.claimedRegions := rfl
@[simp] theorem State.onPhase_claimedWeirs (s : State) (k : Fin 4) (n : BitVec 6) (g : Phase → Phase) : (s.onPhase k n g).claimedWeirs = s.claimedWeirs := rfl
@[simp] theorem State.onPhase_holdWaits (s : State) (k : Fin 4) (n : BitVec 6) (g : Phase → Phase) : (s.onPhase k n g).holdWaits = s.holdWaits := rfl
@[simp] theorem State.onPhase_timers (s : State) (k : Fin 4) (n : BitVec 6) (g : Phase → Phase) : (s.onPhase k n g).timers = s.timers := rfl
@[simp] theorem State.onPhase_disc (s : State) (k : Fin 4) (n : BitVec 6) (g : Phase → Phase) : (s.onPhase k n g).disc = s.disc := rfl
@[simp] theorem State.onPhase_res (s : State) (k : Fin 4) (n : BitVec 6) (g : Phase → Phase) : (s.onPhase k n g).res = s.res := rfl
@[simp] theorem State.onPhase_routers (s : State) (k : Fin 4) (n : BitVec 6) (g : Phase → Phase) : (s.onPhase k n g).routers = s.routers := rfl
@[simp] theorem State.onPhase_msc (s : State) (k : Fin 4) (n : BitVec 6) (g : Phase → Phase) : (s.onPhase k n g).msc = s.msc := rfl
@[simp] theorem State.onPhase_mc (s : State) (k : Fin 4) (n : BitVec 6) (g : Phase → Phase) : (s.onPhase k n g).mc = s.mc := rfl
@[simp] theorem State.onPhase_pnx (s : State) (k : Fin 4) (n : BitVec 6) (g : Phase → Phase) : (s.onPhase k n g).pnx = s.pnx := rfl
@[simp] theorem State.onPhase_wlv (s : State) (k : Fin 4) (n : BitVec 6) (g : Phase → Phase) : (s.onPhase k n g).wlv = s.wlv := rfl
@[simp] theorem State.onPhase_wlvOut (s : State) (k : Fin 4) (n : BitVec 6) (g : Phase → Phase) : (s.onPhase k n g).wlvOut = s.wlvOut := rfl
@[simp] theorem State.onPhase_cad (s : State) (k : Fin 4) (n : BitVec 6) (g : Phase → Phase) : (s.onPhase k n g).cad = s.cad := rfl
@[simp] theorem State.onPhase_herd (s : State) (k : Fin 4) (n : BitVec 6) (g : Phase → Phase) : (s.onPhase k n g).herd = s.herd := rfl
@[simp] theorem State.onPhase_gander (s : State) (k : Fin 4) (n : BitVec 6) (g : Phase → Phase) : (s.onPhase k n g).gander = s.gander := rfl
@[simp] theorem State.onPhase_sec (s : State) (k : Fin 4) (n : BitVec 6) (g : Phase → Phase) : (s.onPhase k n g).sec = s.sec := rfl
@[simp] theorem State.onPhase_integ (s : State) (k : Fin 4) (n : BitVec 6) (g : Phase → Phase) : (s.onPhase k n g).integ = s.integ := rfl
@[simp] theorem State.onPhase_ckpt (s : State) (k : Fin 4) (n : BitVec 6) (g : Phase → Phase) : (s.onPhase k n g).ckpt = s.ckpt := rfl
@[simp] theorem State.onPhase_flash (s : State) (k : Fin 4) (n : BitVec 6) (g : Phase → Phase) : (s.onPhase k n g).flash = s.flash := rfl
@[simp] theorem State.onPhase_mgt (s : State) (k : Fin 4) (n : BitVec 6) (g : Phase → Phase) : (s.onPhase k n g).mgt = s.mgt := rfl

@[simp] theorem State.setPoint_pending (s : State) (n : Nat) : (s.setPoint n).pending = s.pending := rfl
@[simp] theorem State.setPoint_freeIx (s : State) (n : Nat) : (s.setPoint n).freeIx = s.freeIx := rfl
@[simp] theorem State.setPoint_reply (s : State) (n : Nat) : (s.setPoint n).reply = s.reply := rfl
@[simp] theorem State.setPoint_tb (s : State) (n : Nat) : (s.setPoint n).tb = s.tb := rfl
@[simp] theorem State.setPoint_mem (s : State) (n : Nat) : (s.setPoint n).mem = s.mem := rfl
@[simp] theorem State.setPoint_polders (s : State) (n : Nat) : (s.setPoint n).polders = s.polders := rfl
@[simp] theorem State.setPoint_weirs (s : State) (n : Nat) : (s.setPoint n).weirs = s.weirs := rfl
@[simp] theorem State.setPoint_flight (s : State) (n : Nat) : (s.setPoint n).flight = s.flight := rfl
@[simp] theorem State.setPoint_notices (s : State) (n : Nat) : (s.setPoint n).notices = s.notices := rfl
@[simp] theorem State.setPoint_watches (s : State) (n : Nat) : (s.setPoint n).watches = s.watches := rfl
@[simp] theorem State.setPoint_ccWeir (s : State) (n : Nat) : (s.setPoint n).ccWeir = s.ccWeir := rfl
@[simp] theorem State.setPoint_transfers (s : State) (n : Nat) : (s.setPoint n).transfers = s.transfers := rfl
@[simp] theorem State.setPoint_nextId (s : State) (n : Nat) : (s.setPoint n).nextId = s.nextId := rfl
@[simp] theorem State.setPoint_sent (s : State) (n : Nat) : (s.setPoint n).sent = s.sent := rfl
@[simp] theorem State.setPoint_handed (s : State) (n : Nat) : (s.setPoint n).handed = s.handed := rfl
@[simp] theorem State.setPoint_claimedRegions (s : State) (n : Nat) : (s.setPoint n).claimedRegions = s.claimedRegions := rfl
@[simp] theorem State.setPoint_claimedWeirs (s : State) (n : Nat) : (s.setPoint n).claimedWeirs = s.claimedWeirs := rfl
@[simp] theorem State.setPoint_holdWaits (s : State) (n : Nat) : (s.setPoint n).holdWaits = s.holdWaits := rfl
@[simp] theorem State.setPoint_timers (s : State) (n : Nat) : (s.setPoint n).timers = s.timers := rfl
@[simp] theorem State.setPoint_res (s : State) (n : Nat) : (s.setPoint n).res = s.res := rfl
@[simp] theorem State.setPoint_routers (s : State) (n : Nat) : (s.setPoint n).routers = s.routers := rfl
@[simp] theorem State.setPoint_msc (s : State) (n : Nat) : (s.setPoint n).msc = s.msc := rfl
@[simp] theorem State.setPoint_mc (s : State) (n : Nat) : (s.setPoint n).mc = s.mc := rfl
@[simp] theorem State.setPoint_pnx (s : State) (n : Nat) : (s.setPoint n).pnx = s.pnx := rfl
@[simp] theorem State.setPoint_wlv (s : State) (n : Nat) : (s.setPoint n).wlv = s.wlv := rfl
@[simp] theorem State.setPoint_wlvOut (s : State) (n : Nat) : (s.setPoint n).wlvOut = s.wlvOut := rfl
@[simp] theorem State.setPoint_cad (s : State) (n : Nat) : (s.setPoint n).cad = s.cad := rfl
@[simp] theorem State.setPoint_herd (s : State) (n : Nat) : (s.setPoint n).herd = s.herd := rfl
@[simp] theorem State.setPoint_pm (s : State) (n : Nat) : (s.setPoint n).pm = s.pm := rfl
@[simp] theorem State.setPoint_gander (s : State) (n : Nat) : (s.setPoint n).gander = s.gander := rfl
@[simp] theorem State.setPoint_sec (s : State) (n : Nat) : (s.setPoint n).sec = s.sec := rfl
@[simp] theorem State.setPoint_integ (s : State) (n : Nat) : (s.setPoint n).integ = s.integ := rfl
@[simp] theorem State.setPoint_ckpt (s : State) (n : Nat) : (s.setPoint n).ckpt = s.ckpt := rfl
@[simp] theorem State.setPoint_flash (s : State) (n : Nat) : (s.setPoint n).flash = s.flash := rfl
@[simp] theorem State.setPoint_mgt (s : State) (n : Nat) : (s.setPoint n).mgt = s.mgt := rfl

@[simp] theorem State.sendFrame_pending (s : State) (x y : Byte) (z : BitVec 16) (bs : List Byte) : (s.sendFrame x y z bs).pending = s.pending := rfl
@[simp] theorem State.sendFrame_freeIx (s : State) (x y : Byte) (z : BitVec 16) (bs : List Byte) : (s.sendFrame x y z bs).freeIx = s.freeIx := rfl
@[simp] theorem State.sendFrame_reply (s : State) (x y : Byte) (z : BitVec 16) (bs : List Byte) : (s.sendFrame x y z bs).reply = s.reply := rfl
@[simp] theorem State.sendFrame_tb (s : State) (x y : Byte) (z : BitVec 16) (bs : List Byte) : (s.sendFrame x y z bs).tb = s.tb := rfl
@[simp] theorem State.sendFrame_mem (s : State) (x y : Byte) (z : BitVec 16) (bs : List Byte) : (s.sendFrame x y z bs).mem = s.mem := rfl
@[simp] theorem State.sendFrame_polders (s : State) (x y : Byte) (z : BitVec 16) (bs : List Byte) : (s.sendFrame x y z bs).polders = s.polders := rfl
@[simp] theorem State.sendFrame_weirs (s : State) (x y : Byte) (z : BitVec 16) (bs : List Byte) : (s.sendFrame x y z bs).weirs = s.weirs := rfl
@[simp] theorem State.sendFrame_flight (s : State) (x y : Byte) (z : BitVec 16) (bs : List Byte) : (s.sendFrame x y z bs).flight = s.flight := rfl
@[simp] theorem State.sendFrame_notices (s : State) (x y : Byte) (z : BitVec 16) (bs : List Byte) : (s.sendFrame x y z bs).notices = s.notices := rfl
@[simp] theorem State.sendFrame_watches (s : State) (x y : Byte) (z : BitVec 16) (bs : List Byte) : (s.sendFrame x y z bs).watches = s.watches := rfl
@[simp] theorem State.sendFrame_ccWeir (s : State) (x y : Byte) (z : BitVec 16) (bs : List Byte) : (s.sendFrame x y z bs).ccWeir = s.ccWeir := rfl
@[simp] theorem State.sendFrame_transfers (s : State) (x y : Byte) (z : BitVec 16) (bs : List Byte) : (s.sendFrame x y z bs).transfers = s.transfers := rfl
@[simp] theorem State.sendFrame_nextId (s : State) (x y : Byte) (z : BitVec 16) (bs : List Byte) : (s.sendFrame x y z bs).nextId = s.nextId := rfl
@[simp] theorem State.sendFrame_sent (s : State) (x y : Byte) (z : BitVec 16) (bs : List Byte) : (s.sendFrame x y z bs).sent = s.sent := rfl
@[simp] theorem State.sendFrame_handed (s : State) (x y : Byte) (z : BitVec 16) (bs : List Byte) : (s.sendFrame x y z bs).handed = s.handed := rfl
@[simp] theorem State.sendFrame_claimedRegions (s : State) (x y : Byte) (z : BitVec 16) (bs : List Byte) : (s.sendFrame x y z bs).claimedRegions = s.claimedRegions := rfl
@[simp] theorem State.sendFrame_claimedWeirs (s : State) (x y : Byte) (z : BitVec 16) (bs : List Byte) : (s.sendFrame x y z bs).claimedWeirs = s.claimedWeirs := rfl
@[simp] theorem State.sendFrame_holdWaits (s : State) (x y : Byte) (z : BitVec 16) (bs : List Byte) : (s.sendFrame x y z bs).holdWaits = s.holdWaits := rfl
@[simp] theorem State.sendFrame_timers (s : State) (x y : Byte) (z : BitVec 16) (bs : List Byte) : (s.sendFrame x y z bs).timers = s.timers := rfl
@[simp] theorem State.sendFrame_disc (s : State) (x y : Byte) (z : BitVec 16) (bs : List Byte) : (s.sendFrame x y z bs).disc = s.disc := rfl
@[simp] theorem State.sendFrame_res (s : State) (x y : Byte) (z : BitVec 16) (bs : List Byte) : (s.sendFrame x y z bs).res = s.res := rfl
@[simp] theorem State.sendFrame_routers (s : State) (x y : Byte) (z : BitVec 16) (bs : List Byte) : (s.sendFrame x y z bs).routers = s.routers := rfl
@[simp] theorem State.sendFrame_msc (s : State) (x y : Byte) (z : BitVec 16) (bs : List Byte) : (s.sendFrame x y z bs).msc = s.msc := rfl
@[simp] theorem State.sendFrame_mc (s : State) (x y : Byte) (z : BitVec 16) (bs : List Byte) : (s.sendFrame x y z bs).mc = s.mc := rfl
@[simp] theorem State.sendFrame_wlv (s : State) (x y : Byte) (z : BitVec 16) (bs : List Byte) : (s.sendFrame x y z bs).wlv = s.wlv := rfl
@[simp] theorem State.sendFrame_wlvOut (s : State) (x y : Byte) (z : BitVec 16) (bs : List Byte) : (s.sendFrame x y z bs).wlvOut = s.wlvOut := rfl
@[simp] theorem State.sendFrame_cad (s : State) (x y : Byte) (z : BitVec 16) (bs : List Byte) : (s.sendFrame x y z bs).cad = s.cad := rfl
@[simp] theorem State.sendFrame_herd (s : State) (x y : Byte) (z : BitVec 16) (bs : List Byte) : (s.sendFrame x y z bs).herd = s.herd := rfl
@[simp] theorem State.sendFrame_pm (s : State) (x y : Byte) (z : BitVec 16) (bs : List Byte) : (s.sendFrame x y z bs).pm = s.pm := rfl
@[simp] theorem State.sendFrame_gander (s : State) (x y : Byte) (z : BitVec 16) (bs : List Byte) : (s.sendFrame x y z bs).gander = s.gander := rfl
@[simp] theorem State.sendFrame_sec (s : State) (x y : Byte) (z : BitVec 16) (bs : List Byte) : (s.sendFrame x y z bs).sec = s.sec := rfl
@[simp] theorem State.sendFrame_integ (s : State) (x y : Byte) (z : BitVec 16) (bs : List Byte) : (s.sendFrame x y z bs).integ = s.integ := rfl
@[simp] theorem State.sendFrame_ckpt (s : State) (x y : Byte) (z : BitVec 16) (bs : List Byte) : (s.sendFrame x y z bs).ckpt = s.ckpt := rfl
@[simp] theorem State.sendFrame_flash (s : State) (x y : Byte) (z : BitVec 16) (bs : List Byte) : (s.sendFrame x y z bs).flash = s.flash := rfl
@[simp] theorem State.sendFrame_mgt (s : State) (x y : Byte) (z : BitVec 16) (bs : List Byte) : (s.sendFrame x y z bs).mgt = s.mgt := rfl

@[simp] theorem State.putWeir_pending (s : State) (n : Nat) (x : Weir) : (s.putWeir n x).pending = s.pending := rfl
@[simp] theorem State.putWeir_freeIx (s : State) (n : Nat) (x : Weir) : (s.putWeir n x).freeIx = s.freeIx := rfl
@[simp] theorem State.putWeir_reply (s : State) (n : Nat) (x : Weir) : (s.putWeir n x).reply = s.reply := rfl
@[simp] theorem State.putWeir_tb (s : State) (n : Nat) (x : Weir) : (s.putWeir n x).tb = s.tb := rfl
@[simp] theorem State.putWeir_mem (s : State) (n : Nat) (x : Weir) : (s.putWeir n x).mem = s.mem := rfl
@[simp] theorem State.putWeir_polders (s : State) (n : Nat) (x : Weir) : (s.putWeir n x).polders = s.polders := rfl
@[simp] theorem State.putWeir_flight (s : State) (n : Nat) (x : Weir) : (s.putWeir n x).flight = s.flight := rfl
@[simp] theorem State.putWeir_ccWeir (s : State) (n : Nat) (x : Weir) : (s.putWeir n x).ccWeir = s.ccWeir := rfl
@[simp] theorem State.putWeir_transfers (s : State) (n : Nat) (x : Weir) : (s.putWeir n x).transfers = s.transfers := rfl
@[simp] theorem State.putWeir_nextId (s : State) (n : Nat) (x : Weir) : (s.putWeir n x).nextId = s.nextId := rfl
@[simp] theorem State.putWeir_sent (s : State) (n : Nat) (x : Weir) : (s.putWeir n x).sent = s.sent := rfl
@[simp] theorem State.putWeir_handed (s : State) (n : Nat) (x : Weir) : (s.putWeir n x).handed = s.handed := rfl
@[simp] theorem State.putWeir_claimedRegions (s : State) (n : Nat) (x : Weir) : (s.putWeir n x).claimedRegions = s.claimedRegions := rfl
@[simp] theorem State.putWeir_claimedWeirs (s : State) (n : Nat) (x : Weir) : (s.putWeir n x).claimedWeirs = s.claimedWeirs := rfl
@[simp] theorem State.putWeir_holdWaits (s : State) (n : Nat) (x : Weir) : (s.putWeir n x).holdWaits = s.holdWaits := rfl
@[simp] theorem State.putWeir_timers (s : State) (n : Nat) (x : Weir) : (s.putWeir n x).timers = s.timers := rfl
@[simp] theorem State.putWeir_disc (s : State) (n : Nat) (x : Weir) : (s.putWeir n x).disc = s.disc := rfl
@[simp] theorem State.putWeir_res (s : State) (n : Nat) (x : Weir) : (s.putWeir n x).res = s.res := rfl
@[simp] theorem State.putWeir_routers (s : State) (n : Nat) (x : Weir) : (s.putWeir n x).routers = s.routers := rfl
@[simp] theorem State.putWeir_msc (s : State) (n : Nat) (x : Weir) : (s.putWeir n x).msc = s.msc := rfl
@[simp] theorem State.putWeir_mc (s : State) (n : Nat) (x : Weir) : (s.putWeir n x).mc = s.mc := rfl
@[simp] theorem State.putWeir_pnx (s : State) (n : Nat) (x : Weir) : (s.putWeir n x).pnx = s.pnx := rfl
@[simp] theorem State.putWeir_wlv (s : State) (n : Nat) (x : Weir) : (s.putWeir n x).wlv = s.wlv := rfl
@[simp] theorem State.putWeir_wlvOut (s : State) (n : Nat) (x : Weir) : (s.putWeir n x).wlvOut = s.wlvOut := rfl
@[simp] theorem State.putWeir_cad (s : State) (n : Nat) (x : Weir) : (s.putWeir n x).cad = s.cad := rfl
@[simp] theorem State.putWeir_herd (s : State) (n : Nat) (x : Weir) : (s.putWeir n x).herd = s.herd := rfl
@[simp] theorem State.putWeir_pm (s : State) (n : Nat) (x : Weir) : (s.putWeir n x).pm = s.pm := rfl
@[simp] theorem State.putWeir_gander (s : State) (n : Nat) (x : Weir) : (s.putWeir n x).gander = s.gander := rfl
@[simp] theorem State.putWeir_sec (s : State) (n : Nat) (x : Weir) : (s.putWeir n x).sec = s.sec := rfl
@[simp] theorem State.putWeir_integ (s : State) (n : Nat) (x : Weir) : (s.putWeir n x).integ = s.integ := rfl
@[simp] theorem State.putWeir_ckpt (s : State) (n : Nat) (x : Weir) : (s.putWeir n x).ckpt = s.ckpt := rfl
@[simp] theorem State.putWeir_flash (s : State) (n : Nat) (x : Weir) : (s.putWeir n x).flash = s.flash := rfl
@[simp] theorem State.putWeir_mgt (s : State) (n : Nat) (x : Weir) : (s.putWeir n x).mgt = s.mgt := rfl

@[simp] theorem State.zero_pending (s : State) (a n : Nat) : (s.zero a n).pending = s.pending := rfl
@[simp] theorem State.zero_freeIx (s : State) (a n : Nat) : (s.zero a n).freeIx = s.freeIx := rfl
@[simp] theorem State.zero_reply (s : State) (a n : Nat) : (s.zero a n).reply = s.reply := rfl
@[simp] theorem State.zero_tb (s : State) (a n : Nat) : (s.zero a n).tb = s.tb := rfl
@[simp] theorem State.zero_polders (s : State) (a n : Nat) : (s.zero a n).polders = s.polders := rfl
@[simp] theorem State.zero_weirs (s : State) (a n : Nat) : (s.zero a n).weirs = s.weirs := rfl
@[simp] theorem State.zero_flight (s : State) (a n : Nat) : (s.zero a n).flight = s.flight := rfl
@[simp] theorem State.zero_notices (s : State) (a n : Nat) : (s.zero a n).notices = s.notices := rfl
@[simp] theorem State.zero_watches (s : State) (a n : Nat) : (s.zero a n).watches = s.watches := rfl
@[simp] theorem State.zero_ccWeir (s : State) (a n : Nat) : (s.zero a n).ccWeir = s.ccWeir := rfl
@[simp] theorem State.zero_transfers (s : State) (a n : Nat) : (s.zero a n).transfers = s.transfers := rfl
@[simp] theorem State.zero_nextId (s : State) (a n : Nat) : (s.zero a n).nextId = s.nextId := rfl
@[simp] theorem State.zero_sent (s : State) (a n : Nat) : (s.zero a n).sent = s.sent := rfl
@[simp] theorem State.zero_handed (s : State) (a n : Nat) : (s.zero a n).handed = s.handed := rfl
@[simp] theorem State.zero_claimedRegions (s : State) (a n : Nat) : (s.zero a n).claimedRegions = s.claimedRegions := rfl
@[simp] theorem State.zero_claimedWeirs (s : State) (a n : Nat) : (s.zero a n).claimedWeirs = s.claimedWeirs := rfl
@[simp] theorem State.zero_holdWaits (s : State) (a n : Nat) : (s.zero a n).holdWaits = s.holdWaits := rfl
@[simp] theorem State.zero_timers (s : State) (a n : Nat) : (s.zero a n).timers = s.timers := rfl
@[simp] theorem State.zero_disc (s : State) (a n : Nat) : (s.zero a n).disc = s.disc := rfl
@[simp] theorem State.zero_res (s : State) (a n : Nat) : (s.zero a n).res = s.res := rfl
@[simp] theorem State.zero_routers (s : State) (a n : Nat) : (s.zero a n).routers = s.routers := rfl
@[simp] theorem State.zero_msc (s : State) (a n : Nat) : (s.zero a n).msc = s.msc := rfl
@[simp] theorem State.zero_mc (s : State) (a n : Nat) : (s.zero a n).mc = s.mc := rfl
@[simp] theorem State.zero_pnx (s : State) (a n : Nat) : (s.zero a n).pnx = s.pnx := rfl
@[simp] theorem State.zero_wlv (s : State) (a n : Nat) : (s.zero a n).wlv = s.wlv := rfl
@[simp] theorem State.zero_wlvOut (s : State) (a n : Nat) : (s.zero a n).wlvOut = s.wlvOut := rfl
@[simp] theorem State.zero_cad (s : State) (a n : Nat) : (s.zero a n).cad = s.cad := rfl
@[simp] theorem State.zero_herd (s : State) (a n : Nat) : (s.zero a n).herd = s.herd := rfl
@[simp] theorem State.zero_pm (s : State) (a n : Nat) : (s.zero a n).pm = s.pm := rfl
@[simp] theorem State.zero_gander (s : State) (a n : Nat) : (s.zero a n).gander = s.gander := rfl
@[simp] theorem State.zero_sec (s : State) (a n : Nat) : (s.zero a n).sec = s.sec := rfl
@[simp] theorem State.zero_integ (s : State) (a n : Nat) : (s.zero a n).integ = s.integ := rfl
@[simp] theorem State.zero_ckpt (s : State) (a n : Nat) : (s.zero a n).ckpt = s.ckpt := rfl
@[simp] theorem State.zero_flash (s : State) (a n : Nat) : (s.zero a n).flash = s.flash := rfl
@[simp] theorem State.zero_mgt (s : State) (a n : Nat) : (s.zero a n).mgt = s.mgt := rfl

@[simp] theorem State.goesOn_pending (s : State) (p : Pid) (t : Task) (n : Nat) : (s.goesOn p t n).pending = s.pending := rfl
@[simp] theorem State.goesOn_freeIx (s : State) (p : Pid) (t : Task) (n : Nat) : (s.goesOn p t n).freeIx = s.freeIx := rfl
@[simp] theorem State.goesOn_reply (s : State) (p : Pid) (t : Task) (n : Nat) : (s.goesOn p t n).reply = s.reply := rfl
@[simp] theorem State.goesOn_tb (s : State) (p : Pid) (t : Task) (n : Nat) : (s.goesOn p t n).tb = s.tb := rfl
@[simp] theorem State.goesOn_mem (s : State) (p : Pid) (t : Task) (n : Nat) : (s.goesOn p t n).mem = s.mem := rfl
@[simp] theorem State.goesOn_weirs (s : State) (p : Pid) (t : Task) (n : Nat) : (s.goesOn p t n).weirs = s.weirs := rfl
@[simp] theorem State.goesOn_flight (s : State) (p : Pid) (t : Task) (n : Nat) : (s.goesOn p t n).flight = s.flight := rfl
@[simp] theorem State.goesOn_notices (s : State) (p : Pid) (t : Task) (n : Nat) : (s.goesOn p t n).notices = s.notices := rfl
@[simp] theorem State.goesOn_watches (s : State) (p : Pid) (t : Task) (n : Nat) : (s.goesOn p t n).watches = s.watches := rfl
@[simp] theorem State.goesOn_ccWeir (s : State) (p : Pid) (t : Task) (n : Nat) : (s.goesOn p t n).ccWeir = s.ccWeir := rfl
@[simp] theorem State.goesOn_transfers (s : State) (p : Pid) (t : Task) (n : Nat) : (s.goesOn p t n).transfers = s.transfers := rfl
@[simp] theorem State.goesOn_nextId (s : State) (p : Pid) (t : Task) (n : Nat) : (s.goesOn p t n).nextId = s.nextId := rfl
@[simp] theorem State.goesOn_sent (s : State) (p : Pid) (t : Task) (n : Nat) : (s.goesOn p t n).sent = s.sent := rfl
@[simp] theorem State.goesOn_handed (s : State) (p : Pid) (t : Task) (n : Nat) : (s.goesOn p t n).handed = s.handed := rfl
@[simp] theorem State.goesOn_claimedRegions (s : State) (p : Pid) (t : Task) (n : Nat) : (s.goesOn p t n).claimedRegions = s.claimedRegions := rfl
@[simp] theorem State.goesOn_claimedWeirs (s : State) (p : Pid) (t : Task) (n : Nat) : (s.goesOn p t n).claimedWeirs = s.claimedWeirs := rfl
@[simp] theorem State.goesOn_holdWaits (s : State) (p : Pid) (t : Task) (n : Nat) : (s.goesOn p t n).holdWaits = s.holdWaits := rfl
@[simp] theorem State.goesOn_timers (s : State) (p : Pid) (t : Task) (n : Nat) : (s.goesOn p t n).timers = s.timers := rfl
@[simp] theorem State.goesOn_disc (s : State) (p : Pid) (t : Task) (n : Nat) : (s.goesOn p t n).disc = s.disc := rfl
@[simp] theorem State.goesOn_res (s : State) (p : Pid) (t : Task) (n : Nat) : (s.goesOn p t n).res = s.res := rfl
@[simp] theorem State.goesOn_routers (s : State) (p : Pid) (t : Task) (n : Nat) : (s.goesOn p t n).routers = s.routers := rfl
@[simp] theorem State.goesOn_msc (s : State) (p : Pid) (t : Task) (n : Nat) : (s.goesOn p t n).msc = s.msc := rfl
@[simp] theorem State.goesOn_mc (s : State) (p : Pid) (t : Task) (n : Nat) : (s.goesOn p t n).mc = s.mc := rfl
@[simp] theorem State.goesOn_pnx (s : State) (p : Pid) (t : Task) (n : Nat) : (s.goesOn p t n).pnx = s.pnx := rfl
@[simp] theorem State.goesOn_wlv (s : State) (p : Pid) (t : Task) (n : Nat) : (s.goesOn p t n).wlv = s.wlv := rfl
@[simp] theorem State.goesOn_wlvOut (s : State) (p : Pid) (t : Task) (n : Nat) : (s.goesOn p t n).wlvOut = s.wlvOut := rfl
@[simp] theorem State.goesOn_cad (s : State) (p : Pid) (t : Task) (n : Nat) : (s.goesOn p t n).cad = s.cad := rfl
@[simp] theorem State.goesOn_herd (s : State) (p : Pid) (t : Task) (n : Nat) : (s.goesOn p t n).herd = s.herd := rfl
@[simp] theorem State.goesOn_pm (s : State) (p : Pid) (t : Task) (n : Nat) : (s.goesOn p t n).pm = s.pm := rfl
@[simp] theorem State.goesOn_gander (s : State) (p : Pid) (t : Task) (n : Nat) : (s.goesOn p t n).gander = s.gander := rfl
@[simp] theorem State.goesOn_sec (s : State) (p : Pid) (t : Task) (n : Nat) : (s.goesOn p t n).sec = s.sec := rfl
@[simp] theorem State.goesOn_integ (s : State) (p : Pid) (t : Task) (n : Nat) : (s.goesOn p t n).integ = s.integ := rfl
@[simp] theorem State.goesOn_ckpt (s : State) (p : Pid) (t : Task) (n : Nat) : (s.goesOn p t n).ckpt = s.ckpt := rfl
@[simp] theorem State.goesOn_flash (s : State) (p : Pid) (t : Task) (n : Nat) : (s.goesOn p t n).flash = s.flash := rfl
@[simp] theorem State.goesOn_mgt (s : State) (p : Pid) (t : Task) (n : Nat) : (s.goesOn p t n).mgt = s.mgt := rfl

@[simp] theorem State.clearBank_pending (s : State) (p : Pid) (b : Fin 44) : (s.clearBank p b).pending = s.pending := rfl
@[simp] theorem State.clearBank_freeIx (s : State) (p : Pid) (b : Fin 44) : (s.clearBank p b).freeIx = s.freeIx := rfl
@[simp] theorem State.clearBank_reply (s : State) (p : Pid) (b : Fin 44) : (s.clearBank p b).reply = s.reply := rfl
@[simp] theorem State.clearBank_tb (s : State) (p : Pid) (b : Fin 44) : (s.clearBank p b).tb = s.tb := rfl
@[simp] theorem State.clearBank_weirs (s : State) (p : Pid) (b : Fin 44) : (s.clearBank p b).weirs = s.weirs := rfl
@[simp] theorem State.clearBank_flight (s : State) (p : Pid) (b : Fin 44) : (s.clearBank p b).flight = s.flight := rfl
@[simp] theorem State.clearBank_notices (s : State) (p : Pid) (b : Fin 44) : (s.clearBank p b).notices = s.notices := rfl
@[simp] theorem State.clearBank_watches (s : State) (p : Pid) (b : Fin 44) : (s.clearBank p b).watches = s.watches := rfl
@[simp] theorem State.clearBank_ccWeir (s : State) (p : Pid) (b : Fin 44) : (s.clearBank p b).ccWeir = s.ccWeir := rfl
@[simp] theorem State.clearBank_transfers (s : State) (p : Pid) (b : Fin 44) : (s.clearBank p b).transfers = s.transfers := rfl
@[simp] theorem State.clearBank_nextId (s : State) (p : Pid) (b : Fin 44) : (s.clearBank p b).nextId = s.nextId := rfl
@[simp] theorem State.clearBank_sent (s : State) (p : Pid) (b : Fin 44) : (s.clearBank p b).sent = s.sent := rfl
@[simp] theorem State.clearBank_handed (s : State) (p : Pid) (b : Fin 44) : (s.clearBank p b).handed = s.handed := rfl
@[simp] theorem State.clearBank_claimedRegions (s : State) (p : Pid) (b : Fin 44) : (s.clearBank p b).claimedRegions = s.claimedRegions := rfl
@[simp] theorem State.clearBank_claimedWeirs (s : State) (p : Pid) (b : Fin 44) : (s.clearBank p b).claimedWeirs = s.claimedWeirs := rfl
@[simp] theorem State.clearBank_holdWaits (s : State) (p : Pid) (b : Fin 44) : (s.clearBank p b).holdWaits = s.holdWaits := rfl
@[simp] theorem State.clearBank_timers (s : State) (p : Pid) (b : Fin 44) : (s.clearBank p b).timers = s.timers := rfl
@[simp] theorem State.clearBank_disc (s : State) (p : Pid) (b : Fin 44) : (s.clearBank p b).disc = s.disc := rfl
@[simp] theorem State.clearBank_res (s : State) (p : Pid) (b : Fin 44) : (s.clearBank p b).res = s.res := rfl
@[simp] theorem State.clearBank_routers (s : State) (p : Pid) (b : Fin 44) : (s.clearBank p b).routers = s.routers := rfl
@[simp] theorem State.clearBank_msc (s : State) (p : Pid) (b : Fin 44) : (s.clearBank p b).msc = s.msc := rfl
@[simp] theorem State.clearBank_mc (s : State) (p : Pid) (b : Fin 44) : (s.clearBank p b).mc = s.mc := rfl
@[simp] theorem State.clearBank_pnx (s : State) (p : Pid) (b : Fin 44) : (s.clearBank p b).pnx = s.pnx := rfl
@[simp] theorem State.clearBank_wlv (s : State) (p : Pid) (b : Fin 44) : (s.clearBank p b).wlv = s.wlv := rfl
@[simp] theorem State.clearBank_wlvOut (s : State) (p : Pid) (b : Fin 44) : (s.clearBank p b).wlvOut = s.wlvOut := rfl
@[simp] theorem State.clearBank_cad (s : State) (p : Pid) (b : Fin 44) : (s.clearBank p b).cad = s.cad := rfl
@[simp] theorem State.clearBank_herd (s : State) (p : Pid) (b : Fin 44) : (s.clearBank p b).herd = s.herd := rfl
@[simp] theorem State.clearBank_pm (s : State) (p : Pid) (b : Fin 44) : (s.clearBank p b).pm = s.pm := rfl
@[simp] theorem State.clearBank_gander (s : State) (p : Pid) (b : Fin 44) : (s.clearBank p b).gander = s.gander := rfl
@[simp] theorem State.clearBank_sec (s : State) (p : Pid) (b : Fin 44) : (s.clearBank p b).sec = s.sec := rfl
@[simp] theorem State.clearBank_integ (s : State) (p : Pid) (b : Fin 44) : (s.clearBank p b).integ = s.integ := rfl
@[simp] theorem State.clearBank_ckpt (s : State) (p : Pid) (b : Fin 44) : (s.clearBank p b).ckpt = s.ckpt := rfl
@[simp] theorem State.clearBank_flash (s : State) (p : Pid) (b : Fin 44) : (s.clearBank p b).flash = s.flash := rfl
@[simp] theorem State.clearBank_mgt (s : State) (p : Pid) (b : Fin 44) : (s.clearBank p b).mgt = s.mgt := rfl

end Sys2Proof.Machine
end

