-- ==== Sys2Proof/Laws/Frames.lean ====
section
/-! SUPPORT. What the shared operations with a case split leave alone: one lemma per field and operation. -/

namespace Sys2Proof.Machine

@[simp] theorem State.putByte_pending (s : State) (a : Nat) (b : Byte) : (s.putByte a b).pending = s.pending := by simp only [State.putByte]; split <;> rfl
@[simp] theorem State.putByte_freeIx (s : State) (a : Nat) (b : Byte) : (s.putByte a b).freeIx = s.freeIx := by simp only [State.putByte]; split <;> rfl
@[simp] theorem State.putByte_reply (s : State) (a : Nat) (b : Byte) : (s.putByte a b).reply = s.reply := by simp only [State.putByte]; split <;> rfl
@[simp] theorem State.putByte_tb (s : State) (a : Nat) (b : Byte) : (s.putByte a b).tb = s.tb := by simp only [State.putByte]; split <;> rfl
@[simp] theorem State.putByte_polders (s : State) (a : Nat) (b : Byte) : (s.putByte a b).polders = s.polders := by simp only [State.putByte]; split <;> rfl
@[simp] theorem State.putByte_weirs (s : State) (a : Nat) (b : Byte) : (s.putByte a b).weirs = s.weirs := by simp only [State.putByte]; split <;> rfl
@[simp] theorem State.putByte_flight (s : State) (a : Nat) (b : Byte) : (s.putByte a b).flight = s.flight := by simp only [State.putByte]; split <;> rfl
@[simp] theorem State.putByte_notices (s : State) (a : Nat) (b : Byte) : (s.putByte a b).notices = s.notices := by simp only [State.putByte]; split <;> rfl
@[simp] theorem State.putByte_watches (s : State) (a : Nat) (b : Byte) : (s.putByte a b).watches = s.watches := by simp only [State.putByte]; split <;> rfl
@[simp] theorem State.putByte_ccWeir (s : State) (a : Nat) (b : Byte) : (s.putByte a b).ccWeir = s.ccWeir := by simp only [State.putByte]; split <;> rfl
@[simp] theorem State.putByte_transfers (s : State) (a : Nat) (b : Byte) : (s.putByte a b).transfers = s.transfers := by simp only [State.putByte]; split <;> rfl
@[simp] theorem State.putByte_nextId (s : State) (a : Nat) (b : Byte) : (s.putByte a b).nextId = s.nextId := by simp only [State.putByte]; split <;> rfl
@[simp] theorem State.putByte_handed (s : State) (a : Nat) (b : Byte) : (s.putByte a b).handed = s.handed := by simp only [State.putByte]; split <;> rfl
@[simp] theorem State.putByte_claimedRegions (s : State) (a : Nat) (b : Byte) : (s.putByte a b).claimedRegions = s.claimedRegions := by simp only [State.putByte]; split <;> rfl
@[simp] theorem State.putByte_claimedWeirs (s : State) (a : Nat) (b : Byte) : (s.putByte a b).claimedWeirs = s.claimedWeirs := by simp only [State.putByte]; split <;> rfl
@[simp] theorem State.putByte_holdWaits (s : State) (a : Nat) (b : Byte) : (s.putByte a b).holdWaits = s.holdWaits := by simp only [State.putByte]; split <;> rfl
@[simp] theorem State.putByte_timers (s : State) (a : Nat) (b : Byte) : (s.putByte a b).timers = s.timers := by simp only [State.putByte]; split <;> rfl
@[simp] theorem State.putByte_disc (s : State) (a : Nat) (b : Byte) : (s.putByte a b).disc = s.disc := by simp only [State.putByte]; split <;> rfl
@[simp] theorem State.putByte_res (s : State) (a : Nat) (b : Byte) : (s.putByte a b).res = s.res := by simp only [State.putByte]; split <;> rfl
@[simp] theorem State.putByte_routers (s : State) (a : Nat) (b : Byte) : (s.putByte a b).routers = s.routers := by simp only [State.putByte]; split <;> rfl
@[simp] theorem State.putByte_msc (s : State) (a : Nat) (b : Byte) : (s.putByte a b).msc = s.msc := by simp only [State.putByte]; split <;> rfl
@[simp] theorem State.putByte_mc (s : State) (a : Nat) (b : Byte) : (s.putByte a b).mc = s.mc := by simp only [State.putByte]; split <;> rfl
@[simp] theorem State.putByte_pnx (s : State) (a : Nat) (b : Byte) : (s.putByte a b).pnx = s.pnx := by simp only [State.putByte]; split <;> rfl
@[simp] theorem State.putByte_wlv (s : State) (a : Nat) (b : Byte) : (s.putByte a b).wlv = s.wlv := by simp only [State.putByte]; split <;> rfl
@[simp] theorem State.putByte_wlvOut (s : State) (a : Nat) (b : Byte) : (s.putByte a b).wlvOut = s.wlvOut := by simp only [State.putByte]; split <;> rfl
@[simp] theorem State.putByte_cad (s : State) (a : Nat) (b : Byte) : (s.putByte a b).cad = s.cad := by simp only [State.putByte]; split <;> rfl
@[simp] theorem State.putByte_herd (s : State) (a : Nat) (b : Byte) : (s.putByte a b).herd = s.herd := by simp only [State.putByte]; split <;> rfl
@[simp] theorem State.putByte_pm (s : State) (a : Nat) (b : Byte) : (s.putByte a b).pm = s.pm := by simp only [State.putByte]; split <;> rfl
@[simp] theorem State.putByte_gander (s : State) (a : Nat) (b : Byte) : (s.putByte a b).gander = s.gander := by simp only [State.putByte]; split <;> rfl
@[simp] theorem State.putByte_sec (s : State) (a : Nat) (b : Byte) : (s.putByte a b).sec = s.sec := by simp only [State.putByte]; split <;> rfl
@[simp] theorem State.putByte_integ (s : State) (a : Nat) (b : Byte) : (s.putByte a b).integ = s.integ := by simp only [State.putByte]; split <;> rfl
@[simp] theorem State.putByte_ckpt (s : State) (a : Nat) (b : Byte) : (s.putByte a b).ckpt = s.ckpt := by simp only [State.putByte]; split <;> rfl
@[simp] theorem State.putByte_flash (s : State) (a : Nat) (b : Byte) : (s.putByte a b).flash = s.flash := by simp only [State.putByte]; split <;> rfl
@[simp] theorem State.putByte_mgt (s : State) (a : Nat) (b : Byte) : (s.putByte a b).mgt = s.mgt := by simp only [State.putByte]; split <;> rfl

@[simp] theorem State.storeBytes_pending (s : State) (a : Nat) (bs : List Byte) : (s.storeBytes a bs).pending = s.pending := by induction bs generalizing s a with | nil => rfl | cons b t ih => simp [State.storeBytes, ih]
@[simp] theorem State.storeBytes_freeIx (s : State) (a : Nat) (bs : List Byte) : (s.storeBytes a bs).freeIx = s.freeIx := by induction bs generalizing s a with | nil => rfl | cons b t ih => simp [State.storeBytes, ih]
@[simp] theorem State.storeBytes_reply (s : State) (a : Nat) (bs : List Byte) : (s.storeBytes a bs).reply = s.reply := by induction bs generalizing s a with | nil => rfl | cons b t ih => simp [State.storeBytes, ih]
@[simp] theorem State.storeBytes_tb (s : State) (a : Nat) (bs : List Byte) : (s.storeBytes a bs).tb = s.tb := by induction bs generalizing s a with | nil => rfl | cons b t ih => simp [State.storeBytes, ih]
@[simp] theorem State.storeBytes_polders (s : State) (a : Nat) (bs : List Byte) : (s.storeBytes a bs).polders = s.polders := by induction bs generalizing s a with | nil => rfl | cons b t ih => simp [State.storeBytes, ih]
@[simp] theorem State.storeBytes_weirs (s : State) (a : Nat) (bs : List Byte) : (s.storeBytes a bs).weirs = s.weirs := by induction bs generalizing s a with | nil => rfl | cons b t ih => simp [State.storeBytes, ih]
@[simp] theorem State.storeBytes_flight (s : State) (a : Nat) (bs : List Byte) : (s.storeBytes a bs).flight = s.flight := by induction bs generalizing s a with | nil => rfl | cons b t ih => simp [State.storeBytes, ih]
@[simp] theorem State.storeBytes_notices (s : State) (a : Nat) (bs : List Byte) : (s.storeBytes a bs).notices = s.notices := by induction bs generalizing s a with | nil => rfl | cons b t ih => simp [State.storeBytes, ih]
@[simp] theorem State.storeBytes_watches (s : State) (a : Nat) (bs : List Byte) : (s.storeBytes a bs).watches = s.watches := by induction bs generalizing s a with | nil => rfl | cons b t ih => simp [State.storeBytes, ih]
@[simp] theorem State.storeBytes_ccWeir (s : State) (a : Nat) (bs : List Byte) : (s.storeBytes a bs).ccWeir = s.ccWeir := by induction bs generalizing s a with | nil => rfl | cons b t ih => simp [State.storeBytes, ih]
@[simp] theorem State.storeBytes_transfers (s : State) (a : Nat) (bs : List Byte) : (s.storeBytes a bs).transfers = s.transfers := by induction bs generalizing s a with | nil => rfl | cons b t ih => simp [State.storeBytes, ih]
@[simp] theorem State.storeBytes_nextId (s : State) (a : Nat) (bs : List Byte) : (s.storeBytes a bs).nextId = s.nextId := by induction bs generalizing s a with | nil => rfl | cons b t ih => simp [State.storeBytes, ih]
@[simp] theorem State.storeBytes_handed (s : State) (a : Nat) (bs : List Byte) : (s.storeBytes a bs).handed = s.handed := by induction bs generalizing s a with | nil => rfl | cons b t ih => simp [State.storeBytes, ih]
@[simp] theorem State.storeBytes_claimedRegions (s : State) (a : Nat) (bs : List Byte) : (s.storeBytes a bs).claimedRegions = s.claimedRegions := by induction bs generalizing s a with | nil => rfl | cons b t ih => simp [State.storeBytes, ih]
@[simp] theorem State.storeBytes_claimedWeirs (s : State) (a : Nat) (bs : List Byte) : (s.storeBytes a bs).claimedWeirs = s.claimedWeirs := by induction bs generalizing s a with | nil => rfl | cons b t ih => simp [State.storeBytes, ih]
@[simp] theorem State.storeBytes_holdWaits (s : State) (a : Nat) (bs : List Byte) : (s.storeBytes a bs).holdWaits = s.holdWaits := by induction bs generalizing s a with | nil => rfl | cons b t ih => simp [State.storeBytes, ih]
@[simp] theorem State.storeBytes_timers (s : State) (a : Nat) (bs : List Byte) : (s.storeBytes a bs).timers = s.timers := by induction bs generalizing s a with | nil => rfl | cons b t ih => simp [State.storeBytes, ih]
@[simp] theorem State.storeBytes_disc (s : State) (a : Nat) (bs : List Byte) : (s.storeBytes a bs).disc = s.disc := by induction bs generalizing s a with | nil => rfl | cons b t ih => simp [State.storeBytes, ih]
@[simp] theorem State.storeBytes_res (s : State) (a : Nat) (bs : List Byte) : (s.storeBytes a bs).res = s.res := by induction bs generalizing s a with | nil => rfl | cons b t ih => simp [State.storeBytes, ih]
@[simp] theorem State.storeBytes_routers (s : State) (a : Nat) (bs : List Byte) : (s.storeBytes a bs).routers = s.routers := by induction bs generalizing s a with | nil => rfl | cons b t ih => simp [State.storeBytes, ih]
@[simp] theorem State.storeBytes_msc (s : State) (a : Nat) (bs : List Byte) : (s.storeBytes a bs).msc = s.msc := by induction bs generalizing s a with | nil => rfl | cons b t ih => simp [State.storeBytes, ih]
@[simp] theorem State.storeBytes_mc (s : State) (a : Nat) (bs : List Byte) : (s.storeBytes a bs).mc = s.mc := by induction bs generalizing s a with | nil => rfl | cons b t ih => simp [State.storeBytes, ih]
@[simp] theorem State.storeBytes_pnx (s : State) (a : Nat) (bs : List Byte) : (s.storeBytes a bs).pnx = s.pnx := by induction bs generalizing s a with | nil => rfl | cons b t ih => simp [State.storeBytes, ih]
@[simp] theorem State.storeBytes_wlv (s : State) (a : Nat) (bs : List Byte) : (s.storeBytes a bs).wlv = s.wlv := by induction bs generalizing s a with | nil => rfl | cons b t ih => simp [State.storeBytes, ih]
@[simp] theorem State.storeBytes_wlvOut (s : State) (a : Nat) (bs : List Byte) : (s.storeBytes a bs).wlvOut = s.wlvOut := by induction bs generalizing s a with | nil => rfl | cons b t ih => simp [State.storeBytes, ih]
@[simp] theorem State.storeBytes_cad (s : State) (a : Nat) (bs : List Byte) : (s.storeBytes a bs).cad = s.cad := by induction bs generalizing s a with | nil => rfl | cons b t ih => simp [State.storeBytes, ih]
@[simp] theorem State.storeBytes_herd (s : State) (a : Nat) (bs : List Byte) : (s.storeBytes a bs).herd = s.herd := by induction bs generalizing s a with | nil => rfl | cons b t ih => simp [State.storeBytes, ih]
@[simp] theorem State.storeBytes_pm (s : State) (a : Nat) (bs : List Byte) : (s.storeBytes a bs).pm = s.pm := by induction bs generalizing s a with | nil => rfl | cons b t ih => simp [State.storeBytes, ih]
@[simp] theorem State.storeBytes_gander (s : State) (a : Nat) (bs : List Byte) : (s.storeBytes a bs).gander = s.gander := by induction bs generalizing s a with | nil => rfl | cons b t ih => simp [State.storeBytes, ih]
@[simp] theorem State.storeBytes_sec (s : State) (a : Nat) (bs : List Byte) : (s.storeBytes a bs).sec = s.sec := by induction bs generalizing s a with | nil => rfl | cons b t ih => simp [State.storeBytes, ih]
@[simp] theorem State.storeBytes_integ (s : State) (a : Nat) (bs : List Byte) : (s.storeBytes a bs).integ = s.integ := by induction bs generalizing s a with | nil => rfl | cons b t ih => simp [State.storeBytes, ih]
@[simp] theorem State.storeBytes_ckpt (s : State) (a : Nat) (bs : List Byte) : (s.storeBytes a bs).ckpt = s.ckpt := by induction bs generalizing s a with | nil => rfl | cons b t ih => simp [State.storeBytes, ih]
@[simp] theorem State.storeBytes_flash (s : State) (a : Nat) (bs : List Byte) : (s.storeBytes a bs).flash = s.flash := by induction bs generalizing s a with | nil => rfl | cons b t ih => simp [State.storeBytes, ih]
@[simp] theorem State.storeBytes_mgt (s : State) (a : Nat) (bs : List Byte) : (s.storeBytes a bs).mgt = s.mgt := by induction bs generalizing s a with | nil => rfl | cons b t ih => simp [State.storeBytes, ih]

@[simp] theorem State.putBytes_pending (s : State) (a : Nat) (bs : List Byte) : (s.putBytes a bs).pending = s.pending := by simp only [State.putBytes]; split <;> simp
@[simp] theorem State.putBytes_freeIx (s : State) (a : Nat) (bs : List Byte) : (s.putBytes a bs).freeIx = s.freeIx := by simp only [State.putBytes]; split <;> simp
@[simp] theorem State.putBytes_reply (s : State) (a : Nat) (bs : List Byte) : (s.putBytes a bs).reply = s.reply := by simp only [State.putBytes]; split <;> simp
@[simp] theorem State.putBytes_tb (s : State) (a : Nat) (bs : List Byte) : (s.putBytes a bs).tb = s.tb := by simp only [State.putBytes]; split <;> simp
@[simp] theorem State.putBytes_polders (s : State) (a : Nat) (bs : List Byte) : (s.putBytes a bs).polders = s.polders := by simp only [State.putBytes]; split <;> simp
@[simp] theorem State.putBytes_weirs (s : State) (a : Nat) (bs : List Byte) : (s.putBytes a bs).weirs = s.weirs := by simp only [State.putBytes]; split <;> simp
@[simp] theorem State.putBytes_flight (s : State) (a : Nat) (bs : List Byte) : (s.putBytes a bs).flight = s.flight := by simp only [State.putBytes]; split <;> simp
@[simp] theorem State.putBytes_notices (s : State) (a : Nat) (bs : List Byte) : (s.putBytes a bs).notices = s.notices := by simp only [State.putBytes]; split <;> simp
@[simp] theorem State.putBytes_watches (s : State) (a : Nat) (bs : List Byte) : (s.putBytes a bs).watches = s.watches := by simp only [State.putBytes]; split <;> simp
@[simp] theorem State.putBytes_ccWeir (s : State) (a : Nat) (bs : List Byte) : (s.putBytes a bs).ccWeir = s.ccWeir := by simp only [State.putBytes]; split <;> simp
@[simp] theorem State.putBytes_transfers (s : State) (a : Nat) (bs : List Byte) : (s.putBytes a bs).transfers = s.transfers := by simp only [State.putBytes]; split <;> simp
@[simp] theorem State.putBytes_nextId (s : State) (a : Nat) (bs : List Byte) : (s.putBytes a bs).nextId = s.nextId := by simp only [State.putBytes]; split <;> simp
@[simp] theorem State.putBytes_handed (s : State) (a : Nat) (bs : List Byte) : (s.putBytes a bs).handed = s.handed := by simp only [State.putBytes]; split <;> simp
@[simp] theorem State.putBytes_claimedRegions (s : State) (a : Nat) (bs : List Byte) : (s.putBytes a bs).claimedRegions = s.claimedRegions := by simp only [State.putBytes]; split <;> simp
@[simp] theorem State.putBytes_claimedWeirs (s : State) (a : Nat) (bs : List Byte) : (s.putBytes a bs).claimedWeirs = s.claimedWeirs := by simp only [State.putBytes]; split <;> simp
@[simp] theorem State.putBytes_holdWaits (s : State) (a : Nat) (bs : List Byte) : (s.putBytes a bs).holdWaits = s.holdWaits := by simp only [State.putBytes]; split <;> simp
@[simp] theorem State.putBytes_timers (s : State) (a : Nat) (bs : List Byte) : (s.putBytes a bs).timers = s.timers := by simp only [State.putBytes]; split <;> simp
@[simp] theorem State.putBytes_disc (s : State) (a : Nat) (bs : List Byte) : (s.putBytes a bs).disc = s.disc := by simp only [State.putBytes]; split <;> simp
@[simp] theorem State.putBytes_res (s : State) (a : Nat) (bs : List Byte) : (s.putBytes a bs).res = s.res := by simp only [State.putBytes]; split <;> simp
@[simp] theorem State.putBytes_routers (s : State) (a : Nat) (bs : List Byte) : (s.putBytes a bs).routers = s.routers := by simp only [State.putBytes]; split <;> simp
@[simp] theorem State.putBytes_msc (s : State) (a : Nat) (bs : List Byte) : (s.putBytes a bs).msc = s.msc := by simp only [State.putBytes]; split <;> simp
@[simp] theorem State.putBytes_mc (s : State) (a : Nat) (bs : List Byte) : (s.putBytes a bs).mc = s.mc := by simp only [State.putBytes]; split <;> simp
@[simp] theorem State.putBytes_pnx (s : State) (a : Nat) (bs : List Byte) : (s.putBytes a bs).pnx = s.pnx := by simp only [State.putBytes]; split <;> simp
@[simp] theorem State.putBytes_wlv (s : State) (a : Nat) (bs : List Byte) : (s.putBytes a bs).wlv = s.wlv := by simp only [State.putBytes]; split <;> simp
@[simp] theorem State.putBytes_wlvOut (s : State) (a : Nat) (bs : List Byte) : (s.putBytes a bs).wlvOut = s.wlvOut := by simp only [State.putBytes]; split <;> simp
@[simp] theorem State.putBytes_cad (s : State) (a : Nat) (bs : List Byte) : (s.putBytes a bs).cad = s.cad := by simp only [State.putBytes]; split <;> simp
@[simp] theorem State.putBytes_herd (s : State) (a : Nat) (bs : List Byte) : (s.putBytes a bs).herd = s.herd := by simp only [State.putBytes]; split <;> simp
@[simp] theorem State.putBytes_pm (s : State) (a : Nat) (bs : List Byte) : (s.putBytes a bs).pm = s.pm := by simp only [State.putBytes]; split <;> simp
@[simp] theorem State.putBytes_gander (s : State) (a : Nat) (bs : List Byte) : (s.putBytes a bs).gander = s.gander := by simp only [State.putBytes]; split <;> simp
@[simp] theorem State.putBytes_sec (s : State) (a : Nat) (bs : List Byte) : (s.putBytes a bs).sec = s.sec := by simp only [State.putBytes]; split <;> simp
@[simp] theorem State.putBytes_integ (s : State) (a : Nat) (bs : List Byte) : (s.putBytes a bs).integ = s.integ := by simp only [State.putBytes]; split <;> simp
@[simp] theorem State.putBytes_ckpt (s : State) (a : Nat) (bs : List Byte) : (s.putBytes a bs).ckpt = s.ckpt := by simp only [State.putBytes]; split <;> simp
@[simp] theorem State.putBytes_flash (s : State) (a : Nat) (bs : List Byte) : (s.putBytes a bs).flash = s.flash := by simp only [State.putBytes]; split <;> simp
@[simp] theorem State.putBytes_mgt (s : State) (a : Nat) (bs : List Byte) : (s.putBytes a bs).mgt = s.mgt := by simp only [State.putBytes]; split <;> simp

@[simp] theorem State.wakeQuad_pending (s : State) (q : Quad) : (s.wakeQuad q).pending = s.pending := by simp only [State.wakeQuad]; split <;> rfl
@[simp] theorem State.wakeQuad_freeIx (s : State) (q : Quad) : (s.wakeQuad q).freeIx = s.freeIx := by simp only [State.wakeQuad]; split <;> rfl
@[simp] theorem State.wakeQuad_reply (s : State) (q : Quad) : (s.wakeQuad q).reply = s.reply := by simp only [State.wakeQuad]; split <;> rfl
@[simp] theorem State.wakeQuad_tb (s : State) (q : Quad) : (s.wakeQuad q).tb = s.tb := by simp only [State.wakeQuad]; split <;> rfl
@[simp] theorem State.wakeQuad_mem (s : State) (q : Quad) : (s.wakeQuad q).mem = s.mem := by simp only [State.wakeQuad]; split <;> rfl
@[simp] theorem State.wakeQuad_polders (s : State) (q : Quad) : (s.wakeQuad q).polders = s.polders := by simp only [State.wakeQuad]; split <;> rfl
@[simp] theorem State.wakeQuad_weirs (s : State) (q : Quad) : (s.wakeQuad q).weirs = s.weirs := by simp only [State.wakeQuad]; split <;> rfl
@[simp] theorem State.wakeQuad_flight (s : State) (q : Quad) : (s.wakeQuad q).flight = s.flight := by simp only [State.wakeQuad]; split <;> rfl
@[simp] theorem State.wakeQuad_notices (s : State) (q : Quad) : (s.wakeQuad q).notices = s.notices := by simp only [State.wakeQuad]; split <;> rfl
@[simp] theorem State.wakeQuad_watches (s : State) (q : Quad) : (s.wakeQuad q).watches = s.watches := by simp only [State.wakeQuad]; split <;> rfl
@[simp] theorem State.wakeQuad_ccWeir (s : State) (q : Quad) : (s.wakeQuad q).ccWeir = s.ccWeir := by simp only [State.wakeQuad]; split <;> rfl
@[simp] theorem State.wakeQuad_transfers (s : State) (q : Quad) : (s.wakeQuad q).transfers = s.transfers := by simp only [State.wakeQuad]; split <;> rfl
@[simp] theorem State.wakeQuad_nextId (s : State) (q : Quad) : (s.wakeQuad q).nextId = s.nextId := by simp only [State.wakeQuad]; split <;> rfl
@[simp] theorem State.wakeQuad_handed (s : State) (q : Quad) : (s.wakeQuad q).handed = s.handed := by simp only [State.wakeQuad]; split <;> rfl
@[simp] theorem State.wakeQuad_sent (s : State) (q : Quad) : (s.wakeQuad q).sent = s.sent := by simp only [State.wakeQuad]; split <;> rfl
@[simp] theorem State.wakeQuad_claimedRegions (s : State) (q : Quad) : (s.wakeQuad q).claimedRegions = s.claimedRegions := by simp only [State.wakeQuad]; split <;> rfl
@[simp] theorem State.wakeQuad_claimedWeirs (s : State) (q : Quad) : (s.wakeQuad q).claimedWeirs = s.claimedWeirs := by simp only [State.wakeQuad]; split <;> rfl
@[simp] theorem State.wakeQuad_holdWaits (s : State) (q : Quad) : (s.wakeQuad q).holdWaits = s.holdWaits := by simp only [State.wakeQuad]; split <;> rfl
@[simp] theorem State.wakeQuad_timers (s : State) (q : Quad) : (s.wakeQuad q).timers = s.timers := by simp only [State.wakeQuad]; split <;> rfl
@[simp] theorem State.wakeQuad_disc (s : State) (q : Quad) : (s.wakeQuad q).disc = s.disc := by simp only [State.wakeQuad]; split <;> rfl
@[simp] theorem State.wakeQuad_res (s : State) (q : Quad) : (s.wakeQuad q).res = s.res := by simp only [State.wakeQuad]; split <;> rfl
@[simp] theorem State.wakeQuad_routers (s : State) (q : Quad) : (s.wakeQuad q).routers = s.routers := by simp only [State.wakeQuad]; split <;> rfl
@[simp] theorem State.wakeQuad_msc (s : State) (q : Quad) : (s.wakeQuad q).msc = s.msc := by simp only [State.wakeQuad]; split <;> rfl
@[simp] theorem State.wakeQuad_mc (s : State) (q : Quad) : (s.wakeQuad q).mc = s.mc := by simp only [State.wakeQuad]; split <;> rfl
@[simp] theorem State.wakeQuad_pnx (s : State) (q : Quad) : (s.wakeQuad q).pnx = s.pnx := by simp only [State.wakeQuad]; split <;> rfl
@[simp] theorem State.wakeQuad_wlv (s : State) (q : Quad) : (s.wakeQuad q).wlv = s.wlv := by simp only [State.wakeQuad]; split <;> rfl
@[simp] theorem State.wakeQuad_wlvOut (s : State) (q : Quad) : (s.wakeQuad q).wlvOut = s.wlvOut := by simp only [State.wakeQuad]; split <;> rfl
@[simp] theorem State.wakeQuad_cad (s : State) (q : Quad) : (s.wakeQuad q).cad = s.cad := by simp only [State.wakeQuad]; split <;> rfl
@[simp] theorem State.wakeQuad_herd (s : State) (q : Quad) : (s.wakeQuad q).herd = s.herd := by simp only [State.wakeQuad]; split <;> rfl
@[simp] theorem State.wakeQuad_gander (s : State) (q : Quad) : (s.wakeQuad q).gander = s.gander := by simp only [State.wakeQuad]; split <;> rfl
@[simp] theorem State.wakeQuad_sec (s : State) (q : Quad) : (s.wakeQuad q).sec = s.sec := by simp only [State.wakeQuad]; split <;> rfl
@[simp] theorem State.wakeQuad_integ (s : State) (q : Quad) : (s.wakeQuad q).integ = s.integ := by simp only [State.wakeQuad]; split <;> rfl
@[simp] theorem State.wakeQuad_ckpt (s : State) (q : Quad) : (s.wakeQuad q).ckpt = s.ckpt := by simp only [State.wakeQuad]; split <;> rfl
@[simp] theorem State.wakeQuad_flash (s : State) (q : Quad) : (s.wakeQuad q).flash = s.flash := by simp only [State.wakeQuad]; split <;> rfl
@[simp] theorem State.wakeQuad_mgt (s : State) (q : Quad) : (s.wakeQuad q).mgt = s.mgt := by simp only [State.wakeQuad]; split <;> rfl

@[simp] theorem State.wakeSlots_pending (s : State) (l : List (Pid × Nat)) : (s.wakeSlots l).pending = s.pending := by induction l generalizing s with | nil => rfl | cons x t ih => simp [State.wakeSlots, ih]
@[simp] theorem State.wakeSlots_freeIx (s : State) (l : List (Pid × Nat)) : (s.wakeSlots l).freeIx = s.freeIx := by induction l generalizing s with | nil => rfl | cons x t ih => simp [State.wakeSlots, ih]
@[simp] theorem State.wakeSlots_reply (s : State) (l : List (Pid × Nat)) : (s.wakeSlots l).reply = s.reply := by induction l generalizing s with | nil => rfl | cons x t ih => simp [State.wakeSlots, ih]
@[simp] theorem State.wakeSlots_tb (s : State) (l : List (Pid × Nat)) : (s.wakeSlots l).tb = s.tb := by induction l generalizing s with | nil => rfl | cons x t ih => simp [State.wakeSlots, ih]
@[simp] theorem State.wakeSlots_mem (s : State) (l : List (Pid × Nat)) : (s.wakeSlots l).mem = s.mem := by induction l generalizing s with | nil => rfl | cons x t ih => simp [State.wakeSlots, ih]
@[simp] theorem State.wakeSlots_polders (s : State) (l : List (Pid × Nat)) : (s.wakeSlots l).polders = s.polders := by induction l generalizing s with | nil => rfl | cons x t ih => simp [State.wakeSlots, ih]
@[simp] theorem State.wakeSlots_weirs (s : State) (l : List (Pid × Nat)) : (s.wakeSlots l).weirs = s.weirs := by induction l generalizing s with | nil => rfl | cons x t ih => simp [State.wakeSlots, ih]
@[simp] theorem State.wakeSlots_flight (s : State) (l : List (Pid × Nat)) : (s.wakeSlots l).flight = s.flight := by induction l generalizing s with | nil => rfl | cons x t ih => simp [State.wakeSlots, ih]
@[simp] theorem State.wakeSlots_notices (s : State) (l : List (Pid × Nat)) : (s.wakeSlots l).notices = s.notices := by induction l generalizing s with | nil => rfl | cons x t ih => simp [State.wakeSlots, ih]
@[simp] theorem State.wakeSlots_watches (s : State) (l : List (Pid × Nat)) : (s.wakeSlots l).watches = s.watches := by induction l generalizing s with | nil => rfl | cons x t ih => simp [State.wakeSlots, ih]
@[simp] theorem State.wakeSlots_ccWeir (s : State) (l : List (Pid × Nat)) : (s.wakeSlots l).ccWeir = s.ccWeir := by induction l generalizing s with | nil => rfl | cons x t ih => simp [State.wakeSlots, ih]
@[simp] theorem State.wakeSlots_transfers (s : State) (l : List (Pid × Nat)) : (s.wakeSlots l).transfers = s.transfers := by induction l generalizing s with | nil => rfl | cons x t ih => simp [State.wakeSlots, ih]
@[simp] theorem State.wakeSlots_nextId (s : State) (l : List (Pid × Nat)) : (s.wakeSlots l).nextId = s.nextId := by induction l generalizing s with | nil => rfl | cons x t ih => simp [State.wakeSlots, ih]
@[simp] theorem State.wakeSlots_handed (s : State) (l : List (Pid × Nat)) : (s.wakeSlots l).handed = s.handed := by induction l generalizing s with | nil => rfl | cons x t ih => simp [State.wakeSlots, ih]
@[simp] theorem State.wakeSlots_sent (s : State) (l : List (Pid × Nat)) : (s.wakeSlots l).sent = s.sent := by induction l generalizing s with | nil => rfl | cons x t ih => simp [State.wakeSlots, ih]
@[simp] theorem State.wakeSlots_claimedRegions (s : State) (l : List (Pid × Nat)) : (s.wakeSlots l).claimedRegions = s.claimedRegions := by induction l generalizing s with | nil => rfl | cons x t ih => simp [State.wakeSlots, ih]
@[simp] theorem State.wakeSlots_claimedWeirs (s : State) (l : List (Pid × Nat)) : (s.wakeSlots l).claimedWeirs = s.claimedWeirs := by induction l generalizing s with | nil => rfl | cons x t ih => simp [State.wakeSlots, ih]
@[simp] theorem State.wakeSlots_holdWaits (s : State) (l : List (Pid × Nat)) : (s.wakeSlots l).holdWaits = s.holdWaits := by induction l generalizing s with | nil => rfl | cons x t ih => simp [State.wakeSlots, ih]
@[simp] theorem State.wakeSlots_timers (s : State) (l : List (Pid × Nat)) : (s.wakeSlots l).timers = s.timers := by induction l generalizing s with | nil => rfl | cons x t ih => simp [State.wakeSlots, ih]
@[simp] theorem State.wakeSlots_disc (s : State) (l : List (Pid × Nat)) : (s.wakeSlots l).disc = s.disc := by induction l generalizing s with | nil => rfl | cons x t ih => simp [State.wakeSlots, ih]
@[simp] theorem State.wakeSlots_res (s : State) (l : List (Pid × Nat)) : (s.wakeSlots l).res = s.res := by induction l generalizing s with | nil => rfl | cons x t ih => simp [State.wakeSlots, ih]
@[simp] theorem State.wakeSlots_routers (s : State) (l : List (Pid × Nat)) : (s.wakeSlots l).routers = s.routers := by induction l generalizing s with | nil => rfl | cons x t ih => simp [State.wakeSlots, ih]
@[simp] theorem State.wakeSlots_msc (s : State) (l : List (Pid × Nat)) : (s.wakeSlots l).msc = s.msc := by induction l generalizing s with | nil => rfl | cons x t ih => simp [State.wakeSlots, ih]
@[simp] theorem State.wakeSlots_mc (s : State) (l : List (Pid × Nat)) : (s.wakeSlots l).mc = s.mc := by induction l generalizing s with | nil => rfl | cons x t ih => simp [State.wakeSlots, ih]
@[simp] theorem State.wakeSlots_pnx (s : State) (l : List (Pid × Nat)) : (s.wakeSlots l).pnx = s.pnx := by induction l generalizing s with | nil => rfl | cons x t ih => simp [State.wakeSlots, ih]
@[simp] theorem State.wakeSlots_wlv (s : State) (l : List (Pid × Nat)) : (s.wakeSlots l).wlv = s.wlv := by induction l generalizing s with | nil => rfl | cons x t ih => simp [State.wakeSlots, ih]
@[simp] theorem State.wakeSlots_wlvOut (s : State) (l : List (Pid × Nat)) : (s.wakeSlots l).wlvOut = s.wlvOut := by induction l generalizing s with | nil => rfl | cons x t ih => simp [State.wakeSlots, ih]
@[simp] theorem State.wakeSlots_cad (s : State) (l : List (Pid × Nat)) : (s.wakeSlots l).cad = s.cad := by induction l generalizing s with | nil => rfl | cons x t ih => simp [State.wakeSlots, ih]
@[simp] theorem State.wakeSlots_herd (s : State) (l : List (Pid × Nat)) : (s.wakeSlots l).herd = s.herd := by induction l generalizing s with | nil => rfl | cons x t ih => simp [State.wakeSlots, ih]
@[simp] theorem State.wakeSlots_gander (s : State) (l : List (Pid × Nat)) : (s.wakeSlots l).gander = s.gander := by induction l generalizing s with | nil => rfl | cons x t ih => simp [State.wakeSlots, ih]
@[simp] theorem State.wakeSlots_sec (s : State) (l : List (Pid × Nat)) : (s.wakeSlots l).sec = s.sec := by induction l generalizing s with | nil => rfl | cons x t ih => simp [State.wakeSlots, ih]
@[simp] theorem State.wakeSlots_integ (s : State) (l : List (Pid × Nat)) : (s.wakeSlots l).integ = s.integ := by induction l generalizing s with | nil => rfl | cons x t ih => simp [State.wakeSlots, ih]
@[simp] theorem State.wakeSlots_ckpt (s : State) (l : List (Pid × Nat)) : (s.wakeSlots l).ckpt = s.ckpt := by induction l generalizing s with | nil => rfl | cons x t ih => simp [State.wakeSlots, ih]
@[simp] theorem State.wakeSlots_flash (s : State) (l : List (Pid × Nat)) : (s.wakeSlots l).flash = s.flash := by induction l generalizing s with | nil => rfl | cons x t ih => simp [State.wakeSlots, ih]
@[simp] theorem State.wakeSlots_mgt (s : State) (l : List (Pid × Nat)) : (s.wakeSlots l).mgt = s.mgt := by induction l generalizing s with | nil => rfl | cons x t ih => simp [State.wakeSlots, ih]

@[simp] theorem State.planSite_pending (s : State) (n : Site) : (s.planSite n).pending = s.pending := by simp only [State.planSite]; split <;> rfl
@[simp] theorem State.planSite_freeIx (s : State) (n : Site) : (s.planSite n).freeIx = s.freeIx := by simp only [State.planSite]; split <;> rfl
@[simp] theorem State.planSite_reply (s : State) (n : Site) : (s.planSite n).reply = s.reply := by simp only [State.planSite]; split <;> rfl
@[simp] theorem State.planSite_tb (s : State) (n : Site) : (s.planSite n).tb = s.tb := by simp only [State.planSite]; split <;> rfl
@[simp] theorem State.planSite_mem (s : State) (n : Site) : (s.planSite n).mem = s.mem := by simp only [State.planSite]; split <;> rfl
@[simp] theorem State.planSite_polders (s : State) (n : Site) : (s.planSite n).polders = s.polders := by simp only [State.planSite]; split <;> rfl
@[simp] theorem State.planSite_weirs (s : State) (n : Site) : (s.planSite n).weirs = s.weirs := by simp only [State.planSite]; split <;> rfl
@[simp] theorem State.planSite_flight (s : State) (n : Site) : (s.planSite n).flight = s.flight := by simp only [State.planSite]; split <;> rfl
@[simp] theorem State.planSite_notices (s : State) (n : Site) : (s.planSite n).notices = s.notices := by simp only [State.planSite]; split <;> rfl
@[simp] theorem State.planSite_watches (s : State) (n : Site) : (s.planSite n).watches = s.watches := by simp only [State.planSite]; split <;> rfl
@[simp] theorem State.planSite_ccWeir (s : State) (n : Site) : (s.planSite n).ccWeir = s.ccWeir := by simp only [State.planSite]; split <;> rfl
@[simp] theorem State.planSite_transfers (s : State) (n : Site) : (s.planSite n).transfers = s.transfers := by simp only [State.planSite]; split <;> rfl
@[simp] theorem State.planSite_nextId (s : State) (n : Site) : (s.planSite n).nextId = s.nextId := by simp only [State.planSite]; split <;> rfl
@[simp] theorem State.planSite_handed (s : State) (n : Site) : (s.planSite n).handed = s.handed := by simp only [State.planSite]; split <;> rfl
@[simp] theorem State.planSite_sent (s : State) (n : Site) : (s.planSite n).sent = s.sent := by simp only [State.planSite]; split <;> rfl
@[simp] theorem State.planSite_claimedRegions (s : State) (n : Site) : (s.planSite n).claimedRegions = s.claimedRegions := by simp only [State.planSite]; split <;> rfl
@[simp] theorem State.planSite_claimedWeirs (s : State) (n : Site) : (s.planSite n).claimedWeirs = s.claimedWeirs := by simp only [State.planSite]; split <;> rfl
@[simp] theorem State.planSite_holdWaits (s : State) (n : Site) : (s.planSite n).holdWaits = s.holdWaits := by simp only [State.planSite]; split <;> rfl
@[simp] theorem State.planSite_timers (s : State) (n : Site) : (s.planSite n).timers = s.timers := by simp only [State.planSite]; split <;> rfl
@[simp] theorem State.planSite_disc (s : State) (n : Site) : (s.planSite n).disc = s.disc := by simp only [State.planSite]; split <;> rfl
@[simp] theorem State.planSite_res (s : State) (n : Site) : (s.planSite n).res = s.res := by simp only [State.planSite]; split <;> rfl
@[simp] theorem State.planSite_routers (s : State) (n : Site) : (s.planSite n).routers = s.routers := by simp only [State.planSite]; split <;> rfl
@[simp] theorem State.planSite_msc (s : State) (n : Site) : (s.planSite n).msc = s.msc := by simp only [State.planSite]; split <;> rfl
@[simp] theorem State.planSite_mc (s : State) (n : Site) : (s.planSite n).mc = s.mc := by simp only [State.planSite]; split <;> rfl
@[simp] theorem State.planSite_pnx (s : State) (n : Site) : (s.planSite n).pnx = s.pnx := by simp only [State.planSite]; split <;> rfl
@[simp] theorem State.planSite_wlv (s : State) (n : Site) : (s.planSite n).wlv = s.wlv := by simp only [State.planSite]; split <;> rfl
@[simp] theorem State.planSite_wlvOut (s : State) (n : Site) : (s.planSite n).wlvOut = s.wlvOut := by simp only [State.planSite]; split <;> rfl
@[simp] theorem State.planSite_cad (s : State) (n : Site) : (s.planSite n).cad = s.cad := by simp only [State.planSite]; split <;> rfl
@[simp] theorem State.planSite_herd (s : State) (n : Site) : (s.planSite n).herd = s.herd := by simp only [State.planSite]; split <;> rfl
@[simp] theorem State.planSite_pm (s : State) (n : Site) : (s.planSite n).pm = s.pm := by simp only [State.planSite]; split <;> rfl
@[simp] theorem State.planSite_gander (s : State) (n : Site) : (s.planSite n).gander = s.gander := by simp only [State.planSite]; split <;> rfl
@[simp] theorem State.planSite_sec (s : State) (n : Site) : (s.planSite n).sec = s.sec := by simp only [State.planSite]; split <;> rfl
@[simp] theorem State.planSite_ckpt (s : State) (n : Site) : (s.planSite n).ckpt = s.ckpt := by simp only [State.planSite]; split <;> rfl
@[simp] theorem State.planSite_flash (s : State) (n : Site) : (s.planSite n).flash = s.flash := by simp only [State.planSite]; split <;> rfl
@[simp] theorem State.planSite_mgt (s : State) (n : Site) : (s.planSite n).mgt = s.mgt := by simp only [State.planSite]; split <;> rfl

@[simp] theorem State.complete_pending (s : State) (l : BitVec 512) (r : List Byte) : (s.complete l r).pending = s.pending := by simp only [State.complete]; split <;> simp
@[simp] theorem State.complete_freeIx (s : State) (l : BitVec 512) (r : List Byte) : (s.complete l r).freeIx = s.freeIx := by simp only [State.complete]; split <;> simp
@[simp] theorem State.complete_reply (s : State) (l : BitVec 512) (r : List Byte) : (s.complete l r).reply = s.reply := by simp only [State.complete]; split <;> simp
@[simp] theorem State.complete_tb (s : State) (l : BitVec 512) (r : List Byte) : (s.complete l r).tb = s.tb := by simp only [State.complete]; split <;> simp
@[simp] theorem State.complete_polders (s : State) (l : BitVec 512) (r : List Byte) : (s.complete l r).polders = s.polders := by simp only [State.complete]; split <;> simp
@[simp] theorem State.complete_weirs (s : State) (l : BitVec 512) (r : List Byte) : (s.complete l r).weirs = s.weirs := by simp only [State.complete]; split <;> simp
@[simp] theorem State.complete_flight (s : State) (l : BitVec 512) (r : List Byte) : (s.complete l r).flight = s.flight := by simp only [State.complete]; split <;> simp
@[simp] theorem State.complete_notices (s : State) (l : BitVec 512) (r : List Byte) : (s.complete l r).notices = s.notices := by simp only [State.complete]; split <;> simp
@[simp] theorem State.complete_watches (s : State) (l : BitVec 512) (r : List Byte) : (s.complete l r).watches = s.watches := by simp only [State.complete]; split <;> simp
@[simp] theorem State.complete_ccWeir (s : State) (l : BitVec 512) (r : List Byte) : (s.complete l r).ccWeir = s.ccWeir := by simp only [State.complete]; split <;> simp
@[simp] theorem State.complete_transfers (s : State) (l : BitVec 512) (r : List Byte) : (s.complete l r).transfers = s.transfers := by simp only [State.complete]; split <;> simp
@[simp] theorem State.complete_nextId (s : State) (l : BitVec 512) (r : List Byte) : (s.complete l r).nextId = s.nextId := by simp only [State.complete]; split <;> simp
@[simp] theorem State.complete_handed (s : State) (l : BitVec 512) (r : List Byte) : (s.complete l r).handed = s.handed := by simp only [State.complete]; split <;> simp
@[simp] theorem State.complete_claimedRegions (s : State) (l : BitVec 512) (r : List Byte) : (s.complete l r).claimedRegions = s.claimedRegions := by simp only [State.complete]; split <;> simp
@[simp] theorem State.complete_claimedWeirs (s : State) (l : BitVec 512) (r : List Byte) : (s.complete l r).claimedWeirs = s.claimedWeirs := by simp only [State.complete]; split <;> simp
@[simp] theorem State.complete_holdWaits (s : State) (l : BitVec 512) (r : List Byte) : (s.complete l r).holdWaits = s.holdWaits := by simp only [State.complete]; split <;> simp
@[simp] theorem State.complete_timers (s : State) (l : BitVec 512) (r : List Byte) : (s.complete l r).timers = s.timers := by simp only [State.complete]; split <;> simp
@[simp] theorem State.complete_disc (s : State) (l : BitVec 512) (r : List Byte) : (s.complete l r).disc = s.disc := by simp only [State.complete]; split <;> simp
@[simp] theorem State.complete_res (s : State) (l : BitVec 512) (r : List Byte) : (s.complete l r).res = s.res := by simp only [State.complete]; split <;> simp
@[simp] theorem State.complete_routers (s : State) (l : BitVec 512) (r : List Byte) : (s.complete l r).routers = s.routers := by simp only [State.complete]; split <;> simp
@[simp] theorem State.complete_msc (s : State) (l : BitVec 512) (r : List Byte) : (s.complete l r).msc = s.msc := by simp only [State.complete]; split <;> simp
@[simp] theorem State.complete_mc (s : State) (l : BitVec 512) (r : List Byte) : (s.complete l r).mc = s.mc := by simp only [State.complete]; split <;> simp
@[simp] theorem State.complete_pnx (s : State) (l : BitVec 512) (r : List Byte) : (s.complete l r).pnx = s.pnx := by simp only [State.complete]; split <;> simp
@[simp] theorem State.complete_wlv (s : State) (l : BitVec 512) (r : List Byte) : (s.complete l r).wlv = s.wlv := by simp only [State.complete]; split <;> simp
@[simp] theorem State.complete_wlvOut (s : State) (l : BitVec 512) (r : List Byte) : (s.complete l r).wlvOut = s.wlvOut := by simp only [State.complete]; split <;> simp
@[simp] theorem State.complete_cad (s : State) (l : BitVec 512) (r : List Byte) : (s.complete l r).cad = s.cad := by simp only [State.complete]; split <;> simp
@[simp] theorem State.complete_herd (s : State) (l : BitVec 512) (r : List Byte) : (s.complete l r).herd = s.herd := by simp only [State.complete]; split <;> simp
@[simp] theorem State.complete_pm (s : State) (l : BitVec 512) (r : List Byte) : (s.complete l r).pm = s.pm := by simp only [State.complete]; split <;> simp
@[simp] theorem State.complete_gander (s : State) (l : BitVec 512) (r : List Byte) : (s.complete l r).gander = s.gander := by simp only [State.complete]; split <;> simp
@[simp] theorem State.complete_sec (s : State) (l : BitVec 512) (r : List Byte) : (s.complete l r).sec = s.sec := by simp only [State.complete]; split <;> simp
@[simp] theorem State.complete_integ (s : State) (l : BitVec 512) (r : List Byte) : (s.complete l r).integ = s.integ := by simp only [State.complete]; split <;> simp
@[simp] theorem State.complete_ckpt (s : State) (l : BitVec 512) (r : List Byte) : (s.complete l r).ckpt = s.ckpt := by simp only [State.complete]; split <;> simp
@[simp] theorem State.complete_flash (s : State) (l : BitVec 512) (r : List Byte) : (s.complete l r).flash = s.flash := by simp only [State.complete]; split <;> simp
@[simp] theorem State.complete_mgt (s : State) (l : BitVec 512) (r : List Byte) : (s.complete l r).mgt = s.mgt := by simp only [State.complete]; split <;> simp

@[simp] theorem State.countSignal_pending (s : State) (n : Nat) : (s.countSignal n).pending = s.pending := by simp only [State.countSignal]; split <;> rfl
@[simp] theorem State.countSignal_freeIx (s : State) (n : Nat) : (s.countSignal n).freeIx = s.freeIx := by simp only [State.countSignal]; split <;> rfl
@[simp] theorem State.countSignal_reply (s : State) (n : Nat) : (s.countSignal n).reply = s.reply := by simp only [State.countSignal]; split <;> rfl
@[simp] theorem State.countSignal_tb (s : State) (n : Nat) : (s.countSignal n).tb = s.tb := by simp only [State.countSignal]; split <;> rfl
@[simp] theorem State.countSignal_mem (s : State) (n : Nat) : (s.countSignal n).mem = s.mem := by simp only [State.countSignal]; split <;> rfl
@[simp] theorem State.countSignal_weirs (s : State) (n : Nat) : (s.countSignal n).weirs = s.weirs := by simp only [State.countSignal]; split <;> rfl
@[simp] theorem State.countSignal_flight (s : State) (n : Nat) : (s.countSignal n).flight = s.flight := by simp only [State.countSignal]; split <;> rfl
@[simp] theorem State.countSignal_notices (s : State) (n : Nat) : (s.countSignal n).notices = s.notices := by simp only [State.countSignal]; split <;> rfl
@[simp] theorem State.countSignal_watches (s : State) (n : Nat) : (s.countSignal n).watches = s.watches := by simp only [State.countSignal]; split <;> rfl
@[simp] theorem State.countSignal_transfers (s : State) (n : Nat) : (s.countSignal n).transfers = s.transfers := by simp only [State.countSignal]; split <;> rfl
@[simp] theorem State.countSignal_nextId (s : State) (n : Nat) : (s.countSignal n).nextId = s.nextId := by simp only [State.countSignal]; split <;> rfl
@[simp] theorem State.countSignal_handed (s : State) (n : Nat) : (s.countSignal n).handed = s.handed := by simp only [State.countSignal]; split <;> rfl
@[simp] theorem State.countSignal_sent (s : State) (n : Nat) : (s.countSignal n).sent = s.sent := by simp only [State.countSignal]; split <;> rfl
@[simp] theorem State.countSignal_claimedRegions (s : State) (n : Nat) : (s.countSignal n).claimedRegions = s.claimedRegions := by simp only [State.countSignal]; split <;> rfl
@[simp] theorem State.countSignal_claimedWeirs (s : State) (n : Nat) : (s.countSignal n).claimedWeirs = s.claimedWeirs := by simp only [State.countSignal]; split <;> rfl
@[simp] theorem State.countSignal_holdWaits (s : State) (n : Nat) : (s.countSignal n).holdWaits = s.holdWaits := by simp only [State.countSignal]; split <;> rfl
@[simp] theorem State.countSignal_timers (s : State) (n : Nat) : (s.countSignal n).timers = s.timers := by simp only [State.countSignal]; split <;> rfl
@[simp] theorem State.countSignal_disc (s : State) (n : Nat) : (s.countSignal n).disc = s.disc := by simp only [State.countSignal]; split <;> rfl
@[simp] theorem State.countSignal_res (s : State) (n : Nat) : (s.countSignal n).res = s.res := by simp only [State.countSignal]; split <;> rfl
@[simp] theorem State.countSignal_routers (s : State) (n : Nat) : (s.countSignal n).routers = s.routers := by simp only [State.countSignal]; split <;> rfl
@[simp] theorem State.countSignal_msc (s : State) (n : Nat) : (s.countSignal n).msc = s.msc := by simp only [State.countSignal]; split <;> rfl
@[simp] theorem State.countSignal_mc (s : State) (n : Nat) : (s.countSignal n).mc = s.mc := by simp only [State.countSignal]; split <;> rfl
@[simp] theorem State.countSignal_pnx (s : State) (n : Nat) : (s.countSignal n).pnx = s.pnx := by simp only [State.countSignal]; split <;> rfl
@[simp] theorem State.countSignal_wlv (s : State) (n : Nat) : (s.countSignal n).wlv = s.wlv := by simp only [State.countSignal]; split <;> rfl
@[simp] theorem State.countSignal_wlvOut (s : State) (n : Nat) : (s.countSignal n).wlvOut = s.wlvOut := by simp only [State.countSignal]; split <;> rfl
@[simp] theorem State.countSignal_cad (s : State) (n : Nat) : (s.countSignal n).cad = s.cad := by simp only [State.countSignal]; split <;> rfl
@[simp] theorem State.countSignal_herd (s : State) (n : Nat) : (s.countSignal n).herd = s.herd := by simp only [State.countSignal]; split <;> rfl
@[simp] theorem State.countSignal_pm (s : State) (n : Nat) : (s.countSignal n).pm = s.pm := by simp only [State.countSignal]; split <;> rfl
@[simp] theorem State.countSignal_gander (s : State) (n : Nat) : (s.countSignal n).gander = s.gander := by simp only [State.countSignal]; split <;> rfl
@[simp] theorem State.countSignal_sec (s : State) (n : Nat) : (s.countSignal n).sec = s.sec := by simp only [State.countSignal]; split <;> rfl
@[simp] theorem State.countSignal_integ (s : State) (n : Nat) : (s.countSignal n).integ = s.integ := by simp only [State.countSignal]; split <;> rfl
@[simp] theorem State.countSignal_ckpt (s : State) (n : Nat) : (s.countSignal n).ckpt = s.ckpt := by simp only [State.countSignal]; split <;> rfl
@[simp] theorem State.countSignal_flash (s : State) (n : Nat) : (s.countSignal n).flash = s.flash := by simp only [State.countSignal]; split <;> rfl
@[simp] theorem State.countSignal_mgt (s : State) (n : Nat) : (s.countSignal n).mgt = s.mgt := by simp only [State.countSignal]; split <;> rfl

@[simp] theorem State.weirAdd_pending (s : State) (n : Nat) (i : U32) : (s.weirAdd n i).pending = s.pending := by simp only [State.weirAdd]; split <;> simp
@[simp] theorem State.weirAdd_freeIx (s : State) (n : Nat) (i : U32) : (s.weirAdd n i).freeIx = s.freeIx := by simp only [State.weirAdd]; split <;> simp
@[simp] theorem State.weirAdd_reply (s : State) (n : Nat) (i : U32) : (s.weirAdd n i).reply = s.reply := by simp only [State.weirAdd]; split <;> simp
@[simp] theorem State.weirAdd_tb (s : State) (n : Nat) (i : U32) : (s.weirAdd n i).tb = s.tb := by simp only [State.weirAdd]; split <;> simp
@[simp] theorem State.weirAdd_mem (s : State) (n : Nat) (i : U32) : (s.weirAdd n i).mem = s.mem := by simp only [State.weirAdd]; split <;> simp
@[simp] theorem State.weirAdd_flight (s : State) (n : Nat) (i : U32) : (s.weirAdd n i).flight = s.flight := by simp only [State.weirAdd]; split <;> simp
@[simp] theorem State.weirAdd_transfers (s : State) (n : Nat) (i : U32) : (s.weirAdd n i).transfers = s.transfers := by simp only [State.weirAdd]; split <;> simp
@[simp] theorem State.weirAdd_nextId (s : State) (n : Nat) (i : U32) : (s.weirAdd n i).nextId = s.nextId := by simp only [State.weirAdd]; split <;> simp
@[simp] theorem State.weirAdd_handed (s : State) (n : Nat) (i : U32) : (s.weirAdd n i).handed = s.handed := by simp only [State.weirAdd]; split <;> simp
@[simp] theorem State.weirAdd_sent (s : State) (n : Nat) (i : U32) : (s.weirAdd n i).sent = s.sent := by simp only [State.weirAdd]; split <;> simp
@[simp] theorem State.weirAdd_claimedRegions (s : State) (n : Nat) (i : U32) : (s.weirAdd n i).claimedRegions = s.claimedRegions := by simp only [State.weirAdd]; split <;> simp
@[simp] theorem State.weirAdd_claimedWeirs (s : State) (n : Nat) (i : U32) : (s.weirAdd n i).claimedWeirs = s.claimedWeirs := by simp only [State.weirAdd]; split <;> simp
@[simp] theorem State.weirAdd_holdWaits (s : State) (n : Nat) (i : U32) : (s.weirAdd n i).holdWaits = s.holdWaits := by simp only [State.weirAdd]; split <;> simp
@[simp] theorem State.weirAdd_timers (s : State) (n : Nat) (i : U32) : (s.weirAdd n i).timers = s.timers := by simp only [State.weirAdd]; split <;> simp
@[simp] theorem State.weirAdd_disc (s : State) (n : Nat) (i : U32) : (s.weirAdd n i).disc = s.disc := by simp only [State.weirAdd]; split <;> simp
@[simp] theorem State.weirAdd_res (s : State) (n : Nat) (i : U32) : (s.weirAdd n i).res = s.res := by simp only [State.weirAdd]; split <;> simp
@[simp] theorem State.weirAdd_routers (s : State) (n : Nat) (i : U32) : (s.weirAdd n i).routers = s.routers := by simp only [State.weirAdd]; split <;> simp
@[simp] theorem State.weirAdd_msc (s : State) (n : Nat) (i : U32) : (s.weirAdd n i).msc = s.msc := by simp only [State.weirAdd]; split <;> simp
@[simp] theorem State.weirAdd_mc (s : State) (n : Nat) (i : U32) : (s.weirAdd n i).mc = s.mc := by simp only [State.weirAdd]; split <;> simp
@[simp] theorem State.weirAdd_pnx (s : State) (n : Nat) (i : U32) : (s.weirAdd n i).pnx = s.pnx := by simp only [State.weirAdd]; split <;> simp
@[simp] theorem State.weirAdd_wlv (s : State) (n : Nat) (i : U32) : (s.weirAdd n i).wlv = s.wlv := by simp only [State.weirAdd]; split <;> simp
@[simp] theorem State.weirAdd_wlvOut (s : State) (n : Nat) (i : U32) : (s.weirAdd n i).wlvOut = s.wlvOut := by simp only [State.weirAdd]; split <;> simp
@[simp] theorem State.weirAdd_cad (s : State) (n : Nat) (i : U32) : (s.weirAdd n i).cad = s.cad := by simp only [State.weirAdd]; split <;> simp
@[simp] theorem State.weirAdd_herd (s : State) (n : Nat) (i : U32) : (s.weirAdd n i).herd = s.herd := by simp only [State.weirAdd]; split <;> simp
@[simp] theorem State.weirAdd_pm (s : State) (n : Nat) (i : U32) : (s.weirAdd n i).pm = s.pm := by simp only [State.weirAdd]; split <;> simp
@[simp] theorem State.weirAdd_gander (s : State) (n : Nat) (i : U32) : (s.weirAdd n i).gander = s.gander := by simp only [State.weirAdd]; split <;> simp
@[simp] theorem State.weirAdd_sec (s : State) (n : Nat) (i : U32) : (s.weirAdd n i).sec = s.sec := by simp only [State.weirAdd]; split <;> simp
@[simp] theorem State.weirAdd_integ (s : State) (n : Nat) (i : U32) : (s.weirAdd n i).integ = s.integ := by simp only [State.weirAdd]; split <;> simp
@[simp] theorem State.weirAdd_ckpt (s : State) (n : Nat) (i : U32) : (s.weirAdd n i).ckpt = s.ckpt := by simp only [State.weirAdd]; split <;> simp
@[simp] theorem State.weirAdd_flash (s : State) (n : Nat) (i : U32) : (s.weirAdd n i).flash = s.flash := by simp only [State.weirAdd]; split <;> simp
@[simp] theorem State.weirAdd_mgt (s : State) (n : Nat) (i : U32) : (s.weirAdd n i).mgt = s.mgt := by simp only [State.weirAdd]; split <;> simp

@[simp] theorem State.weirSend_pending (s : State) (p : Pid) (n : Nat) (i : U32) : (s.weirSend p n i).pending = s.pending := by simp only [State.weirSend]; split <;> simp
@[simp] theorem State.weirSend_freeIx (s : State) (p : Pid) (n : Nat) (i : U32) : (s.weirSend p n i).freeIx = s.freeIx := by simp only [State.weirSend]; split <;> simp
@[simp] theorem State.weirSend_reply (s : State) (p : Pid) (n : Nat) (i : U32) : (s.weirSend p n i).reply = s.reply := by simp only [State.weirSend]; split <;> simp
@[simp] theorem State.weirSend_tb (s : State) (p : Pid) (n : Nat) (i : U32) : (s.weirSend p n i).tb = s.tb := by simp only [State.weirSend]; split <;> simp
@[simp] theorem State.weirSend_mem (s : State) (p : Pid) (n : Nat) (i : U32) : (s.weirSend p n i).mem = s.mem := by simp only [State.weirSend]; split <;> simp
@[simp] theorem State.weirSend_transfers (s : State) (p : Pid) (n : Nat) (i : U32) : (s.weirSend p n i).transfers = s.transfers := by simp only [State.weirSend]; split <;> simp
@[simp] theorem State.weirSend_nextId (s : State) (p : Pid) (n : Nat) (i : U32) : (s.weirSend p n i).nextId = s.nextId := by simp only [State.weirSend]; split <;> simp
@[simp] theorem State.weirSend_handed (s : State) (p : Pid) (n : Nat) (i : U32) : (s.weirSend p n i).handed = s.handed := by simp only [State.weirSend]; split <;> simp
@[simp] theorem State.weirSend_sent (s : State) (p : Pid) (n : Nat) (i : U32) : (s.weirSend p n i).sent = s.sent := by simp only [State.weirSend]; split <;> simp
@[simp] theorem State.weirSend_claimedRegions (s : State) (p : Pid) (n : Nat) (i : U32) : (s.weirSend p n i).claimedRegions = s.claimedRegions := by simp only [State.weirSend]; split <;> simp
@[simp] theorem State.weirSend_claimedWeirs (s : State) (p : Pid) (n : Nat) (i : U32) : (s.weirSend p n i).claimedWeirs = s.claimedWeirs := by simp only [State.weirSend]; split <;> simp
@[simp] theorem State.weirSend_holdWaits (s : State) (p : Pid) (n : Nat) (i : U32) : (s.weirSend p n i).holdWaits = s.holdWaits := by simp only [State.weirSend]; split <;> simp
@[simp] theorem State.weirSend_timers (s : State) (p : Pid) (n : Nat) (i : U32) : (s.weirSend p n i).timers = s.timers := by simp only [State.weirSend]; split <;> simp
@[simp] theorem State.weirSend_disc (s : State) (p : Pid) (n : Nat) (i : U32) : (s.weirSend p n i).disc = s.disc := by simp only [State.weirSend]; split <;> simp
@[simp] theorem State.weirSend_res (s : State) (p : Pid) (n : Nat) (i : U32) : (s.weirSend p n i).res = s.res := by simp only [State.weirSend]; split <;> simp
@[simp] theorem State.weirSend_routers (s : State) (p : Pid) (n : Nat) (i : U32) : (s.weirSend p n i).routers = s.routers := by simp only [State.weirSend]; split <;> simp
@[simp] theorem State.weirSend_msc (s : State) (p : Pid) (n : Nat) (i : U32) : (s.weirSend p n i).msc = s.msc := by simp only [State.weirSend]; split <;> simp
@[simp] theorem State.weirSend_mc (s : State) (p : Pid) (n : Nat) (i : U32) : (s.weirSend p n i).mc = s.mc := by simp only [State.weirSend]; split <;> simp
@[simp] theorem State.weirSend_pnx (s : State) (p : Pid) (n : Nat) (i : U32) : (s.weirSend p n i).pnx = s.pnx := by simp only [State.weirSend]; split <;> simp
@[simp] theorem State.weirSend_wlv (s : State) (p : Pid) (n : Nat) (i : U32) : (s.weirSend p n i).wlv = s.wlv := by simp only [State.weirSend]; split <;> simp
@[simp] theorem State.weirSend_wlvOut (s : State) (p : Pid) (n : Nat) (i : U32) : (s.weirSend p n i).wlvOut = s.wlvOut := by simp only [State.weirSend]; split <;> simp
@[simp] theorem State.weirSend_cad (s : State) (p : Pid) (n : Nat) (i : U32) : (s.weirSend p n i).cad = s.cad := by simp only [State.weirSend]; split <;> simp
@[simp] theorem State.weirSend_herd (s : State) (p : Pid) (n : Nat) (i : U32) : (s.weirSend p n i).herd = s.herd := by simp only [State.weirSend]; split <;> simp
@[simp] theorem State.weirSend_pm (s : State) (p : Pid) (n : Nat) (i : U32) : (s.weirSend p n i).pm = s.pm := by simp only [State.weirSend]; split <;> simp
@[simp] theorem State.weirSend_gander (s : State) (p : Pid) (n : Nat) (i : U32) : (s.weirSend p n i).gander = s.gander := by simp only [State.weirSend]; split <;> simp
@[simp] theorem State.weirSend_sec (s : State) (p : Pid) (n : Nat) (i : U32) : (s.weirSend p n i).sec = s.sec := by simp only [State.weirSend]; split <;> simp
@[simp] theorem State.weirSend_integ (s : State) (p : Pid) (n : Nat) (i : U32) : (s.weirSend p n i).integ = s.integ := by simp only [State.weirSend]; split <;> simp
@[simp] theorem State.weirSend_ckpt (s : State) (p : Pid) (n : Nat) (i : U32) : (s.weirSend p n i).ckpt = s.ckpt := by simp only [State.weirSend]; split <;> simp
@[simp] theorem State.weirSend_flash (s : State) (p : Pid) (n : Nat) (i : U32) : (s.weirSend p n i).flash = s.flash := by simp only [State.weirSend]; split <;> simp
@[simp] theorem State.weirSend_mgt (s : State) (p : Pid) (n : Nat) (i : U32) : (s.weirSend p n i).mgt = s.mgt := by simp only [State.weirSend]; split <;> simp

/-- A store of bytes touches the memory and what was sent alone. -/
theorem State.storeBytes_only (s : State) (a : Nat) (xs : List Byte) : ∃ m x, s.storeBytes a xs = { s with mem := m, sent := x } := by
  induction xs generalizing s a with
  | nil => exact ⟨s.mem, s.sent, rfl⟩
  | cons b t ih =>
    obtain ⟨m, x, h⟩ := ih (s.putByte a b) (a + 1)
    refine ⟨m, x, ?_⟩
    rw [State.storeBytes, h]
    unfold State.putByte; split <;> rfl

theorem State.putBytes_only (s : State) (a : Nat) (xs : List Byte) : ∃ m x, s.putBytes a xs = { s with mem := m, sent := x } := by
  unfold State.putBytes
  split
  · exact State.storeBytes_only s a xs
  · exact ⟨s.mem, _, rfl⟩

/-- An access that waits on a bank at most wakes it. -/
theorem gate_held {s s' : State} {w : Bool} {l : List (Pid × Nat)} (h : gate s w l = .error (.held s')) :
    ∃ P, s' = { s with polders := P } := by
  induction l with
  | nil => simp [gate] at h
  | cons x t ih =>
    simp only [gate] at h
    split at h
    · cases h; exact ⟨s.polders, rfl⟩
    · split at h
      · cases h; exact ⟨_, rfl⟩
      · split at h
        · cases h
        · exact ih h

/-- A completion record that is written now or owed touches the memory, what was sent and the polders alone. -/
theorem State.completeSoon_only (s : State) (p : Pid) (l : BitVec 512) (r : List Byte) :
    ∃ P m x, s.completeSoon p l r = { s with polders := P, mem := m, sent := x } := by
  unfold State.completeSoon
  split
  · exact ⟨s.polders, s.mem, s.sent, rfl⟩
  · rename_i a _
    split
    · obtain ⟨m, x, h⟩ := State.putBytes_only s a r
      exact ⟨s.polders, m, x, h⟩
    · rename_i h
      obtain ⟨P, rfl⟩ := gate_held h
      exact ⟨_, s.mem, s.sent, rfl⟩
    · exact ⟨_, s.mem, s.sent, rfl⟩

@[simp] theorem State.completeSoon_pending (s : State) (p : Pid) (l : BitVec 512) (r : List Byte) : (s.completeSoon p l r).pending = s.pending := by obtain ⟨P, m, x, h⟩ := State.completeSoon_only s p l r; rw [h]
@[simp] theorem State.completeSoon_freeIx (s : State) (p : Pid) (l : BitVec 512) (r : List Byte) : (s.completeSoon p l r).freeIx = s.freeIx := by obtain ⟨P, m, x, h⟩ := State.completeSoon_only s p l r; rw [h]
@[simp] theorem State.completeSoon_reply (s : State) (p : Pid) (l : BitVec 512) (r : List Byte) : (s.completeSoon p l r).reply = s.reply := by obtain ⟨P, m, x, h⟩ := State.completeSoon_only s p l r; rw [h]
@[simp] theorem State.completeSoon_tb (s : State) (p : Pid) (l : BitVec 512) (r : List Byte) : (s.completeSoon p l r).tb = s.tb := by obtain ⟨P, m, x, h⟩ := State.completeSoon_only s p l r; rw [h]
@[simp] theorem State.completeSoon_weirs (s : State) (p : Pid) (l : BitVec 512) (r : List Byte) : (s.completeSoon p l r).weirs = s.weirs := by obtain ⟨P, m, x, h⟩ := State.completeSoon_only s p l r; rw [h]
@[simp] theorem State.completeSoon_flight (s : State) (p : Pid) (l : BitVec 512) (r : List Byte) : (s.completeSoon p l r).flight = s.flight := by obtain ⟨P, m, x, h⟩ := State.completeSoon_only s p l r; rw [h]
@[simp] theorem State.completeSoon_notices (s : State) (p : Pid) (l : BitVec 512) (r : List Byte) : (s.completeSoon p l r).notices = s.notices := by obtain ⟨P, m, x, h⟩ := State.completeSoon_only s p l r; rw [h]
@[simp] theorem State.completeSoon_watches (s : State) (p : Pid) (l : BitVec 512) (r : List Byte) : (s.completeSoon p l r).watches = s.watches := by obtain ⟨P, m, x, h⟩ := State.completeSoon_only s p l r; rw [h]
@[simp] theorem State.completeSoon_ccWeir (s : State) (p : Pid) (l : BitVec 512) (r : List Byte) : (s.completeSoon p l r).ccWeir = s.ccWeir := by obtain ⟨P, m, x, h⟩ := State.completeSoon_only s p l r; rw [h]
@[simp] theorem State.completeSoon_transfers (s : State) (p : Pid) (l : BitVec 512) (r : List Byte) : (s.completeSoon p l r).transfers = s.transfers := by obtain ⟨P, m, x, h⟩ := State.completeSoon_only s p l r; rw [h]
@[simp] theorem State.completeSoon_nextId (s : State) (p : Pid) (l : BitVec 512) (r : List Byte) : (s.completeSoon p l r).nextId = s.nextId := by obtain ⟨P, m, x, h⟩ := State.completeSoon_only s p l r; rw [h]
@[simp] theorem State.completeSoon_handed (s : State) (p : Pid) (l : BitVec 512) (r : List Byte) : (s.completeSoon p l r).handed = s.handed := by obtain ⟨P, m, x, h⟩ := State.completeSoon_only s p l r; rw [h]
@[simp] theorem State.completeSoon_claimedRegions (s : State) (p : Pid) (l : BitVec 512) (r : List Byte) : (s.completeSoon p l r).claimedRegions = s.claimedRegions := by obtain ⟨P, m, x, h⟩ := State.completeSoon_only s p l r; rw [h]
@[simp] theorem State.completeSoon_claimedWeirs (s : State) (p : Pid) (l : BitVec 512) (r : List Byte) : (s.completeSoon p l r).claimedWeirs = s.claimedWeirs := by obtain ⟨P, m, x, h⟩ := State.completeSoon_only s p l r; rw [h]
@[simp] theorem State.completeSoon_holdWaits (s : State) (p : Pid) (l : BitVec 512) (r : List Byte) : (s.completeSoon p l r).holdWaits = s.holdWaits := by obtain ⟨P, m, x, h⟩ := State.completeSoon_only s p l r; rw [h]
@[simp] theorem State.completeSoon_timers (s : State) (p : Pid) (l : BitVec 512) (r : List Byte) : (s.completeSoon p l r).timers = s.timers := by obtain ⟨P, m, x, h⟩ := State.completeSoon_only s p l r; rw [h]
@[simp] theorem State.completeSoon_disc (s : State) (p : Pid) (l : BitVec 512) (r : List Byte) : (s.completeSoon p l r).disc = s.disc := by obtain ⟨P, m, x, h⟩ := State.completeSoon_only s p l r; rw [h]
@[simp] theorem State.completeSoon_res (s : State) (p : Pid) (l : BitVec 512) (r : List Byte) : (s.completeSoon p l r).res = s.res := by obtain ⟨P, m, x, h⟩ := State.completeSoon_only s p l r; rw [h]
@[simp] theorem State.completeSoon_routers (s : State) (p : Pid) (l : BitVec 512) (r : List Byte) : (s.completeSoon p l r).routers = s.routers := by obtain ⟨P, m, x, h⟩ := State.completeSoon_only s p l r; rw [h]
@[simp] theorem State.completeSoon_msc (s : State) (p : Pid) (l : BitVec 512) (r : List Byte) : (s.completeSoon p l r).msc = s.msc := by obtain ⟨P, m, x, h⟩ := State.completeSoon_only s p l r; rw [h]
@[simp] theorem State.completeSoon_mc (s : State) (p : Pid) (l : BitVec 512) (r : List Byte) : (s.completeSoon p l r).mc = s.mc := by obtain ⟨P, m, x, h⟩ := State.completeSoon_only s p l r; rw [h]
@[simp] theorem State.completeSoon_pnx (s : State) (p : Pid) (l : BitVec 512) (r : List Byte) : (s.completeSoon p l r).pnx = s.pnx := by obtain ⟨P, m, x, h⟩ := State.completeSoon_only s p l r; rw [h]
@[simp] theorem State.completeSoon_wlv (s : State) (p : Pid) (l : BitVec 512) (r : List Byte) : (s.completeSoon p l r).wlv = s.wlv := by obtain ⟨P, m, x, h⟩ := State.completeSoon_only s p l r; rw [h]
@[simp] theorem State.completeSoon_wlvOut (s : State) (p : Pid) (l : BitVec 512) (r : List Byte) : (s.completeSoon p l r).wlvOut = s.wlvOut := by obtain ⟨P, m, x, h⟩ := State.completeSoon_only s p l r; rw [h]
@[simp] theorem State.completeSoon_cad (s : State) (p : Pid) (l : BitVec 512) (r : List Byte) : (s.completeSoon p l r).cad = s.cad := by obtain ⟨P, m, x, h⟩ := State.completeSoon_only s p l r; rw [h]
@[simp] theorem State.completeSoon_herd (s : State) (p : Pid) (l : BitVec 512) (r : List Byte) : (s.completeSoon p l r).herd = s.herd := by obtain ⟨P, m, x, h⟩ := State.completeSoon_only s p l r; rw [h]
@[simp] theorem State.completeSoon_pm (s : State) (p : Pid) (l : BitVec 512) (r : List Byte) : (s.completeSoon p l r).pm = s.pm := by obtain ⟨P, m, x, h⟩ := State.completeSoon_only s p l r; rw [h]
@[simp] theorem State.completeSoon_gander (s : State) (p : Pid) (l : BitVec 512) (r : List Byte) : (s.completeSoon p l r).gander = s.gander := by obtain ⟨P, m, x, h⟩ := State.completeSoon_only s p l r; rw [h]
@[simp] theorem State.completeSoon_sec (s : State) (p : Pid) (l : BitVec 512) (r : List Byte) : (s.completeSoon p l r).sec = s.sec := by obtain ⟨P, m, x, h⟩ := State.completeSoon_only s p l r; rw [h]
@[simp] theorem State.completeSoon_integ (s : State) (p : Pid) (l : BitVec 512) (r : List Byte) : (s.completeSoon p l r).integ = s.integ := by obtain ⟨P, m, x, h⟩ := State.completeSoon_only s p l r; rw [h]
@[simp] theorem State.completeSoon_ckpt (s : State) (p : Pid) (l : BitVec 512) (r : List Byte) : (s.completeSoon p l r).ckpt = s.ckpt := by obtain ⟨P, m, x, h⟩ := State.completeSoon_only s p l r; rw [h]
@[simp] theorem State.completeSoon_flash (s : State) (p : Pid) (l : BitVec 512) (r : List Byte) : (s.completeSoon p l r).flash = s.flash := by obtain ⟨P, m, x, h⟩ := State.completeSoon_only s p l r; rw [h]
@[simp] theorem State.completeSoon_mgt (s : State) (p : Pid) (l : BitVec 512) (r : List Byte) : (s.completeSoon p l r).mgt = s.mgt := by obtain ⟨P, m, x, h⟩ := State.completeSoon_only s p l r; rw [h]

@[simp] theorem State.taskFaultAt_pending (s : State) (p : Pid) (pc : U32) (c : Byte) (i : U32) : (s.taskFaultAt p pc c i).pending = s.pending := by simp only [State.taskFaultAt]; split <;> simp [State.fresh]
@[simp] theorem State.taskFaultAt_reply (s : State) (p : Pid) (pc : U32) (c : Byte) (i : U32) : (s.taskFaultAt p pc c i).reply = s.reply := by simp only [State.taskFaultAt]; split <;> simp [State.fresh]
@[simp] theorem State.taskFaultAt_tb (s : State) (p : Pid) (pc : U32) (c : Byte) (i : U32) : (s.taskFaultAt p pc c i).tb = s.tb := by simp only [State.taskFaultAt]; split <;> simp [State.fresh]
@[simp] theorem State.taskFaultAt_weirs (s : State) (p : Pid) (pc : U32) (c : Byte) (i : U32) : (s.taskFaultAt p pc c i).weirs = s.weirs := by simp only [State.taskFaultAt]; split <;> simp [State.fresh]
@[simp] theorem State.taskFaultAt_flight (s : State) (p : Pid) (pc : U32) (c : Byte) (i : U32) : (s.taskFaultAt p pc c i).flight = s.flight := by simp only [State.taskFaultAt]; split <;> simp [State.fresh]
@[simp] theorem State.taskFaultAt_notices (s : State) (p : Pid) (pc : U32) (c : Byte) (i : U32) : (s.taskFaultAt p pc c i).notices = s.notices := by simp only [State.taskFaultAt]; split <;> simp [State.fresh]
@[simp] theorem State.taskFaultAt_ccWeir (s : State) (p : Pid) (pc : U32) (c : Byte) (i : U32) : (s.taskFaultAt p pc c i).ccWeir = s.ccWeir := by simp only [State.taskFaultAt]; split <;> simp [State.fresh]
@[simp] theorem State.taskFaultAt_transfers (s : State) (p : Pid) (pc : U32) (c : Byte) (i : U32) : (s.taskFaultAt p pc c i).transfers = s.transfers := by simp only [State.taskFaultAt]; split <;> simp [State.fresh]
@[simp] theorem State.taskFaultAt_nextId (s : State) (p : Pid) (pc : U32) (c : Byte) (i : U32) : (s.taskFaultAt p pc c i).nextId = s.nextId := by simp only [State.taskFaultAt]; split <;> simp [State.fresh]
@[simp] theorem State.taskFaultAt_handed (s : State) (p : Pid) (pc : U32) (c : Byte) (i : U32) : (s.taskFaultAt p pc c i).handed = s.handed := by simp only [State.taskFaultAt]; split <;> simp [State.fresh]
@[simp] theorem State.taskFaultAt_claimedRegions (s : State) (p : Pid) (pc : U32) (c : Byte) (i : U32) : (s.taskFaultAt p pc c i).claimedRegions = s.claimedRegions := by simp only [State.taskFaultAt]; split <;> simp [State.fresh]
@[simp] theorem State.taskFaultAt_claimedWeirs (s : State) (p : Pid) (pc : U32) (c : Byte) (i : U32) : (s.taskFaultAt p pc c i).claimedWeirs = s.claimedWeirs := by simp only [State.taskFaultAt]; split <;> simp [State.fresh]
@[simp] theorem State.taskFaultAt_holdWaits (s : State) (p : Pid) (pc : U32) (c : Byte) (i : U32) : (s.taskFaultAt p pc c i).holdWaits = s.holdWaits := by simp only [State.taskFaultAt]; split <;> simp [State.fresh]
@[simp] theorem State.taskFaultAt_timers (s : State) (p : Pid) (pc : U32) (c : Byte) (i : U32) : (s.taskFaultAt p pc c i).timers = s.timers := by simp only [State.taskFaultAt]; split <;> simp [State.fresh]
@[simp] theorem State.taskFaultAt_disc (s : State) (p : Pid) (pc : U32) (c : Byte) (i : U32) : (s.taskFaultAt p pc c i).disc = s.disc := by simp only [State.taskFaultAt]; split <;> simp [State.fresh]
@[simp] theorem State.taskFaultAt_routers (s : State) (p : Pid) (pc : U32) (c : Byte) (i : U32) : (s.taskFaultAt p pc c i).routers = s.routers := by simp only [State.taskFaultAt]; split <;> simp [State.fresh]
@[simp] theorem State.taskFaultAt_msc (s : State) (p : Pid) (pc : U32) (c : Byte) (i : U32) : (s.taskFaultAt p pc c i).msc = s.msc := by simp only [State.taskFaultAt]; split <;> simp [State.fresh]
@[simp] theorem State.taskFaultAt_mc (s : State) (p : Pid) (pc : U32) (c : Byte) (i : U32) : (s.taskFaultAt p pc c i).mc = s.mc := by simp only [State.taskFaultAt]; split <;> simp [State.fresh]
@[simp] theorem State.taskFaultAt_pnx (s : State) (p : Pid) (pc : U32) (c : Byte) (i : U32) : (s.taskFaultAt p pc c i).pnx = s.pnx := by simp only [State.taskFaultAt]; split <;> simp [State.fresh]
@[simp] theorem State.taskFaultAt_wlv (s : State) (p : Pid) (pc : U32) (c : Byte) (i : U32) : (s.taskFaultAt p pc c i).wlv = s.wlv := by simp only [State.taskFaultAt]; split <;> simp [State.fresh]
@[simp] theorem State.taskFaultAt_wlvOut (s : State) (p : Pid) (pc : U32) (c : Byte) (i : U32) : (s.taskFaultAt p pc c i).wlvOut = s.wlvOut := by simp only [State.taskFaultAt]; split <;> simp [State.fresh]
@[simp] theorem State.taskFaultAt_cad (s : State) (p : Pid) (pc : U32) (c : Byte) (i : U32) : (s.taskFaultAt p pc c i).cad = s.cad := by simp only [State.taskFaultAt]; split <;> simp [State.fresh]
@[simp] theorem State.taskFaultAt_herd (s : State) (p : Pid) (pc : U32) (c : Byte) (i : U32) : (s.taskFaultAt p pc c i).herd = s.herd := by simp only [State.taskFaultAt]; split <;> simp [State.fresh]
@[simp] theorem State.taskFaultAt_gander (s : State) (p : Pid) (pc : U32) (c : Byte) (i : U32) : (s.taskFaultAt p pc c i).gander = s.gander := by simp only [State.taskFaultAt]; split <;> simp [State.fresh]
@[simp] theorem State.taskFaultAt_sec (s : State) (p : Pid) (pc : U32) (c : Byte) (i : U32) : (s.taskFaultAt p pc c i).sec = s.sec := by simp only [State.taskFaultAt]; split <;> simp [State.fresh]
@[simp] theorem State.taskFaultAt_integ (s : State) (p : Pid) (pc : U32) (c : Byte) (i : U32) : (s.taskFaultAt p pc c i).integ = s.integ := by simp only [State.taskFaultAt]; split <;> simp [State.fresh]
@[simp] theorem State.taskFaultAt_ckpt (s : State) (p : Pid) (pc : U32) (c : Byte) (i : U32) : (s.taskFaultAt p pc c i).ckpt = s.ckpt := by simp only [State.taskFaultAt]; split <;> simp [State.fresh]
@[simp] theorem State.taskFaultAt_flash (s : State) (p : Pid) (pc : U32) (c : Byte) (i : U32) : (s.taskFaultAt p pc c i).flash = s.flash := by simp only [State.taskFaultAt]; split <;> simp [State.fresh]
@[simp] theorem State.taskFaultAt_mgt (s : State) (p : Pid) (pc : U32) (c : Byte) (i : U32) : (s.taskFaultAt p pc c i).mgt = s.mgt := by simp only [State.taskFaultAt]; split <;> simp [State.fresh]

@[simp] theorem State.taskFault_pending (s : State) (p : Pid) (c : Byte) (i : U32) : (s.taskFault p c i).pending = s.pending := by simp only [State.taskFault]; split <;> simp
@[simp] theorem State.taskFault_reply (s : State) (p : Pid) (c : Byte) (i : U32) : (s.taskFault p c i).reply = s.reply := by simp only [State.taskFault]; split <;> simp
@[simp] theorem State.taskFault_tb (s : State) (p : Pid) (c : Byte) (i : U32) : (s.taskFault p c i).tb = s.tb := by simp only [State.taskFault]; split <;> simp
@[simp] theorem State.taskFault_weirs (s : State) (p : Pid) (c : Byte) (i : U32) : (s.taskFault p c i).weirs = s.weirs := by simp only [State.taskFault]; split <;> simp
@[simp] theorem State.taskFault_flight (s : State) (p : Pid) (c : Byte) (i : U32) : (s.taskFault p c i).flight = s.flight := by simp only [State.taskFault]; split <;> simp
@[simp] theorem State.taskFault_notices (s : State) (p : Pid) (c : Byte) (i : U32) : (s.taskFault p c i).notices = s.notices := by simp only [State.taskFault]; split <;> simp
@[simp] theorem State.taskFault_ccWeir (s : State) (p : Pid) (c : Byte) (i : U32) : (s.taskFault p c i).ccWeir = s.ccWeir := by simp only [State.taskFault]; split <;> simp
@[simp] theorem State.taskFault_transfers (s : State) (p : Pid) (c : Byte) (i : U32) : (s.taskFault p c i).transfers = s.transfers := by simp only [State.taskFault]; split <;> simp
@[simp] theorem State.taskFault_nextId (s : State) (p : Pid) (c : Byte) (i : U32) : (s.taskFault p c i).nextId = s.nextId := by simp only [State.taskFault]; split <;> simp
@[simp] theorem State.taskFault_handed (s : State) (p : Pid) (c : Byte) (i : U32) : (s.taskFault p c i).handed = s.handed := by simp only [State.taskFault]; split <;> simp
@[simp] theorem State.taskFault_claimedRegions (s : State) (p : Pid) (c : Byte) (i : U32) : (s.taskFault p c i).claimedRegions = s.claimedRegions := by simp only [State.taskFault]; split <;> simp
@[simp] theorem State.taskFault_claimedWeirs (s : State) (p : Pid) (c : Byte) (i : U32) : (s.taskFault p c i).claimedWeirs = s.claimedWeirs := by simp only [State.taskFault]; split <;> simp
@[simp] theorem State.taskFault_holdWaits (s : State) (p : Pid) (c : Byte) (i : U32) : (s.taskFault p c i).holdWaits = s.holdWaits := by simp only [State.taskFault]; split <;> simp
@[simp] theorem State.taskFault_timers (s : State) (p : Pid) (c : Byte) (i : U32) : (s.taskFault p c i).timers = s.timers := by simp only [State.taskFault]; split <;> simp
@[simp] theorem State.taskFault_disc (s : State) (p : Pid) (c : Byte) (i : U32) : (s.taskFault p c i).disc = s.disc := by simp only [State.taskFault]; split <;> simp
@[simp] theorem State.taskFault_routers (s : State) (p : Pid) (c : Byte) (i : U32) : (s.taskFault p c i).routers = s.routers := by simp only [State.taskFault]; split <;> simp
@[simp] theorem State.taskFault_msc (s : State) (p : Pid) (c : Byte) (i : U32) : (s.taskFault p c i).msc = s.msc := by simp only [State.taskFault]; split <;> simp
@[simp] theorem State.taskFault_mc (s : State) (p : Pid) (c : Byte) (i : U32) : (s.taskFault p c i).mc = s.mc := by simp only [State.taskFault]; split <;> simp
@[simp] theorem State.taskFault_pnx (s : State) (p : Pid) (c : Byte) (i : U32) : (s.taskFault p c i).pnx = s.pnx := by simp only [State.taskFault]; split <;> simp
@[simp] theorem State.taskFault_wlv (s : State) (p : Pid) (c : Byte) (i : U32) : (s.taskFault p c i).wlv = s.wlv := by simp only [State.taskFault]; split <;> simp
@[simp] theorem State.taskFault_wlvOut (s : State) (p : Pid) (c : Byte) (i : U32) : (s.taskFault p c i).wlvOut = s.wlvOut := by simp only [State.taskFault]; split <;> simp
@[simp] theorem State.taskFault_cad (s : State) (p : Pid) (c : Byte) (i : U32) : (s.taskFault p c i).cad = s.cad := by simp only [State.taskFault]; split <;> simp
@[simp] theorem State.taskFault_herd (s : State) (p : Pid) (c : Byte) (i : U32) : (s.taskFault p c i).herd = s.herd := by simp only [State.taskFault]; split <;> simp
@[simp] theorem State.taskFault_gander (s : State) (p : Pid) (c : Byte) (i : U32) : (s.taskFault p c i).gander = s.gander := by simp only [State.taskFault]; split <;> simp
@[simp] theorem State.taskFault_sec (s : State) (p : Pid) (c : Byte) (i : U32) : (s.taskFault p c i).sec = s.sec := by simp only [State.taskFault]; split <;> simp
@[simp] theorem State.taskFault_integ (s : State) (p : Pid) (c : Byte) (i : U32) : (s.taskFault p c i).integ = s.integ := by simp only [State.taskFault]; split <;> simp
@[simp] theorem State.taskFault_ckpt (s : State) (p : Pid) (c : Byte) (i : U32) : (s.taskFault p c i).ckpt = s.ckpt := by simp only [State.taskFault]; split <;> simp
@[simp] theorem State.taskFault_flash (s : State) (p : Pid) (c : Byte) (i : U32) : (s.taskFault p c i).flash = s.flash := by simp only [State.taskFault]; split <;> simp
@[simp] theorem State.taskFault_mgt (s : State) (p : Pid) (c : Byte) (i : U32) : (s.taskFault p c i).mgt = s.mgt := by simp only [State.taskFault]; split <;> simp

@[simp] theorem State.herdEvent_pending (s : State) (c : Byte) (bs : List Byte) : (s.herdEvent c bs).pending = s.pending := by simp only [State.herdEvent]; repeat (first | rfl | split)
@[simp] theorem State.herdEvent_freeIx (s : State) (c : Byte) (bs : List Byte) : (s.herdEvent c bs).freeIx = s.freeIx := by simp only [State.herdEvent]; repeat (first | rfl | split)
@[simp] theorem State.herdEvent_reply (s : State) (c : Byte) (bs : List Byte) : (s.herdEvent c bs).reply = s.reply := by simp only [State.herdEvent]; repeat (first | rfl | split)
@[simp] theorem State.herdEvent_tb (s : State) (c : Byte) (bs : List Byte) : (s.herdEvent c bs).tb = s.tb := by simp only [State.herdEvent]; repeat (first | rfl | split)
@[simp] theorem State.herdEvent_mem (s : State) (c : Byte) (bs : List Byte) : (s.herdEvent c bs).mem = s.mem := by simp only [State.herdEvent]; repeat (first | rfl | split)
@[simp] theorem State.herdEvent_polders (s : State) (c : Byte) (bs : List Byte) : (s.herdEvent c bs).polders = s.polders := by simp only [State.herdEvent]; repeat (first | rfl | split)
@[simp] theorem State.herdEvent_weirs (s : State) (c : Byte) (bs : List Byte) : (s.herdEvent c bs).weirs = s.weirs := by simp only [State.herdEvent]; repeat (first | rfl | split)
@[simp] theorem State.herdEvent_flight (s : State) (c : Byte) (bs : List Byte) : (s.herdEvent c bs).flight = s.flight := by simp only [State.herdEvent]; repeat (first | rfl | split)
@[simp] theorem State.herdEvent_notices (s : State) (c : Byte) (bs : List Byte) : (s.herdEvent c bs).notices = s.notices := by simp only [State.herdEvent]; repeat (first | rfl | split)
@[simp] theorem State.herdEvent_watches (s : State) (c : Byte) (bs : List Byte) : (s.herdEvent c bs).watches = s.watches := by simp only [State.herdEvent]; repeat (first | rfl | split)
@[simp] theorem State.herdEvent_ccWeir (s : State) (c : Byte) (bs : List Byte) : (s.herdEvent c bs).ccWeir = s.ccWeir := by simp only [State.herdEvent]; repeat (first | rfl | split)
@[simp] theorem State.herdEvent_transfers (s : State) (c : Byte) (bs : List Byte) : (s.herdEvent c bs).transfers = s.transfers := by simp only [State.herdEvent]; repeat (first | rfl | split)
@[simp] theorem State.herdEvent_nextId (s : State) (c : Byte) (bs : List Byte) : (s.herdEvent c bs).nextId = s.nextId := by simp only [State.herdEvent]; repeat (first | rfl | split)
@[simp] theorem State.herdEvent_handed (s : State) (c : Byte) (bs : List Byte) : (s.herdEvent c bs).handed = s.handed := by simp only [State.herdEvent]; repeat (first | rfl | split)
@[simp] theorem State.herdEvent_sent (s : State) (c : Byte) (bs : List Byte) : (s.herdEvent c bs).sent = s.sent := by simp only [State.herdEvent]; repeat (first | rfl | split)
@[simp] theorem State.herdEvent_claimedRegions (s : State) (c : Byte) (bs : List Byte) : (s.herdEvent c bs).claimedRegions = s.claimedRegions := by simp only [State.herdEvent]; repeat (first | rfl | split)
@[simp] theorem State.herdEvent_claimedWeirs (s : State) (c : Byte) (bs : List Byte) : (s.herdEvent c bs).claimedWeirs = s.claimedWeirs := by simp only [State.herdEvent]; repeat (first | rfl | split)
@[simp] theorem State.herdEvent_holdWaits (s : State) (c : Byte) (bs : List Byte) : (s.herdEvent c bs).holdWaits = s.holdWaits := by simp only [State.herdEvent]; repeat (first | rfl | split)
@[simp] theorem State.herdEvent_timers (s : State) (c : Byte) (bs : List Byte) : (s.herdEvent c bs).timers = s.timers := by simp only [State.herdEvent]; repeat (first | rfl | split)
@[simp] theorem State.herdEvent_disc (s : State) (c : Byte) (bs : List Byte) : (s.herdEvent c bs).disc = s.disc := by simp only [State.herdEvent]; repeat (first | rfl | split)
@[simp] theorem State.herdEvent_res (s : State) (c : Byte) (bs : List Byte) : (s.herdEvent c bs).res = s.res := by simp only [State.herdEvent]; repeat (first | rfl | split)
@[simp] theorem State.herdEvent_routers (s : State) (c : Byte) (bs : List Byte) : (s.herdEvent c bs).routers = s.routers := by simp only [State.herdEvent]; repeat (first | rfl | split)
@[simp] theorem State.herdEvent_msc (s : State) (c : Byte) (bs : List Byte) : (s.herdEvent c bs).msc = s.msc := by simp only [State.herdEvent]; repeat (first | rfl | split)
@[simp] theorem State.herdEvent_mc (s : State) (c : Byte) (bs : List Byte) : (s.herdEvent c bs).mc = s.mc := by simp only [State.herdEvent]; repeat (first | rfl | split)
@[simp] theorem State.herdEvent_pnx (s : State) (c : Byte) (bs : List Byte) : (s.herdEvent c bs).pnx = s.pnx := by simp only [State.herdEvent]; repeat (first | rfl | split)
@[simp] theorem State.herdEvent_wlv (s : State) (c : Byte) (bs : List Byte) : (s.herdEvent c bs).wlv = s.wlv := by simp only [State.herdEvent]; repeat (first | rfl | split)
@[simp] theorem State.herdEvent_wlvOut (s : State) (c : Byte) (bs : List Byte) : (s.herdEvent c bs).wlvOut = s.wlvOut := by simp only [State.herdEvent]; repeat (first | rfl | split)
@[simp] theorem State.herdEvent_cad (s : State) (c : Byte) (bs : List Byte) : (s.herdEvent c bs).cad = s.cad := by simp only [State.herdEvent]; repeat (first | rfl | split)
@[simp] theorem State.herdEvent_pm (s : State) (c : Byte) (bs : List Byte) : (s.herdEvent c bs).pm = s.pm := by simp only [State.herdEvent]; repeat (first | rfl | split)
@[simp] theorem State.herdEvent_gander (s : State) (c : Byte) (bs : List Byte) : (s.herdEvent c bs).gander = s.gander := by simp only [State.herdEvent]; repeat (first | rfl | split)
@[simp] theorem State.herdEvent_sec (s : State) (c : Byte) (bs : List Byte) : (s.herdEvent c bs).sec = s.sec := by simp only [State.herdEvent]; repeat (first | rfl | split)
@[simp] theorem State.herdEvent_integ (s : State) (c : Byte) (bs : List Byte) : (s.herdEvent c bs).integ = s.integ := by simp only [State.herdEvent]; repeat (first | rfl | split)
@[simp] theorem State.herdEvent_ckpt (s : State) (c : Byte) (bs : List Byte) : (s.herdEvent c bs).ckpt = s.ckpt := by simp only [State.herdEvent]; repeat (first | rfl | split)
@[simp] theorem State.herdEvent_flash (s : State) (c : Byte) (bs : List Byte) : (s.herdEvent c bs).flash = s.flash := by simp only [State.herdEvent]; repeat (first | rfl | split)
@[simp] theorem State.herdEvent_mgt (s : State) (c : Byte) (bs : List Byte) : (s.herdEvent c bs).mgt = s.mgt := by simp only [State.herdEvent]; repeat (first | rfl | split)

@[simp] theorem State.flood_pending (s : State) (a : Announce) (e : Option (Fin 6)) : (s.flood a e).pending = s.pending := rfl
@[simp] theorem State.flood_freeIx (s : State) (a : Announce) (e : Option (Fin 6)) : (s.flood a e).freeIx = s.freeIx := rfl
@[simp] theorem State.flood_reply (s : State) (a : Announce) (e : Option (Fin 6)) : (s.flood a e).reply = s.reply := rfl
@[simp] theorem State.flood_tb (s : State) (a : Announce) (e : Option (Fin 6)) : (s.flood a e).tb = s.tb := rfl
@[simp] theorem State.flood_mem (s : State) (a : Announce) (e : Option (Fin 6)) : (s.flood a e).mem = s.mem := rfl
@[simp] theorem State.flood_polders (s : State) (a : Announce) (e : Option (Fin 6)) : (s.flood a e).polders = s.polders := rfl
@[simp] theorem State.flood_weirs (s : State) (a : Announce) (e : Option (Fin 6)) : (s.flood a e).weirs = s.weirs := rfl
@[simp] theorem State.flood_flight (s : State) (a : Announce) (e : Option (Fin 6)) : (s.flood a e).flight = s.flight := rfl
@[simp] theorem State.flood_notices (s : State) (a : Announce) (e : Option (Fin 6)) : (s.flood a e).notices = s.notices := rfl
@[simp] theorem State.flood_watches (s : State) (a : Announce) (e : Option (Fin 6)) : (s.flood a e).watches = s.watches := rfl
@[simp] theorem State.flood_ccWeir (s : State) (a : Announce) (e : Option (Fin 6)) : (s.flood a e).ccWeir = s.ccWeir := rfl
@[simp] theorem State.flood_transfers (s : State) (a : Announce) (e : Option (Fin 6)) : (s.flood a e).transfers = s.transfers := rfl
@[simp] theorem State.flood_nextId (s : State) (a : Announce) (e : Option (Fin 6)) : (s.flood a e).nextId = s.nextId := rfl
@[simp] theorem State.flood_handed (s : State) (a : Announce) (e : Option (Fin 6)) : (s.flood a e).handed = s.handed := rfl
@[simp] theorem State.flood_sent (s : State) (a : Announce) (e : Option (Fin 6)) : (s.flood a e).sent = s.sent := rfl
@[simp] theorem State.flood_claimedRegions (s : State) (a : Announce) (e : Option (Fin 6)) : (s.flood a e).claimedRegions = s.claimedRegions := rfl
@[simp] theorem State.flood_claimedWeirs (s : State) (a : Announce) (e : Option (Fin 6)) : (s.flood a e).claimedWeirs = s.claimedWeirs := rfl
@[simp] theorem State.flood_holdWaits (s : State) (a : Announce) (e : Option (Fin 6)) : (s.flood a e).holdWaits = s.holdWaits := rfl
@[simp] theorem State.flood_timers (s : State) (a : Announce) (e : Option (Fin 6)) : (s.flood a e).timers = s.timers := rfl
@[simp] theorem State.flood_disc (s : State) (a : Announce) (e : Option (Fin 6)) : (s.flood a e).disc = s.disc := rfl
@[simp] theorem State.flood_res (s : State) (a : Announce) (e : Option (Fin 6)) : (s.flood a e).res = s.res := rfl
@[simp] theorem State.flood_routers (s : State) (a : Announce) (e : Option (Fin 6)) : (s.flood a e).routers = s.routers := rfl
@[simp] theorem State.flood_msc (s : State) (a : Announce) (e : Option (Fin 6)) : (s.flood a e).msc = s.msc := rfl
@[simp] theorem State.flood_mc (s : State) (a : Announce) (e : Option (Fin 6)) : (s.flood a e).mc = s.mc := rfl
@[simp] theorem State.flood_pnx (s : State) (a : Announce) (e : Option (Fin 6)) : (s.flood a e).pnx = s.pnx := rfl
@[simp] theorem State.flood_wlv (s : State) (a : Announce) (e : Option (Fin 6)) : (s.flood a e).wlv = s.wlv := rfl
@[simp] theorem State.flood_wlvOut (s : State) (a : Announce) (e : Option (Fin 6)) : (s.flood a e).wlvOut = s.wlvOut := rfl
@[simp] theorem State.flood_herd (s : State) (a : Announce) (e : Option (Fin 6)) : (s.flood a e).herd = s.herd := rfl
@[simp] theorem State.flood_pm (s : State) (a : Announce) (e : Option (Fin 6)) : (s.flood a e).pm = s.pm := rfl
@[simp] theorem State.flood_gander (s : State) (a : Announce) (e : Option (Fin 6)) : (s.flood a e).gander = s.gander := rfl
@[simp] theorem State.flood_sec (s : State) (a : Announce) (e : Option (Fin 6)) : (s.flood a e).sec = s.sec := rfl
@[simp] theorem State.flood_integ (s : State) (a : Announce) (e : Option (Fin 6)) : (s.flood a e).integ = s.integ := rfl
@[simp] theorem State.flood_ckpt (s : State) (a : Announce) (e : Option (Fin 6)) : (s.flood a e).ckpt = s.ckpt := rfl
@[simp] theorem State.flood_flash (s : State) (a : Announce) (e : Option (Fin 6)) : (s.flood a e).flash = s.flash := rfl
@[simp] theorem State.flood_mgt (s : State) (a : Announce) (e : Option (Fin 6)) : (s.flood a e).mgt = s.mgt := rfl



@[simp] theorem State.announce_pending (s : State) (k : BitVec 4) (n : Nat) : (s.announce k n).pending = s.pending := by simp only [State.announce]; split <;> rfl
@[simp] theorem State.announce_freeIx (s : State) (k : BitVec 4) (n : Nat) : (s.announce k n).freeIx = s.freeIx := by simp only [State.announce]; split <;> rfl
@[simp] theorem State.announce_reply (s : State) (k : BitVec 4) (n : Nat) : (s.announce k n).reply = s.reply := by simp only [State.announce]; split <;> rfl
@[simp] theorem State.announce_tb (s : State) (k : BitVec 4) (n : Nat) : (s.announce k n).tb = s.tb := by simp only [State.announce]; split <;> rfl
@[simp] theorem State.announce_mem (s : State) (k : BitVec 4) (n : Nat) : (s.announce k n).mem = s.mem := by simp only [State.announce]; split <;> rfl
@[simp] theorem State.announce_polders (s : State) (k : BitVec 4) (n : Nat) : (s.announce k n).polders = s.polders := by simp only [State.announce]; split <;> rfl
@[simp] theorem State.announce_weirs (s : State) (k : BitVec 4) (n : Nat) : (s.announce k n).weirs = s.weirs := by simp only [State.announce]; split <;> rfl
@[simp] theorem State.announce_flight (s : State) (k : BitVec 4) (n : Nat) : (s.announce k n).flight = s.flight := by simp only [State.announce]; split <;> rfl
@[simp] theorem State.announce_notices (s : State) (k : BitVec 4) (n : Nat) : (s.announce k n).notices = s.notices := by simp only [State.announce]; split <;> rfl
@[simp] theorem State.announce_watches (s : State) (k : BitVec 4) (n : Nat) : (s.announce k n).watches = s.watches := by simp only [State.announce]; split <;> rfl
@[simp] theorem State.announce_ccWeir (s : State) (k : BitVec 4) (n : Nat) : (s.announce k n).ccWeir = s.ccWeir := by simp only [State.announce]; split <;> rfl
@[simp] theorem State.announce_transfers (s : State) (k : BitVec 4) (n : Nat) : (s.announce k n).transfers = s.transfers := by simp only [State.announce]; split <;> rfl
@[simp] theorem State.announce_nextId (s : State) (k : BitVec 4) (n : Nat) : (s.announce k n).nextId = s.nextId := by simp only [State.announce]; split <;> rfl
@[simp] theorem State.announce_handed (s : State) (k : BitVec 4) (n : Nat) : (s.announce k n).handed = s.handed := by simp only [State.announce]; split <;> rfl
@[simp] theorem State.announce_sent (s : State) (k : BitVec 4) (n : Nat) : (s.announce k n).sent = s.sent := by simp only [State.announce]; split <;> rfl
@[simp] theorem State.announce_claimedRegions (s : State) (k : BitVec 4) (n : Nat) : (s.announce k n).claimedRegions = s.claimedRegions := by simp only [State.announce]; split <;> rfl
@[simp] theorem State.announce_claimedWeirs (s : State) (k : BitVec 4) (n : Nat) : (s.announce k n).claimedWeirs = s.claimedWeirs := by simp only [State.announce]; split <;> rfl
@[simp] theorem State.announce_holdWaits (s : State) (k : BitVec 4) (n : Nat) : (s.announce k n).holdWaits = s.holdWaits := by simp only [State.announce]; split <;> rfl
@[simp] theorem State.announce_timers (s : State) (k : BitVec 4) (n : Nat) : (s.announce k n).timers = s.timers := by simp only [State.announce]; split <;> rfl
@[simp] theorem State.announce_disc (s : State) (k : BitVec 4) (n : Nat) : (s.announce k n).disc = s.disc := by simp only [State.announce]; split <;> rfl
@[simp] theorem State.announce_res (s : State) (k : BitVec 4) (n : Nat) : (s.announce k n).res = s.res := by simp only [State.announce]; split <;> rfl
@[simp] theorem State.announce_routers (s : State) (k : BitVec 4) (n : Nat) : (s.announce k n).routers = s.routers := by simp only [State.announce]; split <;> rfl
@[simp] theorem State.announce_msc (s : State) (k : BitVec 4) (n : Nat) : (s.announce k n).msc = s.msc := by simp only [State.announce]; split <;> rfl
@[simp] theorem State.announce_mc (s : State) (k : BitVec 4) (n : Nat) : (s.announce k n).mc = s.mc := by simp only [State.announce]; split <;> rfl
@[simp] theorem State.announce_pnx (s : State) (k : BitVec 4) (n : Nat) : (s.announce k n).pnx = s.pnx := by simp only [State.announce]; split <;> rfl
@[simp] theorem State.announce_wlv (s : State) (k : BitVec 4) (n : Nat) : (s.announce k n).wlv = s.wlv := by simp only [State.announce]; split <;> rfl
@[simp] theorem State.announce_wlvOut (s : State) (k : BitVec 4) (n : Nat) : (s.announce k n).wlvOut = s.wlvOut := by simp only [State.announce]; split <;> rfl
@[simp] theorem State.announce_herd (s : State) (k : BitVec 4) (n : Nat) : (s.announce k n).herd = s.herd := by simp only [State.announce]; split <;> rfl
@[simp] theorem State.announce_pm (s : State) (k : BitVec 4) (n : Nat) : (s.announce k n).pm = s.pm := by simp only [State.announce]; split <;> rfl
@[simp] theorem State.announce_gander (s : State) (k : BitVec 4) (n : Nat) : (s.announce k n).gander = s.gander := by simp only [State.announce]; split <;> rfl
@[simp] theorem State.announce_sec (s : State) (k : BitVec 4) (n : Nat) : (s.announce k n).sec = s.sec := by simp only [State.announce]; split <;> rfl
@[simp] theorem State.announce_integ (s : State) (k : BitVec 4) (n : Nat) : (s.announce k n).integ = s.integ := by simp only [State.announce]; split <;> rfl
@[simp] theorem State.announce_ckpt (s : State) (k : BitVec 4) (n : Nat) : (s.announce k n).ckpt = s.ckpt := by simp only [State.announce]; split <;> rfl
@[simp] theorem State.announce_flash (s : State) (k : BitVec 4) (n : Nat) : (s.announce k n).flash = s.flash := by simp only [State.announce]; split <;> rfl
@[simp] theorem State.announce_mgt (s : State) (k : BitVec 4) (n : Nat) : (s.announce k n).mgt = s.mgt := by simp only [State.announce]; split <;> rfl



@[simp] theorem State.respond_pending (s : State) (f : Frame) (b : Byte) (bs : List Byte) : (s.respond f b bs).pending = s.pending := by simp only [State.respond]; split <;> simp
@[simp] theorem State.respond_freeIx (s : State) (f : Frame) (b : Byte) (bs : List Byte) : (s.respond f b bs).freeIx = s.freeIx := by simp only [State.respond]; split <;> simp
@[simp] theorem State.respond_reply (s : State) (f : Frame) (b : Byte) (bs : List Byte) : (s.respond f b bs).reply = s.reply := by simp only [State.respond]; split <;> simp
@[simp] theorem State.respond_tb (s : State) (f : Frame) (b : Byte) (bs : List Byte) : (s.respond f b bs).tb = s.tb := by simp only [State.respond]; split <;> simp
@[simp] theorem State.respond_mem (s : State) (f : Frame) (b : Byte) (bs : List Byte) : (s.respond f b bs).mem = s.mem := by simp only [State.respond]; split <;> simp
@[simp] theorem State.respond_polders (s : State) (f : Frame) (b : Byte) (bs : List Byte) : (s.respond f b bs).polders = s.polders := by simp only [State.respond]; split <;> simp
@[simp] theorem State.respond_weirs (s : State) (f : Frame) (b : Byte) (bs : List Byte) : (s.respond f b bs).weirs = s.weirs := by simp only [State.respond]; split <;> simp
@[simp] theorem State.respond_flight (s : State) (f : Frame) (b : Byte) (bs : List Byte) : (s.respond f b bs).flight = s.flight := by simp only [State.respond]; split <;> simp
@[simp] theorem State.respond_notices (s : State) (f : Frame) (b : Byte) (bs : List Byte) : (s.respond f b bs).notices = s.notices := by simp only [State.respond]; split <;> simp
@[simp] theorem State.respond_watches (s : State) (f : Frame) (b : Byte) (bs : List Byte) : (s.respond f b bs).watches = s.watches := by simp only [State.respond]; split <;> simp
@[simp] theorem State.respond_ccWeir (s : State) (f : Frame) (b : Byte) (bs : List Byte) : (s.respond f b bs).ccWeir = s.ccWeir := by simp only [State.respond]; split <;> simp
@[simp] theorem State.respond_transfers (s : State) (f : Frame) (b : Byte) (bs : List Byte) : (s.respond f b bs).transfers = s.transfers := by simp only [State.respond]; split <;> simp
@[simp] theorem State.respond_nextId (s : State) (f : Frame) (b : Byte) (bs : List Byte) : (s.respond f b bs).nextId = s.nextId := by simp only [State.respond]; split <;> simp
@[simp] theorem State.respond_handed (s : State) (f : Frame) (b : Byte) (bs : List Byte) : (s.respond f b bs).handed = s.handed := by simp only [State.respond]; split <;> simp
@[simp] theorem State.respond_sent (s : State) (f : Frame) (b : Byte) (bs : List Byte) : (s.respond f b bs).sent = s.sent := by simp only [State.respond]; split <;> simp
@[simp] theorem State.respond_claimedRegions (s : State) (f : Frame) (b : Byte) (bs : List Byte) : (s.respond f b bs).claimedRegions = s.claimedRegions := by simp only [State.respond]; split <;> simp
@[simp] theorem State.respond_claimedWeirs (s : State) (f : Frame) (b : Byte) (bs : List Byte) : (s.respond f b bs).claimedWeirs = s.claimedWeirs := by simp only [State.respond]; split <;> simp
@[simp] theorem State.respond_holdWaits (s : State) (f : Frame) (b : Byte) (bs : List Byte) : (s.respond f b bs).holdWaits = s.holdWaits := by simp only [State.respond]; split <;> simp
@[simp] theorem State.respond_timers (s : State) (f : Frame) (b : Byte) (bs : List Byte) : (s.respond f b bs).timers = s.timers := by simp only [State.respond]; split <;> simp
@[simp] theorem State.respond_disc (s : State) (f : Frame) (b : Byte) (bs : List Byte) : (s.respond f b bs).disc = s.disc := by simp only [State.respond]; split <;> simp
@[simp] theorem State.respond_res (s : State) (f : Frame) (b : Byte) (bs : List Byte) : (s.respond f b bs).res = s.res := by simp only [State.respond]; split <;> simp
@[simp] theorem State.respond_routers (s : State) (f : Frame) (b : Byte) (bs : List Byte) : (s.respond f b bs).routers = s.routers := by simp only [State.respond]; split <;> simp
@[simp] theorem State.respond_msc (s : State) (f : Frame) (b : Byte) (bs : List Byte) : (s.respond f b bs).msc = s.msc := by simp only [State.respond]; split <;> simp
@[simp] theorem State.respond_mc (s : State) (f : Frame) (b : Byte) (bs : List Byte) : (s.respond f b bs).mc = s.mc := by simp only [State.respond]; split <;> simp
@[simp] theorem State.respond_wlv (s : State) (f : Frame) (b : Byte) (bs : List Byte) : (s.respond f b bs).wlv = s.wlv := by simp only [State.respond]; split <;> simp
@[simp] theorem State.respond_wlvOut (s : State) (f : Frame) (b : Byte) (bs : List Byte) : (s.respond f b bs).wlvOut = s.wlvOut := by simp only [State.respond]; split <;> simp
@[simp] theorem State.respond_cad (s : State) (f : Frame) (b : Byte) (bs : List Byte) : (s.respond f b bs).cad = s.cad := by simp only [State.respond]; split <;> simp
@[simp] theorem State.respond_pm (s : State) (f : Frame) (b : Byte) (bs : List Byte) : (s.respond f b bs).pm = s.pm := by simp only [State.respond]; split <;> simp
@[simp] theorem State.respond_gander (s : State) (f : Frame) (b : Byte) (bs : List Byte) : (s.respond f b bs).gander = s.gander := by simp only [State.respond]; split <;> simp
@[simp] theorem State.respond_sec (s : State) (f : Frame) (b : Byte) (bs : List Byte) : (s.respond f b bs).sec = s.sec := by simp only [State.respond]; split <;> simp
@[simp] theorem State.respond_integ (s : State) (f : Frame) (b : Byte) (bs : List Byte) : (s.respond f b bs).integ = s.integ := by simp only [State.respond]; split <;> simp
@[simp] theorem State.respond_ckpt (s : State) (f : Frame) (b : Byte) (bs : List Byte) : (s.respond f b bs).ckpt = s.ckpt := by simp only [State.respond]; split <;> simp
@[simp] theorem State.respond_flash (s : State) (f : Frame) (b : Byte) (bs : List Byte) : (s.respond f b bs).flash = s.flash := by simp only [State.respond]; split <;> simp
@[simp] theorem State.respond_mgt (s : State) (f : Frame) (b : Byte) (bs : List Byte) : (s.respond f b bs).mgt = s.mgt := by simp only [State.respond]; split <;> simp

@[simp] theorem State.haltFrom_pending (s : State) (o : BitVec 12) : (s.haltFrom o).pending = s.pending := rfl
@[simp] theorem State.haltFrom_freeIx (s : State) (o : BitVec 12) : (s.haltFrom o).freeIx = s.freeIx := rfl
@[simp] theorem State.haltFrom_reply (s : State) (o : BitVec 12) : (s.haltFrom o).reply = s.reply := rfl
@[simp] theorem State.haltFrom_tb (s : State) (o : BitVec 12) : (s.haltFrom o).tb = s.tb := rfl
@[simp] theorem State.haltFrom_mem (s : State) (o : BitVec 12) : (s.haltFrom o).mem = s.mem := rfl
@[simp] theorem State.haltFrom_polders (s : State) (o : BitVec 12) : (s.haltFrom o).polders = s.polders := rfl
@[simp] theorem State.haltFrom_weirs (s : State) (o : BitVec 12) : (s.haltFrom o).weirs = s.weirs := rfl
@[simp] theorem State.haltFrom_flight (s : State) (o : BitVec 12) : (s.haltFrom o).flight = s.flight := rfl
@[simp] theorem State.haltFrom_notices (s : State) (o : BitVec 12) : (s.haltFrom o).notices = s.notices := rfl
@[simp] theorem State.haltFrom_watches (s : State) (o : BitVec 12) : (s.haltFrom o).watches = s.watches := rfl
@[simp] theorem State.haltFrom_ccWeir (s : State) (o : BitVec 12) : (s.haltFrom o).ccWeir = s.ccWeir := rfl
@[simp] theorem State.haltFrom_transfers (s : State) (o : BitVec 12) : (s.haltFrom o).transfers = s.transfers := rfl
@[simp] theorem State.haltFrom_nextId (s : State) (o : BitVec 12) : (s.haltFrom o).nextId = s.nextId := rfl
@[simp] theorem State.haltFrom_handed (s : State) (o : BitVec 12) : (s.haltFrom o).handed = s.handed := rfl
@[simp] theorem State.haltFrom_sent (s : State) (o : BitVec 12) : (s.haltFrom o).sent = s.sent := rfl
@[simp] theorem State.haltFrom_claimedRegions (s : State) (o : BitVec 12) : (s.haltFrom o).claimedRegions = s.claimedRegions := rfl
@[simp] theorem State.haltFrom_claimedWeirs (s : State) (o : BitVec 12) : (s.haltFrom o).claimedWeirs = s.claimedWeirs := rfl
@[simp] theorem State.haltFrom_timers (s : State) (o : BitVec 12) : (s.haltFrom o).timers = s.timers := rfl
@[simp] theorem State.haltFrom_disc (s : State) (o : BitVec 12) : (s.haltFrom o).disc = s.disc := rfl
@[simp] theorem State.haltFrom_res (s : State) (o : BitVec 12) : (s.haltFrom o).res = s.res := rfl
@[simp] theorem State.haltFrom_routers (s : State) (o : BitVec 12) : (s.haltFrom o).routers = s.routers := rfl
@[simp] theorem State.haltFrom_msc (s : State) (o : BitVec 12) : (s.haltFrom o).msc = s.msc := rfl
@[simp] theorem State.haltFrom_mc (s : State) (o : BitVec 12) : (s.haltFrom o).mc = s.mc := rfl
@[simp] theorem State.haltFrom_pnx (s : State) (o : BitVec 12) : (s.haltFrom o).pnx = s.pnx := rfl
@[simp] theorem State.haltFrom_wlv (s : State) (o : BitVec 12) : (s.haltFrom o).wlv = s.wlv := rfl
@[simp] theorem State.haltFrom_wlvOut (s : State) (o : BitVec 12) : (s.haltFrom o).wlvOut = s.wlvOut := rfl
@[simp] theorem State.haltFrom_herd (s : State) (o : BitVec 12) : (s.haltFrom o).herd = s.herd := rfl
@[simp] theorem State.haltFrom_pm (s : State) (o : BitVec 12) : (s.haltFrom o).pm = s.pm := rfl
@[simp] theorem State.haltFrom_gander (s : State) (o : BitVec 12) : (s.haltFrom o).gander = s.gander := rfl
@[simp] theorem State.haltFrom_sec (s : State) (o : BitVec 12) : (s.haltFrom o).sec = s.sec := rfl
@[simp] theorem State.haltFrom_integ (s : State) (o : BitVec 12) : (s.haltFrom o).integ = s.integ := rfl
@[simp] theorem State.haltFrom_ckpt (s : State) (o : BitVec 12) : (s.haltFrom o).ckpt = s.ckpt := rfl
@[simp] theorem State.haltFrom_flash (s : State) (o : BitVec 12) : (s.haltFrom o).flash = s.flash := rfl
@[simp] theorem State.haltFrom_mgt (s : State) (o : BitVec 12) : (s.haltFrom o).mgt = s.mgt := rfl

@[simp] theorem State.wakeSource_pending (s : State) (b : U32) : (s.wakeSource b).pending = s.pending := by simp only [State.wakeSource]; split <;> rfl
@[simp] theorem State.wakeSource_freeIx (s : State) (b : U32) : (s.wakeSource b).freeIx = s.freeIx := by simp only [State.wakeSource]; split <;> rfl
@[simp] theorem State.wakeSource_reply (s : State) (b : U32) : (s.wakeSource b).reply = s.reply := by simp only [State.wakeSource]; split <;> rfl
@[simp] theorem State.wakeSource_tb (s : State) (b : U32) : (s.wakeSource b).tb = s.tb := by simp only [State.wakeSource]; split <;> rfl
@[simp] theorem State.wakeSource_mem (s : State) (b : U32) : (s.wakeSource b).mem = s.mem := by simp only [State.wakeSource]; split <;> rfl
@[simp] theorem State.wakeSource_polders (s : State) (b : U32) : (s.wakeSource b).polders = s.polders := by simp only [State.wakeSource]; split <;> rfl
@[simp] theorem State.wakeSource_weirs (s : State) (b : U32) : (s.wakeSource b).weirs = s.weirs := by simp only [State.wakeSource]; split <;> rfl
@[simp] theorem State.wakeSource_flight (s : State) (b : U32) : (s.wakeSource b).flight = s.flight := by simp only [State.wakeSource]; split <;> rfl
@[simp] theorem State.wakeSource_notices (s : State) (b : U32) : (s.wakeSource b).notices = s.notices := by simp only [State.wakeSource]; split <;> rfl
@[simp] theorem State.wakeSource_watches (s : State) (b : U32) : (s.wakeSource b).watches = s.watches := by simp only [State.wakeSource]; split <;> rfl
@[simp] theorem State.wakeSource_ccWeir (s : State) (b : U32) : (s.wakeSource b).ccWeir = s.ccWeir := by simp only [State.wakeSource]; split <;> rfl
@[simp] theorem State.wakeSource_transfers (s : State) (b : U32) : (s.wakeSource b).transfers = s.transfers := by simp only [State.wakeSource]; split <;> rfl
@[simp] theorem State.wakeSource_nextId (s : State) (b : U32) : (s.wakeSource b).nextId = s.nextId := by simp only [State.wakeSource]; split <;> rfl
@[simp] theorem State.wakeSource_handed (s : State) (b : U32) : (s.wakeSource b).handed = s.handed := by simp only [State.wakeSource]; split <;> rfl
@[simp] theorem State.wakeSource_sent (s : State) (b : U32) : (s.wakeSource b).sent = s.sent := by simp only [State.wakeSource]; split <;> rfl
@[simp] theorem State.wakeSource_claimedRegions (s : State) (b : U32) : (s.wakeSource b).claimedRegions = s.claimedRegions := by simp only [State.wakeSource]; split <;> rfl
@[simp] theorem State.wakeSource_claimedWeirs (s : State) (b : U32) : (s.wakeSource b).claimedWeirs = s.claimedWeirs := by simp only [State.wakeSource]; split <;> rfl
@[simp] theorem State.wakeSource_holdWaits (s : State) (b : U32) : (s.wakeSource b).holdWaits = s.holdWaits := by simp only [State.wakeSource]; split <;> rfl
@[simp] theorem State.wakeSource_timers (s : State) (b : U32) : (s.wakeSource b).timers = s.timers := by simp only [State.wakeSource]; split <;> rfl
@[simp] theorem State.wakeSource_disc (s : State) (b : U32) : (s.wakeSource b).disc = s.disc := by simp only [State.wakeSource]; split <;> rfl
@[simp] theorem State.wakeSource_res (s : State) (b : U32) : (s.wakeSource b).res = s.res := by simp only [State.wakeSource]; split <;> rfl
@[simp] theorem State.wakeSource_routers (s : State) (b : U32) : (s.wakeSource b).routers = s.routers := by simp only [State.wakeSource]; split <;> rfl
@[simp] theorem State.wakeSource_msc (s : State) (b : U32) : (s.wakeSource b).msc = s.msc := by simp only [State.wakeSource]; split <;> rfl
@[simp] theorem State.wakeSource_mc (s : State) (b : U32) : (s.wakeSource b).mc = s.mc := by simp only [State.wakeSource]; split <;> rfl
@[simp] theorem State.wakeSource_pnx (s : State) (b : U32) : (s.wakeSource b).pnx = s.pnx := by simp only [State.wakeSource]; split <;> rfl
@[simp] theorem State.wakeSource_wlv (s : State) (b : U32) : (s.wakeSource b).wlv = s.wlv := by simp only [State.wakeSource]; split <;> rfl
@[simp] theorem State.wakeSource_wlvOut (s : State) (b : U32) : (s.wakeSource b).wlvOut = s.wlvOut := by simp only [State.wakeSource]; split <;> rfl
@[simp] theorem State.wakeSource_cad (s : State) (b : U32) : (s.wakeSource b).cad = s.cad := by simp only [State.wakeSource]; split <;> rfl
@[simp] theorem State.wakeSource_herd (s : State) (b : U32) : (s.wakeSource b).herd = s.herd := by simp only [State.wakeSource]; split <;> rfl
@[simp] theorem State.wakeSource_sec (s : State) (b : U32) : (s.wakeSource b).sec = s.sec := by simp only [State.wakeSource]; split <;> rfl
@[simp] theorem State.wakeSource_integ (s : State) (b : U32) : (s.wakeSource b).integ = s.integ := by simp only [State.wakeSource]; split <;> rfl
@[simp] theorem State.wakeSource_ckpt (s : State) (b : U32) : (s.wakeSource b).ckpt = s.ckpt := by simp only [State.wakeSource]; split <;> rfl
@[simp] theorem State.wakeSource_flash (s : State) (b : U32) : (s.wakeSource b).flash = s.flash := by simp only [State.wakeSource]; split <;> rfl
@[simp] theorem State.wakeSource_mgt (s : State) (b : U32) : (s.wakeSource b).mgt = s.mgt := by simp only [State.wakeSource]; split <;> rfl

end Sys2Proof.Machine
end

