-- ==== Sys2Proof/Laws/Issue.lean ====
section
/-! SUPPORT. What the issue of a task instruction does, once for all classes, and the small lemmas of polders and tasks. -/

namespace Sys2Proof.Machine

open Host (Outcome)

variable {s : State} {p : Pid} {t : Task} {u : Use} {f : Fields}

/-! ### Polders -/

@[simp] theorem State.onPolder_polders_self (s : State) (p : Pid) (g : Polder → Polder) :
    (s.onPolder p g).polders[p] = g s.polders[p] := by
  simp [State.onPolder]

theorem State.onPolder_polders_ne (s : State) (p q : Pid) (g : Polder → Polder) (h : q ≠ p) :
    (s.onPolder p g).polders[q] = s.polders[q] := by
  have : p.val ≠ q.val := fun e => h (Fin.ext e.symm)
  simp [State.onPolder, this]

@[simp] theorem State.onPolder_onPolder (s : State) (p : Pid) (g k : Polder → Polder) :
    (s.onPolder p g).onPolder p k = s.onPolder p (fun P => k (g P)) := by
  simp [State.onPolder]

theorem State.onPolder_congr (s : State) (p : Pid) {g k : Polder → Polder} (h : g s.polders[p] = k s.polders[p]) :
    s.onPolder p g = s.onPolder p k := by
  simp only [State.onPolder, h]

theorem State.onPolder_id (s : State) (p : Pid) {g : Polder → Polder} (h : g s.polders[p] = s.polders[p]) :
    s.onPolder p g = s := by
  have : s.polders.set p.val s.polders[p] p.isLt = s.polders := by
    apply Vector.ext; intro i hi
    by_cases e : p.val = i
    · subst e; simp
    · simp
  simp only [State.onPolder, h, this]

/-! ### Tasks -/

@[simp] theorem Task.setS_pc (t : Task) (r : BitVec 5) (x : U64) : (t.setS r x).pc = t.pc := by
  unfold Task.setS; split <;> rfl
@[simp] theorem Task.setV_pc (t : Task) (r : BitVec 5) (x : BitVec 2048) : (t.setV r x).pc = t.pc := rfl
@[simp] theorem Task.setM_pc (t : Task) (r : BitVec 3) (x : BitVec 128) : (t.setM r x).pc = t.pc := by
  unfold Task.setM; split <;> rfl
@[simp] theorem Task.setD_pc (t : Task) (r : BitVec 4) (x : DescWord) : (t.setD r x).pc = t.pc := rfl

/-- A write to s0 is discarded (10 R215). -/
@[simp] theorem Task.setS_zero (t : Task) (x : U64) : t.setS 0 x = t := rfl

/-- A task changed and then moved on. -/
theorem State.onTask_setPc (h : s.polders[p].task = some t) (g : Task → Task) (hg : (g t).pc = t.pc) (n : Nat) :
    (s.onTask p g).setPc p (t.pc + BitVec.ofNat 32 n) = s.goesOn p (g t) n := by
  simp only [State.setPc, State.onTask, State.goesOn, State.onPolder_onPolder]
  apply State.onPolder_congr
  simp [-Fin.getElem_fin, h, hg]

/-- A task moved on. -/
theorem State.setPc_eq (h : s.polders[p].task = some t) (n : Nat) :
    s.setPc p (t.pc + BitVec.ofNat 32 n) = s.goesOn p t n := by
  simp only [State.setPc, State.onTask, State.goesOn]
  apply State.onPolder_congr
  simp [-Fin.getElem_fin, h]

/-! ### Issue -/

theorem CanIssue.task (h : CanIssue s p t) : s.polders[p].task = some t := h.2.1

theorem CanIssue.issuer (h : CanIssue s p t) : s.issuer p = some t := by
  obtain ⟨ha, ht, he, hw⟩ := h
  rcases hw with hw | ⟨q, n, full, x, hw⟩ <;> simp [-Fin.getElem_fin, State.issuer, ha, ht, he, hw]

theorem Use.legal_long (h : u.legal n f = true) : f.long = u.long := by
  simp only [Use.legal, Bool.and_eq_true, beq_iff_eq] at h
  simp_all

theorem Accepts.bytes (h : Accepts t u f) : Fields.bytes f = if u.long then 16 else 8 := by
  simp [Fields.bytes, Use.legal_long h.2]

theorem Accepts.fetch (h : Accepts t u f) : fetchOk t f = true := by
  simpa [fetchOk] using h.1

/-- An instruction whose body completes, with the reissues of an instruction that the vector checks cover (17 R397). -/
theorem issueTo_ok (hc : CanIssue s p t) (ha : Accepts t u f) {body : Task → Res (State × U32)} {s' : State} {pc : U32}
    (hb : body t = .ok (s', pc)) :
    issueTo p u f s body = .next ((s'.reissue p (if u.checked then f.upsets else 0)).setPc p pc) := by
  simp [issueTo, hc.issuer, ha.fetch, ha.2, hb]

/-- Without reissues an instruction leaves the state that its body made. -/
theorem State.reissue_zero (s : State) (p : Pid) : s.reissue p 0 = s := rfl

/-- An instruction whose body completes and that reissues nothing. -/
theorem issueTo_plain (hc : CanIssue s p t) (ha : Accepts t u f) (hu : u.checked = false ∨ f.upsets = 0)
    {body : Task → Res (State × U32)} {s' : State} {pc : U32} (hb : body t = .ok (s', pc)) :
    issueTo p u f s body = .next (s'.setPc p pc) := by
  rw [issueTo_ok hc ha hb]
  rcases hu with hu | hu <;> simp [hu, State.reissue_zero]

/-- An instruction that its own check faults. -/
theorem issueTo_fault (hc : CanIssue s p t) (ha : Accepts t u f) {body : Task → Res (State × U32)} {c : Byte} {i : U32}
    (hb : body t = .error (.fault c i)) : issueTo p u f s body = .next (s.taskFault p c i) := by
  simp [issueTo, hc.issuer, ha.fetch, ha.2, hb]

/-- An instruction that faults with effects of its own. -/
theorem issueTo_late (hc : CanIssue s p t) (ha : Accepts t u f) {body : Task → Res (State × U32)} {s' : State} {c : Byte}
    {i : U32} (hb : body t = .error (.late s' c i)) : issueTo p u f s body = .next (s'.taskFault p c i) := by
  simp [issueTo, hc.issuer, ha.fetch, ha.2, hb]

/-- An instruction that waits on the tag of a slot. -/
theorem issueTo_blocked (hc : CanIssue s p t) (ha : Accepts t u f) {body : Task → Res (State × U32)} {q : Pid}
    {n : BitVec 17} {full : Bool} (hb : body t = .error (.blocked q n full)) :
    issueTo p u f s body = .next (s.blockOn p q n full) := by
  simp [issueTo, hc.issuer, ha.fetch, ha.2, hb]

/-- An instruction that waits in another way. -/
theorem issueTo_held (hc : CanIssue s p t) (ha : Accepts t u f) {body : Task → Res (State × U32)} {s' : State}
    (hb : body t = .error (.held s')) : issueTo p u f s body = .next s' := by
  simp [issueTo, hc.issuer, ha.fetch, ha.2, hb]

/-- A polder that may not issue changes nothing. -/
theorem issueTo_none (h : s.issuer p = none) (body : Task → Res (State × U32)) : issueTo p u f s body = .next s := by
  simp [issueTo, h]

/-- Check 1 of 10 R214. -/
theorem issueTo_fetch (hc : CanIssue s p t) (h : t.stage.codeLen.toNat < t.pc.toNat + Fields.bytes f)
    (body : Task → Res (State × U32)) : issueTo p u f s body = .next (s.taskFault p 0x08 (fetchInfo t)) := by
  have : fetchOk t f = false := by simpa [fetchOk] using h
  simp [issueTo, hc.issuer, this]

/-- Check 2 of 10 R214. -/
theorem issueTo_illegal (hc : CanIssue s p t) (h1 : t.pc.toNat + Fields.bytes f ≤ t.stage.codeLen.toNat)
    (h2 : u.legal t.stage.level.toNat f = false) (body : Task → Res (State × U32)) :
    issueTo p u f s body = .next (s.taskFault p 0x01 0) := by
  have : fetchOk t f = true := by simpa [fetchOk] using h1
  simp [issueTo, hc.issuer, this, h2]

theorem issue_ok (hc : CanIssue s p t) (ha : Accepts t u f) {body : Task → Res State} {s' : State}
    (hb : body t = .ok s') :
    issue p u f s body = .next ((s'.reissue p (if u.checked then f.upsets else 0)).setPc p
      (t.pc + BitVec.ofNat 32 (if u.long then 16 else 8))) := by
  rw [issue, issueTo_ok hc ha (s' := s') (pc := t.pc + BitVec.ofNat 32 (Fields.bytes f)), ha.bytes]
  rw [hb]; rfl

theorem issue_plain (hc : CanIssue s p t) (ha : Accepts t u f) (hu : u.checked = false ∨ f.upsets = 0)
    {body : Task → Res State} {s' : State} (hb : body t = .ok s') :
    issue p u f s body = .next (s'.setPc p (t.pc + BitVec.ofNat 32 (if u.long then 16 else 8))) := by
  rw [issue, issueTo_plain hc ha hu (s' := s') (pc := t.pc + BitVec.ofNat 32 (Fields.bytes f)), ha.bytes]
  rw [hb]; rfl

theorem issue_fault (hc : CanIssue s p t) (ha : Accepts t u f) {body : Task → Res State} {c : Byte} {i : U32}
    (hb : body t = .error (.fault c i)) : issue p u f s body = .next (s.taskFault p c i) := by
  rw [issue, issueTo_fault hc ha]; rw [hb]; rfl

theorem issue_late (hc : CanIssue s p t) (ha : Accepts t u f) {body : Task → Res State} {s' : State} {c : Byte} {i : U32}
    (hb : body t = .error (.late s' c i)) : issue p u f s body = .next (s'.taskFault p c i) := by
  rw [issue, issueTo_late hc ha]; rw [hb]; rfl

theorem issue_blocked (hc : CanIssue s p t) (ha : Accepts t u f) {body : Task → Res State} {q : Pid}
    {n : BitVec 17} {full : Bool} (hb : body t = .error (.blocked q n full)) :
    issue p u f s body = .next (s.blockOn p q n full) := by
  rw [issue, issueTo_blocked hc ha]; rw [hb]; rfl

theorem issue_held (hc : CanIssue s p t) (ha : Accepts t u f) {body : Task → Res State} {s' : State}
    (hb : body t = .error (.held s')) : issue p u f s body = .next s' := by
  rw [issue, issueTo_held hc ha]; rw [hb]; rfl

/-- An instruction that only changes its task and reissues nothing. -/
theorem issue_task (hc : CanIssue s p t) (ha : Accepts t u f) {body : Task → Res State} (g : Task → Task)
    (hb : body t = .ok (s.onTask p g)) (hg : (g t).pc = t.pc) (hu : u.checked = false ∨ f.upsets = 0) :
    issue p u f s body = goesTo s p (g t) (if u.long then 16 else 8) := by
  rw [issue_plain hc ha hu hb, State.onTask_setPc hc.task g hg]; rfl

end Sys2Proof.Machine
end

