-- ==== Sys2Proof/Laws/Sparse.lean ====
section
/-! SUPPORT. Sparse tables: read after write on every list, and the canonical form, which every operation keeps. -/

namespace Sys2Proof.Machine

variable {α : Type} {d x : α} {l : Sparse α} {a b : Nat}

/-! ### Reads -/

theorem sget_filter_ne (d : α) (l : Sparse α) (h : b ≠ a) : sget d (l.filter (fun e => e.1 != a)) b = sget d l b := by
  induction l with
  | nil => rfl
  | cons e t ih =>
    obtain ⟨k, v⟩ := e
    by_cases hk : k = a
    · subst hk; simp [sget, ih, h.symm]
    · simp [sget, hk, ih]

theorem sget_filter_self (d : α) (l : Sparse α) (a : Nat) : sget d (l.filter (fun e => e.1 != a)) a = d := by
  induction l with
  | nil => rfl
  | cons e t ih =>
    obtain ⟨k, v⟩ := e
    by_cases hk : k = a
    · subst hk; simpa using ih
    · simp [sget, hk, ih]

theorem sget_sins_ne (d x : α) (l : Sparse α) (h : b ≠ a) : sget d (sins a x l) b = sget d l b := by
  induction l with
  | nil => simp [sins, sget, h.symm]
  | cons e t ih =>
    obtain ⟨k, v⟩ := e
    simp only [sins]
    split
    · simp [sget, ih]
    · simp [sget, h.symm]

theorem sget_sins_self (d x : α) (l : Sparse α) (h : ∀ e ∈ l, e.1 ≠ a) : sget d (sins a x l) a = x := by
  induction l with
  | nil => simp [sins, sget]
  | cons e t ih =>
    obtain ⟨k, v⟩ := e
    have hk : k ≠ a := h (k, v) (by simp)
    simp only [sins]
    split
    · simpa [sget, hk] using ih (fun e he => h e (by simp [he]))
    · simp [sget]

section

variable [DecidableEq α]

/-- The key written reads the value written. -/
@[simp] theorem sget_sput_self (d x : α) (l : Sparse α) (a : Nat) : sget d (sput d l a x) a = x := by
  simp only [sput]
  split
  · rename_i h; rw [sget_filter_self, h]
  · exact sget_sins_self _ _ _ (by simp)

/-- Every other key reads as before. -/
theorem sget_sput_ne (d x : α) (l : Sparse α) (h : b ≠ a) : sget d (sput d l a x) b = sget d l b := by
  simp only [sput]
  split
  · exact sget_filter_ne _ _ h
  · rw [sget_sins_ne _ _ _ h, sget_filter_ne _ _ h]

/-- A read after one write. -/
theorem sget_sput (d x : α) (l : Sparse α) (a b : Nat) : sget d (sput d l a x) b = if b = a then x else sget d l b := by
  split
  · rename_i h; rw [h, sget_sput_self]
  · rename_i h; exact sget_sput_ne _ _ _ h

end

/-- Entries mapped by a function that keeps the default read as mapped. -/
theorem sget_map {β : Type} (d : α) (e : β) (f : α → β) (hf : f d = e) (l : Sparse α) (a : Nat) :
    sget e (l.map (fun x => (x.1, f x.2))) a = f (sget d l a) := by
  induction l with
  | nil => simp [sget, hf]
  | cons y t ih =>
    obtain ⟨k, v⟩ := y
    by_cases hk : k = a <;> simp [sget, hk, ih]

/-! ### The canonical form -/

/-- Keys rise: each lies below the next. -/
theorem rising_iff (l : Sparse α) : rising l = true ↔ l.Pairwise (fun p q => p.1 < q.1) := by
  induction l with
  | nil => simp [rising]
  | cons p t ih =>
    cases t with
    | nil => simp [rising]
    | cons q t =>
      simp only [rising, Bool.and_eq_true, decide_eq_true_eq, ih]
      constructor
      · rintro ⟨h, hp⟩
        refine List.pairwise_cons.2 ⟨fun r hr => ?_, hp⟩
        rcases List.mem_cons.1 hr with rfl | hr
        · exact h
        · exact Nat.lt_trans h ((List.pairwise_cons.1 hp).1 r hr)
      · intro h
        exact ⟨(List.pairwise_cons.1 h).1 q (by simp), (List.pairwise_cons.1 h).2⟩

section

variable [DecidableEq α]

theorem canonical_iff (d : α) (l : Sparse α) :
    canonical d l = true ↔ l.Pairwise (fun p q => p.1 < q.1) ∧ ∀ e ∈ l, e.2 ≠ d := by
  simp [canonical, rising_iff]

theorem canonical_nil (d : α) : canonical d ([] : Sparse α) = true := rfl

/-- A part of a canonical table is canonical. -/
theorem canonical_filter (h : canonical d l = true) (p : Nat × α → Bool) : canonical d (l.filter p) = true := by
  rw [canonical_iff] at *
  exact ⟨h.1.filter p, fun e he => h.2 e ((List.mem_filter.1 he).1)⟩

end

theorem mem_sins {e : Nat × α} : e ∈ sins a x l ↔ e = (a, x) ∨ e ∈ l := by
  induction l with
  | nil => simp [sins]
  | cons y t ih =>
    obtain ⟨k, v⟩ := y
    simp only [sins]
    split
    · simp only [List.mem_cons, ih]; exact or_left_comm
    · simp only [List.mem_cons]

theorem pairwise_sins (h : l.Pairwise (fun p q => p.1 < q.1)) (hn : ∀ e ∈ l, e.1 ≠ a) :
    (sins a x l).Pairwise (fun p q => p.1 < q.1) := by
  induction l with
  | nil => simp [sins]
  | cons y t ih =>
    obtain ⟨k, v⟩ := y
    obtain ⟨h1, h2⟩ := List.pairwise_cons.1 h
    simp only [sins]
    split
    · rename_i hk
      refine List.pairwise_cons.2 ⟨fun r hr => ?_, ih h2 (fun e he => hn e (by simp [he]))⟩
      rcases mem_sins.1 hr with rfl | hr
      · exact hk
      · exact h1 r hr
    · rename_i hk
      have hka : a < k := Nat.lt_of_le_of_ne (Nat.not_lt.1 hk) (Ne.symm (hn (k, v) (by simp)))
      refine List.pairwise_cons.2 ⟨fun r hr => ?_, h⟩
      rcases List.mem_cons.1 hr with rfl | hr
      · exact hka
      · exact Nat.lt_trans hka (h1 r hr)

section

variable [DecidableEq α]

/-- A write keeps the canonical form. -/
theorem canonical_sput (h : canonical d l = true) (a : Nat) (x : α) : canonical d (sput d l a x) = true := by
  have hf := canonical_filter h (fun e => e.1 != a)
  simp only [sput]
  split
  · exact hf
  · rename_i hx
    rw [canonical_iff] at *
    refine ⟨pairwise_sins hf.1 (by simp), fun e he => ?_⟩
    rcases mem_sins.1 he with rfl | he
    · exact hx
    · exact hf.2 e he

/-- Two canonical tables that read alike everywhere are one table. -/
theorem canonical_ext {m : Sparse α} (hl : canonical d l = true) (hm : canonical d m = true)
    (h : ∀ a, sget d l a = sget d m a) : l = m := by
  rw [canonical_iff] at hl hm
  have small : ∀ (l : Sparse α) (a : Nat), (∀ e ∈ l, a < e.1) → sget d l a = d := by
    intro l a hl
    induction l with
    | nil => rfl
    | cons y t ih =>
      obtain ⟨k, v⟩ := y
      have : k ≠ a := (Nat.ne_of_lt (hl (k, v) (by simp))).symm
      simpa [sget, this] using ih (fun e he => hl e (by simp [he]))
  induction l generalizing m with
  | nil =>
    cases m with
    | nil => rfl
    | cons y t =>
      exact absurd (by simpa [sget] using (h y.1).symm) (hm.2 y (by simp))
  | cons y t ih =>
    cases m with
    | nil => exact absurd (by simpa [sget] using h y.1) (hl.2 y (by simp))
    | cons z u =>
      obtain ⟨k, v⟩ := y
      obtain ⟨j, w⟩ := z
      obtain ⟨hl1, hl2⟩ := List.pairwise_cons.1 hl.1
      obtain ⟨hm1, hm2⟩ := List.pairwise_cons.1 hm.1
      have hkj : k = j := by
        rcases Nat.lt_trichotomy k j with hlt | heq | hgt
        · have := h k
          rw [small ((j, w) :: u) k (fun e he => by
            rcases List.mem_cons.1 he with rfl | he
            · exact hlt
            · exact Nat.lt_trans hlt (hm1 e he))] at this
          exact absurd (by simpa [sget] using this) (hl.2 (k, v) (by simp))
        · exact heq
        · have := h j
          rw [small ((k, v) :: t) j (fun e he => by
            rcases List.mem_cons.1 he with rfl | he
            · exact hgt
            · exact Nat.lt_trans hgt (hl1 e he))] at this
          exact absurd (by simpa [sget] using this.symm) (hm.2 (j, w) (by simp))
      subst hkj
      have hvw : v = w := by simpa [sget] using h k
      subst hvw
      congr 1
      refine ih ⟨hl2, fun e he => hl.2 e (by simp [he])⟩ ⟨hm2, fun e he => hm.2 e (by simp [he])⟩ (fun a => ?_)
      by_cases hka : k = a
      · subst hka
        rw [small t k hl1, small u k hm1]
      · simpa [sget, hka] using h a

end

end Sys2Proof.Machine
end

