-- ==== Sys2Proof/Laws/Memory.lean ====
section
/-! SUPPORT. Memory: what a read finds after a write, and the canonical form, which every memory operation keeps. -/

namespace Sys2Proof.Machine

/-! ### Reads after writes -/

/-- One byte after one store: an own address written reads the byte stored, every other address as before. -/
theorem State.byte_putByte (s : State) (a b : Nat) (x : Byte) :
    (s.putByte a x).byte b = if b = a ∧ a < 2 ^ 63 then x else s.byte b := by
  by_cases ha : a < 2 ^ 63
  · by_cases hb : b < 2 ^ 63
    · simp only [State.putByte, State.byte, ha, hb, if_true, and_true, sget_sput]
    · have hne : b ≠ a := fun h => hb (h ▸ ha)
      simp only [State.putByte, State.byte, ha, hb, if_true, if_false, hne, false_and]
  · simp only [State.putByte, State.byte, ha, if_false, and_false]

theorem State.byte_putByte_self (s : State) {a : Nat} (x : Byte) (h : a < 2 ^ 63) : (s.putByte a x).byte a = x := by
  rw [State.byte_putByte, if_pos ⟨rfl, h⟩]

theorem State.byte_putByte_ne (s : State) {a b : Nat} (x : Byte) (h : b ≠ a) : (s.putByte a x).byte b = s.byte b := by
  rw [State.byte_putByte, if_neg (fun e => h e.1)]

/-- A byte outside the bytes stored one by one reads as before. -/
theorem State.byte_storeBytes_outside (s : State) (a b : Nat) (xs : List Byte) (h : b < a ∨ a + xs.length ≤ b) :
    (s.storeBytes a xs).byte b = s.byte b := by
  induction xs generalizing s a with
  | nil => rfl
  | cons x t ih =>
    simp only [List.length_cons] at h
    rw [State.storeBytes, ih _ _ (by omega), State.byte_putByte_ne _ _ (by omega)]

/-- A store of bytes to an own address stores them one by one. -/
theorem State.putBytes_own (s : State) {a : Nat} (xs : List Byte) (h : a < 2 ^ 63) : s.putBytes a xs = s.storeBytes a xs := by
  simp only [State.putBytes, h, if_true]

/-- A store of bytes to a peer changes nothing but what was sent. -/
theorem State.putBytes_peer (s : State) {a : Nat} (xs : List Byte) (h : 2 ^ 63 ≤ a) :
    s.putBytes a xs = { s with sent := s.sent ++ peerPackets a xs } := by
  simp only [State.putBytes, show ¬ a < 2 ^ 63 by omega, if_false]

/-- A byte outside the bytes stored reads as before. -/
theorem State.byte_putBytes_outside (s : State) (a b : Nat) (xs : List Byte) (h : b < a ∨ a + xs.length ≤ b) :
    (s.putBytes a xs).byte b = s.byte b := by
  by_cases ha : a < 2 ^ 63
  · rw [State.putBytes_own s xs ha, State.byte_storeBytes_outside s a b xs h]
  · rw [State.putBytes_peer s xs (by omega)]; rfl

/-- A byte inside the bytes stored reads as its byte of the list. -/
theorem State.byte_putBytes_inside (s : State) (a k : Nat) (xs : List Byte) (hk : k < xs.length) (h : a + xs.length ≤ 2 ^ 63) :
    (s.putBytes a xs).byte (a + k) = xs[k] := by
  rw [State.putBytes_own s xs (by omega)]
  induction xs generalizing s a k with
  | nil => exact absurd hk (by simp)
  | cons x t ih =>
    simp only [List.length_cons] at h hk
    cases k with
    | zero =>
      rw [State.storeBytes, State.byte_storeBytes_outside _ _ _ _ (.inl (by omega))]
      exact State.byte_putByte_self s x (by omega)
    | succ k =>
      rw [State.storeBytes, List.getElem_cons_succ, ← ih (s.putByte a x) (a + 1) k (by omega) (by omega)]
      congr 1; omega

/-- What was stored reads back. -/
theorem State.bytes_putBytes (s : State) (a : Nat) (xs : List Byte) (h : a + xs.length ≤ 2 ^ 63) :
    (s.putBytes a xs).bytes a xs.length = xs := by
  refine List.ext_getElem (by simp [State.bytes]) fun k h1 h2 => ?_
  simpa [State.bytes] using State.byte_putBytes_inside s a k xs h2 h

/-! ### The canonical form -/

theorem Memory.wf_nil : Memory.wf [] = true := rfl

theorem State.reset_memory_wf : Memory.wf State.reset.mem = true := rfl

theorem Memory.wf_filter {m : List Host.Cell} (h : Memory.wf m = true) (p : Host.Cell → Bool) : Memory.wf (m.filter p) = true :=
  canonical_filter h p

theorem State.putByte_wf {s : State} (h : Memory.wf s.mem = true) (a : Nat) (x : Byte) : Memory.wf (s.putByte a x).mem = true := by
  unfold State.putByte
  split
  · exact canonical_sput h a x
  · exact h

theorem State.storeBytes_wf {s : State} (h : Memory.wf s.mem = true) (a : Nat) (xs : List Byte) :
    Memory.wf (s.storeBytes a xs).mem = true := by
  induction xs generalizing s a with
  | nil => exact h
  | cons x t ih => exact ih (State.putByte_wf h a x) _

theorem State.putBytes_wf {s : State} (h : Memory.wf s.mem = true) (a : Nat) (xs : List Byte) :
    Memory.wf (s.putBytes a xs).mem = true := by
  unfold State.putBytes
  split
  · exact State.storeBytes_wf h a xs
  · exact h

/-- A cleared range keeps the form: its entries are gone. -/
theorem State.zero_wf {s : State} (h : Memory.wf s.mem = true) (a n : Nat) : Memory.wf (s.zero a n).mem = true :=
  Memory.wf_filter h _

/-- A byte of a cleared range reads 0, every other byte as before. -/
theorem State.byte_zero (s : State) (a n b : Nat) :
    (s.zero a n).byte b = if a ≤ b ∧ b < a + n ∧ b < 2 ^ 63 then 0 else s.byte b := by
  have key : ∀ l : List Host.Cell, sget (0 : Byte) (l.filter (fun c => decide (c.1 < a) || decide (a + n ≤ c.1))) b
      = if a ≤ b ∧ b < a + n then 0 else sget 0 l b := by
    intro l
    induction l with
    | nil => simp [sget]
    | cons c t ih =>
      obtain ⟨k, v⟩ := c
      by_cases hk : k = b
      · subst hk
        by_cases h : a ≤ k ∧ k < a + n
        · rw [if_pos h] at ih ⊢
          simpa [show ¬ (k < a) by omega, show ¬ (a + n ≤ k) by omega] using ih
        · rw [if_neg h] at ih ⊢
          have : k < a ∨ a + n ≤ k := by omega
          simp [this, sget]
      · by_cases hin : k < a ∨ a + n ≤ k
        · simpa [hin, sget, hk] using ih
        · simpa [hin, sget, hk] using ih
  unfold State.zero State.byte
  split
  · rename_i hb; simp only [key, hb, and_true]
  · rename_i hb; rw [if_neg (fun e => hb e.2.2)]

end Sys2Proof.Machine
end

