-- ==== Sys2Proof/Laws/Shared.lean ====
section
/-! SUPPORT. What the operations shared by many commands do, said once: the gates on the clocks, weirs, resource entries, timers,
tags, faults of a task and announcements. -/

namespace Sys2Proof.Machine

open Host (Outcome)

variable {s : State} {p q : Pid} {k : State → Outcome State Fault Refusal}

/-! ### Gates on the clocks -/

theorem whenArith_on (h : s.arithOn = true) : whenArith s k = k s := by simp [whenArith, h]
theorem whenArith_off (h : s.arithOn = false) : whenArith s k = .next s := by simp [whenArith, h]
theorem whenRunning_on (h : s.running = true) : whenRunning s k = k s := by simp [whenRunning, h]
theorem whenRunning_off (h : s.running = false) : whenRunning s k = .next s := by simp [whenRunning, h]
theorem atPolder_on (h : s.running = true) : atPolder s p k = k (s.wakeQuad (quadOf p)) := by simp [atPolder, h]
theorem atPolder_off (h : s.running = false) : atPolder s p k = .next s := by simp [atPolder, h]

/-- The arithmetic clocks run only in a running module. -/
theorem running_of_arithOn (h : s.arithOn = true) : s.running = true := by
  simp only [State.arithOn, Bool.and_eq_true] at h; exact h.1

/-! ### Weirs -/

/-- A weir after one is stored. -/
theorem State.weir_putWeir (s : State) (w v : Nat) (x : Weir) :
    (s.putWeir w x).weir v = if v = w then
      { x with notified := x.notified || (x.notifyEn && meets x.count x.thresh && !meets (s.weir w).count (s.weir w).thresh) }
      else s.weir v := by
  simp only [State.putWeir, State.weir, sget_sput]

/-- The counter of updates leaves every weir alone. -/
@[simp] theorem State.weir_countSignal (s : State) (w v : Nat) : (s.countSignal w).weir v = s.weir v := by
  simp only [State.weir, State.countSignal_weirs]

/-- The count of a weir after an increment: "the count gains it, modulo 2^32" at that weir, and no other moves (11 R255). -/
theorem State.count_weirAdd (s : State) (w v : Nat) (inc : U32) :
    ((s.weirAdd w inc).weir v).count = if v = w ∧ w < 16384 then (s.weir v).count + inc else (s.weir v).count := by
  unfold State.weirAdd
  split
  · rename_i h
    rw [State.weir_putWeir]
    by_cases hv : v = w
    · subst hv; simp [h]
    · simp [hv]
  · rename_i h; simp [h]

/-! ### Resource entries and timers -/

/-- The owner of an entry after one is recorded. -/
theorem State.owner_setOwner (s : State) (e d : Fin 96) (o : BitVec 4) :
    (s.setOwner e o).owner d = if d = e then o else s.owner d := by
  by_cases h : d = e
  · subst h; simp [State.owner, State.setOwner]
  · have : e.val ≠ d.val := fun x => h (Fin.ext x.symm)
    simp [State.owner, State.setOwner, this, h]

/-- A timer after one is changed. -/
theorem State.timers_onTimer (s : State) (n m : Fin 16) (g : Timer → Timer) :
    (s.onTimer n g).timers[m] = if m = n then g s.timers[n] else s.timers[m] := by
  by_cases h : m = n
  · subst h; simp [State.onTimer]
  · have : n.val ≠ m.val := fun x => h (Fin.ext x.symm)
    simp [State.onTimer, this, h]

/-! ### Faults of a task -/

/-- A polder without a task takes no fault. -/
theorem State.taskFaultAt_none (h : s.polders[p].task = none) (pc : U32) (c : Byte) (i : U32) : s.taskFaultAt p pc c i = s := by
  unfold State.taskFaultAt; rw [h]

/-- A fault at the pc is a fault at that address. -/
theorem State.taskFault_eq {t : Task} (h : s.polders[p].task = some t) (c : Byte) (i : U32) :
    s.taskFault p c i = s.taskFaultAt p t.pc c i := by
  unfold State.taskFault; rw [h]

/-- A faulted task is gone, its base and bound with it (09 R205, R196). -/
theorem State.taskFaultAt_task (s : State) (p : Pid) (pc : U32) (c : Byte) (i : U32) :
    (s.taskFaultAt p pc c i).polders[p].task = none := by
  unfold State.taskFaultAt
  split
  · rename_i h; exact h
  · simp only [State.dropTask, State.onPolder_polders_self]

/-! ### Announcements -/

/-- Holding an announcement touches the cadence alone. -/
theorem State.holdAnnounce_only (s : State) (a : Announce) : ∃ c, s.holdAnnounce a = { s with cad := c } := by
  unfold State.holdAnnounce; exact ⟨_, rfl⟩

theorem State.flood_only (s : State) (a : Announce) (e : Option (Fin 6)) : ∃ c, s.flood a e = { s with cad := c } := by
  unfold State.flood; exact ⟨_, rfl⟩

/-- An announcement touches the cadence alone. -/
theorem State.announce_only (s : State) (kind : BitVec 4) (point : Nat) : ∃ c, s.announce kind point = { s with cad := c } := by
  unfold State.announce
  dsimp only
  split
  · obtain ⟨c, hc⟩ := State.flood_only { s with cad := { s.cad with seq := s.cad.seq + 1 } }
      { kind, point := BitVec.ofNat 8 point, origin := s.cad.coord, seq := s.cad.seq, stamp := s.tb } none
    exact ⟨c, hc⟩
  · obtain ⟨c, hc⟩ := State.flood_only { s with cad := { s.cad with seq := s.cad.seq + 1 } }
      { kind, point := BitVec.ofNat 8 point, origin := s.cad.coord, seq := s.cad.seq, stamp := s.tb } none
    rw [hc]
    exact State.holdAnnounce_only _ _

/-- A fresh look at the member's CAP touches the cadence alone (16 R373). -/
theorem State.refreshCap_only (s : State) : ∃ c, s.refreshCap = { s with cad := c } := by
  have key : ∀ cap : Option Nat, ∃ c, (if cap = s.cad.myCap then s else
      match cap with
      | some n => ({ s with cad := { s.cad with myCap := cap } } : State).announce 3 n
      | none => ({ s with cad := { s.cad with myCap := cap } } : State).announce 4 0) = { s with cad := c } := by
    intro cap
    split
    · exact ⟨s.cad, rfl⟩
    · cases cap with
      | some n => exact State.announce_only _ 3 n
      | none => exact State.announce_only _ 4 0
  exact key _

end Sys2Proof.Machine
end

