-- ==== Sys2Proof/WellFormed.lean ====
section
/-! DEFINITION. Which commands the outside can form: operands whose lengths and kinds agree with what carries them. `exec` is
total and gives an effect to ill-formed ones too. -/

namespace Sys2Proof

/-- A short instruction has no word 1 (10 R212). -/
def Fields.wf (f : Fields) : Bool := f.long || f.w1 == 0

/-- A payload is at most 4,096 bytes, a multiple of 64 (13 R288). -/
def FabPacket.wf (k : FabPacket) : Bool :=
  k.len.toNat ≤ 4096 && k.len.toNat % 64 == 0 && (k.len != 0) == k.kind.loaded && k.addr.toNat % 4096 + k.len.toNat ≤ 4096
  && k.be.length == (if k.kind = .write then k.len.toNat / 64 else 0)

/-- LEN counts the payload (14 Table 14-1). -/
def Frame.wf (f : Frame) : Bool := f.payload.length == f.len.toNat

/-- LEN counts the data: 64 to 16,384 bytes and a multiple of 64, none in a CREDIT packet (14 R318). -/
def StreamPacket.wf (k : StreamPacket) : Bool :=
  k.data.length == k.len.toNat
  && (if k.type = 0 then k.len == 0 else 64 ≤ k.len.toNat && k.len.toNat ≤ 16384 && k.len.toNat % 64 == 0)

/-- A remote write fits one packet (13 R288). -/
def RemoteOp.wf : RemoteOp → Bool
  | .write data _ => data.length ≤ 4096
  | .read len => len.toNat ≤ 4096
  | .signal _ => true
  | .refused _ _ _ => true

/-- A bit is wrong or it is not. -/
def LineErrs.wf (e : LineErrs) : Bool := decide e.data.Nodup && decide e.check.Nodup

/-- One training result for each of the eight controllers (13 R301). -/
def BootInputs.wf (b : BootInputs) : Bool := b.trained.length == 8

/-- The header of an image is 8,192 bytes (17 R411). -/
def FwImage.wf (i : FwImage) : Bool := i.header.length == 8192

/-- A reach lists its polders in ascending order, with what each holds (01 R21). -/
def BindPlan.wf (b : BindPlan) : Bool :=
  b.reaches.all (fun R => decide (R.polders.Pairwise (· < ·)) && R.holds.length == R.polders.length)

/-- One contribution per rank (14 R339). -/
def ranksDistinct (ps : List PeerShare) : Bool := decide (ps.map (·.rank)).Nodup

/-- One row of logits per slot (15 R355). -/
def slotsDistinct (rs : List LogitRow) : Bool := decide (rs.map (·.slot)).Nodup

/-- A command that the outside can form. -/
def Instr.wf : Instr → Bool
  | .ctlNop _ f => f.wf
  | .ctlEnd _ f => f.wf
  | .ctlJmp _ f => f.wf
  | .ctlBeq _ f => f.wf
  | .ctlBne _ f => f.wf
  | .ctlBlt _ f => f.wf
  | .ctlBge _ f => f.wf
  | .ctlBltu _ f => f.wf
  | .ctlBgeu _ f => f.wf
  | .ctlAdd _ f => f.wf
  | .ctlSub _ f => f.wf
  | .ctlMul _ f => f.wf
  | .ctlAnd _ f => f.wf
  | .ctlOr _ f => f.wf
  | .ctlXor _ f => f.wf
  | .ctlShl _ f => f.wf
  | .ctlShr _ f => f.wf
  | .ctlSra _ f => f.wf
  | .ctlAddi _ f => f.wf
  | .ctlShli _ f => f.wf
  | .ctlShri _ f => f.wf
  | .ctlAndi _ f => f.wf
  | .ctlLi _ f => f.wf
  | .ctlTime _ f => f.wf
  | .ctlTimerClaim _ f => f.wf
  | .ctlTimerArm _ f => f.wf
  | .ctlTimerRelease _ f => f.wf
  | .ctlTimerRead _ f => f.wf
  | .timerExpiry _ => true
  | .mvLd _ f => f.wf
  | .mvSt _ f => f.wf
  | .mvLane _ f => f.wf
  | .mvSplat _ f => f.wf
  | .mvDget _ f => f.wf
  | .mvDput _ f => f.wf
  | .mvMand _ f => f.wf
  | .mvMor _ f => f.wf
  | .mvMnot _ f => f.wf
  | .mvMset _ f => f.wf
  | .mvCopy _ f => f.wf
  | .mvBytes _ f => f.wf
  | .moveComplete _ => true
  | .wrSignal _ f => f.wf
  | .wrWait _ f => f.wf
  | .wrRead _ f => f.wf
  | .wrRsignal _ f => f.wf
  | .wrSwait _ f => f.wf
  | .wrSfree _ f => f.wf
  | .wrSfill _ f => f.wf
  | .waitComplete _ => true
  | .waitTimeout _ => true
  | .mmLd _ f => f.wf
  | .mmBp _ f => f.wf
  | .mmFence _ f => f.wf
  | .fenceComplete _ => true
  | .weightLoadStart _ => true
  | .weightLoadDone _ => true
  | .passStart _ _ => true
  | .lastProductRetire _ => true
  | .setSwap _ => true
  | .drainRow _ _ => true
  | .ocTileWrite _ => true
  | .sumpDbgStart _ _ => true
  | .snapshotDone _ => true
  | .drainHoldWrite _ _ => true
  | .eePass _ f => f.wf
  | .eeAdd _ f => f.wf
  | .eeSub _ f => f.wf
  | .eeMul _ f => f.wf
  | .eeFma _ f => f.wf
  | .eeMin _ f => f.wf
  | .eeMax _ f => f.wf
  | .eeCmpEq _ f => f.wf
  | .eeCmpNe _ f => f.wf
  | .eeCmpLt _ f => f.wf
  | .eeCmpLe _ f => f.wf
  | .eeSel _ f => f.wf
  | .eeAbs _ f => f.wf
  | .eeNeg _ f => f.wf
  | .eeRsh _ f => f.wf
  | .eeCvt _ f => f.wf
  | .eeRcp _ f => f.wf
  | .eeRsq _ f => f.wf
  | .eeEx2 _ f => f.wf
  | .eeLg2 _ f => f.wf
  | .eeLmul _ f => f.wf
  | .eeLdiv _ f => f.wf
  | .eeLexp _ f => f.wf
  | .eeGather _ f => f.wf
  | .eeChain _ f => f.wf
  | .eeUload _ f => f.wf
  | .ruCount _ f => f.wf
  | .ruSum _ f => f.wf
  | .ruSumsq _ f => f.wf
  | .ruMv _ f => f.wf
  | .ruMvp _ f => f.wf
  | .ruMvf _ f => f.wf
  | .ruMax _ f => f.wf
  | .ruMin _ f => f.wf
  | .ruArgmax _ f => f.wf
  | .ruArgmin _ f => f.wf
  | .ruLsum _ f => f.wf
  | .qzCbk _ f => f.wf
  | .qzSurvey _ f => f.wf
  | .qzQuant _ f => f.wf
  | .qzOpt _ f => f.wf
  | .pwHint _ f => f.wf
  | .pwPref _ f => f.wf
  | .pwEnergy _ f => f.wf
  | .cxAllreduce _ f => f.wf
  | .cxReducescatter _ f => f.wf
  | .cxAllgather _ f => f.wf
  | .cxBroadcast _ f => f.wf
  | .cxBarrier _ f => f.wf
  | .collectiveComplete _ peers => ranksDistinct peers
  | .spOpen _ f => f.wf
  | .spAdd _ f => f.wf
  | .spFlush _ f => f.wf
  | .spMerge _ f => f.wf
  | .launchCommit _ _ => true
  | .taskStart _ => true
  | .taskEnd _ => true
  | .seqCtlFlush _ => true
  | .seqCtlAbort _ => true
  | .seqCtlResume _ => true
  | .resClaimClaim _ _ => true
  | .resClaimRelease _ _ => true
  | .terpTagOp _ _ => true
  | .tagOpDone _ => true
  | .terpBankCtlWrite _ _ _ => true
  | .bankReady _ _ => true
  | .terpRwinCtlWrite _ _ _ => true
  | .weirAddWrite _ _ => true
  | .weirSetWrite _ _ => true
  | .weirThreshWrite _ _ => true
  | .weirCtlWrite _ _ => true
  | .weirUpdateArrival _ => true
  | .remotePacketArrival _ => true
  | .registerWrite _ _ _ => true
  | .fabricPacketForward _ _ _ arrivals _ => arrivals.all (fun a => a.2.wf)
  | .packetPromotion _ _ _ _ _ => true
  | .activityTimerExpire _ _ _ _ => true
  | .mscAccess _ _ x => x.errs.wf && x.others.all (fun y => y.errs.wf)
  | .mscCtlFlush _ => true
  | .flushDone _ => true
  | .mscRangeWrite _ _ _ _ => true
  | .refpb _ _ _ => true
  | .tempReportPoll _ _ => true
  | .wckDriftTracking _ _ => true
  | .patrolScrubRead _ errs => errs.wf
  | .spareCopyDone _ => true
  | .channelFailure _ _ => true
  | .terpPatrolScrub _ addr _ => addr.toNat < 0x16000000
  | .refetchDone _ slot => slot.toNat < 90112
  | .commandFrame _ fr => fr.wf
  | .heartbeatFrame _ fr => fr.wf
  | .ackFrame _ fr => fr.wf
  | .frameResendTimeout => true
  | .heartbeatIdleTimeout _ => true
  | .controlLinkLost => true
  | .jobOpen => true
  | .jobClose => true
  | .streamOpen => true
  | .streamClose => true
  | .statusRead => true
  | .modelLoad _ => true
  | .progBind plan => plan.wf
  | .progUnbind => true
  | .progRestart => true
  | .reqSubmit => true
  | .reqCancel => true
  | .trainStart => true
  | .trainStop => true
  | .statsRead => true
  | .streamPacketArrival pk => pk.wf
  | .streamDone _ => true
  | .streamCredit _ _ => true
  | .streamNak _ => true
  | .pnxSendGo _ => true
  | .streamSendDone => true
  | .streamLaneRetrain _ => true
  | .wilvarTrain _ lanes => lanes ≤ 16
  | .wilvarPeerExchange _ _ _ => true
  | .wilvarPacketArrival _ pk => pk.op.wf
  | .wilvarFlitReplay _ => true
  | .wakePatternRepeat _ => true
  | .syncExchange _ => true
  | .parentPortDown => true
  | .announceLocked _ a => a.kind == 1
  | .announceTarget _ a => a.kind == 2
  | .announceCap _ a => a.kind == 3
  | .announceRelease _ a => a.kind == 4
  | .announceHalt _ a => a.kind == 5
  | .announceResume _ a => a.kind == 6
  | .epochBoundary _ => true
  | .currentReport _ _ => true
  | .limitWindowClose _ => true
  | .alertPulseEnd => true
  | .droopDetect _ => true
  | .droopRelease _ => true
  | .estimateIntervalClose railNj _ => railNj.length == 13
  | .bermStep _ _ => true
  | .a1Entry _ => true
  | .pmCtlS1Req => true
  | .pmCtlS2Req => true
  | .s1IdleTimeout => true
  | .wakeNAssert => true
  | .linkSignalDetect _ _ => true
  | .wake b => b.wf
  | .ganderSample _ _ _ => true
  | .tripRestart => true
  | .ganderCmpWrite _ _ => true
  | .ganderThrWrite _ _ => true
  | .microbatchBoundary _ _ rows => slotsDistinct rows
  | .herdFaultHandler _ => true
  | .eventLogSend => true
  | .trainStep _ _ => true
  | .rollback _ => true
  | .ckptCtlGo _ => true
  | .ckptCopyDone _ => true
  | .secDbgRevoke => true
  | .secDbgNewNonce _ => true
  | .debugToken _ _ => true
  | .mgtSbCfgWrite _ _ => true
  | .inputValid _ b => b.wf
  | .vinUndervoltage => true
  | .vinOvervoltage => true
  | .enInFall => true
  | .mrstN b => b.wf
  | .i3cSetdasa _ _ => true
  | .i3cEntdaa _ => true
  | .i3cSetnewda _ => true
  | .i3cRstdaa => true
  | .i3cGetpid => true
  | .i3cGetbcr => true
  | .i3cGetdcr => true
  | .i3cGetstatus => true
  | .i3cEnec _ => true
  | .i3cDisec _ => true
  | .i3cGetmwl => true
  | .i3cSetmwl _ => true
  | .i3cGetmrl => true
  | .i3cSetmrl _ => true
  | .pldmSensorRead _ => true
  | .pldmEnterS1 => true
  | .pldmEnterS2 => true
  | .pldmClearLockout => true
  | .pldmBurnDebugLock => true
  | .pldmFwUpdateImage image => image.wf
  | .pldmFwUpdateCalibration _ => true
  | .pldmSteppingRead => true
  | .getVersion => true
  | .getCapabilities => true
  | .negotiateAlgorithms _ _ => true
  | .getDigests => true
  | .getCertificate _ _ _ => true
  | .challenge _ _ => true
  | .getMeasurements _ _ _ => true
  | .tapBypass => true
  | .tapIdcode => true
  | .tapSamplePreload _ _ => true
  | .tapExtest => true
  | .tapClamp => true
  | .tapHighz => true
  | .wilvarPortDown _ => true
  | .flashWriteComplete => true
  | .powerStateEntryComplete => true
  | .unsupportedRequest _ => true

end Sys2Proof
end

