-- ==== Sys2Proof/Tests/Slice0.lean ====
section
/-! SUPPORT. Small states, tests on values of the manual, and for each statement with hypotheses the states that meet them. -/

namespace Sys2Proof.Tests

open Sys2Proof Sys2Proof.Machine

set_option Elab.async false

/-! ### Small states -/

/-- A module that runs, as after reset but powered and out of recovery. -/
def up : State := { State.reset with pm := { State.reset.pm with state := .run } }

/-- Base and bound of the tests: weirs 0 to 479; 64 MiB of LPDDR5X from 0, and the scratchpad of polder 0, both readable and
writable (11 Table 11-4). -/
def bnd : BitVec 832 :=
  BitVec.ofNat 832 (480 * 2 ^ 16 + 2 ^ 64 * (0x4000 * 2 ^ 64 + 3 * 2 ^ 96)
    + 2 ^ 192 * (0x10000000000 + 0x16000 * 2 ^ 64 + 3 * 2 ^ 96))

/-- Scalar registers from a list. -/
def sregs (l : List (Nat × U64)) : Vector U64 32 := Vector.ofFn (fun k => (l.lookup k.val).getD 0)
/-- Descriptor registers from a list. -/
def dregs (l : List (Nat × DescWord)) : Vector DescWord 16 := Vector.ofFn (fun k => (l.lookup k.val).getD 0)
/-- Vector registers from a list. -/
def vregs (l : List (Nat × BitVec 2048)) : Vector (BitVec 2048) 32 := Vector.ofFn (fun k => (l.lookup k.val).getD 0)

/-- A task at the start of 4 KiB of code at level 3, fill count 4, masks all ones (09 Table 9-3). -/
def task (s : List (Nat × U64) := []) (d : List (Nat × DescWord) := []) (v : List (Nat × BitVec 2048) := []) : Task :=
  { launch := 0, stage := ⟨0x2000, 0x1000, 4, 3, 0, 0, 0⟩, fill := 4, pc := 0, s := sregs s, d := dregs d, v := vregs v,
    m := Vector.replicate 8 (BitVec.allOnes 128) }

/-- Polder 0 of a running module with a task. -/
def withTask (t : Task) (s : State := up) : State :=
  s.onPolder 0 (fun P => { P with task := some t, terp := { P.terp with bnd } })

/-- A descriptor of KIND, WIDTH, base, extents and row stride in bytes; rank 2 where e1 is above 1 (09 Tables 9-4, 9-5). -/
def desc (kind width base e0 : Nat) (e1 : Nat := 1) (st1 : Nat := 0) (fmt : Nat := 0) (aux : Nat := 0) : DescWord :=
  BitVec.ofNat 512 (base + 2 ^ 64 * (kind * 2 ^ 60 + width * 2 ^ 55 + (if 1 < e1 then 2 ^ 42 else 0) + fmt) + 2 ^ 128 * e0
    + 2 ^ 160 * e1 + 2 ^ 192 + 2 ^ 224 + 2 ^ 256 * st1 + 2 ^ 448 * aux)

/-- Bytes put at an address. -/
def put (a : Nat) (bs : List Byte) (s : State) : State := s.putBytes a bs

/-- What is to be seen of the next state. -/
def seen {α : Type} (o : Host.Outcome State Fault Refusal) (f : State → α) : Option α :=
  match o with
  | .next r => some (f r)
  | _ => none

/-- Whether a check passes. -/
def ok {α : Type} (r : Res α) : Bool := match r with | .ok _ => true | .error _ => false

theorem canIssue (t : Task) (s : State) (ha : s.arithOn = true) (he : t.ending = false) (hw : t.wait = none) :
    CanIssue (withTask t s) 0 t :=
  ⟨ha, by rw [withTask, State.onPolder_polders_self], he, .inl hw⟩

/-- The scalar register `k` of polder 0's task. -/
def sOf (k : BitVec 5) (s : State) : Option U64 := s.polders[(0 : Pid)].task.map (·.sreg k)
/-- The pc of polder 0's task. -/
def pcOf (s : State) : Option U32 := s.polders[(0 : Pid)].task.map (·.pc)
/-- The fault code polder 0 took last, where it has halted (09 R205). -/
def faultOf (s : State) : Option Nat :=
  if s.polders[(0 : Pid)].seq.halted then some (s.polders[(0 : Pid)].seq.fault.toNat / 2 ^ 56) else none

/-- `CanIssue` as a Bool. -/
def can (s : State) (p : Pid) (t : Task) : Bool :=
  s.arithOn && decide (s.polders[p].task = some t) && !t.ending && decide (t.wait = none)
/-- `Accepts` as a Bool. -/
def acc (t : Task) (u : Use) (f : Fields) : Bool :=
  decide (t.pc.toNat + Fields.bytes f ≤ t.stage.codeLen.toNat) && u.legal t.stage.level.toNat f

theorem can_sound {s : State} {p : Pid} {t : Task} (h : can s p t = true) : CanIssue s p t := by
  simp only [can, Bool.and_eq_true, decide_eq_true_eq, Bool.not_eq_true'] at h
  exact ⟨h.1.1.1, h.1.1.2, h.1.2, .inl h.2⟩

theorem acc_sound {t : Task} {u : Use} {f : Fields} (h : acc t u f = true) : Accepts t u f := by
  simp only [acc, Bool.and_eq_true, decide_eq_true_eq] at h
  exact h

/-! ### Ill-formed commands are refused -/

theorem test_wf_short_has_no_word1 : Instr.wf (.ctlAdd 0 { w1 := 1 }) = false ∧ Instr.wf (.ctlLi 0 { long := true, w1 := 1 }) = true := by
  decide
theorem test_wf_ranks_distinct :
    (let sig : CxSig := ⟨0, 0, 0, 8, 4, 63, 0, 0⟩
     Instr.wf (.collectiveComplete 0 [⟨1, sig, 0, []⟩, ⟨1, sig, 0, []⟩]) = false
     ∧ Instr.wf (.collectiveComplete 0 [⟨0, sig, 0, []⟩, ⟨1, sig, 0, []⟩]) = true) := by decide
theorem test_wf_packet_payload :
    (let fwd := fun (len : BitVec 13) (addr : U64) (be : List U64) =>
       Instr.wf (.fabricPacketForward 0 .here 0 [(.here, ⟨1, 0, 1, .write, len, addr, be⟩)] (0, 0))
     fwd 4096 0x1000 (List.replicate 64 0) = true ∧ fwd 4096 0x1001 (List.replicate 64 0) = false ∧
     fwd 4160 0 (List.replicate 65 0) = false ∧ fwd 65 0 [0] = false ∧ fwd 64 0x1FC0 [0xFF] = true ∧
     fwd 64 0x1FC1 [0xFF] = false ∧ fwd 64 0x1FC0 [] = false) := by decide +kernel
theorem test_wf_scratch_address :
    Instr.wf (.terpPatrolScrub 0 0x16000000 .clean) = false ∧ Instr.wf (.terpPatrolScrub 0 0x15FFFFFF .clean) = true := by decide
theorem test_wf_slot : Instr.wf (.refetchDone 0 90112) = false ∧ Instr.wf (.refetchDone 0 90111) = true := by decide
theorem test_wf_frame_length :
    Instr.wf (.commandFrame false { type := 1, len := 4, seq := 0, cls := 0x40, tag := 0, payload := [] }) = false
    ∧ Instr.wf (.heartbeatFrame false { type := 3, len := 1, seq := 0, cls := 0, tag := 0, payload := [] }) = false
    ∧ Instr.wf (.ackFrame false { type := 2, len := 0, seq := 0, cls := 0, tag := 0, payload := [1] }) = false
    ∧ Instr.wf (.ackFrame false { type := 2, len := 0, seq := 0, cls := 0, tag := 0, payload := [] }) = true := by
  decide
theorem test_wf_stream_length :
    Instr.wf (.streamPacketArrival ⟨1, 0, 64, 0, 0, 0, 0, [], 0⟩) = false
    ∧ Instr.wf (.streamPacketArrival ⟨1, 0, 0, 0, 0, 0, 0, [], 0⟩) = false
    ∧ Instr.wf (.streamPacketArrival ⟨0, 0, 0, 0, 0, 0, 0, [], 0⟩) = true := by decide
theorem test_wf_lanes : Instr.wf (.wilvarTrain 0 17) = false ∧ Instr.wf (.wilvarTrain 0 16) = true := by decide
theorem test_wf_remote_write :
    Instr.wf (.wilvarPacketArrival 0 { dest := 0, source := 0, offset := 0, op := .read 4097, net := .request }) = false
    ∧ Instr.wf (.wilvarPacketArrival 0 { dest := 0, source := 0, offset := 0, op := .read 4096, net := .request }) = true := by
  decide
theorem test_wf_announcement_kind :
    Instr.wf (.announceLocked 0 ⟨2, 0, 0, 0, 0⟩) = false ∧ Instr.wf (.announceTarget 0 ⟨1, 0, 0, 0, 0⟩) = false
    ∧ Instr.wf (.announceCap 0 ⟨1, 0, 0, 0, 0⟩) = false ∧ Instr.wf (.announceRelease 0 ⟨1, 0, 0, 0, 0⟩) = false
    ∧ Instr.wf (.announceHalt 0 ⟨1, 0, 0, 0, 0⟩) = false ∧ Instr.wf (.announceResume 0 ⟨1, 0, 0, 0, 0⟩) = false
    ∧ Instr.wf (.announceHalt 0 ⟨5, 0, 0, 0, 0⟩) = true := by decide
theorem test_wf_rails : Instr.wf (.estimateIntervalClose [0] 0) = false
    ∧ Instr.wf (.estimateIntervalClose (List.replicate 13 0) 0) = true := by decide
theorem test_wf_boot : Instr.wf (.wake ⟨[], [], true, true, 16⟩) = false
    ∧ Instr.wf (.mrstN ⟨List.replicate 8 true, [], true, true, 16⟩) = true := by decide
theorem test_wf_logit_slots : Instr.wf (.microbatchBoundary 0 0 [⟨0, []⟩, ⟨0, []⟩]) = false
    ∧ Instr.wf (.microbatchBoundary 0 0 [⟨0, []⟩, ⟨1, []⟩]) = true := by decide
theorem test_wf_image : Instr.wf (.pldmFwUpdateImage ⟨[], []⟩) = false := by decide
theorem test_wf_header : Instr.wf (.pldmFwUpdateImage ⟨List.replicate 8192 0, []⟩) = true := by decide +kernel
theorem test_wf_line_errors :
    Instr.wf (.patrolScrubRead 0 { data := [(3, 1), (3, 1)] }) = false
    ∧ Instr.wf (.patrolScrubRead 0 { data := [(3, 1), (3, 2)], check := [0] }) = true := by decide

/-! ### ctl (10 R220, R221) -/

theorem witness_CtlResults :
    (let t := task [(1, 5), (2, 7)]
     can (withTask t) 0 t ∧ acc t {} {} ∧
     acc t { rd := .any, ra := .any, rb := .any } { rd := 3, ra := 1, rb := 2 } ∧
     acc t { rd := .any, ra := .any, rb := .any } { rd := 0, ra := 31, rb := 31 } ∧
     acc t { rd := .any, ra := .any, imm := BitVec.allOnes 29 } { rd := 3, ra := 1, imm := 0x1FFFFFFF } ∧
     acc t { rd := .any, ra := .any, imm := 0x3F } { rd := 3, ra := 1, imm := 63 } ∧
     acc t { rd := .any } { rd := 3 } ∧ acc t { long := true, rd := .any, w1 := BitVec.allOnes 64 } { long := true, rd := 3, w1 := 1 }) := by
  decide +kernel

/-- A branch to the last word of the code, one past it, one before the code; taken and not. -/
theorem witness_CtlResults_branches :
    (let t := task [(1, 5), (2, 7)]
     let far := { t with pc := 8 }
     can (withTask far) 0 far ∧ acc far { imm := BitVec.allOnes 29 } { imm := 0x1FE } ∧
     acc far { imm := BitVec.allOnes 29 } { imm := 0x1FF } ∧ acc far { imm := BitVec.allOnes 29 } { imm := 0x1FFFFFFE } ∧
     acc far { ra := .any, rb := .any, imm := BitVec.allOnes 29 } { ra := 1, rb := 2, imm := 1 } ∧
     (8 + 8 * (0x1FE : BitVec 29).toInt = 0xFF8 ∧ 8 + 8 * (0x1FF : BitVec 29).toInt = 0x1000 ∧
      8 + 8 * (0x1FFFFFFE : BitVec 29).toInt = -8) ∧ t.sreg 1 ≠ t.sreg 2) := by decide +kernel

theorem test_ctlAdd_wraps :
    seen (exec (.ctlAdd 0 { rd := 3, ra := 1, rb := 2 }) (withTask (task [(1, 0xFFFFFFFFFFFFFFFF), (2, 2)]))) (sOf 3)
      = some (some 1) := by decide +kernel
theorem test_ctlSub_wraps :
    seen (exec (.ctlSub 0 { rd := 3, ra := 1, rb := 2 }) (withTask (task [(1, 1), (2, 2)]))) (sOf 3)
      = some (some 0xFFFFFFFFFFFFFFFF) := by decide +kernel
theorem test_ctlSra_negative :
    seen (exec (.ctlSra 0 { rd := 3, ra := 1, rb := 2 }) (withTask (task [(1, 0x8000000000000000), (2, 65)]))) (sOf 3)
      = some (some 0xC000000000000000) := by decide +kernel
theorem test_s0_discards_writes :
    seen (exec (.ctlAdd 0 { rd := 0, ra := 1, rb := 1 }) (withTask (task [(1, 2)]))) (fun s => (sOf 0 s, pcOf s))
      = some (some 0, some 8) := by decide +kernel
theorem test_ctlLi_long :
    seen (exec (.ctlLi 0 { long := true, rd := 3, w1 := 0x123456789ABCDEF0 }) (withTask (task []))) (fun s => (sOf 3 s, pcOf s))
      = some (some 0x123456789ABCDEF0, some 16) := by decide +kernel
theorem test_ctlBltu_unsigned :
    seen (exec (.ctlBltu 0 { ra := 1, rb := 2, imm := 4 }) (withTask (task [(1, 1), (2, 0xFFFFFFFFFFFFFFFF)]))) pcOf = some (some 32)
    ∧ seen (exec (.ctlBlt 0 { ra := 1, rb := 2, imm := 4 }) (withTask (task [(1, 1), (2, 0xFFFFFFFFFFFFFFFF)]))) pcOf = some (some 8) := by
  decide +kernel
theorem test_ctlJmp_outside_faults :
    seen (exec (.ctlJmp 0 { imm := 0x1FFFFFFF }) (withTask (task []))) faultOf = some (some 0x08) := by decide +kernel
theorem test_mask_field_of_ctl_faults :
    seen (exec (.ctlAdd 0 { mask := 1 }) (withTask (task []))) faultOf = some (some 0x01) := by decide +kernel

theorem witness_Timers :
    (let t := task [(1, 100)]
     let s := withTask t
     let f : Fields := { rd := 3, ra := 1, imm := BitVec.ofNat 29 (15 + 479 * 64) }
     can s 0 t ∧ acc t { rd := .any, ra := .any, imm := 0x3FFFFF } f ∧ f.imm.toNat % 16 = (15 : Fin 16).val ∧ s.owner 87 = 0 ∧
     (s.setOwner 87 1).owner 87 = BitVec.ofNat 4 (t.stage.prog.val + 1) ∧ (s.setOwner 87 2).owner 87 ≠ 0 ∧
     (s.setOwner 87 2).owner 87 ≠ 1 ∧ can (s.setOwner 87 1) 0 t ∧
     weirGranted (s.polders[(0 : Pid)]).terp.bnd (f.imm.extractLsb' 6 16).toNat = true) := by decide +kernel

theorem witness_Timers_expiry :
    (let at_ := fun (armed : Bool) (tb : U64) =>
       { up.onTimer 15 (fun _ => { deadline := 100, weir := 3, armed, armedAt := 50 }) with tb }
     let due := fun (s : State) =>
       decide (s.timers[(15 : Fin 16)].armed = true ∧ s.timers[(15 : Fin 16)].deadline.toNat ≤ s.tb.toNat ∧
         s.timers[(15 : Fin 16)].armedAt.toNat < s.tb.toNat)
     (at_ true 100).arithOn = true ∧ due (at_ true 100) = true ∧ due (at_ true 99) = false ∧ due (at_ false 100) = false) := by
  decide +kernel

/-- The signal stands in the crossing, and the weir counts when it arrives. -/
theorem test_timer_signals_once :
    seen (exec (.timerExpiry 2) { up.onTimer 2 (fun _ => { deadline := 100, weir := 3, armed := true, armedAt := 50 }) with tb := 100 })
      (fun s => ((s.weir 3).count, s.flight, s.timers[(2 : Fin 16)].armed, s.timers[(2 : Fin 16)].expired,
        seen (exec (.weirUpdateArrival 3) s) (fun s => (s.weir 3).count))) = some (0, [(3, 1)], false, true, some 1) := by
  decide +kernel

/-! ### mv (10 R222, R223) -/

theorem witness_MvRegisterMoves :
    (let t := task [(1, 0x1234), (2, 200)]
     can (withTask t) 0 t ∧ acc t { rd := .any, ra := .any, imm := 0x7F } { rd := 3, ra := 31, imm := 127 } ∧
     acc t { rd := .any, ra := .any, mask := true, z := true } { rd := 31, ra := 1, mask := 7, z := true } ∧
     acc t { rd := .any, ra := .desc, imm := 7 } { rd := 3, ra := 15, imm := 7 } ∧
     acc t { rd := .desc, ra := .any, imm := 7 } { rd := 15, ra := 1, imm := 7 } ∧
     acc t { rd := .mask, ra := .mask, rb := .mask } { rd := 7, ra := 0, rb := 7 } ∧
     acc t { rd := .mask, ra := .mask } { rd := 0, ra := 7 } ∧ acc t { rd := .mask, ra := .any } { rd := 7, ra := 2 }) := by
  decide +kernel

theorem test_mvLane_zero_extends :
    seen (exec (.mvLane 0 { rd := 3, ra := 1, imm := 127 }) (withTask (task [] [] [(1, BitVec.ofNat 2048 (0x8001 * 2 ^ 2032))])))
      (sOf 3) = some (some 0x8001) := by decide +kernel
theorem test_mvMset_leading :
    seen (exec (.mvMset 0 { rd := 2, ra := 1 }) (withTask (task [(1, 3)])))
      (fun s => s.polders[(0 : Pid)].task.map (·.mreg 2)) = some (some 7) := by decide +kernel
theorem test_m0_reads_as_ones :
    seen (exec (.mvMnot 0 { rd := 2, ra := 0 }) (withTask (task [])))
      (fun s => s.polders[(0 : Pid)].task.map (fun t => (t.mreg 2, t.mreg 0))) = some (some (0, BitVec.allOnes 128)) := by
  decide +kernel

/-- A load and a store of each file: scalar, mask, descriptor and vector, at the last places of the region. -/
theorem witness_MvMemoryMoves :
    (let t := task [(1, 0x3FFFF00)]
     let s := withTask t
     let f := fun (k : Nat) => ({ rd := 5, ra := 1, imm := BitVec.ofNat 29 (k * 2 ^ 27) } : Fields)
     let g := fun (k : Nat) => ({ rb := 5, ra := 1, imm := BitVec.ofNat 29 (k * 2 ^ 27) } : Fields)
     can s 0 t ∧ ∀ k < 4, (let n := if k = 0 then 8 else if k = 1 then 16 else if k = 2 then 64 else 256
       isRegister 0x3FFFF00 = false ∧ 0x3FFFF00 % n = 0 ∧ ok (access s 0 false [(0x3FFFF00, n)] [(0x3FFFF00, n)]) ∧
       ok (access s 0 true [(0x3FFFF00, n)] [(0x3FFFF00, n)]) ∧
       acc t { rd := fileUse k, ra := .any, imm := BitVec.allOnes 29 } (f k) ∧
       acc t { ra := .any, rb := fileUse k, imm := BitVec.allOnes 29 } (g k))) := by decide +kernel

/-- BPE_CTL and the last of WEIR of the polder's own window, and DISC_VERSION. -/
theorem witness_MvMemoryMoves_registers :
    (let t := task [(1, 0x20000001000), (2, 0x20000021DFC), (3, 0x30000000000)]
     let s := withTask t
     can s 0 t ∧ place 0x20000001000 = .window 0 0x1000 ∧ weirOutside s 0 0x1000 = none ∧
     regAligned 0x1000 (·.wide) (windowRead s 0) = true ∧ place 0x20000021DFC = .window 0 0x21DFC ∧
     weirOutside s 0 0x21DFC = none ∧ regAligned 0x21DFC (·.wide) (windowRead s 0) = true ∧
     place 0x30000000000 = .control 0 ∧ regAligned 0 (·.wide) (discReg s.disc) = true ∧
     acc t { rd := .any, ra := .any, imm := BitVec.allOnes 29 } { rd := 4, ra := 1 } ∧
     acc t { ra := .any, rb := .any, imm := BitVec.allOnes 29 } { rb := 4, ra := 2 }) := by decide +kernel

theorem test_mvSt_little_endian :
    seen (exec (.mvSt 0 { ra := 1, rb := 2 }) (withTask (task [(1, 0x100), (2, 0x8877665544332211)])))
      (fun s => (s.byte 0x100, s.byte 0x107, s.byte 0x108)) = some (0x11, 0x88, 0) := by decide +kernel
theorem test_mvLd_misaligned_faults :
    seen (exec (.mvLd 0 { rd := 3, ra := 1 }) (withTask (task [(1, 0x104)]))) faultOf = some (some 0x0A) := by decide +kernel
theorem test_mvLd_outside_bound_faults :
    seen (exec (.mvLd 0 { rd := 3, ra := 1 }) (withTask (task [(1, 0x4000000)]))) faultOf = some (some 0x09) := by decide +kernel

/-- A byte copy of 0 and of 4 bytes, without and with a weir; a tensor copy of 0 and of 8 elements. -/
theorem witness_MoveEngineCopies :
    (let t := task [(1, 0x100), (2, 0x200), (3, 4), (4, 0)] [(1, desc 0 8 0x100 8), (2, desc 0 8 0x200 8), (3, desc 0 8 0x100 0)]
     let s := withTask t
     let f : Fields := { long := true, rd := 2, ra := 1, rb := 3, w1 := 479 }
     let g : Fields := { long := true, rd := 2, ra := 1, w1 := 0xFFFF }
     can s 0 t ∧ weirGranted (s.polders[(0 : Pid)]).terp.bnd 479 = true ∧
     acc t { rd := .any, ra := .any, rb := .any, long := true, w1 := 0xFFFF } f ∧
     acc t { rd := .any, ra := .any, rb := .any, long := true, w1 := 0xFFFF } { f with rb := 4, w1 := 0xFFFF } ∧
     ok (checkParts s 0 [(false, [(0x100, 4)]), (true, [(0x200, 4)])]) ∧
     ok (checkParts s 0 [(false, [(0x100, 0)]), (true, [(0x200, 0)])]) ∧
     acc t { rd := .desc, ra := .desc, long := true, w1 := 0xFFFF } g ∧
     (match readDesc s 0 t 1, readDesc s 0 t 2 with
      | .ok x, .ok y => copyAgrees x y && ok (checkParts s 0 (x.parts false ++ [(false, [])] ++ y.parts true ++ [(true, [])]))
          && x.hdr == 0
      | _, _ => false) = true ∧
     (match readDesc s 0 t 3 with
      | .ok x => copyAgrees x x && x.e0 * x.e1 * x.e2 * x.e3 == 0
          && ok (checkParts s 0 (x.parts false ++ [(false, [])] ++ x.parts true ++ [(true, [])]))
      | _ => false) = true) := by decide +kernel

/-- A byte copy under way between two slots of a scratchpad. -/
def copying : State := { up with transfers := [⟨5, 0, 0, 0, 4, .bytes 0x10000000000 0x10000001000 16, 7⟩] }

theorem witness_MoveEngineCopies_complete :
    copying.pm.state = .run ∧ copying.transfers.find? (fun y => y.id == 5) = some ⟨5, 0, 0, 0, 4, .bytes 0x10000000000 0x10000001000 16, 7⟩
    ∧ (let src := slotsOf [(0x10000000000, 16)]
       let dst := slotsOf [(0x10000001000, 16)]
       ok (gate (copying.wakeSlots (src ++ dst)) false src) ∧ ok (gate (copying.wakeSlots (src ++ dst)) true dst)) := by
  decide +kernel

theorem test_moveComplete_copies_and_signals :
    seen (exec (.moveComplete 5) (put 0x10000000000 [1, 2, 3] copying))
      (fun s => (s.byte 0x10000001002, (s.weir 7).count, s.transfers.length)) = some (3, 1, 0) := by decide +kernel

/-! ### wr, waits and weirs (10 R224, R229; 11 R250-R260) -/

/-- Weirs 0 and 479 of polder 0 and the first of polder 1, slots 0 and 90,111, a weir window of this member. -/
theorem witness_WrResults :
    (let t := task [(1, 479), (2, 0), (3, 0x8000000000000004), (4, 90111)]
     let s := (withTask t).onTerp 0 (fun T =>
       { T with windows := T.windows.set 0 { T.windows[0] with isOpen := true, weirs := true, size := 2 } })
     let f : Fields := { ra := 1, imm := BitVec.ofNat 29 (4095 * 65536) }
     can s 0 t ∧ weirGranted (s.polders[(0 : Pid)]).terp.bnd 479 = true ∧ f.imm.toNat / 65536 % 4096 ≠ 0 ∧
     ((t.sreg 1).toNat + f.imm.toNat % 65536) % 65536 = 479 ∧ weirHome 479 = some 0 ∧ weirHome 480 = some 1 ∧
     acc t { ra := .any, imm := 0x0FFFFFFF } f ∧ acc t { rd := .any, ra := .any, imm := 0xFFFF } { rd := 5, ra := 1 } ∧
     acc t { ra := .any, rb := .any, imm := 0xFFFF } { ra := 1, rb := 2, imm := 1 } ∧
     meets (s.weir 479).count ((t.sreg 2).setWidth 32) = true ∧ meets (s.weir 479).count 1 = false ∧
     acc t { ra := .any, imm := 0x0FFF0000 } { ra := 3, imm := 0x10000 } ∧ place 0x8000000000000004 ≠ .unmapped ∧
     weirWindowOpen s 0x8000000000000004 = true ∧ acc t { ra := .any, imm := 0x1FFFF } { ra := 4 } ∧
     (∀ n ∈ [0, 90111], n < 90112 ∧ (bounds (s.polders[(0 : Pid)]).terp.bnd).any (fun b =>
       b.covers false (scratchAddr 0 (4096 * n)) 4096 || b.covers true (scratchAddr 0 (4096 * n)) 4096) = true ∧
       s.tag 0 n = false ∧ (s.setTag 0 n true).tag 0 n = true) ∧
     (let ended := (s.setTag 0 90111 true).onTerp 0 (fun T => { T with ended := [90111] })
      can ended 0 t ∧ ended.tag 0 90111 = true ∧ 90111 ∈ (ended.polders[(0 : Pid)]).terp.ended ∧
      90111 ∉ (s.polders[(0 : Pid)]).terp.ended)) := by decide +kernel

theorem test_wrSignal_increment :
    seen (exec (.wrSignal 0 { ra := 1, imm := BitVec.ofNat 29 (3 * 65536 + 2) }) (withTask (task [(1, 5)])))
      (fun s => ((s.weir 7).count, (s.weir 5).count)) = some (3, 0) := by decide +kernel
theorem test_wrSignal_zero_is_illegal :
    seen (exec (.wrSignal 0 { ra := 1 }) (withTask (task []))) faultOf = some (some 0x01) := by decide +kernel
theorem test_wrRead_outside_claim :
    seen (exec (.wrRead 0 { rd := 3, ra := 1 }) (withTask (task [(1, 480)]))) faultOf = some (some 0x17) := by decide +kernel

/-- A load of 16 positions of one column of INT8 weights at 0x1000. -/
def aLoad : LoadReq := ⟨0, 0, 1, desc 0 8 0x1000 16, 0, 0, 16, 0, 1, 0, 8⟩

/-- A task that waits. -/
def waiting (k : WaitKind) (limit : U32 := 0) (s : State := up) : State :=
  withTask { task [] with wait := some ⟨k, 0⟩, stage := { (task []).stage with waitLimit := limit } } s

theorem witness_WaitsComplete :
    (let t := task []
     let idle := withTask t
     let busy := idle.onPolder 0 (fun P => { P with arr := { P.arr with loads := [aLoad] } })
     can idle 0 t ∧ acc t {} {} ∧ arrayIdle (idle.polders[(0 : Pid)]) = true ∧ arrayIdle (busy.polders[(0 : Pid)]) = false ∧
     can busy 0 t) := by decide +kernel

/-- Each kind of wait, met and not met, before, at and after its limit. -/
theorem witness_WaitsComplete_limits :
    (∀ k ∈ ([.weir 5 1, .weir 480 1, .slot 90111, .fence, .access 0 3 true] : List WaitKind),
      (waiting k).arithOn = true ∧ ((waiting k).polders[(0 : Pid)]).task.bind Task.wait = some ⟨k, 0⟩) ∧
    (waitMet (waiting (.weir 5 1)) 0 (.weir 5 1) = false ∧ waitMet (waiting (.weir 5 0)) 0 (.weir 5 0) = true) ∧
    (waitMet (waiting (.slot 90111)) 0 (.slot 90111) = false ∧
      waitMet ((waiting (.slot 90111)).setTag 0 90111 true) 0 (.slot 90111) = true) ∧
    waitMet (waiting .fence) 0 .fence = true ∧
    waitMet ((waiting .fence).onPolder 0 (fun P => { P with arr := { P.arr with loads := [aLoad] } })) 0 .fence = false ∧
    (let passed := fun (s : State) (limit : Nat) => decide (s.holdWaits = false ∧ limit ≠ 0 ∧ 0 + 1000 * limit ≤ s.tb.toNat)
     waitNow up 0 (.weir 5 0) = true ∧ waitNow up 0 (.weir 480 0) = false ∧ waitNow up 0 (.access 0 3 true) = false ∧
     waitNow up 0 (.access 0 3 false) = true ∧ passed { up with tb := 2000 } 2 = true ∧ passed { up with tb := 1999 } 2 = false ∧ passed { up with tb := 2000 } 0 = false ∧
     passed { up with tb := 2000, holdWaits := true } 2 = false) := by decide +kernel

theorem witness_WaitsComplete_elsewhere :
    (let s := waiting (.weir 480 1)
     let w : State := { s with watches := [⟨0, 480, 1, true⟩] }
     weirHome 480 ≠ some 0 ∧ weirHome 479 = some 0 ∧ (∃ x ∈ w.watches, x.p = 0 ∧ x.sent = true) ∧
     (∀ x ∈ s.watches, x.p = (0 : Pid) → x.sent = false)) := by decide +kernel

/-- A wait on a weir of another polder leaves a watch there, and goes on when its notice is sent. -/
theorem test_wrWait_elsewhere_watches :
    (let s := (withTask (task [(1, 480), (2, 1)])).onTerp 0 (fun T => { T with bnd := BitVec.ofNat 832 (480 + 480 * 2 ^ 16) })
     seen (exec (.wrWait 0 { ra := 1, rb := 2 }) s) (fun s => (s.watches, pcOf s)) = some ([⟨0, 480, 1, false⟩], some 0)) ∧
    seen (exec (.waitComplete 0) { waiting (.weir 480 1) with watches := [⟨0, 480, 1, true⟩] }) (fun s => (s.watches, pcOf s))
      = some ([], some 8) := by decide +kernel

theorem test_waitTimeout_names_the_weir :
    seen (exec (.waitTimeout 0) { waiting (.weir 5 1) 2 with tb := 2000 })
      (fun s => s.polders[(0 : Pid)].seq.fault) = some 0x1800000000000005 := by decide +kernel
theorem test_waitComplete_goes_on :
    seen (exec (.waitComplete 0) (waiting (.weir 5 1))) pcOf = some (some 0)
    ∧ seen (exec (.waitComplete 0) ((waiting (.weir 5 1)).weirAdd 5 1)) pcOf = some (some 8) := by decide +kernel

theorem witness_WeirUpdates :
    up.pm.state = .run ∧ up.arithOn = true ∧ up.flight.find? (fun x => x.1 == 16383) = none ∧
    (let s : State := { up with flight := [(0, 1), (16383, 4), (16383, 2)] }
     s.arithOn = true ∧ s.flight.find? (fun x => x.1 == (16383 : Fin 16384).val) = some ((16383 : Fin 16384).val, 4)) := by
  decide +kernel

/-- "A weir meets its threshold when (COUNT − THRESH) mod 2^32 is below 2^31" (11 R255). -/
theorem test_weir_meets :
    meets 0 0 = true ∧ meets 0x7FFFFFFF 0 = true ∧ meets 0x80000000 0 = false ∧ meets 0 1 = false ∧ meets 2 0xFFFFFFFF = true := by
  decide +kernel
theorem test_weir_notifies_once :
    seen (exec (.weirAddWrite 9 1) (up.putWeir 9 ⟨0, 1, true, false⟩)) (fun s => (s.weir 9, s.notices)) = some (⟨1, 1, true, true⟩, [9])
    ∧ seen (exec (.weirAddWrite 9 1) (up.putWeir 9 ⟨1, 1, true, false⟩)) (fun s => (s.weir 9).count) = some 2 := by decide +kernel

/-! ### The sequencer, tasks and faults (09 R194-R211) -/

/-- A queue of n records at polder 0. -/
def queued (n : Nat) (s : State := up) : State :=
  s.onPolder 0 (fun P => { P with seq := { P.seq with queue := List.replicate n 0 } })

theorem witness_SequencerCommands :
    up.pm.state = .run ∧ up.tapHolds = false ∧ ((queued 7).polders[(0 : Pid)]).seq.queue.length < 8 ∧
    8 ≤ ((queued 8).polders[(0 : Pid)]).seq.queue.length ∧ (up.polders[(0 : Pid)]).task = none ∧
    (let t := { task [] with launch := BitVec.ofNat 512 (0x2000000 * 2 ^ 192) }
     ((withTask t).polders[(0 : Pid)]).task = some t ∧ lField t.launch 24 8 = 0x2000000 ∧ inMemory 0x2000000 32 = true ∧
     ok (gate (withTask t) true (compSlots t.launch))) ∧
    (let t := { task [] with launch := BitVec.ofNat 512 (0x10000000000 * 2 ^ 192) }
     let s := (withTask t).onTerp 0 (fun T => { T with banks := T.banks.set 0 { T.banks[(0 : Fin 44)] with busy := true } })
     (s.polders[(0 : Pid)]).task = some t ∧ ok (gate s true (compSlots t.launch)) = false) := by
  decide +kernel

theorem test_ninth_record_is_refused :
    seen (exec (.launchCommit 0 0) (queued 8)) (fun s => (s.polders[(0 : Pid)].seq.queue.length, s.polders[(0 : Pid)].seq.refused))
      = some (8, true)
    ∧ seen (exec (.launchCommit 0 0) (queued 7)) (fun s => (s.polders[(0 : Pid)].seq.queue.length, s.polders[(0 : Pid)].seq.refused))
      = some (8, false) := by decide +kernel
theorem test_abort_does_not_halt :
    seen (exec (.seqCtlAbort 0) (withTask (task [])))
      (fun s => (s.polders[(0 : Pid)].task, s.polders[(0 : Pid)].seq.halted, s.polders[(0 : Pid)].seq.tasks)) = some (none, false, 0) := by
  decide +kernel

/-- A stage record at 0 of code at 0x2000, 4 KiB, fill bound 4, level 1 (09 Table 9-2). -/
def stageBytes : List Byte := leBytes 8 0x2000 ++ leBytes 4 0x1000 ++ leBytes 4 4 ++ [1, 0, 0, 0] ++ leBytes 4 0

/-- A record of program 0 that signals no weir: FLAGS, ENTRY_PC and FILL given (09 Table 9-7). -/
def launchOf (flags fill pc : Nat) : BitVec 512 :=
  BitVec.ofNat 512 (1 + flags * 2 ^ 24 + pc * 2 ^ 64 + fill * 2 ^ 96 + 0xFFFFFFFF * 2 ^ 128)

/-- Polder 0, owned by program 0, idle, with one record queued and the stage record in place. -/
def ready (l : BitVec 512) : State :=
  ((put 0 stageBytes up).setOwner 0 1).onPolder 0 (fun P => { P with seq := { P.seq with queue := [l] } })

/-- A record that starts, one refused, FILL at and above the bound, FILL 0 and FILL_BOUND 0. -/
theorem witness_TaskLifecycle_start :
    (let idle := fun (s : State) => s.arithOn && decide ((s.polders[(0 : Pid)]).task = none) && !(s.polders[(0 : Pid)]).seq.halted
       && !workLeft s 0
     let form := fun (l : BitVec 512) => launchFormat (ready l) 0 l (stageRec (ready l) 0)
     idle (ready (launchOf 0 0 0)) = true ∧ form (launchOf 0 0 0) = none ∧ form (launchOf 1 4 0xFF8) = none ∧
     form (launchOf 0 0 0x1000) = some 8 ∧ form (launchOf 2 0 0) = some 3 ∧ form 0 = some 0 ∧
     (stageRec (ready 0) 0).fillBound = 4 ∧ lField (launchOf 1 4 0) 12 4 = 4 ∧ lField (launchOf 1 5 0) 12 4 = 5 ∧
     lField (launchOf 1 0 0) 12 4 = 0 ∧ lField (launchOf 1 5 0) 3 1 % 2 = 1) := by decide +kernel

theorem test_taskStart_registers :
    seen (exec (.taskStart 0) (ready (launchOf 1 3 0x10)))
      (fun s => (sOf 1 s, sOf 7 s, sOf 9 s, pcOf s, s.polders[(0 : Pid)].seq.queue.length)) = some (some 3, some 0, some 0, some 0x10, 0) := by
  decide +kernel
theorem test_fill_zero_ends_at_once :
    seen (exec (.taskStart 0) (ready (launchOf 1 0 0)))
      (fun s => (s.polders[(0 : Pid)].seq.tasks, s.polders[(0 : Pid)].task.isSome)) = some (1, false) := by decide +kernel
theorem test_fill_above_bound_faults :
    seen (exec (.taskStart 0) (ready (launchOf 1 5 0)))
      (fun s => (s.polders[(0 : Pid)].seq.fault, s.polders[(0 : Pid)].seq.faultPc)) = some (0x0400000000000005, 0xFFFFFFFF) := by
  decide +kernel

/-- A task that asked for its end: work left, a frame open, and done, without and with a record to write. -/
theorem witness_TaskLifecycle_end :
    (let t : Task := { task [] with ending := true, launch := BitVec.ofNat 512 (0xFFFFFFFF * 2 ^ 128 + 0x10000000000 * 2 ^ 192) }
     let s := withTask t
     let P := s.polders[(0 : Pid)]
     let idle := fun (s : State) => (let P := s.polders[(0 : Pid)]
       arrayIdle { P with sump := { P.sump with opened := none } } && !s.transfers.any (fun x => x.p == 0))
     P.task = some t ∧ idle s = true ∧ P.sump.opened = none ∧ ok (gate s true (slotsOf [(0x10000000000, 32)])) ∧
     inMemory 0x10000000000 32 = true ∧ lField t.launch 24 8 = 0x10000000000 ∧ lField t.launch 16 2 = 0xFFFF ∧
     lField t.launch 18 2 = 0xFFFF ∧ idle { s with transfers := [⟨0, 0, 0, 0, 4, .bytes 0 0 1, 0xFFFF⟩] } = false ∧
     (let o := s.onPolder 0 (fun P => { P with sump := { P.sump with opened := some { accX := false, m := 1, frames := [] } } })
      idle o = true ∧ ((o.polders[(0 : Pid)]).sump.opened).isSome = true)) := by decide +kernel

theorem test_taskEnd_counts :
    seen (exec (.taskEnd 0) (withTask { task [] with ending := true, launch := BitVec.ofNat 512 (3 * 2 ^ 128 + 0xFFFF * 2 ^ 144) }))
      (fun s => (s.polders[(0 : Pid)].seq.tasks, s.polders[(0 : Pid)].task.isSome, (s.weir 3).count, s.polders[(0 : Pid)].terp.bnd))
      = some (1, false, 1, 0) := by decide +kernel

theorem witness_TaskFaultEffects :
    (let t := { task [] with launch := BitVec.ofNat 512 (0x2000000 * 2 ^ 192) }
     let low : Task := { t with stage := { t.stage with level := 1 } }
     ((withTask t).polders[(0 : Pid)]).task = some t ∧ lField t.launch 24 8 = 0x2000000 ∧ 0x2000000 % 32 = 0 ∧
     inMemory 0x2000000 32 = true ∧ can (withTask t) 0 t ∧ t.pc.toNat + Fields.bytes ({ mask := 1 } : Fields) ≤ t.stage.codeLen.toNat ∧
     ok (gate (withTask t) true (compSlots t.launch)) ∧
     (let held := { task [] with launch := BitVec.ofNat 512 (0x10000000000 * 2 ^ 192) }
      let s := (withTask held).onTerp 0 (fun T => { T with banks := T.banks.set 0 { T.banks[(0 : Fin 44)] with busy := true } })
      (s.polders[(0 : Pid)]).task = some held ∧ ok (gate s true (compSlots held.launch)) = false) ∧
     (8 : BitVec 5).toNat > 7 ∧ (16 : BitVec 5).toNat > 15 ∧ (31 : BitVec 5).toNat % 2 = 1 ∧ can (withTask low) 0 low ∧
     low.stage.level.toNat < 2) := by decide +kernel

theorem test_fault_counts_and_halts :
    seen (exec (.mvMnot 0 { rd := 8 }) (withTask { task [] with pc := 16 }))
      (fun s => (s.polders[(0 : Pid)].seq.fault, s.polders[(0 : Pid)].seq.faultPc, s.polders[(0 : Pid)].seq.faults,
        s.polders[(0 : Pid)].task.isSome)) = some (0x0100000000000000, 16, 1, false) := by decide +kernel
theorem test_level_of_pw_and_sp :
    (let low : Task := { task [] with stage := { (task []).stage with level := 2 } }
     seen (exec (.spOpen 0 {}) (withTask low)) faultOf = some (some 0x01)
     ∧ seen (exec (.pwEnergy 0 {}) (withTask low)) faultOf = some none) := by decide +kernel

/-! ### Resources, banks, windows, registers (09 R207-R211; 11 R241-R265; 00 Table 0-2) -/

theorem witness_ResourceClaims :
    up.pm.state = .run ∧ (95 : Byte).toNat < 96 ∧ 96 ≤ (96 : Byte).toNat ∧ up.owner 95 = 0 ∧ up.owner 71 = 15 ∧
    (up.setOwner 0 3).owner 0 = 3 ∧ (3 : BitVec 4) ≠ 0 ∧ (3 : BitVec 4) ≠ 15 := by decide +kernel

theorem test_claim_held_by_claimant_is_refused :
    seen (exec (.resClaimClaim 3 0) (up.setOwner 0 3)) (fun s => (s.owner 0, s.res.result, s.res.refused)) = some (3, 1, 1) := by
  decide +kernel
theorem test_hardware_entry_is_never_released :
    seen (exec (.resClaimRelease 15 71) up) (fun s => (s.owner 71, s.res.result)) = some (15, 2) := by decide +kernel

/-- Tag operations outstanding and not; a busy bank; a bank changed while free, changed while covered, and left as it is. -/
theorem witness_BankAndTagControl :
    up.pm.state = .run ∧ (up.polders[(0 : Pid)]).terp.tagOp = none ∧
    ((up.onTerp 0 (fun T => { T with tagOp := some 0x8000010000001FFF })).polders[(0 : Pid)]).terp.tagOp = some 0x8000010000001FFF ∧
    (((up.wakeBank 0 43).polders[(0 : Pid)]).terp.banks[(43 : Fin 44)]).busy = true ∧
    rangeHeld up 0 (0x800000 * 43) 0x800000 = false ∧
    (let s := up.onTerp 0 (fun T => { T with windows := T.windows.set 3 { T.windows[3] with isOpen := true, base := 0x15FFF, size := 1 } })
     rangeHeld s 0 (0x800000 * 43) 0x800000 = true ∧ rangeHeld s 0 (0x800000 * 42) 0x800000 = false) ∧
    ((up.polders[(0 : Pid)]).terp.banks[(43 : Fin 44)]).prot = false ∧ (0xF : U32).getLsbD 0 = true := by
  decide +kernel

theorem test_bank_turned_off_reads_zero :
    seen (exec (.terpBankCtlWrite 0 0 8) (put 0x10000000000 [7] up))
      (fun s => (s.byte 0x10000000000, ((s.polders[(0 : Pid)]).terp.banks[(0 : Fin 44)]).power)) = some (0, 2) := by decide +kernel
theorem test_covered_bank_keeps_protection :
    seen (exec (.terpBankCtlWrite 0 43 1)
      (up.onTerp 0 (fun T => { T with windows := T.windows.set 3 { T.windows[3] with isOpen := true, base := 0x15FFF, size := 1 } })))
      (fun s => (((s.polders[(0 : Pid)]).terp.banks[(43 : Fin 44)]).prot, s.reply)) = some (false, .status 0x05) := by decide +kernel

/-- Windows: closed, open and blocked. -/
def opened (n : Fin 4) (x : Window) (s : State := up) : State := s.onTerp 0 (fun T => { T with windows := T.windows.set n x })

theorem witness_RemoteWindows :
    (let w : Window := { (up.polders[(0 : Pid)]).terp.windows[(0 : Fin 4)] with isOpen := true, wr := true, rd := true, base := 1, size := 1 }
     up.pm.state = .run ∧ mayOpen up 0 3 false = true ∧
     mayOpen (opened 0 w (opened 3 { w with isOpen := false })) 0 3 false = false ∧
     ((opened 0 w).polders[(0 : Pid)]).terp.windows[(0 : Fin 4)] = w) := by decide +kernel

theorem witness_RemoteWindows_packets :
    (let w : Window := { (up.polders[(0 : Pid)]).terp.windows[(0 : Fin 4)] with
       isOpen := true, wr := true, rd := true, base := 1, size := 1, arrWeir := 0xFFFF }
     let s := opened 0 w
     let l := fun (op : RemoteOp) (off : Nat) => ({ window := 0, offset := BitVec.ofNat 41 off, op, sender := none } : Landing)
     let tagged := s.onTerp 0 (fun T => { T with banks := T.banks.set 0 { T.banks[(0 : Fin 44)] with tags := true } })
     ok (gate ((tagged.setTag 0 1 true).wakeQuad 0) true (slotsOf [(scratchAddr 0 4096, 2)])) = false ∧
     scratchAddr 0 8190 + 2 ≤ 2 ^ 63 ∧
     packetOk s 0 (l (.write [1, 2] false) 4094) = true ∧ packetOk s 0 (l (.write [1, 2] false) 4095) = false ∧
     packetOk s 0 (l (.read 4096) 0) = true ∧ packetOk s 0 (l (.signal 1) 0) = false ∧
     packetOk (opened 0 { w with weirs := true }) 0 (l (.signal 1) 0) = true ∧
     ok (gate (s.wakeQuad 0) true (slotsOf [(scratchAddr 0 8190, 2)])) ∧
     ok (gate (s.wakeQuad 0) false (slotsOf [(scratchAddr 0 4096, 4096)])) ∧
     ((s.onTerp 0 (fun T => { T with landing := [l (.read 1) 0] })).polders[(0 : Pid)]).terp.landing = [l (.read 1) 0]) := by
  decide +kernel

theorem test_remote_write_lands :
    (let w : Window := { (up.polders[(0 : Pid)]).terp.windows[(0 : Fin 4)] with
       isOpen := true, wr := true, base := 1, size := 1, arrWeir := 0xFFFF }
     seen (exec (.remotePacketArrival 0) ((opened 0 w).onTerp 0 (fun T => { T with landing := [{ window := 0, offset := 2, op := .write [9] false, sender := none }] })))
       (fun s => (s.byte (0x10000000000 + 4098), ((s.polders[(0 : Pid)]).terp.windows[(0 : Fin 4)]).arr)) = some (9, 1)) := by
  decide +kernel

theorem witness_RegisterWriteRules :
    up.pm.state = .run ∧ regAt up (place 0x1FFFF) = none ∧ (regAt up (place 0x20000000021)).isSome = true ∧
    0x20000000021 % 4 ≠ 0 ∧ (match regAt up (place 0x20000001000) with | some r => r.real && !r.wide | none => false) = true ∧
    place 0x20000000020 = .window 0 0x20 ∧ place 0x20000000028 = .window 0 0x28 ∧ place 0x20001F00030 = .window 31 0x30 ∧
    place 0x20000001000 = .window 0 0x1000 ∧ place 0x20000007000 = .window 0 0x7000 ∧ place 0x20000004100 = .window 0 0x4100 ∧
    place 0x30000000000 = .control 0 ∧ place 0x300000003F8 = .control 0x3F8 ∧ place 0x31000400008 = .edge 0 0x400008 ∧
    place 0x32000020008 = .system 0x20008 ∧ place 0x32000060018 = .system 0x60018 := by decide +kernel

theorem test_bpe_ctl_keeps_two_bits :
    seen (exec (.registerWrite 0x20000001000 false 0xFFFFFFFF) up) (fun s => ((s.polders[(0 : Pid)]).bpe.ctl, s.reply))
      = some (3, .status 0) := by decide +kernel
theorem test_register_width_is_checked :
    seen (exec (.registerWrite 0x20000001000 true 3) up) (fun s => ((s.polders[(0 : Pid)]).bpe.ctl, s.reply)) = some (1, .status 6) := by
  decide +kernel

/-! ### Number formats and the element engine (02, 08) -/

/-- 02 R38 at its ties: 1/2, 3/2, 5/2 and −1/2 go to the even neighbour. -/
theorem test_rsh_ties_to_even : [rsh 1 1, rsh 3 1, rsh 5 1, rsh (-1) 1, rsh (-3) 1, rsh 7 2] = [0, 2, 2, 0, -2, 2] := by
  decide +kernel

theorem witness_AccumulatorRules :
    (0x80000000 < 2 ^ 32 ∧ accRead false 0x80000000 = .sentinel) ∧ (accRead false 0x80000001 = .val (-2147483647)) ∧
    (-(2 ^ 31 - 1 : Int) ≤ 2147483647 ∧ accRead false (accCode false (.val (2 ^ 31 - 1))) = .val (2 ^ 31 - 1)) ∧
    accAdd false (.val (2 ^ 31 - 1)) (.val 1) = .sentinel ∧ accAdd true (.val (2 ^ 31 - 1)) (.val 1) = .val (2 ^ 31) ∧
    accAdd true (.val (-(2 ^ 47 - 1))) (.val (-1)) = .sentinel := by decide +kernel

/-- Operands at the ends of INT16 and the sentinel 0x8000 (08 R161). -/
theorem witness_Int16Operations :
    (0x7FFF : BitVec 16) ≠ 0x8000 ∧ (0x8001 : BitVec 16) ≠ 0x8000 ∧
    native 1 1 0 none false 0x7FFF 1 0 = (0x7FFF, true) ∧ native 1 1 0 none false 0x8001 0xFFFF 0 = (0x8001, true) ∧
    native 2 1 0 none false 5 7 0 = (0xFFFE, false) ∧ native 3 1 0 none false 0x8000 0 0 = (0x8000, false) ∧
    native 14 1 1 none false 3 0 0 = (2, false) ∧ (native 8 1 0 none false 0x8000 0x8000 0).1 = 0xFFFF ∧
    (native 7 1 0 none false 0x8000 0x8000 0).1 = 0 := by decide +kernel

/-- NaN, the infinities and the two zeros (08 R160, R163). -/
theorem witness_Bf16SpecialCases :
    bfIsNan 0x7FC1 = true ∧ bfIsInf 0x7F80 = true ∧ bfIsInf 0xFF80 = true ∧ bfNeg 0x7F80 ≠ bfNeg 0xFF80 ∧ bfIsZero 0x8000 = true ∧
    bfIsNan 0xBF80 = false ∧ bfIsZero 0xBF80 = false ∧ bfNeg 0xBF80 = true ∧ bfIsZero 0 = true := by decide +kernel

/-- 1 + 1 = 2, 1 × 1.5 = 1.5, 1 − 1 = 0, the larger of −1 and 1, 1/2 and the root of 1/4 in BF16. -/
theorem test_bf16_values :
    (native 1 0 0 none false 0x3F80 0x3F80 0).1 = 0x4000 ∧ (native 3 0 0 none false 0x3F80 0x3FC0 0).1 = 0x3FC0 ∧
    (native 2 0 0 none false 0x3F80 0x3F80 0).1 = 0 ∧ (native 6 0 0 none false 0xBF80 0x3F80 0).1 = 0x3F80 ∧
    (native 16 0 0 none false 0x4000 0 0).1 = 0x3F00 ∧ (native 17 0 0 none false 0x4080 0 0).1 = 0x3F00 := by decide +kernel

/-- A format in which each operation of 08 Table 8-1 exists. -/
def fmtFor (op : Nat) : Nat := if op = 0x0E then 1 else if op = 0x14 ∨ op = 0x15 then 2 else 0

/-- Every operation in register form; a masked lane with .z; ee.cvt with SR. -/
theorem witness_EeRegisterForm :
    (let t := task []
     can (withTask t) 0 t ∧ (∀ op < 23, (let f : Fields := { rd := 1, ra := 2, z := true, mask := 7, imm := BitVec.ofNat 29 (fmtFor op) }
       eeForm f = 0 ∧ acc t (eeUse op f) f ∧ eeOpOk op f = true)) ∧
     (let f : Fields := { long := true, rd := 1, ra := 2, imm := BitVec.ofNat 29 (0x50), w1 := 0xF00000000 }
      acc t (eeUse 0x0F f) f ∧ eeOpOk 0x0F f = true ∧ cvtDraws 0x0F f = true)) := by decide +kernel

theorem test_eeAdd_int16_saturates :
    seen (exec (.eeAdd 0 { rd := 3, ra := 1, rb := 2, imm := 1 })
      (withTask (task [] [] [(1, BitVec.ofNat 2048 (0x7FFF * 2 ^ 16)), (2, BitVec.ofNat 2048 (2 ^ 16 + 5))])))
      (fun s => (s.polders[(0 : Pid)].task.map (fun t => (lane (t.vreg 3) 0, lane (t.vreg 3) 1)), s.polders[(0 : Pid)].ee.status))
      = some (some (5, 0x7FFF), 1) := by decide +kernel
theorem test_eeCmp_writes_a_mask :
    seen (exec (.eeCmpLt 0 { rd := 3, ra := 1, rb := 2, imm := 1 })
      (withTask (task [] [] [(1, BitVec.ofNat 2048 (2 ^ 16)), (2, BitVec.ofNat 2048 5)])))
      (fun s => s.polders[(0 : Pid)].task.map (·.mreg 3)) = some (some 1) := by decide +kernel

/-- Two INT16 tensors of 2 × 3 elements at 0x100 and 0x200, a destination at 0x300, a column of 3 elements at 0x400. -/
def eeTask : Task := task [] [(1, desc 0 16 0x100 2 3 4), (2, desc 0 16 0x200 2 3 4), (3, desc 0 16 0x300 2 3 4), (4, desc 0 16 0x400 3)]

/-- Whether a walk meets the checks of its tensors. -/
def eeMeets (f : Fields) (op : Nat) : Bool :=
  let s := withTask eeTask
  match readDesc s 0 eeTask f.ra, readDesc s 0 eeTask f.rd, readDesc s 0 eeTask 4 with
  | .ok A, .ok D, .ok C =>
    let a := Source.tensor f.ra A
    let b := if opUnary op then Source.none else if eeForm f = 2 then Source.row (eeTask.vreg f.rb)
      else if eeForm f = 3 then Source.column f.rb C else Source.tensor f.rb A
    let c := if op = 4 then Source.tensor f.rc A else Source.none
    let live := eeLive D [a, b, c] 4 (eeTask.mreg f.mask)
    can s 0 eeTask && acc eeTask (eeUse op f) f && eeOpOk op f && live.length == 6
    && ok (checkParts s 0 (a.parts ++ b.parts ++ c.parts ++ D.parts true))
    && [a, b, c].all (fun y => y.isFmt 1 && (y.misfit D).isNone && ok (gate s false (y.slots s D live)))
    && isFmt D (opResult op 1 0) && ok (gate s true (D.writeSlots live))
  | _, _, _ => false

/-- The descriptor form of one, two and three operands, row broadcast and column broadcast. -/
theorem witness_EeTensorForms :
    eeMeets { rd := 3, ra := 1, imm := 5 } 0x0D = true ∧ eeMeets { rd := 3, ra := 1, rb := 2, imm := 5 } 0x01 = true ∧
    eeMeets { rd := 3, ra := 1, rb := 2, rc := 2, imm := 5 } 0x04 = true ∧
    eeMeets { rd := 3, ra := 1, rb := 31, imm := 9 } 0x03 = true ∧ eeMeets { rd := 3, ra := 1, rb := 4, imm := 13 } 0x06 = true := by
  decide +kernel

theorem test_eeNeg_tensor :
    seen (exec (.eeNeg 0 { rd := 3, ra := 1, imm := 5 }) (put 0x104 [7, 0, 0xFE, 0xFF] (withTask eeTask)))
      (fun s => s.bytes 0x304 4) = some [0xF9, 0xFF, 2, 0] := by decide +kernel

/-- A packed INT4 tensor of two elements in one byte. -/
theorem witness_ElementReadsBack :
    (match readDesc (withTask eeTask) 0 (task [] [(1, desc 0 4 0x100 2)]) 1 with
     | .ok T => T.form ≤ 1 && T.layout ≤ 1 && !T.zstride0 && (T.putAt ⟨0, 0, 0, 0⟩).all (fun y => decide (y.1 < 2 ^ 63))
         && (T.bitsAt ⟨1, 0, 0, 0⟩).all (fun y => decide (y.1 < 2 ^ 63) && !(T.putAt ⟨0, 0, 0, 0⟩).contains y)
         && T.code (T.put up ⟨1, 0, 0, 0⟩ 0xA) ⟨1, 0, 0, 0⟩ == 0xA && (T.put up ⟨1, 0, 0, 0⟩ 0xA).byte 0x100 == 0xA0
     | _ => false) = true := by decide +kernel

/-- A planar INT4 line of two elements: the last one brings the padding of the 128-element group (02 R36). -/
theorem witness_ElementReadsBack_planar :
    (match readDesc (withTask eeTask) 0 (task [] [(1, desc 0 4 0x100 2 1 0 (2 ^ 53))]) 1 with
     | .ok T => T.form ≤ 1 && T.layout == 1 && !T.zstride0 && (T.padBits ⟨0, 0, 0, 0⟩).isEmpty
         && (T.padBits ⟨1, 0, 0, 0⟩).length == 4 * 254 && (T.putAt ⟨1, 0, 0, 0⟩).all (fun y => decide (y.1 < 2 ^ 63))
     | _ => false) = true := by decide +kernel

/-- The task of ee.gather, ee.chain and ee.uload: indices 0 to 3 in v2 and v3, an INT16 table of 4 at 0x100. -/
def gatherTask : Task := task [(1, 0x1000), (2, 0x2000)] [(1, desc 0 16 0x100 4)] [(2, BitVec.ofNat 2048 (3 * 2 ^ 32 + 2 * 2 ^ 16 + 1))]

theorem witness_GatherChainUload :
    (let t := gatherTask
     let s := withTask t
     let out := withTask { t with v := t.v.set 2 (BitVec.ofNat 2048 4) }
     can s 0 t ∧ acc t { level := 1, rd := .any, ra := .pair, rc := .desc, mask := true, z := true, imm := 3 } { rd := 5, ra := 2, rc := 1, imm := 1 } ∧
     (match readDesc s 0 t 1 with
      | .ok T => ok (checkParts s 0 (T.parts false)) && isFmt T 1 && T.e0 == 4
          && (List.range 128).all (fun l => pairLane t 2 l < T.e0)
          && ok (gate s false (T.readSlots s ((List.range 128).map (fun l => ⟨pairLane t 2 l, 0, 0, 0⟩))))
      | _ => false) = true ∧ pairLane { t with v := t.v.set 2 (BitVec.ofNat 2048 4) } 2 0 = 4 ∧ out.arithOn = true ∧
     acc t { level := 2, ra := .any, imm := 0xF } { ra := 1, imm := 15 } ∧ ok (access s 0 false [(0x1000, 2304)] [(0x1000, 2304)]) ∧
     (let c := chainImage s t 0x1000
      c.cbEn = false ∧ c.tapEn = false ∧ c.count ≤ 8 ∧ c.tapF ≤ 47 ∧ c.live.all (stageOk c 3) = true) ∧
     chainHeld (s.polders[(0 : Pid)]) 15 = false ∧
     acc t { level := 3, ra := .any, imm := 0x3FF } { ra := 2, imm := BitVec.ofNat 29 (16 * 32 + 31) } ∧
     ok (access s 0 false [(0x2000, 64)] [(0x2000, 64)]) ∧
     ((List.range 16).map (fun k => BitVec.ofNat 32 (s.num (0x2000 + 4 * k) 4))).all muOk = true ∧
     uprogHeld (s.polders[(0 : Pid)]) 31 = false ∧ muOk 1 = false) := by decide +kernel

/-- A chain image with a column broadcast and a tap, both on descriptor register 1. -/
theorem witness_GatherChainUload_chain :
    (let s := put 0x1007 [6] (put (0x1000 + 72) [1] (put (0x1000 + 136) [1] (withTask gatherTask)))
     let c := chainImage s gatherTask 0x1000
     c.cbEn = true ∧ c.tapEn = true ∧ 3 ≤ gatherTask.stage.level.toNat ∧ c.count ≤ 8 ∧ c.tapF ≤ 47 ∧
     (match readDesc s 0 gatherTask (((s.byte (0x1000 + 72)).setWidth 4).setWidth 5) with
      | .ok T => ok (checkParts s 0 (T.parts false)) && ok (checkParts s 0 (T.parts true))
      | _ => false) = true) := by decide +kernel

theorem test_eeGather_picks :
    seen (exec (.eeGather 0 { rd := 5, ra := 2, rc := 1, imm := 1 }) (put 0x100 [10, 0, 11, 0, 12, 0, 13, 0] (withTask gatherTask)))
      (fun s => s.polders[(0 : Pid)].task.map (fun t => (lane (t.vreg 5) 0, lane (t.vreg 5) 1, lane (t.vreg 5) 2, lane (t.vreg 5) 3)))
      = some (some (11, 12, 13, 10)) := by decide +kernel
theorem test_eeGather_index_faults :
    seen (exec (.eeGather 0 { rd := 5, ra := 2, rc := 1, imm := 1 })
      (withTask { gatherTask with v := gatherTask.v.set 2 (BitVec.ofNat 2048 (4 * 2 ^ 48)) }))
      (fun s => s.polders[(0 : Pid)].seq.fault) = some 0x1500000000000003 := by decide +kernel

/-! ### Reductions (08 R178-R184) -/

/-- Source, first result and second result of a reduction of two lines: formats and elements of a line. -/
def ruShapes (op : Nat) : (Nat × Nat × Nat) × (Nat × Nat) :=
  (if op = 5 then (0, 8, 64) else if op = 10 then (2, 8, 4) else (0, 16, 4),
   if op = 0 then (4, 0) else if op ≤ 2 then (5, 0) else if op = 3 ∨ op = 5 then (3, 16) else if op = 4 then (0, 8)
   else if op = 10 then (2, 8) else (0, 16))

/-- The task of a reduction: its tensors at 0x100, 0x1000 and 0x2000. -/
def ruTask (op : Nat) : Task :=
  let x := ruShapes op
  task [] [(1, desc x.1.1 x.1.2.1 0x100 x.1.2.2 2 128), (2, desc x.2.1 x.2.2 0x1000 (2 * ruWidth op)), (3, desc 3 16 0x2000 2)]

/-- Whether a reduction meets its checks. -/
def ruMeets (op : Nat) : Bool :=
  let t := ruTask op
  let s := withTask t
  let f : Fields := { rd := 2, ra := 1, rb := if ruTwo op then 3 else 0 }
  let imm := if op = 4 then 0x7FFFFF else if op = 1 ∨ op = 2 ∨ op = 3 then 0x7F else 1
  let use : Use := { level := if op = 10 then 3 else 2, rd := .desc, ra := .desc, rb := if ruTwo op then .desc else .unused, mask := true, imm }
  match readDesc s 0 t 1, readDesc s 0 t 2, readDesc s 0 t 3 with
  | .ok T, .ok D, .ok E =>
    let ls := linesOf s T 0 4 (t.mreg 0)
    can s 0 t && acc t use f && ls.length == 2 && lineCount T 0 == 2
    && ok (checkParts s 0 (T.parts false ++ D.parts true ++ (if ruTwo op then E.parts true else [])))
    && (op != 5 || ls.all (fun l => (recordsOf l).all (fun r => r.K == (totals (recordsOf l)).K && r.F == (totals (recordsOf l)).F)))
    && ruSourceOk op T && ruResultOk op T D && E.kind == .bf16 && D.e0 == 2 * ruWidth op && E.e0 == 2
    && ok (gate s false (T.readSlots s (T.liveIx 4 (t.mreg 0)))) && ok (gate s true (D.lineSlots 4 (ruWidth op) [0, 1]))
    && ok (gate s true (E.lineSlots 4 1 [0, 1]))
  | _, _, _ => false

theorem witness_RuCompletes : ∀ op < 11, ruMeets op = true := by decide +kernel

theorem test_ruSum :
    seen (exec (.ruSum 0 { rd := 2, ra := 1 }) (put 0x100 [1, 0, 2, 0, 3, 0, 0xFF, 0xFF] (withTask (ruTask 1))))
      (fun s => (s.num 0x1000 8, s.num 0x1008 8, s.polders[(0 : Pid)].ru.lines)) = some (5, 0, 2) := by decide +kernel
theorem test_ruArgmax_lowest_position :
    seen (exec (.ruArgmax 0 { rd := 2, ra := 1 }) (put 0x100 [1, 0, 9, 0, 9, 0, 0, 0] (withTask (ruTask 8))))
      (fun s => (s.num 0x1000 2, s.num 0x1002 2)) = some (1, 0) := by decide +kernel

/-- A line of INT16 codes with a masked place, and an empty line. -/
theorem witness_RuLineResults :
    (match readDesc (withTask (ruTask 1)) 0 (ruTask 1) 1, readDesc (withTask (ruTask 1)) 0 (ruTask 1) 2 with
     | .ok T, .ok D => T.kind == .int && T.entryW == 16 && D.kind == .accx
     | _, _ => false) = true ∧
    (let l : Line := ⟨true, [some 5, none, some 0xFFFF]⟩
     l.vals = [5, 0xFFFF] ∧ (∀ c ∈ l.vals, c < 65536 ∧ c ≠ 0x8000) ∧ (l.vals.length : Int) * (32767 * 32767) ≤ 2 ^ 47 - 1) ∧
    (⟨true, [none]⟩ : Line).vals = [] := by decide +kernel

/-! ### Quantisation, collectives and the spillway (06, 07, 14) -/

/-- A side record of scales and second-level scales (09 Table 9-6). -/
def sideBytes (scales s2 : Nat) (tstride tileM : Nat := 0) : List Byte :=
  leBytes 8 0 ++ leBytes 4 tstride ++ leBytes 2 tileM ++ leBytes 2 0 ++ leBytes 8 scales ++ leBytes 8 s2

/-- Tensors of 32 elements: BF16 and INT8 sources at 0x1000 and 0x1800, one BF16 limit at 0x2000, a surveyed INT8 target at 0x3000
with its side record at 0x600, a plain INT8 target, a tiled one with its side record at 0x640, and those of qz.opt. -/
def qzTask : Task := task [(1, 0x8000)]
  [(1, desc 3 16 0x1000 32), (2, desc 3 16 0x2000 1), (3, desc 0 8 0x3000 32 1 0 (2 ^ 47) 0x600), (4, desc 0 8 0x4000 32),
   (5, desc 0 8 0x5000 32 1 0 (2 * 2 ^ 53) 0x640), (6, desc 0 8 0x1800 32), (7, desc 7 8 0x6000 32), (8, desc 2 8 0x6800 32),
   (9, desc 0 16 0x7000 32)]
def qzState : State := withTask qzTask (put 0x600 (sideBytes 0x700 0x800) (put 0x640 (sideBytes 0 0 160 1) up))

theorem witness_QzCompletes_codebook :
    can qzState 0 qzTask = true ∧ bankInUse (qzState.polders[(0 : Pid)]) 1 = false ∧
    acc qzTask { level := 2, ra := .any, imm := 0xFFFF } { ra := 1, imm := BitVec.ofNat 29 (1 + 2 * 1024) } ∧
    acc qzTask { level := 2, ra := .any, imm := 0xFFFF } { ra := 1, imm := BitVec.ofNat 29 (2 ^ 15 + 16 * 1024 + 3) } ∧
    ok (access qzState 0 false [(0x8000, 32)] [(0x8000, 32)]) ∧ ok (access qzState 0 false [(0x8000, 512)] [(0x8000, 512)]) := by
  decide +kernel

theorem test_identity_codebook :
    seen (exec (.qzCbk 0 { imm := BitVec.ofNat 29 (2 ^ 15 + 8 * 1024) }) qzState)
      (fun s => ((s.polders[(0 : Pid)]).qz.banks[(0 : Fin 2)]).width) = some 8 := by decide +kernel

theorem witness_QzCompletes_survey :
    acc qzTask { level := 2, rd := .desc, ra := .desc, rb := .desc, mask := true, imm := 0xFFFF } { rd := 3, ra := 1, rb := 2, imm := 0xFFFF } ∧
    (match readDesc qzState 0 qzTask 1, readDesc qzState 0 qzTask 2, readDesc qzState 0 qzTask 3 with
     | .ok A, .ok L, .ok D =>
       let out := [(D.scales, D.groups * D.columns), (D.s2, 2 * D.columns)]
       let live := (A.liveIx 4 (qzTask.mreg 0)).filter (fun i => D.live 4 i)
       live.length == 32
       && ok (checkParts qzState 0 (A.parts false ++ A.scaleParts ++ L.parts true ++ [(false, D.auxRun)] ++ out.map (fun r => (true, [r]))))
       && D.group != 0 && !D.streamed && L.kind == .bf16 && sameShape A D
       && L.e0 * L.e1 * L.e2 * L.e3 == D.groups * D.columns && ok (gate qzState false (A.readSlots qzState live))
       && ok (gate qzState false (slotsOf A.scaleRuns)) && ok (gate qzState true (L.lineSlots 4 1 (List.range (D.groups * D.columns))))
       && ok (gate qzState true (slotsOf out))
     | _, _, _ => false) = true := by decide +kernel

/-- Whether qz.quant to descriptor d meets its checks. -/
def quantMeets (d : BitVec 5) : Bool :=
  let f : Fields := { long := true, rd := d, ra := 1 }
  match readDesc qzState 0 qzTask 1, readDesc qzState 0 qzTask d, checkMask qzState 0 qzTask f
      (match readDesc qzState 0 qzTask d with | .ok D => D | _ => tensor 0 0) with
  | .ok A, .ok D, .ok masks =>
    let j : QuantJob := { s := qzState, p := 0, t := qzTask, f, A, D, mask := qzTask.mreg 0 }
    let live := (D.liveIx 4 (qzTask.mreg 0)).filter (fun i => A.live 4 i)
    let stores : List QStore :=
      if D.form = 3 then j.blocks masks else if D.form = 2 then j.segments else if D.layout = 2 then j.tiles else []
    let plain := if 2 ≤ D.form ∨ D.layout = 2 then [] else live.filterMap (fun i => (j.out i).map (fun o => (i, o)))
    acc qzTask { level := 2, long := true, rd := .desc, ra := .desc, mask := true, imm := 1, w1 := 0x1FFFFFFFFF } f
    && ok (checkParts qzState 0 (A.parts false ++ A.scaleParts ++ D.parts true ++ D.scaleParts)) && sameShape A D
    && ok (gate qzState false (A.readSlots qzState live)) && ok (gate qzState false (slotsOf (A.scaleRuns ++ D.scaleRuns)))
    && ok (gate qzState true (slotsOf (stores.map (fun x => (x.1, x.2.1.length))
         ++ plain.flatMap (fun x => (D.putAt x.1).map (fun y => (y.1, 1)))))) && (plain.length == 32 || stores.length == 1)
  | _, _, _ => false

theorem witness_QzCompletes_quant : quantMeets 4 = true ∧ quantMeets 5 = true := by decide +kernel

/-- 1.0 in BF16 becomes the INT8 code 1 with exponent 0 (06 R115). -/
theorem test_quant_one :
    seen (exec (.qzQuant 0 { long := true, rd := 4, ra := 1 }) (put 0x1000 [0x80, 0x3F, 0x80, 0xBF] qzState)) (fun s => s.bytes 0x4000 3)
      = some [1, 0xFF, 0] := by decide +kernel

theorem witness_QzCompletes_opt :
    (let f : Fields := { long := true, rd := 9, ra := 6, rb := 7, rc := 8, w1 := BitVec.ofNat 64 (2 ^ 36) }
     acc qzTask { level := 2, long := true, rd := .desc, ra := .desc, rb := .desc, rc := .desc, mask := true, w1 := 0x1FFFFFFFFFF } f ∧
     (qzTask.sreg (f.w1.extractLsb' 36 5)).toNat = 0x8000 ∧ ok (access qzState 0 false [(0x8000, 16)] [(0x8000, 16)]) ∧
     qzState.num 0x800C 4 = 0) ∧
    (match readDesc qzState 0 qzTask 6, readDesc qzState 0 qzTask 7, readDesc qzState 0 qzTask 8, readDesc qzState 0 qzTask 9 with
     | .ok g, .ok m, .ok v, .ok w =>
       let live := (w.liveIx 4 (qzTask.mreg 0)).filter (fun i => g.live 4 i && m.live 4 i && v.live 4 i)
       ok (checkParts qzState 0 ([g, m, v, w].flatMap (fun T => T.parts false ++ T.scaleParts)
         ++ [m, v, w].flatMap (fun T => T.parts true))) && w.kind == .int && w.entryW == 16 && w.form ≤ 1
       && g.kind == .int && g.entryW == 8 && g.form ≤ 1 && m.kind == .cb8 && m.form ≤ 1 && v.kind == .lg8 && v.form ≤ 1
       && sameShape g w && sameShape m w && sameShape v w && ok (gate qzState false (g.readSlots qzState live))
       && ok (gate qzState false (slotsOf ([g, m, v, w].flatMap Tensor.scaleRuns)))
       && [m, v, w].all (fun T => ok (gate qzState true (T.writeSlots live)))
     | _, _, _, _ => false) = true := by decide +kernel

/-- A set of two polders of this member at handle 63; the last dimension of the tensors is 4 and 2 elements. -/
def cxTask : Task := task [(1, 63), (2, 1), (3, 62)]
  [(1, desc 4 0 0x100 4), (2, desc 4 0 0x200 4), (3, desc 4 0 0x300 2), (4, desc 3 16 0x100 4), (5, desc 0 8 0x100 4)]
def cxState : State := withTask cxTask { up with herd := { up.herd with sets := [(63, [(0, 0), (0, 1)])] } }

/-- Whether primitive k from descriptor a to descriptor d meets its checks. -/
def cxMeets (k : Nat) (a d : BitVec 5) : Bool :=
  let f : Fields := { rd := d, ra := a, rb := 1, rc := if k = 3 then 2 else 0, imm := BitVec.ofNat 29 (0xFFFF * 8) }
  match readDesc cxState 0 cxTask a, readDesc cxState 0 cxTask d with
  | .ok x, .ok y =>
    acc cxTask { level := 3, rd := .desc, ra := .desc, rb := .any, rc := if k = 3 then .any else .unused,
                 imm := if k ≤ 1 then 0x7FFFF else 0x7FFF8 } f
    && ok (checkParts cxState 0 (x.parts false ++ y.parts true))
    && cxLayout x && cxLayout y && x.kind == y.kind && x.width == y.width && (2 ≤ k || cxPair 0 x.kind x.width)
    && (cxShape k (cxState.memberSet 63).length (cxState.rankIn 63 0 == some 1) x y a d).isNone
  | _, _ => false

theorem witness_Collectives :
    can cxState 0 cxTask ∧ cxState.rankIn 63 0 = some 0 ∧ cxState.rankIn 62 0 = none ∧
    acc cxTask { level := 3, rb := .any, imm := 0x7FFF8 } { rb := 1, imm := BitVec.ofNat 29 (479 * 8) } ∧
    weirGranted (cxState.polders[(0 : Pid)]).terp.bnd 479 = true ∧
    cxMeets 0 1 2 = true ∧ cxMeets 1 1 3 = true ∧ cxMeets 2 3 1 = true ∧ cxMeets 3 1 2 = true := by decide +kernel

/-- The sum of two members' shares; one disagrees; one is not there; an earlier collective is outstanding. -/
theorem witness_Collectives_complete :
    (let d := desc 4 0 0x100 2
     let w : Work := .collective 0 0 d d 0 0 63 0
     let s : State := { cxState with transfers := [⟨5, 0, 0, 0, 4, w, 0xFFFF⟩, ⟨6, 0, 0, 0, 4, w, 0xFFFF⟩] }
     let x : Transfer := ⟨5, 0, 0, 0, 4, w, 0xFFFF⟩
     let sig : CxSig := ⟨0, 0, 4, 32, 2, 63, 0, 0⟩
     let T := tensor d 0
     s.pm.state = .run ∧ s.transfers.find? (fun y => y.id == 5) = some x ∧ earlierCx s x 63 = false ∧
     earlierCx s ⟨6, 0, 0, 0, 4, w, 0xFFFF⟩ 63 = true ∧ cxSig s x = some sig ∧
     ([⟨1, { sig with op := 1 }, 0, []⟩] : List PeerShare).find? (fun q => cxSig s x != some q.sig) ≠ none ∧
     cxResult 0 0 2 0 0 T.count T [1, 2] [] = none ∧ cxResult 0 0 2 0 0 T.count T [1, 2] [⟨1, sig, 0, [10, 20]⟩] = some (0, [11, 22]) ∧
     T.allIx.all (T.live 4) = true ∧ ok (gate s false (T.readSlots s T.allIx)) ∧ ok (gate s true (T.writeSlots T.allIx)) ∧
     s.rankIn 63 0 = some 0) := by decide +kernel

theorem test_allreduce_sums :
    (let d := desc 4 0 0x100 2
     seen (exec (.collectiveComplete 5 [⟨1, ⟨0, 0, 4, 32, 2, 63, 0, 0⟩, 0, [10, 20]⟩])
       (put 0x100 [1, 0, 0, 0, 2, 0, 0, 0] { cxState with transfers := [⟨5, 0, 0, 0, 4, .collective 0 0 d d 0 0 63 0, 9⟩] }))
       (fun s => (s.num 0x100 4, s.num 0x104 4, (s.weir 9).count, s.transfers.length)) = some (11, 22, 1, 0)) := by decide +kernel

/-- sp.open of a free and a held spillway at the last slots; an open spillway for the others. -/
def spTask : Task := task [(1, 0x100), (2, 90110), (3, 2), (4, 1), (5, 0)] [] [(2, BitVec.ofNat 2048 1)]
def spState : State := (withTask spTask).onSpw 0 (fun q => { q with isOpen := true, regionBase := 0x10000000000, regionLen := 64 })

theorem witness_Spillway :
    (let q := (spState.polders[(0 : Pid)]).spw
     can spState 0 spTask ∧ acc spTask { level := 3, ra := .any, rb := .any, rc := .any } { ra := 1, rb := 2, rc := 3 } ∧
     spState.owner 32 = 0 ∧ (spState.setOwner 32 1).owner 32 ≠ 0 ∧ can (spState.setOwner 32 1) 0 spTask ∧ 90110 + 2 ≤ 90112 ∧
     (bounds (spState.polders[(0 : Pid)]).terp.bnd).any (fun b => b.covers true (scratchAddr 0 (4096 * 90110)) 8192) = true ∧
     q.isOpen = true ∧
     acc spTask { level := 3, ra := .pair, rb := .any, mask := true, imm := 1 } { ra := 2, rb := 4 } ∧
     acc spTask { level := 3, ra := .pair, rb := .pair, mask := true, imm := 1 } { ra := 2, rb := 4, imm := 1 } ∧
     (q.run [(0, 7, .val 1)]).2.2 = none ∧ ok (gate spState true (slotsOf ((q.run [(0, 7, .val 1)]).2.1.map (fun r => (r.1, 16))))) ∧
     acc spTask { level := 3, ra := .any, rb := .any } { ra := 1, rb := 4 } ∧ ok (checkRuns spState 0 false [(0x100, 16)]) ∧
     0x100 + 16 * 1 ≤ q.regionBase ∧ ok (gate spState false (slotsOf [(0x100, 16)])) ∧
     acc spTask { level := 3, rd := .any, ra := .any, rb := .any } { rd := 6, ra := 1, rb := 4 } ∧ 16 * q.cells.length ≤ 1 ∧
     ok (checkRuns spState 0 true [(0x100, 1)]) ∧ ok (gate spState true (slotsOf [(0x100, 0)])) ∧
     can (withTask spTask) 0 spTask ∧ (withTask spTask).owner 32 = 0 ∧ ((withTask spTask).polders[(0 : Pid)]).spw.isOpen = false ∧
     (let full := spState.onSpw 0 (fun q => { q with cells := [(0, 7, .val 1)] })
      can full 0 spTask ∧ 1 < 16 * ((full.polders[(0 : Pid)]).spw.cells).length ∧ ok (checkRuns full 0 true [(0x100, 1)]))) := by
  decide +kernel

/-- Eight keys of one bucket at salt 0, and a ninth. -/
def crowd : List U32 := [6770, 10951, 17716, 21897, 28662, 39608, 50554, 61500]
def crowded : Spw := { cells := (List.range 8).map (fun k => (8 * bucketOf 0 5 + k, crowd.getD k 0, .val 1)), regionLen := 16 }

/-- A key held, a key with room in its bucket, and a full bucket with and without room to spill. -/
theorem witness_Spillway_updates :
    (∀ c ∈ crowded.cells, c.1 / 8 = bucketOf 0 c.2.1) ∧ (crowded.cells.map (·.1)).Nodup ∧ (crowded.cells.map (·.2.1)).Nodup ∧
    (crowded.find 6770).map (·.2) = some (.val 1) ∧ crowded.find 5 = none ∧ crowded.find 6 = none ∧
    (∀ way < 8, ∃ c ∈ crowded.cells, c.1 = 8 * bucketOf 0 5 + way) ∧
    (¬ ∀ way < 8, ∃ c ∈ crowded.cells, c.1 = 8 * bucketOf 0 6 + way) ∧
    16 * crowded.spilled.toNat + 16 ≤ crowded.regionLen ∧ 15 < 16 * crowded.spilled.toNat + 16 := by decide +kernel

theorem test_full_bucket_spills :
    ((crowded.step (5, .val 3)).map (fun x => (x.2.map (·.1), x.1.spilled, x.1.cells.length))) = some (some 0, 1, 8) ∧
    ((({ crowded with regionLen := 15 } : Spw).step (5, .val 3)).isNone) = true := by decide +kernel

theorem test_spillway_accumulates :
    (let q : Spw := {}
     (((q.step (5, .val 3)).bind (fun x => x.1.step (5, .val 4))).map (fun x => ((x.1.find 5).map (·.2), x.1.count, x.1.updates)))
       = some (some (.val 7), 1, 2)) := by decide +kernel

/-! ### Loads, passes and the sump (03, 04, 10) -/

/-- Polder 0's scratchpad: INT8 weights of 16 positions and 2 columns, activations of 16 positions and 2 rows, an INT8 output of 128
columns and 2 rows; the tile parameter block at 0x8000 with M 1, SHIFT 0, CHAIN 0 and NC 8 (10 Table 10-8). -/
def mmTask : Task := task [(1, 0), (3, 0x8000)]
  [(1, desc 0 8 0x10000000000 16 2 16), (2, desc 0 8 0x10000001000 16 2 16), (3, desc 0 8 0x10000002000 128 2 128)]
def mmState : State :=
  withTask mmTask (put 0x8000 [1, 0, 0, 0, 0, 0, 0, 8] (put 0x10000000000 [2, 3] (put 0x10000001000 [5, 0xFF] up)))

/-- The load of both columns, and the pass of both rows that closes its group. -/
def mmLoad : LoadReq := ⟨0, 0, 1, desc 0 8 0x10000000000 16 2 16, 0, 0, 16, 0, 2, 0, 8⟩
def mmPass : PassReq :=
  { pc := 0, outReg := 3, actReg := 2, outD := desc 0 8 0x10000002000 128 2 128, outSide := 0,
    act := desc 0 8 0x10000001000 16 2 16, actSide := 0, load := mmLoad, half := 0, close := true, trunc := 0, m := 2, chunks := 1,
    chunk := 0, frame := 0, r0 := 0, tpb := tpbAt mmState 0x8000, epoch := 0 }
def mmLd : Fields := { long := true, ra := 1, w1 := BitVec.ofNat 64 (2 ^ 17 + 16) }
def mmBp : Fields := { long := true, rd := 3, ra := 2, rb := 1, rc := 3, imm := 2, w1 := BitVec.ofNat 64 (2 ^ 44 + 2 ^ 28) }
/-- The state with polder 0's array set. -/
def withArr (A : ArrayQ) (s : State := mmState) : State := s.onPolder 0 (fun P => { P with arr := A })
def loaded : Task := { mmTask with loaded := mmTask.loaded.set 0 (some mmLoad) }

theorem witness_LoadsAndPassesQueue_load :
    can mmState 0 mmTask ∧ acc mmTask { long := true, ra := .desc, rb := .any, rc := .any, imm := 1, w1 := 0xFFFFFF } mmLd ∧
    mmLd.w1.toNat % 2 ^ 17 = 16 ∧ mmLd.w1.toNat / 2 ^ 17 + 1 = 2 ∧
    (match readDesc mmState 0 mmTask 1 with
     | .ok T => (let rs := weightRuns T 0 16 0 2 ++ codeRunsOf T 0 16 0 2 ++ s2RunsOf T 0 16 0 2
         ok (checkParts mmState 0 (loadParts T 0 16 0 2)) && T.kind == .int && (outsideOwn 0 rs).isNone && T.redExt == 16
         && T.colExt == 2 && expandable T 0 && T.form == 0)
     | _ => false) = true ∧
    (mmState.polders[(0 : Pid)]).arr.loads.length < 4 ∧
    4 ≤ ((withArr { loads := List.replicate 4 mmLoad }).polders[(0 : Pid)]).arr.loads.length := by decide +kernel

theorem witness_LoadsAndPassesQueue_pass :
    (let s := withTask loaded mmState
     can s 0 loaded ∧
     acc loaded { long := true, rd := .desc, ra := .desc, rb := .any, rc := .any, imm := 0x3F, w1 := 0xFFFFFFFFFFFFFF } mmBp ∧
     loaded.loaded[(0 : Fin 2)] = some mmLoad ∧ mmBp.w1.toNat / 2 ^ 44 + 1 = 2 ∧
     (match readDesc s 0 loaded 2, readDesc s 0 loaded 3 with
      | .ok A, .ok D =>
        ok (checkParts s 0 ([(false, A.auxRun), (false, D.auxRun)] ++ actParts A 2 0 0 16 ++ outParts D 2 0 0 2)) && ok (access s 0 false [(0x8000, 32)] [(0x8000, 32)]) && tpbOk s 0x8000
        && !(s.byte 0x800B).getLsbD 0 && decide (1 ≤ (tpbAt s 0x8000).nc) && decide ((tpbAt s 0x8000).nc ≤ D.width)
        && (tpbAt s 0x8000).sigma == 0 && pairPath (tensor mmLoad.desc 0) A == some .bitPlane
        && pathOk .bitPlane (tensor mmLoad.desc 0) false && !surveysColumns D && D.layout != 2 && decide (16 ≤ A.e0)
      | _, _ => false) = true ∧
     4 ≤ ((withArr { passes := List.replicate 4 mmPass } s).polders[(0 : Pid)]).arr.passes.length) := by decide +kernel

theorem test_mmLd_queues :
    seen (exec (.mmLd 0 mmLd) mmState) (fun s => ((s.polders[(0 : Pid)]).arr.loads.length, pcOf s)) = some (1, some 16)
    ∧ seen (exec (.mmLd 0 mmLd) (withArr { loads := List.replicate 4 mmLoad })) pcOf = some (some 0) := by decide +kernel

/-- A load that may start, one held by a pass, one under way. -/
theorem witness_WeightLoadRuns :
    (let A : ArrayQ := { loads := [mmLoad] }
     let T := tensor mmLoad.desc 0
     mmState.arithOn = true ∧ A.loading = none ∧ (∀ q ∈ A.passes, blocksLoad mmLoad q = false) ∧
     blocksLoad { mmLoad with id := 1 } mmPass = true ∧
     (let s := withArr { loading := some mmLoad }
      (s.polders[(0 : Pid)]).arr.loading = some mmLoad ∧ sparseOk s mmLoad = true ∧
      ok (gate s false (slotsOf (weightNeeds s T 0 16 0 2 ++ codeRunsOf T 0 16 0 2 ++ s2RunsOf T 0 16 0 2)))) ∧
     mmLoad.columns T = 2 ∧ mmLoad.valid T = 16 ∧ T.kind ≠ .int1 ∧ ¬ 8 < mmLoad.w) := by
  decide +kernel

/-- A load of 16-bit weights writes both halves, the low planes into half 0; a narrow load after it leaves the other half. -/
theorem witness_WeightLoadRuns_wide :
    (let wide : LoadReq := { mmLoad with desc := desc 0 16 0x10000000000 8 2 16, w := 16, klen := 8 }
     let T := tensor wide.desc 0
     8 < wide.w ∧ wide.w ≤ 16 ∧ wide.columns T = 2 ∧ wide.valid T = 8 ∧
     ((latchOf mmState 0 wide 0).bits.getD 0 []).getD 0 0 = 2 ∧ ((latchOf mmState 0 wide 1).bits.getD 0 []).getD 0 0 = 3) := by
  decide +kernel

theorem test_narrow_load_keeps_the_other_half :
    (let wide : LoadReq := { mmLoad with desc := desc 0 16 0x10000000000 8 2 16, w := 16, klen := 8 }
     seen (exec (.weightLoadDone { p := 0 }) (withArr { loading := some mmLoad, latches := #v[some (latchOf mmState 0 wide 0), some (latchOf mmState 0 wide 1)] }))
       (fun s => ((s.polders[(0 : Pid)]).arr.latches[(0 : Fin 2)].map (·.load.w), (s.polders[(0 : Pid)]).arr.latches[(1 : Fin 2)].map (·.load.w)))
       = some (some 8, some 16)) := by decide +kernel

/-- A streamed load whose residues disagree is repeated. -/
theorem witness_WeightLoadRuns_upset :
    (let r : LoadReq := { mmLoad with desc := desc 0 8 0x10000000000 16 1 0 (2 ^ 47), side := BitVec.ofNat 256 (0x10000003000 * 2 ^ 128), ncols := 1 }
     let s := withArr { loading := some r }
     let T := tensor r.desc r.side
     T.coded = true ∧ sparseOk s r = true ∧
     ok (gate s false (slotsOf (weightNeeds s T 0 16 0 1 ++ codeRunsOf T 0 16 0 1 ++ s2RunsOf T 0 16 0 1)))) := by decide +kernel

/-- A stored sparse form that does not hold (07 R142): the first record of a 2:4 segment with an index that does not rise. -/
def badLoad : LoadReq := { mmLoad with desc := desc 0 8 0x10000000000 512 1 0 (2 * 2 ^ 50), ncols := 1, klen := 512 }

theorem witness_WeightLoadRuns_sparse : sparseOk (put 0x10000000000 (List.replicate 600 0) up) badLoad = false := by
  decide +kernel

/-- The pass at the head of the queue with its load in the latches; a second chunk without its frame. -/
def passing (q : PassReq) : State :=
  withArr { passes := [q], latches := (Vector.replicate 2 none).set 0 (some (latchOf mmState 0 mmLoad 0)) }

theorem witness_PassRuns :
    (let s := passing mmPass
     let W := tensor mmLoad.desc 0
     let A := tensor mmPass.act 0
     let F := newFrame (recOf s 0 mmTask mmPass)
     let struck := fun (x : Slip) => (passEnv s (s.polders[(0 : Pid)]).arr.latches (latchOf mmState 0 mmLoad 0) mmPass F.tile (some x)).caught F
     s.arithOn = true ∧ (s.polders[(0 : Pid)]).arr.latches[(0 : Fin 2)] = some (latchOf mmState 0 mmLoad 0) ∧
     (latchOf mmState 0 mmLoad 0).load.id = mmPass.load.id ∧ (s.polders[(0 : Pid)]).sump.wait = false ∧
     struck ⟨.tree, 0, 0, 0, 1⟩ = true ∧ struck ⟨.tree, 0, 0, 0, 7⟩ = false ∧ struck ⟨.tree, 2, 0, 0, 1⟩ = false ∧
     passCheck none mmPass (recOf s 0 mmTask mmPass) = none ∧ chainCheck s 0 mmPass = none ∧
     ok (gate s false (slotsOf (actRuns s A 0 (mmLoad.valid W) 0 2))) ∧ actTilesOk s A 0 (mmLoad.valid W) 0 2 = true ∧
     passCheck none { mmPass with chunk := 1 } (recOf s 0 mmTask mmPass) = some (0x10, 3) ∧
     passCheck none { mmPass with m := 4097 } (recOf s 0 mmTask mmPass) = some (0x0F, 1) ∧ s.replayLimit 0 = false ∧
     s.replayLimit 3 = true) := by decide +kernel

/-- Row 0 is (5, −1), column 0 is (2, 3): the sum is 7 (02 R26, 03 R45). -/
theorem test_pass_adds_the_dot_product :
    seen (exec (.passStart 0 none) (passing mmPass))
      (fun s => (s.polders[(0 : Pid)]).sump.closed.map (fun g => g.frames.map (fun x => x.2.rows)))
      = some [[[[.acc (.val 7) 0, .acc (.val 0) 0], [.acc (.val 0) 0, .acc (.val 0) 0]]]] := by decide +kernel
/-- A caught error replays: the sums are those without it, and the replay counts. -/
theorem test_replayed_pass_adds_the_same :
    seen (exec (.passStart 0 (some ⟨.tree, 0, 0, 0, 1⟩)) (passing mmPass))
      (fun s => ((s.polders[(0 : Pid)]).sump.closed.map (fun g => g.frames.map (fun x => x.2.rows)),
        (s.polders[(0 : Pid)]).task.map (·.replays)))
      = some ([[[[.acc (.val 7) 0, .acc (.val 0) 0], [.acc (.val 0) 0, .acc (.val 0) 0]]]], some 1) := by decide +kernel
theorem test_pass_of_a_lost_chunk_faults :
    seen (exec (.passStart 0 none) (passing { mmPass with chunk := 1, chunks := 2, pc := 48 }))
      (fun s => ((s.polders[(0 : Pid)]).seq.fault, (s.polders[(0 : Pid)]).seq.faultPc)) = some (0x1000000000000005, 48) := by
  decide +kernel

/-- Two planes of 2-bit operands: the premises hold at the extremes. -/
theorem witness_PlanePairsAreTheDotProduct :
    (let e : PassEnv := { passEnv mmState (Vector.replicate 2 none) (latchOf mmState 0 mmLoad 0) mmPass
                            { recOf mmState 0 mmTask mmPass with wWidth := 2 } none with valid := 2 }
     let u : PassEnv := { e with W := tensor (desc 1 2 0 2) 0 }
     e.T = 0 ∧ 1 ≤ e.r.wWidth ∧ e.wInt = true ∧ u.wInt = false ∧ (∀ c ∈ [3, 2], c < 2 ^ 2) ∧
     (∀ y ∈ [2, 1], y < 2 ^ 2) ∧ (∀ y ∈ [0, 3], y < 2 ^ 2) ∧
     ((2147483615 : Int).natAbs : Int) + 2 * 2 ^ (2 + 2) ≤ accMax e.r.tpb.accX ∧
     e.addPairs 2 [3, 2] [2, 1] none (.val 10, 3) = (.val (10 + (-1) * (-2) + (-2) * 1), 3) ∧
     u.addPairs 2 [3, 2] [0, 3] none (.val 0, 0) = (.val ((-1) * 0 + (-2) * 3), 1)) := by decide +kernel

/-- A group of one frame of two rows; closed, retired, draining; snapshots with and without rights. -/
def aFrame : SumpFrame :=
  { tile := recOf mmState 0 mmTask mmPass, done := 1, rows := [[.acc (.val 7) 0, .acc (.val 0) 0], [.acc (.val 0) 0, .acc (.val 0) 0]],
    rowSum := [0, 0], colSum := [0, 0], kU := 16 }
def aGroup : Group := { accX := false, m := 2, frames := [(0, aFrame)] }
def sumped (x : Sump) (s : State := mmState) : State := s.onPolder 0 (fun P => { P with sump := x })
def granted : State := { mmState with sec := { mmState.sec with granted := 1, rights := 1 } }

theorem witness_SumpSwapAndDrain :
    (let s := sumped { closed := [aGroup] }
     s.arithOn = true ∧ (s.polders[(0 : Pid)]).sump.retired = false ∧
     (let r := sumped { closed := [aGroup], retired := true }
      (r.polders[(0 : Pid)]).sump.retired = true ∧ (r.polders[(0 : Pid)]).sump.shadow = none) ∧
     (let d := sumped { closed := [aGroup], retired := true, shadow := some (aGroup, 0, 0) }
      ((d.polders[(0 : Pid)]).sump.shadow).isSome = true ∧ aGroup.frames[(0 : Nat)]? = some (0, aFrame) ∧
      DrainSlip.caught (aFrame.rows.getD 0 []) (.entry 0 1) = true ∧ DrainSlip.caught (aFrame.rows.getD 0 []) (.entry 0 7) = false ∧
      DrainSlip.caught (aFrame.rows.getD 0 []) .checker = true ∧ d.replayLimit aGroup.replays = false ∧ d.replayLimit 3 = true ∧
      (d.polders[(0 : Pid)]).oc.recv.all (fun t => !t.full) = true ∧ (d.polders[(0 : Pid)]).sump.hold = false) ∧
     ((mmState.onPolder 0 (fun P => { P with oc := { P.oc with recv := some { tile := aFrame.tile, group := aGroup, rows := [], taps := [], full := true } } })).polders[(0 : Pid)]).oc.recv.all
       (fun t => !t.full) = false ∧
     mmState.pm.state = .run ∧ mmState.sumpDebug = false ∧ granted.sumpDebug = true ∧
     (let g := sumped { opened := some aGroup, snap := some ⟨false, 1, 0⟩ } granted
      (g.polders[(0 : Pid)]).sump.snap = some ⟨false, 1, 0⟩ ∧ 1 < sumpEntries false ∧
      aGroup.frames.find? (fun x => x.1 == 1 / aGroup.m) = some (0, aFrame) ∧
      aFrame.rows[1 % aGroup.m]? = some [.acc (.val 0) 0, .acc (.val 0) 0])) := by decide +kernel

theorem test_set_swap_starts_the_drain :
    seen (exec (.setSwap 0) (sumped { closed := [aGroup], retired := true }))
      (fun s => ((s.polders[(0 : Pid)]).sump.shadow.map (·.2), (s.polders[(0 : Pid)]).sump.swaps)) = some (some (0, 0), 1)
    ∧ seen (exec (.setSwap 0) (sumped { closed := [aGroup] })) (fun s => (s.polders[(0 : Pid)]).sump.swaps) = some 0 := by
  decide +kernel
theorem test_drain_of_the_last_row :
    seen (exec (.drainRow 0 none) (sumped { shadow := some (aGroup, 0, 1) }))
      (fun s => ((s.polders[(0 : Pid)]).sump.shadow.isSome, (s.polders[(0 : Pid)]).sump.drained, (s.polders[(0 : Pid)]).ee.rows))
      = some (false, 1, 1) := by decide +kernel

/-- A whole tile that waits for its write. -/
def aTile : OcTile :=
  { tile := aFrame.tile, group := aGroup, rows := [[.int 7 false, .int 300 false], [.int (-3) false, .sentinel false]], taps := [],
    full := true }
def tiled : State := mmState.onPolder 0 (fun P => { P with oc := { P.oc with ready := some aTile } })

theorem witness_OutputTileIsWritten :
    (let D := tensor aTile.tile.outD aTile.tile.outSide
     let o := ocPlain D aTile.tile (ocRows D aTile)
     let w := ocStores D aTile.tile (o.codes.map (fun r => r.map (fun x => x.1.code)))
     tiled.replayLimit aTile.group.replays = false ∧ tiled.replayLimit 3 = true ∧ mmState.arithOn = true ∧
     (mmState.polders[(0 : Pid)]).oc.ready = none ∧ tiled.arithOn = true ∧ (tiled.polders[(0 : Pid)]).oc.ready = some aTile ∧ D.coded = false ∧ w.tile.isNone = true ∧
     (tiled.polders[(0 : Pid)]).oc.recv = none ∧ (tapStores tiled aTile).isNone = true ∧
     ok (gate tiled true (slotsOf ((elemBytes D w.elems).map (fun a => (a, 1)))))) := by decide +kernel

/-- 7 and −3 stay, 300 clamps to 127, the sentinel becomes the overflow code 0x80 (02 R39, R41). -/
theorem test_tile_codes :
    seen (exec (.ocTileWrite { p := 0 }) tiled) (fun s => (s.bytes 0x10000002000 2, s.bytes 0x10000002080 2)) = some ([7, 0x7F], [0xFD, 0x80]) := by
  decide +kernel

/-- The last row of a group that fails its check swaps and drains again, and the row before it counts twice. -/
theorem test_drain_again :
    seen (exec (.drainRow 0 (some .checker)) (sumped { swaps := 1, drained := 1, shadow := some (aGroup, 0, 1) }))
      (fun s => ((s.polders[(0 : Pid)]).sump.shadow.map (·.2), (s.polders[(0 : Pid)]).sump.swaps, (s.polders[(0 : Pid)]).sump.drained))
      = some (some (0, 1), 2, 2) := by decide +kernel
theorem test_upset_tile_stays :
    seen (exec (.ocTileWrite { p := 0, upset := true }) tiled) (fun s => (s.bytes 0x10000002000 2, (s.polders[(0 : Pid)]).oc.ready.isSome)) = some ([0, 0], true) := by
  decide +kernel

/-! ### Fabric, caches, controllers (13, 17) -/

/-- A packet of n bytes to a destination, a write or a response. -/
def packet (dest : BitVec 6) (n : Nat) (kind : PacketKind := .write) : FabPacket :=
  { dest, src := 0, srcs := 1, kind, len := BitVec.ofNat 13 n, addr := 0 }

/-- A network at an output with one packet from the west. -/
def oneWaits (k : FabPacket) (t : Nat) (promoted : Bool := false) : State :=
  up.onNet 0 .east .request (fun N => { N with queues := N.queues.set (Port.ix .west) [(k, t, promoted)] })

/-- Packets to site 35, through a crossing link and off the mesh; a sender; a queue that may be promoted; an activity timer. -/
theorem witness_FabricForwarding :
    (let k := packet 35 4096
     let N := (oneWaits k 0).routers[(0 : Site)].outs[Port.ix .east].nets[netIx .request]
     hasPort 0 .here = true ∧ hasPort 1 .west = true ∧ route 0 35 = some .east ∧ route 35 37 = some .side ∧ route 0 63 = none ∧
     (match nextSender N with | some (i, M) => decide (M.queues[i] = [(k, 0, false)]) | none => false) = true ∧
     nextSender (up.routers[(0 : Site)].outs[Port.ix .east].nets[netIx .request]) = none ∧ linkRoom (oneWaits k 0) 0 .east k = true ∧
     neighbour 0 .east = some (1, .west) ∧ 512 ≤ 0 + 512 ∧ 0 + 512 < 513 ∧
     (let P : OutPort := { last := (Vector.replicate 7 none).set (Port.ix .here) (some (63, 9)) }
      P.last[Port.ix .here] = some (63, 9) ∧ 8 < 9 ∧ 9 ≤ 9) ∧
     (oneWaits k 0).running = true ∧ State.reset.running = false ∧
     ((oneWaits k 0).routers[(0 : Site)].outs[Port.ix .east]).wire = Vector.replicate 2 none) := by decide +kernel

/-- Agents enter at their site, at the destination's column from an embankment; the queue of an embankment port holds 64 flits. -/
theorem witness_FabricForwarding_entry :
    (let k := packet 35 4096
     let full := (List.range 8).foldl (fun (s : State) _ => s.packetEnters 5 0 .embankment k) up
     injects .here = true ∧ entersAt 0 .here 35 = true ∧ hasPort 5 .embankment = true ∧ entersAt 5 .embankment 35 = true ∧
     entersAt 4 .embankment 35 = false ∧ route 5 35 = some .south ∧ flitsFrom up.routers[(5 : Site)] .embankment .request + packetFlits k ≤ 64 ∧
     64 < flitsFrom full.routers[(5 : Site)] .embankment .request + packetFlits k ∧ (packet 35 0 .readRequest).kind.net = .request) := by
  decide +kernel

/-- A full queue behind a link to another quadrant; both networks wait. -/
theorem witness_FabricForwarding_links :
    (let k := packet 35 4096
     let full := up.onNet 3 .east .request (fun N => { N with queues := N.queues.set (Port.ix .west) (List.replicate 8 (k, 0, false)) })
     let both := (oneWaits k 0).onNet 0 .east .response (fun N => { N with queues := N.queues.set (Port.ix .west) [(packet 35 512 .readResponse, 0, false)] })
     linkRoom full 2 .east k = false ∧ linkRoom up 2 .east k = true ∧
     netIx .request = (both.routers[(0 : Site)].outs[Port.ix .east]).lastNet + 1 ∧
     (nextSender ((both.routers[(0 : Site)].outs[Port.ix .east]).nets[netIx .response])).isSome = true ∧
     linkRoom both 0 .east (packet 35 512 .readResponse) = true ∧ packetFlits (packet 35 512 .readResponse) < packetFlits k) := by
  decide +kernel

/-- The flits of two networks alternate: a packet of one flit is through after one flit of the other's eight. -/
theorem test_networks_alternate :
    (let both := (oneWaits (packet 35 4096) 0).onNet 0 .east .response
       (fun N => { N with queues := N.queues.set (Port.ix .west) [(packet 35 512 .readResponse, 0, false)] })
     seen (exec (.fabricPacketForward 0 .east 0 [] (0, 0)) both)
       (fun s => (s.routers[(0 : Site)].flits, match s.reply with | .packet x => x.kind | _ => .write))
       = some (2, .readResponse)) := by decide +kernel

/-- X first, then Y (13 R289): from site 0 to site 35 the first hop is east, from site 5 it is south. -/
theorem test_route_x_then_y : route 0 35 = some .east ∧ route 5 35 = some .south ∧ route 35 35 = some .here ∧ route 3 36 = some .embankment := by
  decide +kernel
theorem test_promotion_after_512_cycles :
    seen (exec (.packetPromotion 0 .east .request .west 513) (oneWaits (packet 35 64) 0)) (fun s => s.routers[(0 : Site)].promoted) = some 1
    ∧ seen (exec (.packetPromotion 0 .east .request .west 512) (oneWaits (packet 35 64) 0)) (fun s => s.routers[(0 : Site)].promoted) = some 0 := by
  decide +kernel

/-- A cache that holds sector 0 of block 0 in way 0 of its set. -/
def cached : State :=
  { up with msc := up.msc.set 0 { up.msc[0] with ways := [(16 * cacheSet 0, { block := 0, valid := 1 })] } }

theorem witness_MemorySideCaches :
    cached.running = true ∧ (0x7FFFFFFFFF : U64).toNat < 2 ^ 39 ∧ (locate 0).1 = 0 ∧
    (match (cached.msc[(0 : Fin 4)]).find 0 with
     | some w => ((cached.msc[(0 : Fin 4)]).way (cacheSet 0) w).valid.getLsbD 0 && !((cached.msc[(0 : Fin 4)]).way (cacheSet 0) w).valid.getLsbD 31
     | none => false) = true ∧
    (up.msc[(0 : Fin 4)]).find 0 = none ∧ lineWaits up 0 (locate 0).2 = false ∧ up.mc[(0 : Fin 8)].failed = [] ∧
    lineWaits { up with mc := up.mc.set 0 { up.mc[0] with copying := [((locate 0).2.id / 16, 0)] } } 0 (locate 0).2 = true ∧
    missWaits up up.msc[(0 : Fin 4)] 0 .read = false ∧
    missWaits { up with mc := up.mc.set 0 { up.mc[0] with copying := [((locate 0).2.id / 16, 0)] } } up.msc[(0 : Fin 4)] 0 .read = true ∧
    (let x : MscAcc := { site := some 3, addr := 0, kind := .read }
     let y : MscAcc := { addr := 64, kind := .writeWhole }
     siteRank x < siteRank y ∧ (up.mscServe x).isSome = true ∧ ((up.mscServe x).bind (·.mscServe y)).isSome = true ∧
     (let held : State := { up with mc := up.mc.set 0 { up.mc[0] with copying := [((locate 0).2.id / 16, 0)] } }
      held.running = true ∧ held.mscServe x = none ∧ (held.mscServe { y with addr := 0x2000000 }).isSome = true ∧
      x.addr.toNat / 64 ≠ 0x2000000 / 64)) ∧
    (let f : Msc := { up.msc[0] with flushing := some 3 }
     f.flushing = some 3 ∧ up.msc[(0 : Fin 4)].flushing = none) := by decide +kernel

/-- An enabled pinned range of blocks 0 and 1, and writes that keep it, change it, overlap it and turn it off. -/
theorem witness_MemorySideCaches_ranges :
    (let on : U64 := 0x6000000000000800
     let c : Msc := { up.msc[0] with lim := up.msc[0].lim.set 15 on }
     let block := fun (x : U64) => (x.extractLsb' 11 28).toNat
     c.lim[(15 : Fin 16)].getLsbD 61 = true ∧ c.lim[(14 : Fin 16)].getLsbD 61 = false ∧ on &&& 0xE000007FFFFFF800 = c.lim[(15 : Fin 16)] ∧
     (0xC000000000000000 : U64).extractLsb' 62 2 = 3 ∧ (on.extractLsb' 62 2 = 1) ∧ (0 : U64).getLsbD 61 = false ∧
     block c.base[(14 : Fin 16)] ≤ block c.lim[(15 : Fin 16)] ∧ block c.base[(15 : Fin 16)] ≤ block 0x2000000000000000 ∧
     up.msc[(0 : Fin 4)].lim[(0 : Fin 16)].getLsbD 61 = false) := by decide +kernel

theorem test_cache_hit_counts :
    seen (exec (.mscAccess 0 .read {}) cached) (fun s => ((s.msc[(0 : Fin 4)]).hits, (s.msc[(0 : Fin 4)]).misses)) = some (1, 0)
    ∧ seen (exec (.mscAccess 64 .read {}) cached) (fun s => ((s.msc[(0 : Fin 4)]).hits, (s.msc[(0 : Fin 4)]).misses)) = some (0, 1) := by
  decide +kernel
theorem test_policy_3_is_refused :
    seen (exec (.mscRangeWrite 0 0 true 0xC000000000000000) up) (fun s => (s.msc[(0 : Fin 4)]).status) = some 2 := by decide +kernel

/-- Controller 0 trained, at the last line of its patrol, with three errors in its half. -/
def patrolled (pos : Nat) (errors : Nat) : State :=
  let m : Mc := { up.mc[0] with trained := true, scrubPos := pos }
  { up with mc := up.mc.set 0 { m with errors := [(m.servedHalf ((locOf pos).id / 16), errors)] } }

theorem witness_MemoryControllers :
    (let s := patrolled 1207959551 3
     let late : State := { s with tb := 16000000 }
     s.running = true ∧ s.mc[(0 : Fin 8)].trained = true ∧ (1207959551 + 1) % 1207959552 = 0 ∧ lineWaits s 0 (locOf 1207959551) = false ∧
     s.mc[(0 : Fin 8)].failed = [] ∧ 3 ≤ sget 0 s.mc[(0 : Fin 8)].errors (s.mc[(0 : Fin 8)].servedHalf ((locOf 1207959551).id / 16)) ∧
     16000000 ≤ (late.tb - late.mc[(0 : Fin 8)].reportAt).toNat ∧ (s.tb - s.mc[(0 : Fin 8)].reportAt).toNat < 16000000 ∧
     1000000 ≤ (late.tb - sget 0 late.mc[(0 : Fin 8)].drift 71).toNat ∧ (addrOf 0 (locate 0).2).isSome = true ∧
     imageOf s 0 = none) := by decide +kernel

/-- A line without errors, with two wrong bits in one symbol, with one in each of two, and with four symbols wrong; the places of the
first and the last visible line. -/
theorem witness_MemoryControllers_code :
    symbolsOf {} = [] ∧ symbolsOf { data := [(3, 0), (3, 7)] } = [3] ∧ (symbolsOf { data := [(3, 7), (3, 8)] }).length = 2 ∧
    (symbolsOf { data := [(0, 0), (1, 0), (2, 0)], check := [31] }).length = 4 ∧
    addrOf (locate 0).1 (locate 0).2 = some 0 ∧ addrOf (locate 0x7FFFFFFFFF).1 (locate 0x7FFFFFFFFF).2 = some 0x7FFFFFFFC0 := by
  decide +kernel

/-- A line with a resident image in polder 0's slot 0 (17 R403). -/
theorem witness_MemoryControllers_image :
    (let s : State := { up with integ := { up.integ with rfSrc := up.integ.rfSrc.set 0 (up.integ.rfSrc[0].set 0 0x8000000100000000) } }
     imageOf s 64 = some (scratchAddr 0 64) ∧ refetchImage s 0 0 = some 0 ∧ refetchImage s 0 1 = none) := by decide +kernel

theorem test_patrol_counts_a_pass :
    seen (exec (.patrolScrubRead 0 {}) (patrolled 1207959551 0)) (fun s => ((s.mc[(0 : Fin 8)]).scrubs, (s.mc[(0 : Fin 8)]).scrubPos))
      = some (1, 0) := by decide +kernel

/-- A refetched slot, a weight bank with and without an image, a site that failed within the day. -/
theorem witness_ProtectionAndCheckpoints :
    (let s : State := { up with integ := { up.integ with
       rfSrc := up.integ.rfSrc.set 0 (up.integ.rfSrc[0].set 0 0x8000000100000000), refetching := [(0, 0)] } }
     let w := up.onTerp 0 (fun T => { T with banks := T.banks.set 0 { T.banks[0] with prot := true } })
     s.running = true ∧ (0x15FFFFFF : BitVec 29).toNat < scratchBytes ∧ s.integ.refetching.contains (0, 0) = true ∧
     (refetchImage s 0 0).isSome = true ∧ up.integ.refetching.contains (0, 0) = false ∧
     ((w.polders[(0 : Pid)]).terp.banks[bankIx 0]).prot = true ∧ ((w.polders[(0 : Pid)]).terp.banks[bankIx 0]).busy = false ∧
     ((w.polders[(0 : Pid)]).terp.banks[bankIx 0]).power = 0 ∧ refetchImage w 0 0 = none ∧
     (up.onSite 0 (fun x => { x with firstUe := some 0 })).integ.sites[(0 : Site)].firstUe = some 0) := by decide +kernel

theorem witness_ProtectionAndCheckpoints_copies :
    (let at_ := fun (unit units : U32) (busy : Bool) => ({ up with ckpt := { up.ckpt with unit, units, busy } } : State)
     up.running = true ∧ (at_ 33521663 1 false).ckpt.unit.toNat + 1 ≤ 33521664 ∧ 33521664 < (at_ 33521663 2 false).ckpt.unit.toNat + 2 ∧
     (at_ 0 1 true).ckpt.busy = true ∧ (0x40000000 : U32).getLsbD 30 = true ∧ unitsDead up 1 1 = false ∧
     (let j : CopyJob := { restore := true, addr := 0x1000, unit := 1, units := 1 }
      ({ up with ckpt := { up.ckpt with busy := true, job := j } } : State).ckpt.job.restore = true) ∧
     unitsDead { up with mc := up.mc.map (fun m => { m with failed := List.finRange 72 }) } 1 1 = true) := by decide +kernel

theorem test_checkpoint_restores_a_unit :
    (let job : CopyJob := { restore := true, addr := 0x1000, unit := 1, units := 1 }
     seen (exec (.ckptCopyDone false) { up with ckpt := { up.ckpt with busy := true, job, reserve := [(1024, 7), (1984, 9)] } })
       (fun s => (s.byte 0x1000, s.byte 0x13C0, s.ckpt.busy)) = some (7, 0, false)) := by decide +kernel

/-! ### Palnex, Wilvar and the cadence (14) -/

/-- A member with both control lanes trained. -/
def linked : State := { up with pnx := { up.pnx with c0Up := true, c1Up := true } }
/-- A frame with its length. -/
def frame (type cls : Byte) (payload : List Byte) (seq : U32 := 0) : Frame :=
  ({ type, len := BitVec.ofNat 16 payload.length, seq, cls, tag := 9, payload } : Frame).seal

theorem witness_ControlFrames :
    linked.running = true ∧ linked.pnx.laneUp false = true ∧ linked.pnx.laneUp true = true ∧ up.pnx.laneUp true = false ∧
    (let f := frame 1 0x40 []
     frameIntact f = true ∧ frameIntact (frame 3 0 []) = true ∧ frameIntact (frame 2 0 []) = true ∧ knownClass f.cls = true ∧
     f.seq = linked.pnx.rxNext ∧ linked.pnx.cmds.length < 256 ∧ 256 ≤ (List.replicate 256 f).length ∧
     Frame.crcOk { f with crc := 0 } = false ∧ (frame 2 0 [1, 0, 0, 0]).crcOk = true ∧ (frame 2 0 [1, 0, 0, 0]).len ≠ 0 ∧
     2 ^ 31 ≤ ((0xFFFFFFFF : U32) - linked.pnx.rxNext).toNat ∧ ((1 : U32) - linked.pnx.rxNext).toNat < 2 ^ 31) := by decide +kernel

theorem witness_ControlFrames_timers :
    (let s : State := { linked with pnx := { linked.pnx with txBuf := [(frame 1 0x40 [], 0), (frame 1 0x40 [] 1, 1)] }, tb := 6000 }
     s.pnx.txBuf.findIdx? (fun x => decide (6000 ≤ (s.tb - x.2).toNat)) = some 0 ∧ 5000 ≤ (s.tb - s.pnx.lastTx[laneIx true]).toNat ∧
     (∀ x ∈ linked.pnx.txBuf, decide (6000 ≤ (linked.tb - x.2).toNat) = false) ∧ s.pnx.lost = false ∧
     30000 ≤ (({ s with tb := 30000 } : State).tb - s.pnx.lastRx).toNat ∧ (s.tb - s.pnx.lastRx).toNat < 30000) := by decide +kernel

/-- 14 Table 14-3: in order ACCEPTED, ahead GAP, behind DUP. -/
theorem test_command_answers :
    seen (exec (.commandFrame false (frame 1 0x40 [])) linked) (fun s => (match s.reply with | .frame a => a.status | _ => 9, s.pnx.cmds.length))
      = some (0, 1)
    ∧ seen (exec (.commandFrame false (frame 1 0x40 [] 1)) linked) (fun s => (match s.reply with | .frame a => a.status | _ => 9, s.pnx.cmds.length))
      = some (2, 0)
    ∧ seen (exec (.commandFrame false (frame 1 0x40 [] 0xFFFFFFFF)) linked)
      (fun s => (match s.reply with | .frame a => a.status | _ => 9, s.pnx.cmds.length)) = some (1, 0) := by decide +kernel

/-- An inbound and an outbound stream on a channel of 8 lanes. -/
def streaming : State := { up with pnx := { up.pnx with sWidth := 8, streams := [⟨7, 1, 5, 0x1000, 64, [], false⟩, ⟨8, 3, 0xFFFF, 0, 64, [], false⟩] } }

/-- 64 bytes of stream 7 at offset 0, of type DATA_IN. -/
def streamPacket : StreamPacket := StreamPacket.seal ⟨1, 7, 64, 0, 0, 0, 0, List.replicate 64 3, 0⟩

theorem witness_Streams :
    streaming.running = true ∧ streaming.pnx.sending = none ∧ (streaming.pnx.find 7).isSome = true ∧ streaming.pnx.find 9 = none ∧
    inboundType 1 = true ∧ outboundType 3 = true ∧ outboundType 1 = false ∧ streaming.pnx.sWidth ≠ 0 ∧ up.pnx.sWidth = 0 ∧
    (∀ g : Fin 4, streaming.prog g = none) ∧
    (let k := streamPacket
     k.crcOk = true ∧ k.type ≠ 0 ∧ creditsOf k.data.length ≤ streaming.pnx.rxFree (Fin.ofNat 8 k.type.toNat) ∧
     StreamPacket.crcOk { k with crc := 0 } = false ∧ (∀ t : Fin 8, streaming.pnx.rxHeld[t] = 0) ∧
     ({ streaming.pnx with rxHeld := Vector.replicate 8 128 } : Pnx).rxFree (Fin.ofNat 8 k.type.toNat) < creditsOf k.data.length ∧
     k.lseq = streaming.pnx.rxLseq ∧ (k.lseq + 1) ≠ streaming.pnx.rxLseq ∧ k.offset.toNat + k.data.length ≤ 64 ∧
     ok (gate (streaming.wakeSlots []) true (slotsOf [(0x1000, 64)]))) ∧
    (let x : Sending := ⟨8, 0, none, 0, 64, 64⟩
     x.len ≤ x.sent ∧ ({ x with sent := 63 } : Sending).sent < x.len) ∧
    (let d : Stream := ⟨7, 1, 5, 0x1000, 64, [(0, 64)], false⟩
     d.landed = [(0, d.length.toNat)]) := by decide +kernel

theorem test_stream_packet_lands :
    seen (exec (.streamPacketArrival streamPacket) streaming)
      (fun s => (s.byte 0x1000, s.byte 0x103F, s.byte 0x1040, s.pnx.rxLseq)) = some (3, 3, 0, 1) := by decide +kernel

/-- A job of 2 members along X, port W0 trained. -/
def joined : State :=
  { up with
    pnx := { up.pnx with job := some 5 }, wlv := up.wlv.set 0 { up.wlv[0] with trained := true, width := 3 },
    cad := { up.cad with extents := 0x100 } }

theorem witness_WilvarPorts :
    joined.running = true ∧ joined.pnx.job.isSome = true ∧ joined.wlv[(0 : Fin 6)].trained = true ∧
    joined.wlv[(0 : Fin 6)].miscabled = false ∧ 1 < joined.cad.extent ((0 : Fin 6).val / 2) ∧ joined.wlv[(1 : Fin 6)].trained = false ∧
    joined.wlv[(1 : Fin 6)].wakeAt = none ∧ 100000 ≤ ((100000 : U64) - 0).toNat ∧ nextHop joined.cad 0x100 = some 0 ∧
    (0x100 : BitVec 12) ≠ joined.cad.coord ∧ expectedPeer joined.cad 0 = 0x100 := by decide +kernel

/-- A packet for this member, one to forward past the edge of the torus, a refusal, and one that leaves at the port's turn. -/
theorem witness_WilvarPorts_packets :
    (let k : WilvarPacket := { dest := 0, source := 0x100, offset := 0, op := .write [1] false, net := .request }
     let far : WilvarPacket := { k with dest := 0x100 }
     let back : WilvarPacket := { k with net := .response, op := .refused 0 8 5 }
     let waits : State := { joined with wlv := joined.wlv.set 0 { joined.wlv[(0 : Fin 6)] with
       nets := joined.wlv[(0 : Fin 6)].nets.set 0 { queues := (Vector.replicate 7 []).set 6 [(far, 0, false)] } } }
     k.dest = joined.cad.coord ∧ k.net = .request ∧ far.dest ≠ joined.cad.coord ∧ nextHop joined.cad far.dest = some 0 ∧
     back.dest = joined.cad.coord ∧ back.net = .response ∧
     (match pickSender (fun k => k.wsrc.toNat) wilvarCost
        ((waits.wlv[(0 : Fin 6)].nets[waits.wlv[(0 : Fin 6)].lastNet + 1]).promote (fabricCycles waits.tb)) with
      | some (i, N) => i == 6 && decide (N.queues[i] = [(far, 0, false)])
      | none => false) = true) := by decide +kernel

theorem test_port_sends :
    (let far : WilvarPacket := { dest := 0x100, source := 0, offset := 0, op := .write [1] false, net := .request }
     let waits : State := { joined with wlv := joined.wlv.set 0 { joined.wlv[(0 : Fin 6)] with
       nets := joined.wlv[(0 : Fin 6)].nets.set 0 { queues := (Vector.replicate 7 []).set 6 [(far, 0, false)] } } }
     ((waits.portSend 0).wlvOut.map (fun x => (x.1, x.2.dest)), (waits.portSend 0).wlv[(0 : Fin 6)].tx) = ([(0, 0x100)], 1)) := by
  decide +kernel

theorem test_wilvar_width :
    seen (exec (.wilvarTrain 3 15) up) (fun s => (s.wlv[(3 : Fin 6)].width, s.wlv[(3 : Fin 6)].trained)) = some (2, true)
    ∧ seen (exec (.wilvarTrain 3 3) up) (fun s => (s.wlv[(3 : Fin 6)].width, s.wlv[(3 : Fin 6)].trained)) = some (0, false) := by
  decide +kernel

theorem witness_Announcements :
    (let a : Announce := { kind := 5, point := 0, origin := 0x100, seq := 1, stamp := 0 }
     joined.running = true ∧ joined.pnx.job.isSome = true ∧ joined.wlv[(0 : Fin 6)].trained = true ∧
     (a.origin, a.seq) ∉ joined.cad.seen ∧ ((0x100 : BitVec 12), (1 : BitVec 16)) ∈ ({ joined.cad with seen := [(0x100, 1)] } : Cad).seen ∧
     joined.tb.toNat ≤ (a.stamp.toNat + 8000 + 19999) / 20000 * 20000 ∧ (0 + 8000 + 19999) / 20000 * 20000 < (20001 : U64).toNat) := by
  decide +kernel

theorem test_halt_holds_waits :
    seen (exec (.announceHalt 0 ⟨5, 0, 0x100, 1, 0⟩) joined) (fun s => (s.holdWaits, s.cad.halts)) = some (true, 1)
    ∧ seen (exec (.announceResume 0 ⟨6, 0, 0x100, 2, 0⟩) { joined with holdWaits := true, cad := { joined.cad with haltsHeld := [0x100] } })
      (fun s => (s.holdWaits, s.cad.haltsHeld)) = some (false, []) := by decide +kernel

/-- A member at (1, 0, 0) with W0 as its parent's port. -/
def child : State := { joined with cad := { joined.cad with coord := 0x100, parent := some 0, exchangeAt := 0 }, tb := 10000 }

theorem witness_TimebaseAndEpochs :
    child.running = true ∧ child.cad.coord ≠ 0 ∧ child.cad.parent = some 0 ∧ child.wlv[(0 : Fin 6)].trained = true ∧
    10000 ≤ (child.tb - child.cad.exchangeAt).toNat ∧ (({ child with tb := 9999 } : State).tb - 0).toNat < 10000 ∧
    ({ child with wlv := up.wlv } : State).wlv[(0 : Fin 6)].trained = false ∧ child.tb.toNat / 20000 = child.cad.epoch ∧
    ({ child with tb := 20000 } : State).tb.toNat / 20000 ≠ child.cad.epoch := by decide +kernel

theorem test_sync_offset :
    seen (exec (.syncExchange ⟨0, 1000, 1500, 1700, 42⟩) child) (fun s => (s.cad.offset, s.tb)) = some (400, 42) := by decide +kernel
theorem test_epoch_without_target_is_op0 :
    seen (exec (.epochBoundary ⟨0, 0⟩) { up with tb := 20000, disc := { up.disc with opNow := 3 } })
      (fun s => (s.disc.opNow, s.cad.epoch)) = some (0, 1) := by decide +kernel

/-! ### Herd (15) -/

/-- Herd ready, one command in its buffer. -/
def commanded (f : Frame) (s : State := up) : State :=
  { s with herd := { s.herd with ready := true }, pnx := { s.pnx with cmds := [f] } }
/-- What `Claims.served` asks. -/
def served (s : State) (f : Frame) (cls : Byte) : Bool :=
  s.herdUp && s.sendRoom && decide (s.pnx.cmds = [f]) && f.cls == cls

/-- JOB_OPEN of job 5 at (1, 0, 0) of extents (2, 1, 1), and at the largest coordinate of 16 × 16 × 16. -/
def jobOpenF : Frame := frame 1 0x01 (leBytes 8 5 ++ [1, 0, 0, 2, 1, 1])
def streamOpenF (type base : Nat) : Frame := frame 1 0x03 ([7, BitVec.ofNat 8 type, 5, 0, 0, 0, 0, 0] ++ leBytes 8 base ++ leBytes 8 64)

theorem witness_JobAndStreamCommands :
    served (commanded (frame 1 0x01 [])) (frame 1 0x01 []) 0x01 = true ∧ up.herdUp = false ∧
    ({ (commanded jobOpenF) with pnx := { up.pnx with txBuf := List.replicate 64 (jobOpenF, 0) } } : State).sendRoom = false ∧
    served (commanded jobOpenF) jobOpenF 0x01 = true ∧ plForm jobOpenF 14 (fun i => i < 14) = true ∧
    (∀ d < 3, plNum jobOpenF (8 + d) 1 < 16 ∧ plNum jobOpenF (11 + d) 1 ≤ 16 ∧ plNum jobOpenF (8 + d) 1 < plNum jobOpenF (11 + d) 1) ∧
    (let f := frame 1 0x01 (leBytes 8 5 ++ [15, 15, 15, 16, 16, 16])
     plForm f 14 (fun i => i < 14) = true ∧ ∀ d < 3, plNum f (8 + d) 1 < 16 ∧ plNum f (11 + d) 1 ≤ 16 ∧ plNum f (8 + d) 1 < plNum f (11 + d) 1) ∧
    (commanded jobOpenF).pnx.job = none ∧ (commanded jobOpenF).herd.noJobs = false ∧ (commanded jobOpenF).herd.outOfService = false ∧
    joined.pnx.job = some (BitVec.ofNat 64 (plNum (frame 1 0x02 (leBytes 8 5)) 0 8)) ∧ plForm (frame 1 0x02 (leBytes 8 5)) 8 (fun i => i < 8) = true ∧
    plForm (streamOpenF 5 0x1000) 24 (fun i => i < 4 || (8 ≤ i && i < 24)) = true ∧ plNum (streamOpenF 5 0x1000) 8 8 % 64 = 0 ∧
    up.pnx.find 7 = none ∧ mapped 0x1000 64 = true ∧ mapped 0x8000000000 64 = false ∧ (streaming.pnx.find 7).isSome = true ∧
    plForm (frame 1 0x04 [7]) 1 (fun i => i < 1) = true ∧ plForm (frame 1 0x40 []) 0 (fun _ => false) = true ∧
    plForm (frame 1 0x30 [0xFF]) 1 (fun i => i < 1) = true ∧ plNum (frame 1 0x30 [0xFF]) 0 1 = 0xFF ∧ plNum (frame 1 0x30 [3]) 0 1 < 4 := by
  decide +kernel

/-- The status with which Herd answered last. -/
def answer (s : State) : List Byte := (s.pnx.txBuf.getLast?.map (·.1.payload)).getD []

theorem test_jobOpen : seen (exec .jobOpen (commanded jobOpenF)) (fun s => (s.pnx.job, s.cad.coord, s.cad.extent 0, answer s))
    = some (some 5, 0x100, 2, [0, 0, 0, 0]) := by decide +kernel
theorem test_second_job_is_refused :
    seen (exec .jobOpen (commanded jobOpenF joined)) (fun s => (s.pnx.job, answer s)) = some (some 5, [1, 0, 0, 0])
    ∧ seen (exec .jobOpen (commanded (frame 1 0x01 [5]))) answer = some [2, 0, 0, 0] := by decide +kernel
theorem test_streamOpen_type_is_checked :
    seen (exec .streamOpen (commanded (streamOpenF 5 0x1000))) (fun s => (s.pnx.streams.length, answer s)) = some (1, [0, 0, 0, 0])
    ∧ seen (exec .streamOpen (commanded (streamOpenF 6 0x1000))) (fun s => (s.pnx.streams.length, answer s)) = some (0, [1, 0, 0, 0]) := by
  decide +kernel

/-- Where polder 0's scratchpad begins. -/
def scratchBase : U64 := 0x10000000000

/-- A plan of one polder and one micro-batch, and a program bound by it with two slots. -/
def plan : BindPlan :=
  { level := 3, reaches := [{ polders := [0], holds := [⟨scratchBase + 0x1000, scratchBase, [], []⟩] }], visits := [0] }
def prog : Prog :=
  { model := 7, training := false, tMax := 32, prefill := 32, key := 0, poolBase := 0, poolLen := 0, plan,
    tables := { slots := [none, none], steps := [0] } }
/-- A running module with a job, the model 7 and a program at 0. -/
def serving (P : Prog := prog) : State :=
  { joined with herd := { up.herd with ready := true, models := [(7, 0x1000, 64)], progs := up.herd.progs.set 0 (some P) } }
def bindF (slots : Nat) : Frame :=
  frame 1 0x11 (leBytes 4 7 ++ [1, 0, 0, 0] ++ leBytes 4 slots ++ leBytes 4 0 ++ leBytes 4 32 ++ List.replicate 28 0)
def submitF (id : Nat) : Frame :=
  frame 1 0x20 (leBytes 8 id ++ [0, 0, 0, 0] ++ leBytes 4 1 ++ leBytes 4 1 ++ List.replicate 44 0 ++ leBytes 4 99)
def trainF : Frame := frame 1 0x28 ([0, 1, 0, 0] ++ leBytes 4 0 ++ leBytes 4 1 ++ List.replicate 20 0 ++ [1, 0, 1, 0] ++ List.replicate 28 0)
def run : TrainRun := runOf trainF 0

theorem witness_ProgramCommands_bind :
    (let load := frame 1 0x10 (leBytes 4 9 ++ leBytes 4 0 ++ leBytes 8 0x2000 ++ leBytes 8 64)
     served (commanded load (serving)) load 0x10 = true ∧ plForm load 24 (fun i => i < 4 || (8 ≤ i && i < 24)) = true ∧
     (commanded load (serving)).pnx.job.isSome = true ∧ (commanded load).pnx.job = none) ∧
    bindForm (bindF 254) = true ∧ bindForm (bindF 255) = true ∧ (serving).slotSum + 254 = 256 ∧ 256 < (serving).slotSum + 255 ∧
    bindFits (serving) 1 plan 254 32 (bindRegions plan 0 0) = true ∧ bindFits (serving) 0 plan 254 32 [] = false ∧
    bindFault (serving) 1 { plan with level := 4 } 254 32 [] = some (0x02, 4) ∧
    bindFault (serving) 1 { plan with reaches := plan.reaches ++ plan.reaches } 254 32 [] = some (0x05, 0) ∧
    bindFault (serving) 1 { plan with visits := [0, 0] } 253 32 [] = some (0, 0) ∧
    tiledPlan (serving) (tilerKey (serving) 7 false 254 0 32) plan = plan ∧ plNum (bindF 254) 4 1 = 1 ∧
    (∃ m ∈ (serving).herd.models, m.1 = BitVec.ofNat 32 (plNum (bindF 254) 0 4)) := by decide +kernel

theorem witness_ProgramCommands_requests :
    (let one := fun (c : Byte) => plForm (frame 1 c [0]) 1 (fun i => i < 1) && decide (plNum (frame 1 c [0]) 0 1 < 4)
     one 0x12 = true ∧ one 0x13 = true ∧ one 0x29 = true) ∧ (serving).prog 0 = some prog ∧ (serving).prog 3 = none ∧
    prog.replaying = false ∧ submitForm (submitF 1) = true ∧ submitRefusal (serving) 0 (requestOf (serving) (submitF 1)) = none ∧
    submitRefusal (serving) 0 (requestOf (serving) (submitF 0)) = some 2 ∧ submitRefusal (serving) 1 (requestOf (serving) (submitF 1)) = some 1 ∧
    (let q := requestOf (serving) (submitF 1)
     let live : LiveSeq := { req := q, decode := false, done := 0, made := 0, pages := [], order := 0 }
     plForm (frame 1 0x21 (leBytes 8 1)) 8 (fun i => i < 8) = true ∧ [q].any (fun q => q.id == 1) = true ∧
     ({ slots := [some live] } : ProgTables).live.any (fun q => q.req.id == 1) = true ∧
     prog.tables.queue.any (fun q => q.id == 1) = false ∧ prog.tables.live.any (fun q => q.req.id == 1) = false) := by decide +kernel

theorem witness_ProgramCommands_training :
    trainForm trainF = true ∧ plNum trainF 0 1 = 0 ∧ prog.training = false ∧ ({ prog with stopped := true } : Prog).stopped = true ∧
    ({ prog with training := true } : Prog).tables.train = none ∧ run.external = false ∧ ¬ (32180797440 < plan.ckptBytes) ∧
    32180797440 < ({ plan with ckptBytes := 32180797441 } : BindPlan).ckptBytes := by decide +kernel

theorem test_submit_queues :
    seen (exec .reqSubmit (commanded (submitF 1) (serving))) (fun s => (answer s, (s.prog 0).map (fun P => P.tables.queue.map (·.id))))
      = some ([0, 0, 0, 0], some [1])
    ∧ seen (exec .reqSubmit (commanded (submitF 0) (serving))) answer = some [1, 2, 0, 0] := by decide +kernel
theorem test_bind_takes_the_polder :
    seen (exec (.progBind plan) (commanded (bindF 254) (serving))) (fun s => (answer s, s.ownerOf 0, (s.prog 1).isSome)) = some ([0, 0, 0, 0], 2, true)
    ∧ seen (exec (.progBind plan) (commanded (bindF 255) (serving))) (fun s => (answer s, (s.prog 1).isSome)) = some ([1, 7, 0, 0], false) := by
  decide +kernel

theorem witness_HerdServices :
    (serving).herdUp = true ∧ (serving).prog 0 = some prog ∧ prog.stopped = false ∧ prog.training = false ∧ 0 < prog.m ∧
    prog.replay = [] ∧ (serving).pnx.txBuf.length + prog.cancels.length ≤ 64 ∧
    (∀ i < 2, ∀ q, prog.tables.slots[i]? = some (some q) → prog.tables.samples q = true → False) ∧
    (let h := (serving).onPolder 0 (fun P => { P with seq := { P.seq with halted := true } })
     firstHalted h = some 0 ∧ (h.progOf 0).map (·.1) = some 0 ∧ firstHalted (serving) = none) ∧
    (serving).sendRoom = true ∧ ({ (serving) with herd := { (serving).herd with events := [(0x13, [1])] } } : State).herd.events = [(0x13, [1])] ∧
    ({ prog.tables with train := some run } : ProgTables).train = some run ∧ run.steps ≤ run.step + 1 - run.first ∧
    ¬ (({ run with steps := 2 } : TrainRun).steps ≤ run.step + 1 - run.first) := by
  refine ⟨by decide +kernel, by decide +kernel, rfl, rfl, by decide, rfl, by decide +kernel, ?_, by decide +kernel, by decide +kernel,
    by decide +kernel, rfl, by decide +kernel, by decide +kernel⟩
  intro i hi q h
  have : i = 0 ∨ i = 1 := by omega
  rcases this with rfl | rfl <;> simp [prog] at h

theorem witness_HerdServices_rollback :
    (serving).integ.cause = none ∧ sitesOf (serving) .herdFailure = [] ∧ sitesOf (serving) (.line 0) = [] ∧
    rollCause { (serving) with integ := { (serving).integ with cause := some (.line 0) } } ⟨.planned, true, .done, false⟩ = some (.line 0) ∧
    rollCause (serving) ⟨.joined, true, .done, false⟩ = some .joined ∧ rollCause (serving) ⟨.planned, true, .done, false⟩ = none ∧
    (serving).rollStart.rollWaits = false ∧ ({ (serving) with transfers := copying.transfers } : State).rollStart.rollWaits = true ∧
    (let c := { (serving).ckpt with busy := true }
     c.job.restore = false ∧ ({ c with job := { restore := true } } : Ckpt).job.restore = true) := by decide +kernel

/-- The site of a polder with a spare in its quadrant. -/
theorem witness_HerdServices_spare :
    logicalAt up.disc (up.disc.siteOf[(0 : Pid)]) = some 0 ∧ (spareFor up.disc (up.disc.siteOf[(0 : Pid)])).isSome = true := by decide +kernel

theorem test_spare_takes_the_number :
    (let n := up.disc.siteOf[(0 : Pid)]
     let r := (up.activate n true).1
     (some r.disc.siteOf[(0 : Pid)] = spareFor up.disc n) ∧ r.disc.state[n] = 2 ∧ r.disc.mapGen = up.disc.mapGen + 1 ∧
     ((up.activate n false).1).disc.mapGen = up.disc.mapGen + 1) := by decide +kernel

/-- A training run whose batch has landed, one whose batch has not, and one with its launches made. -/
theorem witness_HerdServices_training :
    (let P : Prog := { prog with training := true, tables := { prog.tables with train := some { run with batch := 1, len := 4 } } }
     let t : TrainRun := { run with batch := 1, len := 4 }
     let s := serving P
     let fed := { s with pnx := { s.pnx with streams := [⟨run.data, 1, 5, 0x1000, 64, [(0, 16)], false⟩] } }
     s.herdUp = true ∧ s.prog 0 = some P ∧ P.stopped = false ∧ P.tables.train = some t ∧ P.replay = [] ∧ s.integ.rolling = false ∧
     t.launched = false ∧ batchLanded s t = false ∧ batchLanded fed t = true ∧ ({ t with launched := true } : TrainRun).left = []) := by
  decide +kernel

theorem test_interrupt_of_a_halted_polder :
    (let h := (serving).onPolder 0 (fun P => { P with seq := { P.seq with halted := true } })
     (List.range 7).map h.interrupts = [false, true, false, false, false, false, false]) := by decide +kernel

/-- The 90 masks of 15 R363, and the choice for a block whose large magnitudes stand on two diagonals. -/
theorem test_masks : allowedMasks.length = 90 ∧ chooseMask [9, 1, 1, 8, 1, 9, 8, 1, 1, 8, 9, 1, 8, 1, 1, 9] = 0x9669 := by
  decide +kernel

/-- 12 R272, R278, R281 and 06 R107 on small values: 4,097 rows are two tiles of 2,049; blocks of a square of side 2 go round; 6
polders over 4 row and 3 column tiles split 2 by 3; 7 deal to 3 as 3, 2, 2; a ratio of 1 shifts by 31. -/
theorem test_tiler_decisions :
    (let L : Layer := { k := 40000, cols := 300, wWidth := 8, aWidth := 8, ratios := [(1, 1)] }
     L.accX = true ∧ L.rowTiles 2049 = 2 ∧ L.tileRows 2049 = 1025 ∧ L.chunks = [(0, 32768), (32768, 7232)] ∧ L.colTiles = 3 ∧
     ({ L with k := 100 } : Layer).accX = false ∧ ({ L with k := 100 } : Layer).tileRows 4097 = 2049) ∧
    visitOrder 2 2 = [(0, 0), (1, 0), (1, 1), (0, 1)] ∧ chooseSplit 6 4 3 = some (2, 3) ∧ chooseSplit 7 4 3 = none ∧
    (List.range 3).map (dealt 7 3) = [(0, 3), (3, 2), (5, 2)] ∧ shiftOf [(1, 1)] = 31 ∧ multiplier 31 (1, 1) = 0x80000000 ∧
    microBatchesOf { plan with visits := [0, 1, 0] } = 4 := by decide +kernel

/-- Rows of a layer, ratios whose multipliers fit and do not, a grid, a split. -/
theorem witness_ProgramCommands_tiler :
    (1 ≤ 4097) ∧ (∀ r ∈ [(1, 3)], multiplier 0 r < 2 ^ 32) ∧ ¬ multiplier 0 (2 ^ 32, 1) < 2 ^ 32 ∧ max 3 5 ≤ 2 ^ 63 ∧
    plan.visits.length ≤ 2 ^ 63 := by decide +kernel

theorem test_boundary_counts :
    seen (exec (.microbatchBoundary 0 0 []) (serving)) (fun s => (s.prog 0).map (fun P => (P.tables.boundaries, P.tables.steps)))
      = some (some (1, [1])) := by decide +kernel
theorem test_fault_handler_stops_the_program :
    seen (exec (.herdFaultHandler 0) ((serving).onPolder 0 (fun P => { P with seq := { P.seq with halted := true } })))
      (fun s => ((s.prog 0).map (·.stopped), (s.polders[(0 : Pid)]).seq.halted)) = some (some true, false) := by decide +kernel

/-! ### Power, sensors, trips (16) -/

theorem witness_PowerControl :
    (let t := task []
     can (withTask t) 0 t ∧ acc t { level := 2, imm := 0x3FFFFF } { imm := 0x3FFFFF } ∧ acc t { level := 2, imm := 0x1FF } { imm := 0x1FF } ∧
     acc t { level := 2, rd := .any } { rd := 31 } ∧
     ((withTask t).polders[(0 : Pid)]).hints.length < 16 ∧ (List.replicate 16 ((0 : Fin 4), (0 : BitVec 6), (0 : U64), (0 : BitVec 16))).length = 16) ∧
    up.running = true ∧ up.arithOn = true ∧ up.pm.rails[(13 : Fin 14)].window = (({ up with tb := 10000 } : State).tb.toNat / 1000 - 1) / 10 ∧
    (({ up with tb := 11000 } : State).tb.toNat / 1000 - 1) / 10 ≠ up.pm.rails[(0 : Fin 14)].window ∧
    up.pm.rails[(0 : Fin 14)].window < ({ up with tb := 10000 } : State).tb.toNat / 10000 ∧ up.tb.toNat / 10000 ≤ up.pm.rails[(0 : Fin 14)].window ∧
    10 * up.pm.rails[(0 : Fin 14)].limit.toNat < [1].sum + up.pm.estimate[(0 : Fin 14)] * (10 - 1) ∧
    ¬ (10 * up.pm.rails[(0 : Fin 14)].limit.toNat < [0].sum + up.pm.estimate[(0 : Fin 14)] * (10 - 1)) ∧
    1000000 ≤ (({ up with tb := 1000000 } : State).tb - 0).toNat ∧ (({ up with tb := 999999 } : State).tb - 0).toNat < 1000000 ∧
    up.pm.droop[(3 : Fin 4)] = false ∧ up.pm.estCut = none ∧ up.tb.toNat < up.pm.estStart.toNat + 2000 ∧
    up.pm.estStart.toNat + 2000 ≤ ({ up with tb := 2000 } : State).tb.toNat ∧ up.pm.jobFrom = none ∧
    up.pm.bermStep[(0 : Fin 4)] = up.tb.toNat / 125 ∧ up.pm.bermStep[(0 : Fin 4)] ≠ ({ up with tb := 125 } : State).tb.toNat / 125 ∧
    up.pm.a1[(0 : Fin 4)] = false ∧ quadIdle up 0 = true ∧ 1000 ≤ (({ up with tb := 1000 } : State).tb - up.pm.idleAt[(0 : Fin 4)]).toNat := by
  decide +kernel

theorem test_berm_moves_one_unit :
    seen (exec (.bermStep 0 ⟨7, 0, 0⟩) { up with tb := 125 }) (fun s => s.pm.berm[(0 : Fin 4)]) = some 1 := by decide +kernel
theorem test_a1_after_one_microsecond :
    seen (exec (.a1Entry 0) { up with tb := 1000 }) (fun s => s.pm.a1[(0 : Fin 4)]) = some true
    ∧ seen (exec (.a1Entry 0) { up with tb := 999 }) (fun s => s.pm.a1[(0 : Fin 4)]) = some false := by decide +kernel
theorem test_seventeenth_hint_overwrites :
    seen (exec (.pwHint 0 { imm := 7 }) ((withTask (task [])).onPolder 0 (fun P => { P with hints := List.replicate 16 (0, 1, 0, 0) })))
      (fun s => ((s.polders[(0 : Pid)]).hints.length, (s.polders[(0 : Pid)]).hints.getLast?.map (·.2.1))) = some (16, some 7) := by decide +kernel

theorem witness_PowerStates :
    up.pm.entering = none ∧ up.unused = true ∧ joined.unused = false ∧ (up.pm.ctl.extractLsb' 8 8).toNat = 10 ∧
    1000000 * 10 ≤ (({ up with tb := 10000000 } : State).tb - up.pm.idleSince).toNat ∧
    (({ up with tb := 9999999 } : State).tb - up.pm.idleSince).toNat < 1000000 * 10 ∧
    (let s : State := { up with pm := { up.pm with entering := some .s2 } }
     s.pm.entering = some .s2 ∧ s.pm.entering.isSome = true) ∧
    (let z : State := { up with pm := { up.pm with state := .s1, wakeLatched := true } }
     z.pm.state = .s1 ∧ z.pm.wakeLatched = true ∧ z.pm.entering = none ∧ z.mgt.updates = [] ∧ z.pm.state ≠ .off ∧ z.pm.state ≠ .refused) ∧
    up.pm.wakeLatched = false := by decide +kernel

theorem test_s2_loses_the_scratchpads :
    seen (exec .powerStateEntryComplete (put 0x10000000000 [5] (put 0x1000 [6] { up with pm := { up.pm with entering := some .s2 } })))
      (fun s => (s.byte 0x10000000000, s.byte 0x1000)) = some (0, 6) := by decide +kernel
theorem test_wake_source_is_recorded :
    seen (exec .wakeNAssert { up with pm := { up.pm with state := .s1 }, tb := 77 }) (fun s => (s.gander.wakeSrc, s.gander.wakeTime))
      = some (9, 77) := by decide +kernel

/-- G0 watches the hottest sensor: 115 °C is 0x398, the hysteresis 20 °C (16 Table 16-8). -/
theorem witness_GanderAndTrip :
    (let g := up.gander
     let src := g.cmp[(0 : Fin 8)].extractLsb' 18 4
     up.running = true ∧ (0 : Fin 8) ≠ 7 ∧ channelValid up src.toNat = true ∧ channelValid up 15 = false ∧ (src + 1) ≠ src ∧
     g.cmp[(0 : Fin 8)].getLsbD 27 = true ∧ g.cmp[(0 : Fin 8)].getLsbD 26 = false ∧ (g.thr[(0 : Fin 8)].extractLsb' 0 28).toInt = 0x398 ∧
     g.active[(0 : Fin 8)] = false ∧ up.pm.halted = false) ∧
    (920 ≤ (0x398 : U32).toInt ∧ ¬ 920 ≤ (0x397 : U32).toInt) ∧
    (let h : State := { up with pm := { up.pm with halted := true, coolSince := some 0, lockout := false }, tb := 1000000 }
     h.running = true ∧ h.pm.halted = true ∧ h.pm.coolSince = some 0 ∧ h.pm.lockout = false ∧ 1000000 ≤ (h.tb - 0).toNat) ∧
    2 ≤ (([1, 2] : List U64).filter (fun t => decide (((1000000000 : U64) - t).toNat < 1000000000))).length ∧
    (0 : U32).extractLsb' 28 4 ≠ up.owner 64 ∧ (0xF0000000 : U32).extractLsb' 28 4 = up.owner 64 ∧
    (0x20000000 : U32).extractLsb' 28 4 ≠ up.owner 66 := by decide +kernel

theorem test_g0_trips_at_its_threshold :
    (let src := up.gander.cmp[(0 : Fin 8)].extractLsb' 18 4
     seen (exec (.ganderSample 0 src 0x398) up) (fun s => (s.pm.halted, s.pm.trips)) = some (true, 1)
     ∧ seen (exec (.ganderSample 0 src 0x397) up) (fun s => (s.pm.halted, s.pm.trips)) = some (false, 0)) := by decide +kernel
/-- The trip at 115 °C stands apart from the comparator: G0 set to another channel does not mask it. -/
theorem test_trip_is_not_masked :
    (let s : State := { up with gander := { up.gander with cmp := up.gander.cmp.set 0 0xF80400A0 } }
     seen (exec (.ganderSample 0 0 0x398) s) (fun s => s.pm.halted) = some true
     ∧ seen (exec (.ganderSample 0 0 0x397) s) (fun s => s.pm.halted) = some false) := by decide +kernel
theorem test_wrong_owner_is_refused :
    seen (exec (.ganderCmpWrite 0 0) up) (fun s => (s.gander.refused, s.gander.cmp[(0 : Fin 8)])) = some (true, 0xF98000A0) := by decide +kernel

/-! ### Security and module hardware (17, 18) -/

/-- A boot whose measurements are recorded. -/
def measured : State :=
  { up with sec := { up.sec with measured := some ⟨[1], [2], false, 3, 4, [5], 1⟩, nonce := 6, debugLock := false } }

/-- The bytes of a token after its device: the nonce 6, all rights, the reserved word, a signature. -/
def tokenTail : List Byte := leBytes 32 6 ++ leBytes 4 7 ++ leBytes 4 0 ++ List.replicate 3309 0

/-- A token of this device meets the checks of 17 R420 but for its signature, of which no value is fixed (log entry 5). -/
theorem witness_AttestationAndDebug_token (dev : List Byte) (h : dev.length = 32) :
    (dev ++ tokenTail).length = 3381 ∧ (dev ++ tokenTail).take 32 = dev ∧
    leNat (((dev ++ tokenTail).drop 32).take 32) = measured.sec.nonce.toNat ∧ leNat (((dev ++ tokenTail).drop 64).take 4) = 7 ∧
    leNat (((dev ++ tokenTail).drop 68).take 4) = 0 ∧ ([] : List Byte).length ≠ 3381 := by
  have d : ∀ n, (dev ++ tokenTail).drop (32 + n) = tokenTail.drop n := by
    intro n
    rw [← h, List.drop_length_add_append]
  refine ⟨?_, ?_, ?_, ?_, ?_, by decide⟩
  · rw [List.length_append, h]; decide +kernel
  · rw [← h, List.take_left]
  · rw [show (32 : Nat) = 32 + 0 from rfl, d 0]; decide +kernel
  · rw [show (64 : Nat) = 32 + 32 from rfl, d 32]; decide +kernel
  · rw [show (68 : Nat) = 32 + 36 from rfl, d 36]; decide +kernel

theorem test_attestation_refuses_other_slots :
    seen (exec (.challenge 1 0) measured) (·.reply) = some (.bytes [0x7F, 1, 0])
    ∧ seen (exec (.unsupportedRequest 0x55) measured) (·.reply) = some (.bytes [0x7F, 7, 0x55]) := by decide +kernel
theorem test_wrong_length_token_grants_nothing : seen (exec (.debugToken [] [1]) measured) (fun s => (s.sec.granted, s.sec.nonce)) = some (0, 6) := by
  decide +kernel
theorem test_new_nonce_skips_zero : seen (exec (.secDbgNewNonce [0, 9]) measured) (·.sec.nonce) = some 9 := by decide +kernel

theorem witness_PowerUpAndDown :
    State.reset.pm.state = .off ∧ State.reset.mgt.downWaits = false ∧ (⟨3, 0⟩ : Straps).coolClass = 3 ∧ (⟨2, 0⟩ : Straps).coolClass ≠ 3 ∧
    up.pm.state ≠ .off ∧ up.flash.writing = false ∧ up.mgt.mrstWaits = none ∧ up.mgt.downWaits = false ∧
    ({ up with flash := { up.flash with writing := true } } : State).flash.writing = true ∧
    ({ up with mgt := { up.mgt with downWaits := true } } : State).mgt.downWaits = true := by decide +kernel

/-- A module that left service takes no jobs after a power-up. -/
theorem witness_PowerUpAndDown_log : up.flash.log.contains 1 = false ∧ ({ up with flash := { up.flash with log := [1] } } : State).flash.log.contains 1 = true := by
  decide +kernel

theorem test_strap_code_3_is_refused :
    seen (exec (.inputValid ⟨3, 0⟩ ⟨List.replicate 8 true, [], true, true, 0xFF⟩) State.reset) (fun s => (s.pm.state, s.mgt.strapRefused))
      = some (.refused, true) := by decide +kernel
theorem test_undervoltage_clears : seen (exec .vinUndervoltage (put 0x1000 [5] up)) (fun s => (s.pm.state, s.byte 0x1000)) = some (.off, 0) := by
  decide +kernel

theorem witness_I3cSidebandAndTap :
    State.reset.pm.state = .off ∧ up.pm.state ≠ .off ∧ up.pm.state ≠ .s2 ∧ (0x50 : BitVec 7).toNat = 0x50 + up.mgt.straps.addrSel.toNat ∧
    up.mgt.dynAddr = none ∧ (0xF0000000 : U32).extractLsb' 28 4 = up.owner 88 ∧ (0 : U32).extractLsb' 28 4 = up.owner 95 ∧
    (0 : U32).extractLsb' 28 4 ≠ up.owner 88 ∧ (6 : U32).extractLsb' 0 3 = 6 ∧ up.running = true ∧ up.pnx.job = none ∧
    (let a : State := { up with pm := { up.pm with a1 := Vector.replicate 4 true } }
     ∀ q : Fin 4, a.pm.a1[q] = true) := by decide +kernel

theorem test_i3c_idcode_and_extest :
    seen (exec .tapIdcode up) (·.reply) = some (.value 0x147360FB) ∧ seen (exec .tapExtest up) (·.mgt.tap) = some .bypass
    ∧ seen (exec .tapExtest { up with pm := { up.pm with a1 := Vector.replicate 4 true } }) (·.mgt.tap) = some .extest := by decide +kernel
theorem test_i3c_lengths_are_cut : seen (exec (.i3cSetmwl 300) up) (·.mgt.mwl) = some 256 := by decide +kernel

theorem witness_PldmServices :
    up.mgtRuns = true ∧ up.running = true ∧ sensorServed up (.channel 5) = false ∧ sensorServed up .energyTotal = true ∧ up.pm.entering = none ∧
    up.unused = true ∧ joined.unused = false ∧ joined.mgtRuns = true ∧ joined.pm.state ≠ .s1 ∧
    (let l : State := { up with pm := { up.pm with lockout := true } }
     l.mgtRuns = true ∧ l.pm.lockout = true) ∧ calOrigin [] = 0 ∧ up.sec.recovery = false ∧
    (let z : State := { up with pm := { up.pm with state := .s1 } }
     z.mgtRuns = true ∧ z.pm.state = .s1) ∧
    (let r : State := { up with pm := { up.pm with state := .refused } }
     r.mgtRuns = true ∧ r.pm.state = .refused) := by decide +kernel

theorem test_pldm_answer_interrupts :
    seen (exec .pldmSteppingRead up) (·.mgt.ibis) = some (up.mgt.ibis + 1)
    ∧ seen (exec .pldmSteppingRead { up with mgt := { up.mgt with events := 0 } }) (·.mgt.ibis) = some up.mgt.ibis := by decide +kernel
theorem test_update_goes_to_the_other_slot :
    seen (exec (.pldmFwUpdateImage ⟨[1], [2]⟩) up) (fun s => (s.flash.pending, s.flash.tries, s.flash.writing)) = some (some true, 3, true) := by
  decide +kernel

/-! ### Whole machine -/

theorem witness_FrontCommandRuns : (({ up with pending := [.wakeNAssert] } : State).pending = [.wakeNAssert]) ∧ up.pending = [] ∧
    up.pm.state ≠ .off ∧ up.cad.slew = 0 := by decide +kernel

theorem test_tick : seen (step up) (·.tb) = some 1 ∧ seen (step State.reset) (·.tb) = some 0 := by decide +kernel
theorem test_front_first :
    seen (step { up with pending := [.weirAddWrite 3 1, .weirAddWrite 3 7] }) (fun s => ((s.weir 3).count, s.pending.length)) = some (1, 1) := by
  decide +kernel

/-- The invariants hold in a state that has run. -/
theorem witness_invariants :
    (put 0x1000 [5] up).memoryCanonical ∧ (queued 8).queuesFit ∧ up.hardwareHolds := by
  refine ⟨by unfold State.memoryCanonical; decide +kernel, by unfold State.queuesFit; decide +kernel, ?_⟩
  refine ⟨by decide +kernel, ?_⟩
  intro m hm
  exact absurd hm (by simp [up, State.reset])

/-- The premises of a tick at which nothing is under way. -/
theorem witness_IdleTickAdvancesTimebase :
    (∀ p : Pid, (up.polders[p]).seq.owed = [] ∧ terpBusy up p = false ∧ (up.polders[p]).terp.ended = [] ∧ fetchStop up p = none) ∧
    up.bound.length = 0 ∧ up.herd.linkEvent = false ∧ up.pnx.job = none := by decide +kernel

/-- The check value of CRC-32 over the digits 1 to 9 (log entry 64). -/
theorem test_crc32 : crc32 [0x31, 0x32, 0x33, 0x34, 0x35, 0x36, 0x37, 0x38, 0x39] = 0xCBF43926 := by decide +kernel

/-- No row of the table gives bits, so no word spells a command. -/
theorem test_no_word_spells_a_command : decodeTableWord 16 0 = none ∧ State.reset.withFetchWord 16 0 = State.reset := ⟨rfl, rfl⟩

end Sys2Proof.Tests
end

section
/-! PROOFS. REGISTER_WRITE: its answers and the registers it writes (00 R8, R10; 09 R209). -/

namespace Sys2Proof.Machine

open Host (Outcome)

/-! ### Addresses and widths of registers -/

/-- The offset of a place within its range, where registers lie there. -/
def Place.regOffset : Place → Option Nat
  | .window _ o | .control o | .edge _ o | .system o => some o
  | _ => none

/-- Every register range starts at a multiple of 1 MiB (09 Table 9-13), so an address has the alignment of its offset. -/
theorem mod_of_place {a o : Nat} {x : Place} (hx : place a = x) (ho : x.regOffset = some o) : a % 0x100000 = o % 0x100000 := by
  subst hx
  unfold place at ho
  dsimp only at ho
  repeat' split at ho
  all_goals simp only [Place.regOffset, Option.some.injEq, reduceCtorEq] at ho
  all_goals omega

@[simp] theorem r64_wide (y : U64) : (r64 y).wide = true := rfl
@[simp] theorem r64_real (y : U64) : (r64 y).real = true := rfl
@[simp] theorem rsv_wide : rsv.wide = false := rfl
@[simp] theorem rsv_real : rsv.real = false := rfl

/-- Every register of the DISC block is 64 bits wide (09 R191). -/
theorem discReg_wide (d : Disc) (o : Nat) : (discReg d o).wide = (discReg d o).real := by
  simp only [discReg, apply_ite RegVal.wide, apply_ite RegVal.real, r64_wide, r64_real, rsv_wide, rsv_real]

/-! ### What a store does in a polder's window and in the DISC block -/

section
variable (s : State) (p : Pid) (v : U64)

theorem State.windowStore_stageBase : s.windowStore p 0x20 v = s.onSeq p (fun Q => { Q with stageBase := v }) := rfl
theorem State.windowStore_seqTasks : s.windowStore p 0x28 v = s := rfl
theorem State.windowStore_seqFaults : s.windowStore p 0x30 v = s := rfl
theorem State.windowStore_bpeCtl : s.windowStore p 0x1000 v =
    s.onPolder p (fun P => { P with bpe := { P.bpe with ctl := v.setWidth 32 &&& 3 } }) := rfl
theorem State.windowStore_eeStatus : s.windowStore p 0x7000 v =
    s.onPolder p (fun P => { P with ee := { P.ee with status := P.ee.status &&& ~~~ (v.setWidth 32 &&& 3) } }) := rfl
theorem State.windowStore_qzKey : s.windowStore p 0x4100 v =
    s.onPolder p (fun P => { P with qz := { P.qz with keys := P.qz.keys.set 0 v } }) := rfl

/-- The DISC block takes no write (09 R191). -/
theorem State.controlStore_disc {o : Nat} (h : o < 0x400) : s.controlStore o v = s := by
  have hres : o ≠ 0x10000 := by omega
  have hweir : ¬ (0x100000 ≤ o ∧ o < 0x108000) := by omega
  rw [State.controlStore, if_neg hres, if_neg hweir]

end

section
variable {s : State} {addr v : U64} {wide : Bool} {r : RegVal} {x : Place} {o : Nat}

/-! ### The answers of REGISTER_WRITE -/

theorem registerWrite_unmapped (hrun : s.running = true) (hr : regAt s (place addr.toNat) = none) :
    exec (.registerWrite addr wide v) s = .next { s with reply := .status 0x08 } := by
  simp only [exec_registerWrite, execRegisterWrite, whenRunning_on hrun, hr]

theorem registerWrite_misaligned (hrun : s.running = true) (hr : regAt s (place addr.toNat) = some r) (ha : addr.toNat % 4 ≠ 0) :
    exec (.registerWrite addr wide v) s = .next { s with reply := .status 0x0A } := by
  simp only [exec_registerWrite, execRegisterWrite, whenRunning_on hrun, hr, if_pos ha]

theorem registerWrite_wrongWidth (hrun : s.running = true) (hr : regAt s (place addr.toNat) = some r) (ha : addr.toNat % 4 = 0)
    (hreal : r.real = true) (hw : r.wide ≠ wide) :
    exec (.registerWrite addr wide v) s = .next { s with reply := .status 0x06 } := by
  simp [execRegisterWrite, whenRunning_on hrun, hr, ha, hreal, hw]

/-- A write that passes the checks is stored: one of the register's own width, or one at the start of a reserved double word. -/
theorem registerWrite_stored (hrun : s.running = true) (hx : place addr.toNat = x) (hr : regAt s x = some r)
    (ho : x.regOffset = some o) (h4 : o % 4 = 0) (hfit : if r.real then r.wide = wide else o % 8 = 0) :
    exec (.registerWrite addr wide v) s = .next ({ s with reply := .status 0 }.regStore x v) := by
  have hm := mod_of_place hx ho
  have ha : addr.toNat % 4 = 0 := by omega
  cases hreal : r.real with
  | true =>
    have hw : r.wide = wide := by simpa [hreal] using hfit
    simp [execRegisterWrite, whenRunning_on hrun, hx, hr, ha, hreal, hw]
  | false =>
    have h8 : o % 8 = 0 := by simpa [hreal] using hfit
    have ha8 : addr.toNat % 8 = 0 := by omega
    simp [execRegisterWrite, whenRunning_on hrun, hx, hr, ha, hreal, ha8]

/-! ### Writes in a register's own width -/

/-- A write of a polder's register is stored once the quadrant is out of A1 (16 R383). -/
theorem registerWrite_window {p : Pid} {t : State} (hrun : s.running = true) (hx : place addr.toNat = .window p o) (h4 : o % 4 = 0)
    (hreal : (windowRead s p o).real = true) (hw : (windowRead s p o).wide = wide)
    (ht : (({ s with reply := .status 0 } : State).wakeQuad (quadOf p)).windowStore p o v = t) :
    exec (.registerWrite addr wide v) s = .next t :=
  (registerWrite_stored hrun hx rfl rfl h4 (by rwa [if_pos hreal])).trans (congrArg Outcome.next ht)

/-- A write of a double word of the DISC block, reserved or not, changes only the reply. -/
theorem registerWrite_disc (hrun : s.running = true) (hx : place addr.toNat = .control o) (ho : o < 0x400) (h8 : o % 8 = 0) :
    exec (.registerWrite addr true v) s = .next { s with reply := .status 0 } := by
  have hr : regAt s (.control o) = some (discReg s.disc o) := by
    rw [regAt, controlReg, if_pos (by omega)]
  rw [registerWrite_stored hrun hx hr rfl (by omega) (by rw [discReg_wide]; split <;> assumption), State.regStore,
    State.controlStore_disc _ _ ho]

theorem registerWrite_pnxSendAddr (hrun : s.running = true) (hx : place addr.toNat = .edge 0 0x400008) :
    exec (.registerWrite addr true v) s = .next { s with reply := .status 0, pnx := { s.pnx with sendAddr := v } } :=
  registerWrite_stored hrun hx rfl rfl rfl rfl

theorem registerWrite_ckptAddr (hrun : s.running = true) (hx : place addr.toNat = .system 0x20008) :
    exec (.registerWrite addr true v) s = .next { s with reply := .status 0, ckpt := { s.ckpt with addr := v } } :=
  registerWrite_stored hrun hx rfl rfl rfl rfl

theorem registerWrite_ganderWov (hrun : s.running = true) (hx : place addr.toNat = .system 0x60018) :
    exec (.registerWrite addr false v) s =
      .next { s with reply := .status 0, gander := { s.gander with wov := v.setWidth 32 } } :=
  registerWrite_stored hrun hx rfl rfl rfl rfl

end

/-- Settles O17: each refused write by the check it fails; each register by its read (the width) and its store. -/
theorem registerWriteRules : Obligations.RegisterWriteRules := by
  unfold Obligations.RegisterWriteRules
  intro s addr wide v hstate
  have hrun : s.running = true := by simpa [State.running] using hstate
  refine ⟨registerWrite_unmapped hrun, fun r hr ha => registerWrite_misaligned hrun hr ha,
    fun r hr ha hreal hw => registerWrite_wrongWidth hrun hr ha hreal hw, ?window, ?disc, ?edge, ?ckpt, ?gander⟩
  case window =>
    intro p o hx h4
    refine ⟨?stageBase, ?counters, ?bpeCtl, ?eeStatus, ?qzKey⟩
    case stageBase =>
      rintro rfl rfl
      exact registerWrite_window hrun hx h4 rfl rfl (State.windowStore_stageBase _ p v)
    case counters =>
      rintro (rfl | rfl) rfl
      · exact registerWrite_window hrun hx h4 rfl rfl (State.windowStore_seqTasks _ p v)
      · exact registerWrite_window hrun hx h4 rfl rfl (State.windowStore_seqFaults _ p v)
    case bpeCtl =>
      rintro rfl rfl
      exact registerWrite_window hrun hx h4 rfl rfl (State.windowStore_bpeCtl _ p v)
    case eeStatus =>
      rintro rfl rfl
      exact registerWrite_window hrun hx h4 rfl rfl (State.windowStore_eeStatus _ p v)
    case qzKey =>
      rintro rfl rfl
      exact registerWrite_window hrun hx h4 rfl rfl (State.windowStore_qzKey _ p v)
  case disc =>
    rintro o hx ho h8 rfl
    exact registerWrite_disc hrun hx ho h8
  case edge =>
    rintro k hx rfl rfl
    exact registerWrite_pnxSendAddr hrun hx
  case ckpt =>
    rintro hx rfl
    exact registerWrite_ckptAddr hrun hx
  case gander =>
    rintro hx rfl
    exact registerWrite_ganderWov hrun hx

end Sys2Proof.Machine
end

section
/-! PROOFS. The state after reset: its tables entry by entry, the owners and the factory map, and the invariants (00 R9). -/

namespace Sys2Proof.Machine

/-! ### The tables after reset -/

theorem State.reset_polder (p : Pid) : State.reset.polders[p] = {} := Vector.getElem_replicate p.isLt
theorem State.reset_timer (n : Fin 16) : State.reset.timers[n] = {} := Vector.getElem_replicate n.isLt
theorem State.reset_mc (m : Fin 8) : State.reset.mc[m] = {} := Vector.getElem_replicate m.isLt
theorem State.reset_msc (k : Fin 4) : State.reset.msc[k] = {} := Vector.getElem_replicate k.isLt
theorem State.reset_router (n : Site) : State.reset.routers[n] = {} := Vector.getElem_replicate n.isLt
theorem State.reset_prog (g : Fin 4) : State.reset.prog g = none := Vector.getElem_replicate g.isLt

/-- The weir table is empty, so every weir reads as its default. -/
theorem State.reset_weir (w : Nat) : State.reset.weir w = {} := rfl

/-! ### Owners and sites -/

/-- Hardware owns its entries and nobody any other (09 R207, R208). -/
theorem State.reset_owner (e : Fin 96) : State.reset.res.owner[e] = if e ∈ hardwareEntries then 15 else 0 := by
  revert e
  decide

/-- The factory map places every polder on a site in service (01 R12). -/
theorem State.reset_siteOf_inService (p : Pid) : State.reset.disc.state[State.reset.disc.siteOf[p]] = 0 := by
  revert p
  decide

/-- The centre site of each quadrant is its spare (01 R12). -/
theorem State.reset_centre_spare (q : Fin 4) : State.reset.disc.state[([7, 10, 28, 25] : List Site).getD q.val 0] = 1 := by
  revert q
  decide

/-! ### The invariants at reset -/

/-- Nothing is saved for S2 yet, so the owners are those of the resource table. -/
theorem State.reset_hardwareHolds : State.reset.hardwareHolds :=
  ⟨fun e he => (State.reset_owner e).trans (if_pos he), fun _ hm => nomatch hm⟩

theorem State.reset_queuesFit : State.reset.queuesFit := fun p => by
  rw [State.reset_polder]
  exact Nat.zero_le 8

/-- Settles O60: each table by what an entry of it holds at reset, each single register by its default. -/
theorem resetState : Obligations.ResetState := by
  unfold Obligations.ResetState
  refine ⟨State.reset_memory_wf, State.reset_hardwareHolds, State.reset_queuesFit, rfl, rfl, rfl, rfl, ?polders, State.reset_weir,
    State.reset_owner, State.reset_siteOf_inService, State.reset_centre_spare, rfl, rfl, rfl, rfl, rfl, rfl, ?timers, ?mc, ?msc,
    ?routers, rfl, State.reset_prog, rfl, rfl, rfl, rfl, rfl⟩
  case polders =>
    intro p
    rw [State.reset_polder]
    exact ⟨rfl, rfl, rfl, rfl, rfl, rfl, rfl, rfl, fun w => congrArg Window.isOpen (Vector.getElem_replicate w.isLt)⟩
  case timers => exact fun n => congrArg Timer.armed (State.reset_timer n)
  case mc => exact fun m => ⟨congrArg Mc.ce (State.reset_mc m), congrArg Mc.ue (State.reset_mc m)⟩
  case msc => exact fun k => ⟨congrArg Msc.hits (State.reset_msc k), congrArg Msc.ways (State.reset_msc k)⟩
  case routers => exact fun n => congrArg Router.flits (State.reset_router n)

end Sys2Proof.Machine
end

section
/-! PROOFS. PASS_START: when the pass at the head of the queue adds its sums, what it changes, and that a replay gives the same sums
(03 R63; 04 R75-R83, R72; 08 R173; 17 R398). -/

namespace Sys2Proof.Machine

/-! ### Frames of a group -/

/-- A filter by frame index keeps or drops the whole of an index. -/
theorem find?_filter_key (P : Nat → Bool) (j : Nat) (fs : List (Nat × SumpFrame)) :
    (fs.filter (fun x => P x.1)).find? (fun x => x.1 == j) = if P j then fs.find? (fun x => x.1 == j) else none := by
  induction fs with
  | nil => simp
  | cons x xs ih =>
    by_cases hj : x.1 = j
    · subst hj
      by_cases hP : P x.1 <;> simp [hP, ih]
    · by_cases hP : P x.1 <;> simp [hP, hj, ih]

theorem find?_putFrame_self (k : Nat) (F : SumpFrame) (fs : List (Nat × SumpFrame)) :
    (putFrame k F fs).find? (fun x => x.1 == k) = some (k, F) := by
  simp [putFrame, find?_filter_key (fun i => decide (i < k))]

theorem find?_putFrame_ne {j k : Nat} (h : j ≠ k) (F : SumpFrame) (fs : List (Nat × SumpFrame)) :
    (putFrame k F fs).find? (fun x => x.1 == j) = fs.find? (fun x => x.1 == j) := by
  have below := find?_filter_key (fun i => decide (i < k)) j fs
  have above := find?_filter_key (fun i => decide (k < i)) j fs
  simp only [putFrame, List.find?_append, below, above]
  rcases Nat.lt_or_gt_of_ne h with hlt | hgt
  · simp [hlt, h.symm, Nat.lt_asymm hlt]
  · simp [hgt, h.symm, Nat.lt_asymm hgt]

/-! ### What counting leaves alone -/

/-- What counting for polder p leaves alone: memory, weirs, the array and the sump sets of p, and every other polder. -/
structure CountsOnly (p : Pid) (s s' : State) : Prop where
  mem : s'.mem = s.mem
  weirs : s'.weirs = s.weirs
  arr : s'.polders[p].arr = s.polders[p].arr
  opened : s'.polders[p].sump.opened = s.polders[p].sump.opened
  closed : s'.polders[p].sump.closed = s.polders[p].sump.closed
  shadow : s'.polders[p].sump.shadow = s.polders[p].sump.shadow
  others : ∀ k, k ≠ p → s'.polders[k] = s.polders[k]

section
variable {p : Pid} {s : State}

theorem CountsOnly.trans {a b c : State} (hab : CountsOnly p a b) (hbc : CountsOnly p b c) : CountsOnly p a c where
  mem := hbc.mem.trans hab.mem
  weirs := hbc.weirs.trans hab.weirs
  arr := hbc.arr.trans hab.arr
  opened := hbc.opened.trans hab.opened
  closed := hbc.closed.trans hab.closed
  shadow := hbc.shadow.trans hab.shadow
  others k hk := (hbc.others k hk).trans (hab.others k hk)

/-- A change of the polder that keeps its array and its sump's sets only counts. -/
theorem CountsOnly.onPolder {g : Polder → Polder} (arr : (g s.polders[p]).arr = s.polders[p].arr)
    (opened : (g s.polders[p]).sump.opened = s.polders[p].sump.opened)
    (closed : (g s.polders[p]).sump.closed = s.polders[p].sump.closed)
    (shadow : (g s.polders[p]).sump.shadow = s.polders[p].sump.shadow) : CountsOnly p s (s.onPolder p g) where
  mem := rfl
  weirs := rfl
  arr := by rw [State.onPolder_polders_self, arr]
  opened := by rw [State.onPolder_polders_self, opened]
  closed := by rw [State.onPolder_polders_self, closed]
  shadow := by rw [State.onPolder_polders_self, shadow]
  others k hk := State.onPolder_polders_ne _ _ _ _ hk

/-- Integrity records are counts. -/
theorem CountsOnly.integ (i : Integ) : CountsOnly p s { s with integ := i } :=
  ⟨rfl, rfl, rfl, rfl, rfl, rfl, fun _ _ => rfl⟩

/-- The counts and flags of a pass are one change of its polder. -/
theorem State.passCounts_only (s : State) (p : Pid) (c : PassCounts) : ∃ b z l o, s.passCounts p c =
    s.onPolder p (fun P => { P with bpe := b, qz := z, logb := l, sump := { P.sump with ovfSeen := o } }) := by
  simp only [State.passCounts, State.bpeFlag, State.qzFlag, State.logFlag, State.onPolder_onPolder]
  exact ⟨_, _, _, _, State.onPolder_congr s p rfl⟩

theorem State.passCounts_countsOnly (s : State) (p : Pid) (c : PassCounts) : CountsOnly p s (s.passCounts p c) := by
  obtain ⟨b, z, l, o, h⟩ := s.passCounts_only p c
  rw [h]
  exact .onPolder rfl rfl rfl rfl

@[simp] theorem State.passCounts_task (s : State) (p : Pid) (c : PassCounts) :
    (s.passCounts p c).polders[p].task = s.polders[p].task := by
  obtain ⟨b, z, l, o, h⟩ := s.passCounts_only p c
  rw [h, State.onPolder_polders_self]

@[simp] theorem State.passCounts_integ (s : State) (p : Pid) (c : PassCounts) : (s.passCounts p c).integ = s.integ := by
  obtain ⟨b, z, l, o, h⟩ := s.passCounts_only p c
  rw [h, State.onPolder_integ]

@[simp] theorem State.passCounts_siteOf (s : State) (p q : Pid) (c : PassCounts) : (s.passCounts p c).siteOf q = s.siteOf q := by
  obtain ⟨b, z, l, o, h⟩ := s.passCounts_only p c
  rw [h, State.siteOf, State.onPolder_disc, State.siteOf]

/-- The count of a replay touches the integrity records alone, and adds one to the site's (17 R398). -/
theorem State.countReplay_only (s : State) (p : Pid) : ∃ i, s.countReplay p = { s with integ := i } ∧
    i.sites[s.siteOf p].replay = s.integ.sites[s.siteOf p].replay + 1 := by
  simp only [State.countReplay, State.planSite]
  split
  case isTrue =>
    split <;> exact ⟨_, rfl, by simp only [State.onSite, Fin.getElem_fin, Vector.getElem_set_self]⟩
  case isFalse => exact ⟨_, rfl, by simp only [Fin.getElem_fin, Vector.getElem_set_self]⟩

theorem State.taskReplay_countsOnly (s : State) (p : Pid) : CountsOnly p s (s.taskReplay p) := by
  obtain ⟨i, hi, -⟩ := s.countReplay_only p
  rw [State.taskReplay, hi, State.onTask]
  exact (CountsOnly.integ i).trans (.onPolder rfl rfl rfl rfl)

theorem State.taskReplay_task (s : State) (p : Pid) :
    (s.taskReplay p).polders[p].task = s.polders[p].task.map (fun t => { t with replays := t.replays + 1 }) := by
  obtain ⟨i, hi, -⟩ := s.countReplay_only p
  rw [State.taskReplay, hi, State.onTask, State.onPolder_polders_self]

theorem State.taskReplay_site (s : State) (p : Pid) :
    (s.taskReplay p).integ.sites[s.siteOf p].replay = s.integ.sites[s.siteOf p].replay + 1 := by
  obtain ⟨i, hi, hsite⟩ := s.countReplay_only p
  rw [State.taskReplay, State.onTask_integ, hi]
  exact hsite

end

/-! ### The pass that issues -/

/-- The frame that a pass adds to: its own in the open group, or a fresh one (04 R76). -/
def passFrame (s : State) (p : Pid) (t : Task) (q : PassReq) : SumpFrame :=
  (s.polders[p].sump.opened.bind (Group.frame · q.frame)).getD (newFrame (recOf s p t q))

/-- The group that a pass joins: the open one, or one that it opens (04 R75). -/
def passGroup (S : Sump) (q : PassReq) : Group :=
  S.opened.getD { accX := q.tpb.accX, m := q.m, serial := S.groups, frames := [] }

/-- The activation bytes that a pass into a frame reads. -/
def passReads (s : State) (q : PassReq) (F : SumpFrame) : List Run :=
  actRuns s (tensor q.act q.actSide) q.load.k0 (q.load.valid (tensor q.load.desc q.load.side)) q.r0 F.tile.live

/-- Whether the stored tiles that a pass into a frame reads hold (07 R132). -/
def passTilesOk (s : State) (q : PassReq) (F : SumpFrame) : Bool :=
  actTilesOk s (tensor q.act q.actSide) q.load.k0 (q.load.valid (tensor q.load.desc q.load.side)) q.r0 F.tile.live

/-- The pass as its sums enter the frame: without the error that a check point catches (04 R82). -/
def PassEnv.clean (e : PassEnv) (F : SumpFrame) : PassEnv := if e.caught F then { e with slip := none } else e

/-- What a group's passes count once a pass has issued, its load included. -/
def PassEnv.workAfter (e : PassEnv) (F : SumpFrame) (L : Latch) (g : Group) : PassCounts :=
  (g.work.add { colOvf := L.ovf.any id, scaleSat := L.sat, scaleBad := L.bad }).add ((e.clean F).run F).2

/-- A group after a pass into its frame k. -/
def PassEnv.groupAfter (e : PassEnv) (F : SumpFrame) (L : Latch) (k : Nat) (g : Group) : Group :=
  { g with
    frames := putFrame k ((e.clean F).run F).1 g.frames, work := e.workAfter F L g,
    replays := g.replays + (if e.caught F then 1 else 0) }

/-- The state once a pass is counted: where a check point disagrees, its rows in vain and the replay of its group (17 R398). -/
def PassEnv.counted (e : PassEnv) (F : SumpFrame) (L : Latch) (p : Pid) (g : Group) (s : State) : State :=
  if e.caught F then (s.passCounts p (e.countTo F ((e.slip.map (·.row + 1)).getD 0))).replayGroup p (e.workAfter F L g)
  else s.passCounts p ((e.clean F).run F).2

/-- A polder whose pass left the queue: its group stays open or, with CLOSE, awaits its swap (04 R79). -/
def Polder.afterPass (q : PassReq) (rest : List PassReq) (g : Group) (P : Polder) : Polder :=
  { P with
    arr := { P.arr with passes := rest },
    sump := { P.sump with
      groups := P.sump.groups + (if P.sump.opened.isNone then 1 else 0),
      opened := if q.close then none else some g,
      closed := if q.close then P.sump.closed ++ [g] else P.sump.closed } }

section
variable {s : State} {p : Pid} {t : Task} {q : PassReq} {rest : List PassReq} {L : Latch} {slip : Option Slip}

/-- The pass at the head of polder p's queue, with its load in the latches. -/
structure PassHead (s : State) (p : Pid) (t : Task) (q : PassReq) (rest : List PassReq) (L : Latch) : Prop where
  arith : s.arithOn = true
  task : s.polders[p].task = some t
  queue : s.polders[p].arr.passes = q :: rest
  latch : s.polders[p].arr.latches[q.half] = some L

/-- That pass meets no stall and passes the checks of 04 Table 4-4 (04 R72, R75-R79). -/
structure PassFits (s : State) (p : Pid) (t : Task) (q : PassReq) (rest : List PassReq) (L : Latch) : Prop
    extends PassHead s p t q rest L where
  loaded : L.load.id = q.load.id
  unstalled : s.polders[p].sump.wait = false
  check : passCheck s.polders[p].sump.opened q (recOf s p t q) = none

/-- That pass may issue: its chain, its tags and its stored tiles hold as well (08 R173, 11 R250, 07 R132). -/
structure PassIssues (s : State) (p : Pid) (t : Task) (q : PassReq) (rest : List PassReq) (L : Latch) : Prop
    extends PassFits s p t q rest L where
  chain : q.chunk = 0 → chainCheck s p q = none
  tags : gate s false (slotsOf (passReads s q (passFrame s p t q))) = .ok ()
  tiles : passTilesOk s q (passFrame s p t q) = true

theorem PassFits.not_stalled (h : PassFits s p t q rest L) : ¬ (L.load.id ≠ q.load.id ∨ s.polders[p].sump.wait = true) := by
  simp [-Fin.getElem_fin, h.loaded, h.unstalled]

/-- A pass of a later chunk has no chain to check (08 R173). -/
theorem chainCheck_passed (h : q.chunk = 0 → chainCheck s p q = none) :
    (if q.chunk = 0 then chainCheck s p q else none) = none := by
  simpa using h

theorem passGroup_replays (S : Sump) (q : PassReq) : (passGroup S q).replays = (S.opened.map (·.replays)).getD 0 := by
  unfold passGroup
  cases S.opened <;> rfl

/-- A group that a pass opens holds no frame yet. -/
theorem frame_passGroup (S : Sump) (q : PassReq) (k : Nat) : (passGroup S q).frame k = S.opened.bind (Group.frame · k) := by
  unfold passGroup
  cases S.opened <;> rfl

/-- A pass whose load is not in the latches, or that the drain stalls, waits (04 R72, R79). -/
theorem passStart_waits (h : PassHead s p t q rest L) (hw : L.load.id ≠ q.load.id ∨ s.polders[p].sump.wait = true) :
    exec (.passStart p slip) s = .next s := by
  simp only [exec_passStart, execPassStart, whenArith_on h.arith, h.queue, h.task, h.latch, if_pos hw]

/-- A pass that fails a check of 04 Table 4-4 faults (04 R77). -/
theorem passStart_faults (h : PassHead s p t q rest L) (hl : L.load.id = q.load.id) (hw : s.polders[p].sump.wait = false)
    {c : Byte} {i : Nat} (hc : passCheck s.polders[p].sump.opened q (recOf s p t q) = some (c, i)) :
    exec (.passStart p slip) s = .next (s.taskFaultAt p q.pc c (BitVec.ofNat 32 i)) := by
  simp [-Fin.getElem_fin, execPassStart, whenArith_on h.arith, h.queue, h.task, h.latch, hl, hw, hc]

/-- A chunk-0 pass whose chain or taps fail faults (08 R173, R185). -/
theorem passStart_chainFaults (h : PassFits s p t q rest L) (h0 : q.chunk = 0) {c : Byte} {i : Nat}
    (hc : chainCheck s p q = some (c, i)) :
    exec (.passStart p slip) s = .next (s.taskFaultAt p q.pc c (BitVec.ofNat 32 i)) := by
  simp only [exec_passStart, execPassStart, whenArith_on h.arith, h.queue, h.task, h.latch, if_neg h.not_stalled, h.check, if_pos h0,
    hc]

/-- A pass waits for the banks and tags of the rows it reads, and wakes a sleeping bank (11 R242, R250). -/
theorem passStart_blocked (h : PassFits s p t q rest L) (hchain : q.chunk = 0 → chainCheck s p q = none) {x : Stop}
    (hx : gate s false (slotsOf (passReads s q (passFrame s p t q))) = .error x) :
    exec (.passStart p slip) s = .next (match x with | .held s' => s' | _ => s) := by
  rw [passReads, passFrame] at hx
  simp only [exec_passStart, execPassStart, whenArith_on h.arith, h.queue, h.task, h.latch, if_neg h.not_stalled, h.check,
    chainCheck_passed hchain, passEnv, hx]
  cases x <;> rfl

/-- A pass that reads a stored tile that does not hold faults (07 R132). -/
theorem passStart_tileFaults (h : PassFits s p t q rest L) (hchain : q.chunk = 0 → chainCheck s p q = none)
    (htags : gate s false (slotsOf (passReads s q (passFrame s p t q))) = .ok ()) (hx : passTilesOk s q (passFrame s p t q) = false) :
    exec (.passStart p slip) s = .next (s.taskFaultAt p q.pc 0x11 (q.actReg.setWidth 32)) := by
  rw [passReads, passFrame] at htags
  rw [passTilesOk, passFrame] at hx
  simp only [exec_passStart, execPassStart, whenArith_on h.arith, h.queue, h.task, h.latch, if_neg h.not_stalled, h.check,
    chainCheck_passed hchain, passEnv, htags, hx, Bool.not_false, if_true]

/-- A pass that may issue, and whose group may replay where a check point disagrees, is counted and leaves the queue. -/
theorem passStart_issues (h : PassIssues s p t q rest L) {F : SumpFrame} (hF : passFrame s p t q = F) {e : PassEnv}
    (he : passEnv s s.polders[p].arr.latches L q F.tile slip = e) {g : Group} (hg : passGroup s.polders[p].sump q = g)
    (hlim : e.caught F = true → s.replayLimit g.replays = false) :
    exec (.passStart p slip) s =
      .next ((e.counted F L p g s).onPolder p (Polder.afterPass q rest (e.groupAfter F L q.frame g))) := by
  have hfails : (e.caught F && s.replayLimit g.replays) = false := by
    cases hc : e.caught F with
    | false => rfl
    | true => exact hlim hc
  have htags : gate s false (slotsOf (actRuns s (tensor q.act q.actSide) e.k0 e.valid q.r0 F.tile.live)) = .ok () := by
    rw [← he, ← hF]; exact h.tags
  have htiles : actTilesOk s (tensor q.act q.actSide) e.k0 e.valid q.r0 F.tile.live = true := by
    rw [← he, ← hF]; exact h.tiles
  obtain rfl : e.slip = slip := by rw [← he]; rfl
  rw [passFrame] at hF
  rw [passGroup] at hg
  simp only [exec_passStart, execPassStart, whenArith_on h.arith, h.queue, h.task, h.latch, if_neg h.not_stalled, h.check,
    chainCheck_passed h.chain, hF, he, hg, htags, htiles, hfails, Bool.not_true, Bool.false_eq_true, if_false]
  rfl

/-- Either the outcome of the pass at the head does not depend on the transient error, or that pass may issue. -/
theorem passStart_cases (s : State) (p : Pid) :
    (∃ r, ∀ slip, exec (.passStart p slip) s = .next r) ∨ ∃ t q rest L, PassIssues s p t q rest L := by
  cases harith : s.arithOn with
  | false => exact .inl ⟨s, fun slip => by rw [exec_passStart, execPassStart, whenArith_off harith]⟩
  | true =>
  cases hqueue : s.polders[p].arr.passes with
  | nil => exact .inl ⟨s, fun slip => by simp only [exec_passStart, execPassStart, whenArith_on harith, hqueue]⟩
  | cons q rest =>
  cases htask : s.polders[p].task with
  | none => exact .inl ⟨s, fun slip => by simp only [exec_passStart, execPassStart, whenArith_on harith, hqueue, htask]⟩
  | some t =>
  cases hlatch : s.polders[p].arr.latches[q.half] with
  | none => exact .inl ⟨s, fun slip => by simp only [exec_passStart, execPassStart, whenArith_on harith, hqueue, htask, hlatch]⟩
  | some L =>
  have head : PassHead s p t q rest L := ⟨harith, htask, hqueue, hlatch⟩
  by_cases hstall : L.load.id ≠ q.load.id ∨ s.polders[p].sump.wait = true
  · exact .inl ⟨s, fun slip => passStart_waits head hstall⟩
  obtain ⟨hload, hwait⟩ : L.load.id = q.load.id ∧ s.polders[p].sump.wait = false := by simpa [-Fin.getElem_fin] using hstall
  cases hcheck : passCheck s.polders[p].sump.opened q (recOf s p t q) with
  | some x => exact .inl ⟨_, fun slip => passStart_faults head hload hwait hcheck⟩
  | none =>
  have fits : PassFits s p t q rest L := ⟨head, hload, hwait, hcheck⟩
  by_cases hchain : q.chunk = 0 → chainCheck s p q = none
  · cases htags : gate s false (slotsOf (passReads s q (passFrame s p t q))) with
    | error x => exact .inl ⟨_, fun slip => passStart_blocked fits hchain htags⟩
    | ok u =>
    cases htiles : passTilesOk s q (passFrame s p t q) with
    | false => exact .inl ⟨_, fun slip => passStart_tileFaults fits hchain htags htiles⟩
    | true => exact .inr ⟨t, q, rest, L, fits, hchain, htags, htiles⟩
  · obtain ⟨h0, hsome⟩ := Classical.not_imp.mp hchain
    obtain ⟨x, hx⟩ := Option.ne_none_iff_exists'.mp hsome
    exact .inl ⟨_, fun slip => passStart_chainFaults fits h0 hx⟩

/-! ### What the pass changes -/

theorem PassEnv.counted_countsOnly (e : PassEnv) (F : SumpFrame) (L : Latch) (p : Pid) (g : Group) (s : State) :
    CountsOnly p s (e.counted F L p g s) := by
  unfold PassEnv.counted
  split
  · exact ((s.passCounts_countsOnly p _).trans (State.taskReplay_countsOnly _ p)).trans (State.passCounts_countsOnly _ p _)
  · exact s.passCounts_countsOnly p _

theorem PassEnv.counted_task_clean {e : PassEnv} {F : SumpFrame} (hc : e.caught F = false) (L : Latch) (p : Pid) (g : Group)
    (s : State) : (e.counted F L p g s).polders[p].task = s.polders[p].task := by
  rw [PassEnv.counted, hc, if_neg Bool.false_ne_true, State.passCounts_task]

/-- A mismatch counts one replay for the task and one for the site (17 R398). -/
theorem PassEnv.counted_caught {e : PassEnv} {F : SumpFrame} (hc : e.caught F = true) (L : Latch) (p : Pid) (g : Group) (s : State) :
    (e.counted F L p g s).polders[p].task = s.polders[p].task.map (fun t => { t with replays := t.replays + 1 }) ∧
    (e.counted F L p g s).integ.sites[s.siteOf p].replay = s.integ.sites[s.siteOf p].replay + 1 := by
  rw [PassEnv.counted, if_pos hc, State.replayGroup, State.passCounts_task, State.passCounts_integ, State.taskReplay_task,
    State.passCounts_task]
  refine ⟨rfl, ?_⟩
  simpa only [State.passCounts_siteOf, State.passCounts_integ] using
    State.taskReplay_site (s.passCounts p (e.countTo F ((e.slip.map (·.row + 1)).getD 0))) p

section
variable {a b : State} {g g' : Group}

/-- With CLOSE the group joins those that await their swap (04 R79). -/
theorem afterPass_close (ha : CountsOnly p s a) (hc : q.close = true) :
    (Polder.afterPass q rest g a.polders[p]).sump.closed = s.polders[p].sump.closed ++ [g] ∧
    (Polder.afterPass q rest g a.polders[p]).sump.opened = none := by
  simp only [Polder.afterPass, hc, if_true, ha.closed, and_self]

theorem afterPass_open (ha : CountsOnly p s a) (hc : q.close = false) :
    (Polder.afterPass q rest g a.polders[p]).sump.opened = some g ∧
    (Polder.afterPass q rest g a.polders[p]).sump.closed = s.polders[p].sump.closed := by
  simp only [Polder.afterPass, hc, Bool.false_eq_true, if_false, ha.closed, and_self]

/-- Polders that differ in what they counted and in the counts of the group agree in frames and queues after the pass. -/
theorem afterPass_agree (ha : CountsOnly p s a) (hb : CountsOnly p s b) (hg : g.frames = g'.frames) :
    let P := Polder.afterPass q rest g a.polders[p]
    let P' := Polder.afterPass q rest g' b.polders[p]
    P.sump.opened.map (·.frames) = P'.sump.opened.map (·.frames) ∧
    P.sump.closed.map (·.frames) = P'.sump.closed.map (·.frames) ∧ P.arr = P'.arr := by
  simp only [Polder.afterPass, ha.closed, hb.closed, ha.arr, hb.arr, and_true]
  cases q.close <;> simp [hg]

end

/-- A caught error leaves the frames that the pass without it leaves (03 R63, 04 R82). -/
theorem groupAfter_frames_of_caught {l : Vector (Option Latch) 2} {r : TileRec} {F : SumpFrame}
    (hc : (passEnv s l L q r slip).caught F = true) (L' : Latch) (k : Nat) (g : Group) :
    ((passEnv s l L q r slip).groupAfter F L' k g).frames = ((passEnv s l L q r none).groupAfter F L' k g).frames := by
  have same : (passEnv s l L q r slip).clean F = (passEnv s l L q r none).clean F := if_pos hc
  rw [PassEnv.groupAfter, PassEnv.groupAfter, same]

end

/-- Settles O33: the pass that waits, the one that fails a check, the one that issues; a replay adds what the pass without the error
adds, since only its counts differ. -/
theorem passRuns : Obligations.PassRuns := by
  unfold Obligations.PassRuns
  refine ⟨?adds, ?replays⟩
  case adds =>
    intro s p t q rest L slip harith htask hqueue hlatch S A rec0 F e F'
    have head : PassHead s p t q rest L := ⟨harith, htask, hqueue, hlatch⟩
    refine ⟨passStart_waits head, fun hload hwait => ⟨fun c i => passStart_faults head hload hwait,
      fun hcheck hchain htags htiles hlim => ?_⟩⟩
    have issues : PassIssues s p t q rest L := ⟨⟨head, hload, hwait, hcheck⟩, hchain, htags, htiles⟩
    have counts := e.counted_countsOnly F L p (passGroup S q) s
    refine ⟨_, e.groupAfter F L q.frame (passGroup S q),
      passStart_issues issues rfl rfl rfl (fun hc => by rw [passGroup_replays]; exact hlim hc), ?_⟩
    simp only [State.onPolder_polders_self, State.onPolder_mem, State.onPolder_weirs, State.onPolder_integ]
    refine ⟨rfl, afterPass_close counts, afterPass_open counts, ?mine, ?others, counts.shadow, counts.mem, counts.weirs, ?clean,
      ?caught, ?polders⟩
    case mine => rw [PassEnv.groupAfter, find?_putFrame_self]; rfl
    case others =>
      intro k hk
      rw [PassEnv.groupAfter, find?_putFrame_ne hk]
      exact frame_passGroup S q k
    case clean => exact fun hc => (PassEnv.counted_task_clean hc L p _ s).trans htask
    case caught =>
      intro hc
      obtain ⟨htask', hsite⟩ := PassEnv.counted_caught hc L p (passGroup S q) s
      exact ⟨by rw [htask] at htask'; exact htask', hsite⟩
    case polders => exact fun k hk => (State.onPolder_polders_ne _ _ _ _ hk).trans (counts.others k hk)
  case replays =>
    intro s p x hlim hcaught
    rcases passStart_cases s p with ⟨r, hr⟩ | ⟨t, q, rest, L, h⟩
    · exact ⟨r, r, hr _, hr _, rfl, rfl, rfl, rfl, rfl⟩
    · have hc := hcaught t q rest L h.task h.queue h.latch
      have counts := fun slip => (passEnv s s.polders[p].arr.latches L q (passFrame s p t q).tile slip).counted_countsOnly
        (passFrame s p t q) L p (passGroup s.polders[p].sump q) s
      refine ⟨_, _, passStart_issues h rfl rfl rfl (fun _ => by rw [passGroup_replays]; exact hlim),
        passStart_issues h rfl rfl rfl (fun hnone => nomatch hnone), ?_⟩
      obtain ⟨hopened, hclosed, harr⟩ := afterPass_agree (q := q) (rest := rest) (counts (some x)) (counts none)
        (groupAfter_frames_of_caught hc L q.frame (passGroup s.polders[p].sump q))
      simp only [State.onPolder_polders_self, State.onPolder_mem, State.onPolder_weirs]
      exact ⟨hopened, hclosed, harr, (counts _).mem.trans (counts _).mem.symm, (counts _).weirs.trans (counts _).weirs.symm⟩

end Sys2Proof.Machine
end

section
/-! PROOFS. Weight loads: when the loader starts, what it leaves in the latch halves, and the operands that a pass reads back
(04 R67-R70; 07 R132; 17 R395, R398). -/

namespace Sys2Proof.Machine

open Host (Outcome)

/-! ### What a load reads and writes -/

/-- The bytes that the loader waits for: the weights, the group codes or scales and the s2 values of a load (06 R111, 07 R131). -/
def LoadReq.reads (s : State) (r : LoadReq) : List Run :=
  let T := tensor r.desc r.side
  weightNeeds s T r.k0 r.klen r.c0 r.ncols ++ codeRunsOf T r.k0 r.klen r.c0 r.ncols ++ s2RunsOf T r.k0 r.klen r.c0 r.ncols

/-- The latch halves once a load is written: both by a wide load, its own by a narrow one (04 R68). -/
def LoadReq.fill (s : State) (p : Pid) (r : LoadReq) (l : Vector (Option Latch) 2) : Vector (Option Latch) 2 :=
  if r.wide then #v[some (latchOf s p r 0), some (latchOf s p r 1)] else l.set r.half.val (some (latchOf s p r r.half)) r.half.isLt

section
variable {s : State} {p : Pid} {r : LoadReq}

theorem LoadReq.fill_get (l : Vector (Option Latch) 2) (h : Fin 2) :
    (r.fill s p l)[h] = if 8 < r.w ∨ h = r.half then some (latchOf s p r h) else l[h] := by
  unfold LoadReq.fill LoadReq.wide
  by_cases hw : 8 < r.w
  · rw [if_pos (by simpa using hw), if_pos (.inl hw)]
    match h with
    | 0 => rfl
    | 1 => rfl
  · rw [if_neg (by simpa using hw)]
    by_cases hh : h = r.half
    · subst hh
      simp
    · have hne : r.half.val ≠ h.val := fun e => hh (Fin.ext e.symm)
      simp [hw, hh, hne]

/-! ### WEIGHT_LOAD_START -/

/-- The load at the head of the queue starts where the loader is free and no pass still reads its planes (04 R70). -/
theorem weightLoadStart_starts {rest : List LoadReq} (harith : s.arithOn = true) (hloads : s.polders[p].arr.loads = r :: rest)
    (hfree : s.polders[p].arr.loading = none) (hpasses : ∀ q ∈ s.polders[p].arr.passes, blocksLoad r q = false) :
    exec (.weightLoadStart p) s =
      .next (s.onPolder p (fun P => { P with arr := { P.arr with loads := rest, loading := some r } })) := by
  have hblocked : s.polders[p].arr.passes.any (blocksLoad r) = false := by simpa using hpasses
  simp only [exec_weightLoadStart, execWeightLoadStart, whenArith_on harith, hloads, hfree, hblocked, Option.isSome_none,
    Bool.or_self, Bool.false_eq_true, if_false]

theorem weightLoadStart_waits {rest : List LoadReq} (harith : s.arithOn = true) (hloads : s.polders[p].arr.loads = r :: rest)
    (hbusy : s.polders[p].arr.loading.isSome = true ∨ ∃ q ∈ s.polders[p].arr.passes, blocksLoad r q = true) :
    exec (.weightLoadStart p) s = .next s := by
  have hblocked : (s.polders[p].arr.loading.isSome || s.polders[p].arr.passes.any (blocksLoad r)) = true := by
    simpa [-Fin.getElem_fin] using hbusy
  simp only [exec_weightLoadStart, execWeightLoadStart, whenArith_on harith, hloads, hblocked, if_true]

/-! ### WEIGHT_LOAD_DONE -/

/-- The loader of polder p is at load r, and no bank or tag holds it back (11 R242, R250). -/
structure LoadDue (s : State) (p : Pid) (r : LoadReq) : Prop where
  arith : s.arithOn = true
  loading : s.polders[p].arr.loading = some r
  tags : gate s false (slotsOf (r.reads s)) = .ok ()

/-- A stored form that does not hold faults, whether or not a residue disagrees (07 R132). -/
theorem weightLoadDone_faults (h : LoadDue s p r) (hform : sparseOk s r = false) (upset : Bool) :
    exec (.weightLoadDone ⟨p, upset⟩) s = .next (s.taskFaultAt p r.pc 0x11 (r.dreg.setWidth 32)) := by
  have htags := h.tags
  rw [LoadReq.reads] at htags
  simp only [exec_weightLoadDone, execWeightLoadDone, whenArith_on h.arith, h.loading, htags, hform, Bool.not_false, if_true]

/-- A loaded weight that does not agree with the residue of its codebook entry is loaded again (17 R395). -/
theorem weightLoadDone_repeats (h : LoadDue s p r) (hform : sparseOk s r = true) (hcoded : (tensor r.desc r.side).coded = true) :
    exec (.weightLoadDone ⟨p, true⟩) s = .next (s.taskReplay p) := by
  have htags := h.tags
  rw [LoadReq.reads] at htags
  simp only [exec_weightLoadDone, execWeightLoadDone, whenArith_on h.arith, h.loading, htags, hform, hcoded, Bool.not_true,
    Bool.and_self, Bool.false_eq_true, if_false, if_true]

/-- The loader that is done leaves the halves filled, and flags at most (04 R69; 03 R61; 06 R111). -/
theorem weightLoadDone_fills (h : LoadDue s p r) (hform : sparseOk s r = true) : ∃ b z,
    exec (.weightLoadDone ⟨p, false⟩) s = .next (s.onPolder p (fun P =>
      { P with bpe := b, qz := z, arr := { P.arr with loading := none, latches := r.fill s p P.arr.latches } })) := by
  have htags := h.tags
  rw [LoadReq.reads] at htags
  simp only [exec_weightLoadDone, execWeightLoadDone, whenArith_on h.arith, h.loading, htags, hform, Bool.not_true,
    Bool.false_and, Bool.false_eq_true, if_false, State.qzFlag, State.bpeFlag, State.onPolder_onPolder]
  exact ⟨_, _, congrArg Outcome.next (State.onPolder_congr s p rfl)⟩

/-! ### Operands read back from the latches -/

/-- A narrow load's half holds all the planes of an operand (04 R68). -/
theorem halfBits_narrow {w : Nat} (hw : w ≤ 8) (h : Fin 2) (x : Int) : halfBits w false h x = (x % (2 ^ w : Nat)).toNat := by
  simp [halfBits, hw]

/-- The halves hold the low and the high planes of a wide operand (04 R68). -/
theorem halfBits_wide {w : Nat} (hw : 8 < w) (x : Int) :
    halfBits w false 0 x % 256 + 256 * halfBits w false 1 x = (x % (2 ^ w : Nat)).toNat := by
  have hn : ¬ w ≤ 8 := by omega
  simp only [halfBits, hn, Bool.false_eq_true, Fin.reduceEq, if_false, if_true]
  omega

section
variable {c k : Nat}

theorem latchOf_bit (h : Fin 2) (hc : c < r.columns (tensor r.desc r.side)) (hk : k < r.valid (tensor r.desc r.side)) :
    ((latchOf s p r h).bits.getD c []).getD k 0 = halfBits r.w ((tensor r.desc r.side).kind == .int1) h
      (loadOperand s p (tensor r.desc r.side) r.w (r.k0 + k) (r.c0 + c)).1 := by
  simp [latchOf, loadColumns, hc, hk]

variable {l : Vector (Option Latch) 2} {half : Fin 2} {columns valid : Nat}

theorem latchedOperands_narrow {L : Latch} (hw : r.w ≤ 8) (hl : l[half] = some L) (hc : c < columns) (hk : k < valid) :
    ((latchedOperands l half r columns valid).getD c []).getD k 0 = (L.bits.getD c []).getD k 0 := by
  have hnarrow : r.wide = false := by simpa [LoadReq.wide] using hw
  simp [-Fin.getElem_fin, latchedOperands, hnarrow, hl, hc, hk]

theorem latchedOperands_wide {L H : Latch} (hw : 8 < r.w) (hc : c < columns) (hk : k < valid) :
    ((latchedOperands #v[some L, some H] half r columns valid).getD c []).getD k 0 =
      (L.bits.getD c []).getD k 0 % 256 + 256 * (H.bits.getD c []).getD k 0 := by
  have hwide : r.wide = true := by simpa [LoadReq.wide] using hw
  simp [latchedOperands, hwide, hc, hk]

end

/-- An operand's planes are its residue mod 2^w. -/
theorem toNat_emod_two_pow (x : Int) (w : Nat) : ((x % (2 ^ w : Nat)).toNat : Int) = x % (2 ^ w : Nat) :=
  Int.toNat_of_nonneg (Int.emod_nonneg x (Int.ofNat_ne_zero.mpr (Nat.ne_of_gt (Nat.two_pow_pos w))))

end

/-- Settles O32: the load that starts or waits, the three ends of a load, and the operands that its halves give a pass. -/
theorem weightLoadRuns : Obligations.WeightLoadRuns := by
  unfold Obligations.WeightLoadRuns
  refine ⟨?loads, ?planes⟩
  case loads =>
    intro s p r harith A
    refine ⟨fun rest => weightLoadStart_starts harith, fun rest => weightLoadStart_waits harith, ?_⟩
    intro hloading T htags
    have due : LoadDue s p r := ⟨harith, hloading, htags⟩
    refine ⟨fun upset hform => weightLoadDone_faults due hform upset, fun hform => ?fills, fun hform hcoded => ?repeats⟩
    case fills =>
      obtain ⟨b, z, hstep⟩ := weightLoadDone_fills due hform
      refine ⟨_, hstep, ?_⟩
      rw [State.onPolder_polders_self]
      exact ⟨rfl, LoadReq.fill_get _, rfl, rfl, rfl, rfl, rfl, fun q hq => State.onPolder_polders_ne _ _ _ _ hq⟩
    case repeats =>
      have counts := State.taskReplay_countsOnly s p
      exact ⟨_, weightLoadDone_repeats due hform hcoded, counts.arr, counts.mem, State.taskReplay_site s p,
        State.taskReplay_task s p⟩
  case planes =>
    intro s p r c k T x read hc hk hkind
    have hint1 : (T.kind == .int1) = false := beq_false_of_ne hkind
    refine ⟨fun hw _ => ?wide, fun hw l hl => ?narrow⟩
    case wide =>
      have hread : read #v[some (latchOf s p r 0), some (latchOf s p r 1)] = ((x % (2 ^ r.w : Nat)).toNat : Int) := by
        simp only [read, latchedOperands_wide hw hc hk, latchOf_bit _ hc hk, hint1, T]
        rw [halfBits_wide hw]
      exact hread.trans (toNat_emod_two_pow x r.w)
    case narrow =>
      have hread : read l = ((x % (2 ^ r.w : Nat)).toNat : Int) := by
        simp only [read, latchedOperands_narrow hw hl hc hk, latchOf_bit _ hc hk]
        rw [hint1, halfBits_narrow hw]
      exact hread.trans (toNat_emod_two_pow x r.w)

end Sys2Proof.Machine
end

section
/-! PROOFS. TASK_START and TASK_END: a launch record that starts, is refused or ends at once, and a task that ends (09 R194-R202). -/

namespace Sys2Proof.Machine

/-! ### Signals at the end of a task (09 R202; 11 R255) -/

/-- States that agree in the weirs, the updates under way and the notices. -/
structure WeirsAgree (a b : State) : Prop where
  weirs : a.weirs = b.weirs
  flight : a.flight = b.flight
  notices : a.notices = b.notices

/-- One signal of a task that ends; 0xFFFF names no weir. -/
def State.signalOne (s : State) (p : Pid) (w : Nat) : State := if w = 0xFFFF then s else s.weirSend p w 1

theorem State.signalEnd_eq (s : State) (p : Pid) (l : BitVec 512) :
    s.signalEnd p l = (s.signalOne p (lField l 16 2)).signalOne p (lField l 18 2) := rfl

section
variable {a b : State}

theorem WeirsAgree.trans {c : State} (hab : WeirsAgree a b) (hbc : WeirsAgree b c) : WeirsAgree a c :=
  ⟨hab.weirs.trans hbc.weirs, hab.flight.trans hbc.flight, hab.notices.trans hbc.notices⟩

theorem WeirsAgree.weirSend (h : WeirsAgree a b) (p : Pid) (w : Nat) (inc : U32) :
    WeirsAgree (a.weirSend p w inc) (b.weirSend p w inc) := by
  obtain ⟨hweirs, hflight, hnotices⟩ := h
  unfold State.weirSend
  split
  case isTrue =>
    unfold State.weirAdd
    split
    case isTrue => constructor <;> simp [State.putWeir, State.weir, hweirs, hflight, hnotices]
    case isFalse => exact ⟨hweirs, hflight, hnotices⟩
  case isFalse => exact ⟨hweirs, by rw [hflight], hnotices⟩

theorem WeirsAgree.signalOne (h : WeirsAgree a b) (p : Pid) (w : Nat) : WeirsAgree (a.signalOne p w) (b.signalOne p w) := by
  unfold State.signalOne
  split
  · exact h
  · exact h.weirSend p w 1

theorem WeirsAgree.signalEnd (h : WeirsAgree a b) (p : Pid) (l : BitVec 512) : WeirsAgree (a.signalEnd p l) (b.signalEnd p l) := by
  simp only [State.signalEnd_eq]
  exact (h.signalOne p _).signalOne p _

end

section
variable (s : State) (p q : Pid)

theorem State.countSignal_polder (w : Nat) : ∃ x, (s.countSignal w).polders[q] = { s.polders[q] with weir := x } := by
  unfold State.countSignal
  split
  case h_1 h _ =>
    by_cases hq : q = h
    · subst hq
      exact ⟨_, State.onPolder_polders_self s q _⟩
    · exact ⟨_, State.onPolder_polders_ne s h q _ hq⟩
  case h_2 => exact ⟨_, rfl⟩

theorem State.weirSend_polder (w : Nat) (inc : U32) : ∃ x, (s.weirSend p w inc).polders[q] = { s.polders[q] with weir := x } := by
  unfold State.weirSend
  split
  case isTrue =>
    unfold State.weirAdd
    split
    case isTrue => exact s.countSignal_polder q w
    case isFalse => exact ⟨_, rfl⟩
  case isFalse => exact ⟨_, rfl⟩

theorem State.signalOne_polder (w : Nat) : ∃ x, (s.signalOne p w).polders[q] = { s.polders[q] with weir := x } := by
  unfold State.signalOne
  split
  case isTrue => exact ⟨_, rfl⟩
  case isFalse => exact s.weirSend_polder p q w 1

/-- A polder changes by the signals of an end in its count of updates at most. -/
theorem State.signalEnd_polder (l : BitVec 512) : ∃ x, (s.signalEnd p l).polders[q] = { s.polders[q] with weir := x } := by
  rw [State.signalEnd_eq]
  obtain ⟨x, hx⟩ := s.signalOne_polder p q (lField l 16 2)
  obtain ⟨y, hy⟩ := (s.signalOne p (lField l 16 2)).signalOne_polder p q (lField l 18 2)
  exact ⟨y, by rw [hy, hx]⟩

@[simp] theorem State.signalOne_mem (w : Nat) : (s.signalOne p w).mem = s.mem := by
  unfold State.signalOne
  split <;> simp

@[simp] theorem State.signalEnd_mem (l : BitVec 512) : (s.signalEnd p l).mem = s.mem := by
  rw [State.signalEnd_eq, State.signalOne_mem, State.signalOne_mem]

end

/-! ### Completion records (09 R202, Table 9-8) -/

/-- Scratchpads lie below the register ranges (09 Table 9-13). -/
theorem lt_of_place_scratch {a off : Nat} {p : Pid} (h : place a = .scratch p off) : a < 0x10400000000 := by
  unfold place at h
  dsimp only at h
  repeat' split at h
  all_goals simp only [reduceCtorEq, Place.scratch.injEq] at h
  all_goals omega

/-- What lies in memory of this module lies below the peers (09 Table 9-13). -/
theorem add_le_of_inMemory {a n : Nat} (h : inMemory a n = true) : a + n ≤ 2 ^ 63 := by
  unfold inMemory at h
  split at h
  case h_1 =>
    have hend := of_decide_eq_true h
    omega
  case h_2 p off hplace =>
    have hstart := lt_of_place_scratch hplace
    have hend := of_decide_eq_true h
    rw [scratchBytes] at hend
    omega
  case h_3 => exact absurd h Bool.false_ne_true

/-- Where a record goes: to the address that COMP names, if it is aligned and names memory. -/
theorem compAddr_eq_some {l : BitVec 512} {a : Nat} :
    compAddr l = some a ↔ lField l 24 8 = a ∧ a ≠ 0 ∧ a % 32 = 0 ∧ inMemory a 32 = true := by
  unfold compAddr
  dsimp only
  split
  case isTrue h =>
    simp only [reduceCtorEq, false_iff]
    rintro ⟨rfl, h0, h32, hmem⟩
    simp [h0, h32, hmem] at h
  case isFalse h =>
    obtain ⟨h0, h32, hin⟩ : lField l 24 8 ≠ 0 ∧ lField l 24 8 % 32 = 0 ∧ inMemory (lField l 24 8) 32 = true := by simpa using h
    rw [Option.some.injEq]
    exact ⟨fun e => e ▸ ⟨rfl, h0, h32, hin⟩, fun ⟨e, _⟩ => e⟩

section
variable {s s' : State} {l : BitVec 512} {a : Nat} {record : List Byte}

/-- Bytes of this module depend on its memory alone. -/
theorem byte_congr (hm : s'.mem = s.mem) (ha : a < 2 ^ 63) : s'.byte a = s.byte a := by
  simp only [State.byte, if_pos ha, hm]

/-- A record written at COMP reads back. -/
theorem byte_of_complete (hm : s'.mem = (s.complete l record).mem) (hl : compAddr l = some a) (hr : record.length = 32)
    {k : Nat} (hk : k < 32) : s'.byte (a + k) = record[k] := by
  obtain ⟨-, -, -, hin⟩ := compAddr_eq_some.mp hl
  have hbound := add_le_of_inMemory hin
  rw [byte_congr hm (by omega), State.complete, hl]
  exact State.byte_putBytes_inside s a k record (by omega) (by omega)

/-- A byte outside the 32 bytes at COMP reads as before. -/
theorem byte_of_complete_outside (hm : s'.mem = (s.complete l record).mem) (ha : a < 2 ^ 63) (hr : record.length = 32)
    (hout : ∀ c, compAddr l = some c → a < c ∨ c + 32 ≤ a) : s'.byte a = s.byte a := by
  rw [byte_congr hm ha, State.complete]
  split
  case h_1 c hc => exact State.byte_putBytes_outside s c a record (by have := hout c hc; omega)
  case h_2 => rfl

end

/-- An end is recorded and counted (09 R202). -/
def State.recordEnd (s : State) (p : Pid) (l : BitVec 512) (record : List Byte) : State :=
  (s.complete l record).onSeq p (fun Q => { Q with tasks := Q.tasks + 1 })

/-- The record of a launch without work (09 R200). -/
def emptyRecord : List Byte := completionRecord 0 1 0xFFFFFFFF 0 0 0 0 0

section
variable (s : State) (p : Pid) (l : BitVec 512) (record : List Byte)

theorem State.recordEnd_polder : (s.recordEnd p l record).polders[p] =
    { s.polders[p] with seq := { s.polders[p].seq with tasks := s.polders[p].seq.tasks + 1 } } := by
  rw [State.recordEnd, State.onSeq, State.onPolder_polders_self, State.complete_polders]

theorem State.recordEnd_weirsAgree : WeirsAgree (s.recordEnd p l record) s := by
  constructor <;> simp [State.recordEnd]

theorem State.recordEnd_mem : (s.recordEnd p l record).mem = (s.complete l record).mem := rfl

end

/-- An access that waits wakes a bank at most (11 R242, R245). -/
theorem gate_held_polder {s s' : State} {w : Bool} {x : List (Pid × Nat)} (h : gate s w x = .error (.held s')) (p : Pid) :
    ∃ T, s'.polders[p] = { s.polders[p] with terp := T } := by
  induction x with
  | nil => simp [gate] at h
  | cons y t ih =>
    simp only [gate] at h
    split at h
    · cases h
      exact ⟨_, rfl⟩
    · split at h
      · cases h
        rw [State.wakeBank, State.onTerp]
        by_cases hp : p = y.1
        · subst hp
          exact ⟨_, State.onPolder_polders_self s y.1 _⟩
        · exact ⟨_, State.onPolder_polders_ne s y.1 p _ hp⟩
      · split at h
        · cases h
        · exact ih h

/-- A record that is written now or owed wakes a bank of the polder and joins what its sequencer owes, at most. -/
theorem State.completeSoon_polder (s : State) (p : Pid) (l : BitVec 512) (record : List Byte) :
    ∃ T o, (s.completeSoon p l record).polders[p] =
      { s.polders[p] with terp := T, seq := { s.polders[p].seq with owed := o } } := by
  unfold State.completeSoon
  split
  case h_1 => exact ⟨_, _, rfl⟩
  case h_2 a _ =>
    split
    case h_1 => exact ⟨_, _, by rw [State.putBytes_polders]⟩
    case h_2 s' hheld =>
      obtain ⟨T, hT⟩ := gate_held_polder hheld p
      exact ⟨T, _, by rw [State.owe, State.onPolder_polders_self, hT]⟩
    case h_3 => exact ⟨_, _, by rw [State.owe, State.onPolder_polders_self]⟩

/-! ### The launch that is refused (09 R201) -/

/-- SEQ_FAULT from a code and its INFO (09 Table 9-9). -/
theorem faultWord_eq (code : Byte) (info : Nat) :
    (code.setWidth 64 <<< 56) ||| (BitVec.ofNat 32 info).setWidth 64 = BitVec.ofNat 64 (code.toNat * 2 ^ 56 + info % 2 ^ 32) := by
  apply BitVec.eq_of_toNat_eq
  have hi : info % 2 ^ 32 < 2 ^ 56 := by omega
  have hor := Nat.shiftLeft_add_eq_or_of_lt hi code.toNat
  have hc := code.isLt
  simp only [Nat.shiftLeft_eq] at hor
  simp only [BitVec.toNat_or, BitVec.toNat_shiftLeft, BitVec.toNat_setWidth, BitVec.toNat_ofNat, Nat.shiftLeft_eq]
  rw [Nat.mod_eq_of_lt (by omega : code.toNat < 2 ^ 64), Nat.mod_eq_of_lt (by omega : code.toNat * 2 ^ 56 < 2 ^ 64),
    Nat.mod_eq_of_lt (by omega : info % 2 ^ 32 < 2 ^ 64), ← hor]
  omega

theorem State.launchFault_polder (s : State) (p : Pid) (l : BitVec 512) (code : Byte) (info : Nat) :
    ∃ T o x, (s.launchFault p l code info).polders[p] = { s.polders[p] with
      terp := T, seq := { s.polders[p].seq with
        fault := BitVec.ofNat 64 (code.toNat * 2 ^ 56 + info % 2 ^ 32), faultPc := 0xFFFFFFFF, faultTime := s.tb,
        faults := s.polders[p].seq.faults + 1, halted := true, record := x, owed := o } } := by
  simp only [State.launchFault, faultWord_eq]
  obtain ⟨T, o, h⟩ := State.completeSoon_polder _ p l _
  exact ⟨T, o, _, by rw [h, State.onSeq, State.onPolder_polders_self]⟩

/-- INFO of a fault is 32 bits of the record (09 Table 9-7). -/
theorem lField_four_mod (l : BitVec 512) (byte : Nat) : lField l byte 4 % 2 ^ 32 = lField l byte 4 :=
  Nat.mod_mod _ _

/-! ### The registers of a task at its start (09 Table 9-3) -/

section
variable (s : State) (p : Pid) (l : BitVec 512) (r : StageRec) (a : Nat)

theorem newTask_sreg_named : (newTask s p l r a).sreg 0 = 0 ∧
    (newTask s p l r a).sreg 1 = (launchFill l r).setWidth 64 ∧
    (newTask s p l r a).sreg 2 = BitVec.ofNat 64 (lField l 20 4) ∧
    (newTask s p l r a).sreg 3 = BitVec.ofNat 64 (lField l 32 8) ∧
    (newTask s p l r a).sreg 4 = BitVec.ofNat 64 (lField l 40 8) ∧
    (newTask s p l r a).sreg 5 = BitVec.ofNat 64 (lField l 48 8) ∧
    (newTask s p l r a).sreg 6 = BitVec.ofNat 64 (lField l 56 8) ∧
    (newTask s p l r a).sreg 7 = BitVec.ofNat 64 p.val ∧
    (newTask s p l r a).sreg 8 = r.stage.setWidth 64 :=
  ⟨rfl, rfl, rfl, rfl, rfl, rfl, rfl, rfl, rfl⟩

theorem newTask_sreg_above {k : BitVec 5} (hk : 9 ≤ k.toNat) : (newTask s p l r a).sreg k = 0 := by
  have hne : k ≠ 0 := fun e => by simp [e] at hk
  have hset : ∀ j, j < 9 → j ≠ k.toNat := fun j hj => by omega
  rw [Task.sreg, if_neg hne]
  simp [newTask, hset]

theorem newTask_dreg (k : BitVec 4) :
    (newTask s p l r a).dreg k = ofBytes 512 (s.bytes (a + 128 + 64 * k.toNat) 64) := by
  simp [newTask, Task.dreg]

theorem newTask_vreg (k : BitVec 5) : (newTask s p l r a).vreg k = 0 := Vector.getElem_replicate k.isLt

theorem newTask_mreg (k : BitVec 3) : (newTask s p l r a).mreg k = BitVec.allOnes 128 := by
  unfold Task.mreg
  split
  · rfl
  · exact Vector.getElem_replicate k.isLt

end

/-! ### TASK_START (09 R194, R195, R200, R201) -/

/-- The state once the record at the head of polder p's queue is taken. -/
abbrev State.dequeue (s : State) (p : Pid) (rest : List (BitVec 512)) : State := s.onSeq p (fun Q => { Q with queue := rest })

/-- The record l at the head of the queue of an idle polder, with its stage record r at a (09 R195). -/
structure LaunchDue (s : State) (p : Pid) (l : BitVec 512) (rest : List (BitVec 512)) (a : Nat) (r : StageRec) : Prop where
  arith : s.arithOn = true
  task : s.polders[p].task = none
  going : s.polders[p].seq.halted = false
  work : workLeft s p = false
  queue : s.polders[p].seq.queue = l :: rest
  addr : stageAddr s p (lField l 4 2) = a
  stage : stageRec s a = r

section
variable {s : State} {p : Pid} {l : BitVec 512} {rest : List (BitVec 512)} {a : Nat} {r : StageRec}

theorem launchFormat_dequeue : launchFormat (s.dequeue p rest) p l r = launchFormat s p l r := rfl

theorem State.dequeue_weirsAgree : WeirsAgree (s.dequeue p rest) s := ⟨rfl, rfl, rfl⟩

theorem State.dequeue_polder :
    (s.dequeue p rest).polders[p] = { s.polders[p] with seq := { s.polders[p].seq with queue := rest } } :=
  State.onPolder_polders_self s p _

theorem LaunchDue.idle (h : LaunchDue s p l rest a r) :
    (s.polders[p].task.isSome || s.polders[p].seq.halted || workLeft s p) = false := by
  rw [h.task, h.going, h.work]
  rfl

theorem LaunchDue.dequeue_addr (h : LaunchDue s p l rest a r) : stageAddr (s.dequeue p rest) p (lField l 4 2) = a := by
  rw [← h.addr, stageAddr, State.dequeue, State.onSeq, State.onPolder_polders_self, stageAddr]

theorem LaunchDue.dequeue_stage (h : LaunchDue s p l rest a r) : stageRec (s.dequeue p rest) a = r := h.stage

/-- A record of a wrong form is refused (09 R201). -/
theorem taskStart_malformed (h : LaunchDue s p l rest a r) {b : Nat} (hform : launchFormat s p l r = some b) :
    exec (.taskStart p) s = .next ((s.dequeue p rest).launchFault p l 0x03 b) := by
  simp only [exec_taskStart, execTaskStart, whenArith_on h.arith, h.queue, h.idle, h.dequeue_addr, h.dequeue_stage,
    launchFormat_dequeue, hform, Bool.false_eq_true, if_false]

section
variable (h : LaunchDue s p l rest a r) (hform : launchFormat s p l r = none)
include h hform

/-- A record that asks for more than its fill bound is refused (09 R200, R201). -/
theorem taskStart_tooFull (hfull : lField l 3 1 % 2 = 1 ∧ r.fillBound.toNat < lField l 12 4) :
    exec (.taskStart p) s = .next ((s.dequeue p rest).launchFault p l 0x04 (lField l 12 4)) := by
  simp only [exec_taskStart, execTaskStart, whenArith_on h.arith, h.queue, h.idle, h.dequeue_addr, h.dequeue_stage,
    launchFormat_dequeue, hform, if_pos hfull, Bool.false_eq_true, if_false]

variable (hfits : ¬ (lField l 3 1 % 2 = 1 ∧ r.fillBound.toNat < lField l 12 4))
include hfits

/-- A record with a fill count of 0 ends at once (09 R200). -/
theorem taskStart_empty (hfill : launchFill l r = 0) (hgate : gate s true (compSlots l) = .ok ()) :
    exec (.taskStart p) s = .next (((s.dequeue p rest).recordEnd p l emptyRecord).signalEnd p l) := by
  simp only [exec_taskStart, execTaskStart, whenArith_on h.arith, h.queue, h.idle, h.dequeue_addr, h.dequeue_stage,
    launchFormat_dequeue, hform, if_neg hfits, hfill, hgate, Bool.false_eq_true, if_false, if_true]
  rfl

/-- Any other record starts a task (09 R194, R195). -/
theorem taskStart_starts (hfill : launchFill l r ≠ 0) :
    exec (.taskStart p) s = .next ((s.dequeue p rest).onPolder p (fun P =>
      { P with task := some (newTask s p l r a), terp := { P.terp with bnd := ofBytes 832 (s.bytes (a + 24) 104) } })) := by
  simp only [exec_taskStart, execTaskStart, whenArith_on h.arith, h.queue, h.idle, h.dequeue_addr, h.dequeue_stage,
    launchFormat_dequeue, hform, if_neg hfits, if_neg hfill, Bool.false_eq_true, if_false]
  rfl

end

end

/-! ### TASK_END (09 R202; 04 R76) -/

theorem State.fresh_weirsAgree (s : State) : WeirsAgree s.fresh.2 s := ⟨rfl, rfl, rfl⟩

theorem State.dropTask_weirsAgree (s : State) (p : Pid) : WeirsAgree (s.dropTask p) s := ⟨rfl, rfl, rfl⟩

theorem State.dropTask_polder (s : State) (p : Pid) : (s.dropTask p).polders[p] = { s.polders[p] with
    task := none, terp := { s.polders[p].terp with bnd := 0 }, spw := { s.polders[p].spw with isOpen := false, cells := [] } } := by
  simp only [State.dropTask, State.onPolder_polders_self]

/-- The work of a task that asked for its end is done: nothing but an open frame is left (09 R202, 11 R246). -/
def endIdle (s : State) (p : Pid) : Bool :=
  let P := s.polders[p]
  arrayIdle { P with sump := { P.sump with opened := none } } && !s.transfers.any (fun x => x.p == p)

/-- The record of a task that ends by itself: its cycles are a free value (09 Table 9-8). -/
def State.endRecord (s : State) (t : Task) : List Byte := t.record 0 1 0xFFFFFFFF s.fresh.1.toNat 0

section
variable {s : State} {p : Pid} {t : Task}

theorem taskEnd_stays (harith : s.arithOn = true) (htask : s.polders[p].task = some t) (h : t.ending = false ∨ endIdle s p = false) :
    exec (.taskEnd p) s = .next s := by
  have hstay : (!t.ending || !endIdle s p) = true := by simpa using h
  simp only [exec_taskEnd, execTaskEnd, whenArith_on harith, htask]
  exact if_pos hstay

/-- A task that asked for its end and whose work is done. -/
structure EndDue (s : State) (p : Pid) (t : Task) : Prop where
  arith : s.arithOn = true
  task : s.polders[p].task = some t
  ending : t.ending = true
  idle : endIdle s p = true

theorem EndDue.goes (h : EndDue s p t) : ¬ (!t.ending || !endIdle s p) = true := by
  simp [h.ending, h.idle]

/-- A frame still open at the end faults (04 R76). -/
theorem taskEnd_faults (h : EndDue s p t) (hopen : s.polders[p].sump.opened.isSome = true) :
    exec (.taskEnd p) s = .next (s.taskFaultAt p t.pc 0x10 0) := by
  simp only [exec_taskEnd, execTaskEnd, whenArith_on h.arith, h.task, hopen, if_true]
  exact if_neg h.goes

/-- The task is recorded, counted, dropped and signalled (09 R202). -/
theorem taskEnd_ends (h : EndDue s p t) (hclosed : s.polders[p].sump.opened = none)
    (hgate : gate s true (compSlots t.launch) = .ok ()) :
    exec (.taskEnd p) s = .next (((s.fresh.2.recordEnd p t.launch (s.endRecord t)).dropTask p).signalEnd p t.launch) := by
  simp only [exec_taskEnd, execTaskEnd, whenArith_on h.arith, h.task, hclosed, hgate, Option.isSome_none, Bool.false_eq_true,
    if_false]
  exact if_neg h.goes

end

/-- Settles O12: the four outcomes of a record at the head of the queue, and the three of a task at its end. -/
theorem taskLifecycle : Obligations.TaskLifecycle := by
  unfold Obligations.TaskLifecycle
  refine ⟨?start, ?finish⟩
  case start =>
    intro s p l rest harith htask hgoing hwork hqueue a r q fill tooFull
    have due : LaunchDue s p l rest a r := ⟨harith, htask, hgoing, hwork, hqueue, rfl, rfl⟩
    refine ⟨fun b hform => ?malformed, fun hform hfull => ?tooFull, fun hform hfits hfill hgate => ?empty,
      fun hform hfits hfill => ⟨taskStart_starts due hform hfits hfill, ?registers⟩⟩
    case malformed =>
      obtain ⟨T, o, x, hp⟩ := (s.dequeue p rest).launchFault_polder p l 0x03 b
      rw [State.dequeue_polder] at hp
      refine ⟨_, taskStart_malformed due hform, ?_⟩
      rw [hp]
      exact ⟨htask, rfl, rfl, rfl, rfl, rfl, rfl⟩
    case tooFull =>
      obtain ⟨T, o, x, hp⟩ := (s.dequeue p rest).launchFault_polder p l 0x04 (lField l 12 4)
      rw [State.dequeue_polder, lField_four_mod] at hp
      refine ⟨_, taskStart_tooFull due hform hfull, ?_⟩
      rw [hp]
      exact ⟨htask, rfl, rfl⟩
    case empty =>
      have hm := (State.signalEnd_mem _ p l).trans ((s.dequeue p rest).recordEnd_mem p l emptyRecord)
      have agree : WeirsAgree ((s.dequeue p rest).recordEnd p l emptyRecord) s :=
        (State.recordEnd_weirsAgree _ p l emptyRecord).trans State.dequeue_weirsAgree
      have told := agree.signalEnd p l
      obtain ⟨x, hp⟩ := ((s.dequeue p rest).recordEnd p l emptyRecord).signalEnd_polder p p l
      rw [State.recordEnd_polder, State.dequeue_polder] at hp
      refine ⟨_, taskStart_empty due hform hfits hfill hgate, ?_⟩
      rw [hp]
      exact ⟨htask, rfl, hgoing, rfl, told.weirs, told.flight, fun c hc => byte_of_complete hm hc rfl (by decide : 2 < 32),
        fun c hc hout => (byte_of_complete_outside hm hc rfl hout).trans (byte_congr rfl hc)⟩
    case registers =>
      obtain ⟨h0, h1, h2, h3, h4, h5, h6, h7, h8⟩ := newTask_sreg_named s p l r a
      exact ⟨h0, h1, h2, h3, h4, h5, h6, h7, h8, fun k => newTask_sreg_above s p l r a, newTask_dreg s p l r a,
        newTask_vreg s p l r a, newTask_mreg s p l r a, rfl⟩
  case finish =>
    intro s p t harith htask P idle comp
    refine ⟨taskEnd_stays harith htask, fun hending hidle hopen => taskEnd_faults ⟨harith, htask, hending, hidle⟩ hopen,
      fun hending hidle hclosed hgate => ⟨_, taskEnd_ends ⟨harith, htask, hending, hidle⟩ hclosed hgate, ?_⟩⟩
    have hm := (State.signalEnd_mem _ p t.launch).trans
      ((State.dropTask_mem _ p).trans (s.fresh.2.recordEnd_mem p t.launch (s.endRecord t)))
    obtain ⟨x, hp⟩ := ((s.fresh.2.recordEnd p t.launch (s.endRecord t)).dropTask p).signalEnd_polder p p t.launch
    rw [State.dropTask_polder, State.recordEnd_polder] at hp
    have agree : WeirsAgree ((s.fresh.2.recordEnd p t.launch (s.endRecord t)).dropTask p) s :=
      (State.dropTask_weirsAgree _ p).trans ((State.recordEnd_weirsAgree _ p t.launch (s.endRecord t)).trans s.fresh_weirsAgree)
    have told := agree.signalEnd p t.launch
    rw [hp]
    refine ⟨rfl, rfl, rfl, rfl, rfl, ⟨told.weirs, told.flight, told.notices⟩, fun h0 h32 hin => ?written,
      fun a ha hout => ?others⟩
    case written =>
      have hcomp : compAddr t.launch = some comp := compAddr_eq_some.mpr ⟨rfl, h0, h32, hin⟩
      exact ⟨byte_of_complete hm hcomp rfl (by decide : 2 < 32), byte_of_complete hm hcomp rfl (by decide : 0 < 32),
        byte_of_complete hm hcomp rfl (by decide : 1 < 32)⟩
    case others =>
      refine (byte_of_complete_outside hm ha rfl fun c hc => ?_).trans (byte_congr rfl ha)
      obtain ⟨hc, h0, -, -⟩ := compAddr_eq_some.mp hc
      subst hc
      exact hout.resolve_left h0

end Sys2Proof.Machine
end

section
/-! PROOFS. DRAIN_ROW of a row that a check finds wrong: the rows drawn again claim their streams again, so a pair that the claim
table has evicted meanwhile changes the task (04 R82; 06 R127; 17 R396). -/

namespace Sys2Proof.Machine

open Host (Outcome)

/-- A row that a check finds wrong replays its group where it might have left (04 R82, 17 R396). -/
theorem drainRow_replays {s : State} {p : Pid} {g : Group} {k i n : Nat} {F : SumpFrame} {slip : Option DrainSlip}
    (harith : s.arithOn = true) (hshadow : s.polders[p].sump.shadow = some (g, k, i)) (hframe : g.frames[k]? = some (n, F))
    (hhold : s.polders[p].sump.hold = false) (hroom : s.polders[p].oc.recv = none)
    (hcaught : slip.any (DrainSlip.caught (F.rows.getD i [])) = true) :
    exec (.drainRow p slip) s = .next (s.replayDrain p g k i) := by
  simp only [exec_drainRow, execDrainRow, whenArith_on harith, hshadow, hframe, hhold, hroom, hcaught, Bool.or_self,
    Bool.false_eq_true, if_false, if_true]

/-! ### A group whose pair the claim table has evicted -/

/-- A frame of two rows that leave for an INT8 tensor by a stochastic rounding, on generator 0 and stream 0. -/
def stochasticFrame : SumpFrame :=
  { tile :=
      { path := .bitPlane, wKind := 0, wWidth := 8, aKind := 0, aWidth := 8, two4 := false,
        tpb := { shift := 0, accX := false, chain := 0, nc := 8, budget := 0xFFFF, sigma := 0, sr := true, gen := 0, sid := 0,
                 mult := [1] },
        trunc := 0, zw := 0, za := 0,
        outD := BitVec.ofNat 512 (2 ^ 106 + 8 * 2 ^ 119 + 2 ^ 128 + 2 * 2 ^ 160 + 2 ^ 192 + 2 ^ 224 + 2 ^ 256), outSide := 0,
        live := 2, ncols := 1, epoch := 0, skipEn := false, truncOff := false, masks := [], m := 2, chunks := 1, r0 := 0, c0 := 0 },
    done := 1, rows := [[.acc (.val 1) 1], [.acc (.val 2) 2]], rowSum := [0, 0], colSum := [0], kU := 1 }

def stochasticGroup : Group := { accX := false, m := 2, frames := [(0, stochasticFrame)] }

/-- Sixteen pairs of generator 1: a full claim table that row 0's pair has been evicted from (06 R127). -/
def laterClaims : List Claim := (List.range 16).map (fun k => ⟨1, BitVec.ofNat 32 k, 0⟩)

def claimingTask : Task :=
  { launch := 0, stage := ⟨0, 8, 1, 2, 0, 0, 0⟩, fill := 1, pc := 0, s := Vector.replicate 32 0, d := Vector.replicate 16 0,
    v := Vector.replicate 32 0, m := Vector.replicate 8 (BitVec.allOnes 128), claims := laterClaims }

/-- A polder that drains that group: row 0 has left, row 1 is next. -/
def evictedPolder : Polder := { task := some claimingTask, sump := { shadow := some (stochasticGroup, 0, 1) } }

/-- A running module with that polder, otherwise as after reset. -/
def evictedDrain : State := { State.reset with pm := { State.reset.pm with state := .run } }.onPolder 0 (fun _ => evictedPolder)

theorem evictedDrain_polder : evictedDrain.polders[(0 : Pid)] = evictedPolder := State.onPolder_polders_self _ 0 _

/-- Row 0 leaves again in the replay: its pair is claimed again and evicts the one opened first. -/
theorem evictedDrain_claims : (evictedDrain.replayDrain 0 stochasticGroup 0 1).polders[(0 : Pid)].task.map (·.claims) =
    some (laterClaims.tail ++ [⟨0, 0, 0⟩]) := by decide +kernel

/-- Refutes O35, in the clause of a row that a check finds wrong: it says that the task changes by the count of its replay alone, but
a row before it that leaves again with a stochastic rounding also renews its claim, which the table may have evicted. -/
theorem not_sumpSwapAndDrain : ¬ Obligations.SumpSwapAndDrain := by
  unfold Obligations.SumpSwapAndDrain
  rintro ⟨-, hdrain, -⟩
  have hshadow : evictedDrain.polders[(0 : Pid)].sump.shadow = some (stochasticGroup, 0, 1) := by rw [evictedDrain_polder]; rfl
  have hhold : evictedDrain.polders[(0 : Pid)].sump.hold = false := by rw [evictedDrain_polder]; rfl
  have hroom : evictedDrain.polders[(0 : Pid)].oc.recv = none := by rw [evictedDrain_polder]; rfl
  obtain ⟨-, hreplays, -⟩ :=
    hdrain evictedDrain 0 stochasticGroup 0 1 0 stochasticFrame (some .checker) rfl hshadow rfl
  obtain ⟨r, hr, -, -, -, -, -, -, -, htask, -⟩ := hreplays hhold (by rw [hroom]; rfl) rfl rfl
  rw [drainRow_replays rfl hshadow rfl hhold hroom rfl] at hr
  obtain rfl := Outcome.next.inj hr
  have hclaims := evictedDrain_claims
  rw [htask, evictedDrain_polder] at hclaims
  exact absurd hclaims (by decide)

end Sys2Proof.Machine
end

section
/-! PROOFS. The spillway: what one update does to its table, and the instructions of the sp class (07 R148-R152; 09 R204, R208;
10 R235). -/

namespace Sys2Proof.Machine

/-! ### Searches of a list -/

section
variable {α β : Type} {l : List α}

/-- Entries that a filter drops are missed by no search that would pass them by. -/
theorem find?_filter_of_imp {P Q : α → Bool} (h : ∀ e ∈ l, P e = true → Q e = true) : (l.filter Q).find? P = l.find? P := by
  induction l with
  | nil => rfl
  | cons e t ih =>
    obtain ⟨he, ht⟩ := List.forall_mem_cons.mp h
    by_cases hQ : Q e = true
    · rw [List.filter_cons_of_pos hQ, List.find?_cons, List.find?_cons, ih ht]
    · rw [List.filter_cons_of_neg hQ, List.find?_cons_of_neg (fun hP => hQ (he hP)), ih ht]

theorem eq_of_nodup_map {f : α → β} (h : (l.map f).Nodup) {a b : α} (ha : a ∈ l) (hb : b ∈ l) (hab : f a = f b) : a = b := by
  induction l with
  | nil => exact nomatch ha
  | cons e t ih =>
    obtain ⟨he, ht⟩ := List.nodup_cons.mp h
    rcases List.mem_cons.mp ha with rfl | hat <;> rcases List.mem_cons.mp hb with rfl | hbt
    · rfl
    · exact absurd (hab ▸ List.mem_map_of_mem hbt) he
    · exact absurd (hab ▸ List.mem_map_of_mem hat) he
    · exact ih ht hat hbt

end

/-! ### Searches of a table with one entry put in its place -/

section
variable {α : Type} {a : Nat} {x : α} {P : Nat × α → Bool} {l : Sparse α}

theorem find?_sins_of_not (ha : P (a, x) = false) : (sins a x l).find? P = l.find? P := by
  induction l with
  | nil => simp [sins, ha]
  | cons e t ih =>
    rw [sins]
    split
    · rw [List.find?_cons, List.find?_cons, ih]
    · exact List.find?_cons_of_neg (by simp [ha])

theorem find?_sins_of_only (ha : P (a, x) = true) (hl : ∀ e ∈ l, P e = false) : (sins a x l).find? P = some (a, x) := by
  induction l with
  | nil => simp [sins, ha]
  | cons e t ih =>
    obtain ⟨he, ht⟩ := List.forall_mem_cons.mp hl
    rw [sins]
    split
    · rw [List.find?_cons_of_neg (by simp [he]), ih ht]
    · exact List.find?_cons_of_pos ha

end

/-! ### Keys and ways of a bucket (07 R149, R150) -/

/-- Whether an entry lies in the bucket of a key and holds that key. -/
def holdsKey (salt k : U32) (c : Nat × BitVec 32 × Acc) : Bool := c.1 / 8 == bucketOf salt k && c.2.1 == k

section
variable {q q' : Spw} {k j : U32} {u v : Acc} {x : Nat}

theorem Spw.find_eq (q : Spw) (k : U32) : q.find k = (q.cells.find? (holdsKey q.salt k)).map (fun c => (c.1, c.2.2)) := by
  rw [Spw.find, List.find?_filter]
  have hholds : holdsKey q.salt k = fun c => decide ((c.1 / 8 == bucketOf q.salt k) = true ∧ (c.2.1 == k) = true) :=
    funext fun c => by rw [holdsKey, Bool.decide_and, Bool.decide_eq_true, Bool.decide_eq_true]
  rw [hholds]

theorem holdsKey_ne {salt : U32} {c : Nat × BitVec 32 × Acc} (h : c.2.1 ≠ j) : holdsKey salt j c = false := by
  simp [holdsKey, h]

/-- A key that is found stands in the table, at a way of its bucket. -/
theorem Spw.mem_of_find (h : q.find k = some (x, u)) : (x, k, u) ∈ q.cells ∧ x / 8 = bucketOf q.salt k := by
  rw [Spw.find_eq, Option.map_eq_some_iff] at h
  obtain ⟨⟨y, i, w⟩, hfind, hc⟩ := h
  obtain ⟨rfl, rfl⟩ := Prod.mk.inj hc
  have hholds := List.find?_some hfind
  simp only [holdsKey, Bool.and_eq_true, beq_iff_eq] at hholds
  obtain ⟨hbucket, rfl⟩ := hholds
  exact ⟨List.mem_of_find?_eq_some hfind, hbucket⟩

theorem Spw.not_holdsKey_of_find (h : q.find k = none) : ∀ c ∈ q.cells, holdsKey q.salt k c = false := by
  rw [Spw.find_eq, Option.map_eq_none_iff, List.find?_eq_none] at h
  simpa using h

/-- The bucket has no free way exactly when an entry stands at each of its ways. -/
theorem Spw.freeWay_eq_none_iff (q : Spw) (b : Nat) :
    q.freeWay b = none ↔ ∀ way < 8, ∃ c ∈ q.cells, c.1 = 8 * b + way := by
  simp [Spw.freeWay, -List.find?_map]

/-- A free way lies in its bucket. -/
theorem Spw.bucket_of_freeWay {b : Nat} (h : q.freeWay b = some x) : x / 8 = b := by
  obtain ⟨way, hway, rfl⟩ := List.mem_map.mp (List.mem_of_find?_eq_some h)
  have := List.mem_range.mp hway
  omega

/-! ### What a table answers once an entry is put in -/

section
variable {l : List (Nat × BitVec 32 × Acc)} (hsalt : q'.salt = q.salt) (hcells : q'.cells = sins x (k, v) l)
include hsalt hcells

theorem Spw.find_put_self (hx : x / 8 = bucketOf q.salt k) (hl : ∀ c ∈ l, holdsKey q.salt k c = false) :
    q'.find k = some (x, v) := by
  rw [Spw.find_eq, hsalt, hcells, find?_sins_of_only (by simp [holdsKey, hx]) hl]
  rfl

theorem Spw.find_put_ne (hj : j ≠ k) (hl : l.find? (holdsKey q.salt j) = q.cells.find? (holdsKey q.salt j)) :
    q'.find j = q.find j := by
  rw [Spw.find_eq, Spw.find_eq, hsalt, hcells, find?_sins_of_not (holdsKey_ne hj.symm), hl]

end

/-! ### One update (07 R150, R151) -/

/-- The count of updates is no part of what a table answers. -/
theorem Spw.find_counted (q : Spw) (n : U64) (k : U32) : Spw.find { q with updates := n } k = q.find k := rfl
theorem Spw.freeWay_counted (q : Spw) (n : U64) (b : Nat) : Spw.freeWay { q with updates := n } b = q.freeWay b := rfl

section
variable (hk : k ≠ 0xFFFFFFFF)
include hk

theorem Spw.step_of_find (h : q.find k = some (x, u)) : q.step (k, v) = some (
    { q with updates := q.updates + 1, cells := sins x (k, accAdd true u v) (q.cells.filter (fun c => c.1 != x)),
             status := stick q.status 1 (accAdd true u v == .sentinel && u != .sentinel) }, none) := by
  rw [Spw.step, if_neg hk]
  simp only [Spw.find_counted, h]

theorem Spw.step_of_freeWay (h : q.find k = none) (hfree : q.freeWay (bucketOf q.salt k) = some x) :
    q.step (k, v) = some (
      { q with updates := q.updates + 1, cells := sins x (k, v) q.cells, count := q.count + 1,
               status := stick q.status 1 (v == .sentinel) }, none) := by
  rw [Spw.step, if_neg hk]
  simp only [Spw.find_counted, Spw.freeWay_counted, h, hfree]

/-- A new key of a full bucket spills its record, or finds no room for it (07 R151). -/
theorem Spw.step_of_full (h : q.find k = none) (hfull : q.freeWay (bucketOf q.salt k) = none) :
    q.step (k, v) = if q.regionLen < 16 * q.spilled.toNat + 16 then none else some (
      { q with updates := q.updates + 1, spilled := q.spilled + 1, spills := q.spills + 1, status := stick q.status 2 true },
      some (q.regionBase + 16 * q.spilled.toNat, recordBytes k v)) := by
  rw [Spw.step, if_neg hk]
  simp only [Spw.find_counted, Spw.freeWay_counted, h, hfull]

/-- A key held takes the sum at its own way; every other key is found as before. -/
theorem Spw.step_adds (hplaces : (q.cells.map (·.1)).Nodup) (hkeys : (q.cells.map (·.2.1)).Nodup) (h : q.find k = some (x, u)) :
    ∃ q', q.step (k, v) = some (q', none) ∧ q'.find k = some (x, accAdd true u v) ∧ (∀ j, j ≠ k → q'.find j = q.find j) ∧
      q'.count = q.count ∧ q'.updates = q.updates + 1 := by
  obtain ⟨hmem, hbucket⟩ := Spw.mem_of_find h
  refine ⟨_, Spw.step_of_find hk h, Spw.find_put_self (q := q) rfl rfl hbucket ?own,
    fun j hj => Spw.find_put_ne rfl rfl hj ?others, rfl, rfl⟩
  case own =>
    intro c hc
    obtain ⟨hc, hplace⟩ := List.mem_filter.mp hc
    refine holdsKey_ne fun hck => bne_iff_ne.mp hplace ?_
    exact congrArg (·.1) (eq_of_nodup_map hkeys hc hmem hck)
  case others =>
    refine find?_filter_of_imp fun c hc hheld => bne_iff_ne.mpr fun hcx => ?_
    have hsame : c = (x, k, u) := eq_of_nodup_map hplaces hc hmem hcx
    rw [hsame, holdsKey_ne hj.symm] at hheld
    exact Bool.false_ne_true hheld

/-- A new key takes a free way of its bucket; every other key is found as before. -/
theorem Spw.step_places (h : q.find k = none) (hfree : q.freeWay (bucketOf q.salt k) = some x) :
    ∃ q', q.step (k, v) = some (q', none) ∧ q'.find k = some (x, v) ∧ (∀ j, j ≠ k → q'.find j = q.find j) ∧
      q'.count = q.count + 1 ∧ q'.updates = q.updates + 1 :=
  ⟨_, Spw.step_of_freeWay hk h hfree,
    Spw.find_put_self (q := q) rfl rfl (Spw.bucket_of_freeWay hfree) (Spw.not_holdsKey_of_find h),
    fun _ hj => Spw.find_put_ne rfl rfl hj rfl, rfl, rfl⟩

theorem Spw.step_spills (h : q.find k = none) (hfull : q.freeWay (bucketOf q.salt k) = none)
    (hroom : 16 * q.spilled.toNat + 16 ≤ q.regionLen) :
    ∃ q', q.step (k, v) = some (q', some (q.regionBase + 16 * q.spilled.toNat, recordBytes k v)) ∧ q'.cells = q.cells ∧
      q'.spills = q.spills + 1 ∧ q'.spilled = q.spilled + 1 :=
  ⟨_, (Spw.step_of_full hk h hfull).trans (if_neg (Nat.not_lt.mpr hroom)), rfl, rfl, rfl⟩

theorem Spw.step_overflows (h : q.find k = none) (hfull : q.freeWay (bucketOf q.salt k) = none)
    (hroom : q.regionLen < 16 * q.spilled.toNat + 16) : q.step (k, v) = none :=
  (Spw.step_of_full hk h hfull).trans (if_pos hroom)

end

end

/-! ### A run of updates by an instruction -/

/-- The state after updates that the table takes whole: table `q'`, its conflict cycles counted, and the records written
(07 R151, R153). -/
def State.spApplied (s : State) (p : Pid) (idle : Nat) (us : List (Nat × Update)) (q' : Spw) (rs : List (Nat × List Byte)) :
    State :=
  rs.foldl (fun r x => r.putBytes x.1 x.2) (s.onSpw p (fun _ =>
    { q' with conflicts := q'.conflicts + BitVec.ofNat 64 (bankLoad s.polders[p].spw.salt (us.map (·.2)) - idle) }))

section
variable {s : State} {p : Pid} {t : Task} {f : Fields}

theorem need_true (code : Byte) (info : Nat) : need true code info = .ok () := rfl
theorem need_false (code : Byte) (info : Nat) : need false code info = .error (.fault code (BitVec.ofNat 32 info)) := rfl

theorem need_aligned {a : Nat} (h : a % 16 = 0) : need (a % 16 == 0) 0x0A a = .ok () := by
  rw [h, beq_self_eq_true, need_true]

theorem needSpw_open (hopen : s.polders[p].spw.isOpen = true) : needSpw s p = .ok () := by
  rw [needSpw, hopen, need_true]

theorem spApply_takes {idle : Nat} {us : List (Nat × Update)} {q' : Spw} {rs : List (Nat × List Byte)}
    (hrun : s.polders[p].spw.run us = (q', rs, none)) (htags : gate s true (slotsOf (rs.map (fun r => (r.1, 16)))) = .ok ()) :
    spApply s p idle us = .ok (s.spApplied p idle us q' rs) := by
  simp only [spApply, hrun, htags]
  rfl

/-! ### The sp class (10 R235) -/

/-- sp.open of a spillway that is open or whose entry is held is refused and counted (07 R148; 09 R208). -/
theorem spOpen_refused (hc : CanIssue s p t) (ha : Accepts t { level := 3, ra := .any, rb := .any, rc := .any, checked := true } f)
    (hheld : s.owner (spillEntry p) ≠ 0 ∨ s.polders[p].spw.isOpen = true) :
    exec (.spOpen p f) s = .next (s.claimRefused.taskFault p 0x05 (BitVec.ofNat 32 (spillEntry p).val)) :=
  issue_late hc ha (if_pos hheld)

/-- sp.open of a free spillway claims its entry and leaves it open and empty, its region the slots named (07 R148). -/
theorem spOpen_opens (hc : CanIssue s p t) (ha : Accepts t { level := 3, ra := .any, rb := .any, rc := .any, checked := true } f)
    {slot n : Nat} (hslot : (t.sreg f.rb).toNat = slot) (hcount : (t.sreg f.rc).toNat = n)
    (hfree : s.owner (spillEntry p) = 0) (hclosed : s.polders[p].spw.isOpen = false) (hn : n ≠ 0) (hslots : slot + n ≤ 90112)
    (hbound : (bounds s.polders[p].terp.bnd).any (fun b => b.covers true (scratchAddr p (4096 * slot)) (4096 * n)) = true) :
    exec (.spOpen p f) s = .next ((((s.setOwner (spillEntry p) (progOwner t.stage.prog)).onSpw p (fun q =>
      { q with isOpen := true, cells := [], salt := (t.sreg f.ra).setWidth 32, count := 0, spilled := 0,
               regionBase := scratchAddr p (4096 * slot), regionLen := 4096 * n })).reissue p f.upsets).past p t 8) := by
  refine issue_ok hc ha ?_
  have hunheld : ¬ (s.owner (spillEntry p) ≠ 0 ∨ s.polders[p].spw.isOpen = true) := by
    rw [hclosed]
    simp [hfree]
  simp only [if_neg hunheld, hslot, hcount, hbound, bne_iff_ne.mpr hn, decide_eq_true hslots, Bool.and_self,
    Bool.or_true, need_true]
  rfl

section
variable (hopen : s.polders[p].spw.isOpen = true)
include hopen

/-- sp.add applies the lanes of its mask as updates (07 R150). -/
theorem spAdd_applies (hc : CanIssue s p t)
    (ha : Accepts t { level := 3, ra := .pair, rb := if f.imm.getLsbD 0 then .pair else .any, mask := true, imm := 1,
                      checked := true } f) {us : List (Nat × Update)}
    (hlanes : ((List.range 128).filter (fun l => (t.mreg f.mask).getLsbD l)).map
      (fun l => (l, BitVec.ofNat 32 (pairLane t f.ra l), spValue t f l)) = us)
    {q' : Spw} {rs : List (Nat × List Byte)} (hrun : s.polders[p].spw.run us = (q', rs, none))
    (htags : gate s true (slotsOf (rs.map (fun r => (r.1, 16)))) = .ok ()) :
    exec (.spAdd p f) s = .next (((s.spApplied p 8 us q' rs).reissue p f.upsets).past p t 8) := by
  refine issue_ok hc ha ?_
  simp only [needSpw_open hopen, hlanes, spApply_takes hrun htags]
  rfl

/-- sp.merge applies the records of a region apart from the spill region as updates (07 R152). -/
theorem spMerge_applies (hc : CanIssue s p t) (ha : Accepts t { level := 3, ra := .any, rb := .any, checked := true } f)
    {a n : Nat} (hsrc : (t.sreg f.ra).toNat = a) (hlen : (t.sreg f.rb).toNat = n)
    (halign : a % 16 = 0) (hruns : checkRuns s p false [(a, 16 * n)] = .ok ())
    (hapart : n = 0 ∨ a + 16 * n ≤ s.polders[p].spw.regionBase ∨
      s.polders[p].spw.regionBase + s.polders[p].spw.regionLen ≤ a)
    (hread : gate s false (slotsOf [(a, 16 * n)]) = .ok ()) {q' : Spw} {rs : List (Nat × List Byte)}
    (hrun : s.polders[p].spw.run ((List.range n).map (fun k => (k, recordAt s (a + 16 * k)))) = (q', rs, none))
    (htags : gate s true (slotsOf (rs.map (fun r => (r.1, 16)))) = .ok ()) :
    exec (.spMerge p f) s = .next (((s.spApplied p ((n + 15) / 16)
      ((List.range n).map (fun k => (k, recordAt s (a + 16 * k)))) q' rs).reissue p f.upsets).past p t 8) := by
  refine issue_ok hc ha ?_
  have hapart' : (n == 0 || decide (a + 16 * n ≤ s.polders[p].spw.regionBase) ||
      decide (s.polders[p].spw.regionBase + s.polders[p].spw.regionLen ≤ a)) = true := by
    simpa [-Fin.getElem_fin, or_assoc] using hapart
  simp only [hsrc, hlen, needSpw_open hopen, need_aligned halign, hruns, hapart', hread, need_true, spApply_takes hrun htags]
  rfl

section
variable (hc : CanIssue s p t) (ha : Accepts t { level := 3, rd := .any, ra := .any, rb := .any, checked := true } f)
  {a n : Nat} (hdst : (t.sreg f.ra).toNat = a) (hlen : (t.sreg f.rb).toNat = n)
  (halign : a % 16 = 0) (hruns : checkRuns s p true [(a, n)] = .ok ())
include hc ha hdst hlen halign hruns

/-- sp.flush writes every entry out in order, counts them in sRD and closes the spillway (07 R152). -/
theorem spFlush_writes (hroom : 16 * s.polders[p].spw.cells.length ≤ n)
    (htags : gate s true (slotsOf [(a, 16 * s.polders[p].spw.cells.length)]) = .ok ()) :
    exec (.spFlush p f) s = .next ((((((s.putBytes a (s.polders[p].spw.cells.flatMap (fun c => recordBytes c.2.1 c.2.2))).onSpw p
      (fun q => { q with isOpen := false, cells := [] })).freeEntry (spillEntry p) (progOwner t.stage.prog)).onTask p
        (fun t => t.setS f.rd (BitVec.ofNat 64 s.polders[p].spw.cells.length))).reissue p f.upsets).past p t 8) := by
  refine issue_ok hc ha ?_
  simp only [hdst, hlen, needSpw_open hopen, need_aligned halign, hruns, decide_eq_true hroom, htags, need_true]
  rfl

/-- sp.flush to a region too small for its entries faults and writes nothing (09 R204). -/
theorem spFlush_full (hroom : n < 16 * s.polders[p].spw.cells.length) :
    exec (.spFlush p f) s = .next (s.taskFault p 0x12 (BitVec.ofNat 32 (n / 16))) := by
  refine issue_fault hc ha ?_
  simp only [hdst, hlen, needSpw_open hopen, need_aligned halign, hruns, decide_eq_false (Nat.not_le.mpr hroom), need_false]
  rfl

end

end

end

/-- Settles O30: each instruction by its equation, and an update by whether its key is held, its bucket has a free way, and its
record has room in the spill region. -/
theorem spillway : Obligations.Spillway := by
  unfold Obligations.Spillway
  refine ⟨?instructions, ?updates⟩
  case instructions =>
    intro s p t f hc e q applies
    refine ⟨fun ha => ?opens, fun hopen => ⟨fun ha => ?adds, fun ha => ?merges, fun ha => ?flushes⟩⟩
    case opens => exact ⟨spOpen_refused hc ha, spOpen_opens hc ha rfl rfl⟩
    case adds => exact fun q' rs => spAdd_applies hopen hc ha rfl
    case merges =>
      exact fun halign hruns hapart hread q' rs => spMerge_applies hopen hc ha rfl rfl halign hruns hapart hread
    case flushes =>
      exact ⟨fun halign hroom hruns => spFlush_writes hopen hc ha rfl rfl halign hruns hroom,
        fun halign hroom hruns => spFlush_full hopen hc ha rfl rfl halign hruns hroom⟩
  case updates =>
    intro q k v hk _ hplaces hkeys value full
    have full_iff : q.freeWay (bucketOf q.salt k) = none ↔ full := q.freeWay_eq_none_iff _
    have absent : value q k = none → q.find k = none := Option.map_eq_none_iff.mp
    refine ⟨fun u hu => ?held, fun hnone hroom => ?placed,
      fun hnone hfull => Spw.step_spills hk (absent hnone) (full_iff.mpr hfull),
      fun hnone hfull => Spw.step_overflows hk (absent hnone) (full_iff.mpr hfull)⟩
    case held =>
      obtain ⟨⟨x, w⟩, hfind, rfl⟩ := Option.map_eq_some_iff.mp hu
      obtain ⟨q', hstep, hself, hothers, hcounts⟩ := Spw.step_adds hk hplaces hkeys hfind
      exact ⟨q', hstep, congrArg (Option.map (·.2)) hself, fun j hj => congrArg (Option.map (·.2)) (hothers j hj), hcounts⟩
    case placed =>
      obtain ⟨x, hfree⟩ := Option.ne_none_iff_exists'.mp (hroom ∘ full_iff.mp)
      obtain ⟨q', hstep, hself, hothers, hcounts⟩ := Spw.step_places hk (absent hnone) hfree
      exact ⟨q', hstep, congrArg (Option.map (·.2)) hself, fun j hj => congrArg (Option.map (·.2)) (hothers j hj), hcounts⟩

end Sys2Proof.Machine
end

section
/-! PROOFS. Lanes, fields and mask bits of registers, and the mv moves between registers (08 R156, R157; 10 R222, Table 10-4). -/

namespace Sys2Proof.Machine

/-! ### Bits of a field, a vector and a mask -/

/-- A field replaced is the bits above it, the new value and the bits below it. -/
theorem field_split (x lo w y : Nat) :
    x - x / 2 ^ lo % 2 ^ w * 2 ^ lo + y % 2 ^ w * 2 ^ lo = 2 ^ lo * (2 ^ w * (x / 2 ^ lo / 2 ^ w) + y % 2 ^ w) + x % 2 ^ lo := by
  have below := Nat.div_add_mod x (2 ^ lo)
  have above := Nat.div_add_mod (x / 2 ^ lo) (2 ^ w)
  have split : x = 2 ^ lo * (2 ^ w * (x / 2 ^ lo / 2 ^ w)) + x / 2 ^ lo % 2 ^ w * 2 ^ lo + x % 2 ^ lo := by
    rw [Nat.mul_comm (x / 2 ^ lo % 2 ^ w), ← Nat.mul_add, above, below]
  rw [Nat.mul_add, Nat.mul_comm (2 ^ lo) (y % 2 ^ w)]
  omega

theorem testBit_setField (x : Nat) {lo w : Nat} (y i : Nat) :
    (x - x / 2 ^ lo % 2 ^ w * 2 ^ lo + y % 2 ^ w * 2 ^ lo).testBit i =
      if lo ≤ i ∧ i < lo + w then y.testBit (i - lo) else x.testBit i := by
  have hy : y % 2 ^ w < 2 ^ w := Nat.mod_lt _ (Nat.two_pow_pos w)
  have hx : x % 2 ^ lo < 2 ^ lo := Nat.mod_lt _ (Nat.two_pow_pos lo)
  rw [field_split, Nat.testBit_two_pow_mul_add _ hx, Nat.testBit_two_pow_mul_add _ hy]
  by_cases hlo : i < lo
  · rw [if_pos hlo, if_neg (by omega), Nat.testBit_mod_two_pow, decide_eq_true hlo, Bool.true_and]
  by_cases hw : i - lo < w
  · rw [if_neg hlo, if_pos hw, if_pos (by omega), Nat.testBit_mod_two_pow, decide_eq_true hw, Bool.true_and]
  · rw [if_neg hlo, if_neg hw, if_neg (by omega), Nat.testBit_div_two_pow, Nat.testBit_div_two_pow]
    congr 1
    omega

/-- The bits of a value with a field replaced: the field's own from the new value, the others as before. -/
theorem getLsbD_setField {n : Nat} (x : BitVec n) {lo w : Nat} (y : Nat) {i : Nat} (hi : i < n) :
    (setField x lo w y).getLsbD i = if lo ≤ i ∧ i < lo + w then y.testBit (i - lo) else x.getLsbD i := by
  rw [setField, BitVec.getLsbD_ofNat, decide_eq_true hi, Bool.true_and, testBit_setField, BitVec.getLsbD]

/-- A word put into a descriptor reads back, and the others read as before (10 R222). -/
theorem dword_setField (d : DescWord) (x : U64) {j k : Nat} (hk : k < 8) :
    dword (setField d (64 * j) 64 x.toNat) k = if k = j then x else dword d k := by
  apply BitVec.eq_of_getLsbD_eq
  intro i hi
  rw [dword, BitVec.getLsbD_extractLsb', getLsbD_setField _ _ (by omega), decide_eq_true hi, Bool.true_and]
  by_cases h : k = j
  · rw [if_pos h, if_pos (by omega), BitVec.getLsbD]
    congr 1
    omega
  · rw [if_neg h, if_neg (by omega), dword, BitVec.getLsbD_extractLsb', decide_eq_true hi, Bool.true_and]

theorem testBit_lanes (ls : List (BitVec 16)) (i : Nat) :
    (ls.foldr (fun (x : BitVec 16) acc => x.toNat + 65536 * acc) 0).testBit i = (ls.getD (i / 16) 0).getLsbD (i % 16) := by
  induction ls generalizing i with
  | nil => simp
  | cons x xs ih =>
    rw [List.foldr_cons, Nat.add_comm]
    change (2 ^ 16 * _ + x.toNat).testBit i = _
    rw [Nat.testBit_two_pow_mul_add _ x.isLt]
    by_cases h : i < 16
    · rw [if_pos h, Nat.div_eq_of_lt h, Nat.mod_eq_of_lt h, List.getD_cons_zero, BitVec.getLsbD]
    · have hdiv : i / 16 = (i - 16) / 16 + 1 := by omega
      have hmod : i % 16 = (i - 16) % 16 := by omega
      rw [if_neg h, ih, hdiv, hmod, List.getD_cons_succ]

/-- A lane of a vector made from its lanes (08 R156). -/
theorem lane_ofLanes (ls : List (BitVec 16)) {l : Nat} (hl : l < 128) : lane (ofLanes ls) l = ls.getD l 0 := by
  apply BitVec.eq_of_getLsbD_eq
  intro i hi
  rw [lane, BitVec.getLsbD_extractLsb', decide_eq_true hi, Bool.true_and, ofLanes, BitVec.getLsbD_ofNat,
    decide_eq_true (by omega), Bool.true_and, testBit_lanes]
  congr 2 <;> omega

/-- A vector built under the governing mask, lane by lane (08 R157). -/
theorem lane_mergeLanes (mask : BitVec 128) (z : Bool) (old : BitVec 2048) (new : Nat → BitVec 16) {l : Nat} (hl : l < 128) :
    lane (mergeLanes mask z old new) l = if mask.getLsbD l then new l else if z then 0 else lane old l := by
  rw [mergeLanes, lane_ofLanes _ hl, List.getD_eq_getElem?_getD, List.getElem?_map, List.getElem?_range hl]
  rfl

/-- A mask of the first n bits. -/
theorem getLsbD_leading (n : Nat) {l : Nat} (hl : l < 128) :
    (BitVec.ofNat 128 (2 ^ min n 128 - 1)).getLsbD l = decide (l < n) := by
  rw [BitVec.getLsbD_ofNat, decide_eq_true hl, Bool.true_and, Nat.testBit_two_pow_sub_one, decide_eq_decide]
  omega

/-! ### The moves (10 Table 10-4) -/

/-- A short instruction that changes its task alone, with no vector to check. -/
theorem issue_move {s : State} {p : Pid} {t : Task} {u : Use} {f : Fields} (hc : CanIssue s p t) (ha : Accepts t u f) (g : Task → Task)
    (hg : (g t).pc = t.pc) (hchecked : u.checked = false := by rfl) (hlong : u.long = false := by rfl) :
    issue p u f s (fun _ => .ok (s.onTask p g)) = goesTo s p (g t) 8 := by
  rw [issue_task hc ha g rfl hg (.inl hchecked), hlong]
  rfl

/-- Settles O5: each move is a change of its task, and what its value holds is a fact about lanes, words or bits. -/
theorem mvRegisterMoves : Obligations.MvRegisterMoves := by
  unfold Obligations.MvRegisterMoves
  intro s p t f hc
  refine ⟨fun ha => ?lane, fun ha => ?splat, fun ha => ?dget, fun ha => ?dput, fun ha => ⟨?mand, ?mor⟩, fun ha => ?mnot,
    fun ha => ?mset⟩
  case lane => exact issue_move hc ha (fun t => t.setS f.rd _) (Task.setS_pc _ _ _)
  case splat =>
    exact ⟨_, issue_move hc ha (fun t => t.setV f.rd (mergeLanes (t.mreg f.mask) f.z (t.vreg f.rd) _)) (Task.setV_pc _ _ _),
      fun l hl => lane_mergeLanes _ _ _ _ hl⟩
  case dget => exact issue_move hc ha (fun t => t.setS f.rd _) (Task.setS_pc _ _ _)
  case dput =>
    exact ⟨_, issue_move hc ha (fun t => t.setD (dnum f.rd) (setField (t.dreg (dnum f.rd)) _ 64 (t.sreg f.ra).toNat))
      (Task.setD_pc _ _ _), fun k hk => dword_setField _ _ hk⟩
  case mand => exact issue_move hc ha (fun t => t.setM (mnum f.rd) _) (Task.setM_pc _ _ _)
  case mor => exact issue_move hc ha (fun t => t.setM (mnum f.rd) _) (Task.setM_pc _ _ _)
  case mnot => exact issue_move hc ha (fun t => t.setM (mnum f.rd) _) (Task.setM_pc _ _ _)
  case mset =>
    exact ⟨_, issue_move hc ha (fun t => t.setM (mnum f.rd) (BitVec.ofNat 128 (2 ^ min (t.sreg f.ra).toNat 128 - 1)))
      (Task.setM_pc _ _ _), fun l hl => getLsbD_leading _ hl⟩

end Sys2Proof.Machine
end

section
/-! PROOFS. BF16 operations on NaN, infinities and zeros (02 R32; 08 R160, R163). -/

namespace Sys2Proof.Machine

/-! ### The operations by their codes (08 Table 8-1) -/

section
variable (imm : Nat) (u : Option Nat) (cond : Bool) (a b c : BitVec 16)

@[simp] theorem native_add : (native 1 0 imm u cond a b c).1 = bfAdd a b := rfl
@[simp] theorem native_sub : (native 2 0 imm u cond a b c).1 = bfSub a b := rfl
@[simp] theorem native_mul : (native 3 0 imm u cond a b c).1 = bfMul a b := rfl
@[simp] theorem native_fma : (native 4 0 imm u cond a b c).1 = bfFma a b c := rfl
@[simp] theorem native_min : (native 5 0 imm u cond a b c).1 = bfMin a b := rfl
@[simp] theorem native_max : (native 6 0 imm u cond a b c).1 = bfMax a b := rfl
@[simp] theorem native_abs : (native 12 0 imm u cond a b c).1 = bfAbs a := rfl
@[simp] theorem native_neg : (native 13 0 imm u cond a b c).1 = bfNegate a := rfl
@[simp] theorem native_rcp : (native 16 0 imm u cond a b c).1 = bfRcp a := by simp [native, opCompares]
@[simp] theorem native_rsq : (native 17 0 imm u cond a b c).1 = bfRsq a := by simp [native, opCompares]
@[simp] theorem native_ex2 : (native 18 0 imm u cond a b c).1 = bfEx2 a := by simp [native, opCompares]
@[simp] theorem native_lg2 : (native 19 0 imm u cond a b c).1 = bfLg2 a := by simp [native, opCompares]

/-- A comparison gives all ones or zeros (08 R162). -/
theorem native_cmp {op : Nat} (fmt : Fmt) (h : op ∈ [7, 8, 9, 10]) :
    (native op fmt imm u cond a b c).1 = if laneCmp op fmt a b then 0xFFFF else 0 := by
  simp only [List.mem_cons, List.not_mem_nil, or_false] at h
  rcases h with rfl | rfl | rfl | rfl <;> rfl

end

/-! ### Kinds of codes -/

section
variable {a b c : BitVec 16}

theorem not_nan_of_inf (h : bfIsInf a = true) : bfIsNan a = false := by
  simp only [bfIsInf, bfIsNan, Bool.and_eq_true, beq_iff_eq] at *
  simp [h]

theorem not_nan_of_zero (h : bfIsZero a = true) : bfIsNan a = false := by
  simp only [bfIsZero, bfIsNan, beq_iff_eq] at *
  simp [h]

theorem not_inf_of_zero (h : bfIsZero a = true) : bfIsInf a = false := by
  simp only [bfIsZero, bfIsInf, beq_iff_eq] at *
  simp [h]

/-- The sign bit turned leaves the exponent and the fraction. -/
theorem bfIsInf_flip (b : BitVec 16) : bfIsInf (b ^^^ 0x8000) = bfIsInf b := by
  simp [bfIsInf, bfExp, bfFrac, BitVec.extractLsb'_xor]

theorem bfNeg_flip (b : BitVec 16) : bfNeg (b ^^^ 0x8000) = !bfNeg b := by
  simp [bfNeg]

theorem bfDy_zero (h : bfIsZero a = true) : bfDy a = ⟨0, 0⟩ := if_pos h

/-! ### NaN operands -/

section
variable (h : bfIsNan a = true)
include h

theorem bfAdd_nan_left (b : BitVec 16) : bfAdd a b = bfNan := by simp [bfAdd, h]
theorem bfAdd_nan_right (b : BitVec 16) : bfAdd b a = bfNan := by simp [bfAdd, h]
theorem bfSub_nan_left (b : BitVec 16) : bfSub a b = bfNan := bfAdd_nan_left h _
theorem bfSub_nan_right (b : BitVec 16) : bfSub b a = bfNan := by rw [bfSub, if_pos h, bfAdd_nan_right h]
theorem bfMul_nan_left (b : BitVec 16) : bfMul a b = bfNan := by simp [bfMul, h]
theorem bfMul_nan_right (b : BitVec 16) : bfMul b a = bfNan := by simp [bfMul, h]
theorem bfFma_nan_a (b c : BitVec 16) : bfFma a b c = bfNan := by simp [bfFma, h]
theorem bfFma_nan_b (b c : BitVec 16) : bfFma b a c = bfNan := by simp [bfFma, h]
theorem bfFma_nan_c (b c : BitVec 16) : bfFma b c a = bfNan := by simp [bfFma, h]
theorem bfMin_nan_left (b : BitVec 16) : bfMin a b = bfNan := by simp [bfMin, h]
theorem bfMin_nan_right (b : BitVec 16) : bfMin b a = bfNan := by simp [bfMin, h]
theorem bfMax_nan_left (b : BitVec 16) : bfMax a b = bfNan := by simp [bfMax, h]
theorem bfMax_nan_right (b : BitVec 16) : bfMax b a = bfNan := by simp [bfMax, h]
theorem bfAbs_nan : bfAbs a = bfNan := if_pos h
theorem bfNegate_nan : bfNegate a = bfNan := if_pos h
theorem bfRcp_nan : bfRcp a = bfNan := if_pos h
theorem bfRsq_nan : bfRsq a = bfNan := if_pos h
theorem bfEx2_nan : bfEx2 a = bfNan := if_pos h
theorem bfLg2_nan : bfLg2 a = bfNan := if_pos h

/-- Every operation with a NaN for A gives the canonical NaN (08 R160, R163). -/
theorem native_nan_a (x y : BitVec 16) :
    ∀ op ∈ [1, 2, 3, 4, 5, 6, 12, 13, 16, 17, 18, 19], (native op 0 0 none false a x y).1 = bfNan := by
  simp [bfAdd_nan_left h, bfSub_nan_left h, bfMul_nan_left h, bfFma_nan_a h, bfMin_nan_left h, bfMax_nan_left h, bfAbs_nan h,
    bfNegate_nan h, bfRcp_nan h, bfRsq_nan h, bfEx2_nan h, bfLg2_nan h]

theorem native_nan_b (x y : BitVec 16) : ∀ op ∈ [1, 2, 3, 4, 5, 6], (native op 0 0 none false x a y).1 = bfNan := by
  simp [bfAdd_nan_right h, bfSub_nan_right h, bfMul_nan_right h, bfFma_nan_b h, bfMin_nan_right h, bfMax_nan_right h]

end

/-- A comparison with a NaN is false, but for ne (08 R160). -/
theorem laneCmp_nan (h : bfIsNan a = true ∨ bfIsNan b = true) (op : Nat) : laneCmp op 0 a b = (op == 8) := by
  simp [laneCmp, h]

/-- The four comparisons with a NaN (08 R160, R162). -/
theorem native_cmp_nan (h : bfIsNan a = true ∨ bfIsNan b = true) (c : BitVec 16) :
    (native 7 0 0 none false a b c).1 = 0 ∧ (native 9 0 0 none false a b c).1 = 0 ∧ (native 10 0 0 none false a b c).1 = 0 ∧
    (native 8 0 0 none false a b c).1 = 0xFFFF := by
  simp [native_cmp, laneCmp_nan h]

/-! ### Infinities -/

/-- "∞ − ∞" is a NaN (08 R160). -/
theorem bfAdd_inf_opposite (ha : bfIsInf a = true) (hb : bfIsInf b = true) (h : bfNeg a ≠ bfNeg b) : bfAdd a b = bfNan := by
  simp [bfAdd, not_nan_of_inf ha, not_nan_of_inf hb, ha, hb, h.symm]

theorem bfSub_inf_same (ha : bfIsInf a = true) (hb : bfIsInf b = true) (h : bfNeg a = bfNeg b) : bfSub a b = bfNan := by
  rw [bfSub, not_nan_of_inf hb, if_neg Bool.false_ne_true]
  refine bfAdd_inf_opposite ha (by rw [bfIsInf_flip, hb]) ?_
  rw [bfNeg_flip, h]
  cases bfNeg b <;> decide

/-- "0 × ∞" is a NaN, whatever is added to it (08 R160). -/
theorem bfMul_inf_zero (ha : bfIsInf a = true) (hb : bfIsZero b = true) : bfMul a b = bfNan ∧ bfMul b a = bfNan := by
  simp [bfMul, not_nan_of_inf ha, not_nan_of_zero hb, ha, hb]

theorem bfFma_inf_zero (ha : bfIsInf a = true) (hb : bfIsZero b = true) (c : BitVec 16) : bfFma a b c = bfNan := by
  simp [bfFma, ha, hb]

/-! ### Negative values and zeros -/

/-- "ee.rsq or ee.lg2 of any negative value" is a NaN (08 R163). -/
theorem bfRsq_negative (hnan : bfIsNan a = false) (hzero : bfIsZero a = false) (hneg : bfNeg a = true) : bfRsq a = bfNan := by
  simp [bfRsq, hnan, hzero, hneg]

theorem bfLg2_negative (hnan : bfIsNan a = false) (hzero : bfIsZero a = false) (hneg : bfNeg a = true) : bfLg2 a = bfNan := by
  rw [bfLg2, hnan, hzero, hneg]
  rfl

section
variable (ha : bfIsZero a = true) (hb : bfIsZero b = true)
include ha

theorem bfRcp_zero : bfRcp a = bfInf (bfNeg a) := by simp [bfRcp, not_nan_of_zero ha, not_inf_of_zero ha, ha]
theorem bfRsq_zero : bfRsq a = 0x7F80 := by simp [bfRsq, not_nan_of_zero ha, ha]
theorem bfLg2_zero : bfLg2 a = 0xFF80 := by
  rw [bfLg2, not_nan_of_zero ha, ha]
  rfl

include hb

/-- The sum of two zeros is −0 where both are, else +0 (08 R160). -/
theorem bfAdd_zeros : bfAdd a b = bfZero (bfNeg a && bfNeg b) := by
  simp [bfAdd, not_nan_of_zero, not_inf_of_zero, bfDy_zero, Dy.add, Dy.toBf, ha, hb]

theorem bfMin_zeros : bfMin a b = bfZero (bfNeg a || bfNeg b) := by simp [bfMin, not_nan_of_zero, ha, hb]
theorem bfMax_zeros : bfMax a b = bfZero (bfNeg a && bfNeg b) := by simp [bfMax, not_nan_of_zero, ha, hb]

/-- The zeros compare equal (08 R160). -/
theorem laneCmp_eq_zeros : laneCmp 7 0 a b = true := by
  have lt : bfLt a b = false := by simp [bfLt, not_inf_of_zero, bfDy_zero, Dy.lt, ha, hb]
  have gt : bfLt b a = false := by simp [bfLt, not_inf_of_zero, bfDy_zero, Dy.lt, ha, hb]
  simp [laneCmp, not_nan_of_zero, ha, hb, lt, gt]

end

end

/-- Settles O21: by the operand's kind, each operation through the branch that answers it. -/
theorem bf16SpecialCases : Obligations.Bf16SpecialCases := by
  unfold Obligations.Bf16SpecialCases
  intro a b run nan
  refine ⟨fun ha x y => ⟨native_nan_a ha x y, native_nan_b ha x y, bfFma_nan_c ha x y, ?comparisons⟩, bfAdd_inf_opposite,
    bfSub_inf_same, fun ha hb z => ⟨(bfMul_inf_zero ha hb).1, (bfMul_inf_zero ha hb).2, bfFma_inf_zero ha hb z⟩, ?negative,
    fun ha hb => ⟨bfAdd_zeros ha hb, ?equal, bfMin_zeros ha hb, bfMax_zeros ha hb⟩, ?functions, ?infinities⟩
  case comparisons =>
    obtain ⟨eq, lt, le, ne⟩ := native_cmp_nan (b := x) (.inl ha) y
    exact ⟨eq, lt, le, ne, native_cmp_nan (.inr ha) y⟩
  case negative =>
    intro hnan hzero hneg
    exact ⟨(native_rsq ..).trans (bfRsq_negative hnan hzero hneg), (native_lg2 ..).trans (bfLg2_negative hnan hzero hneg)⟩
  case equal =>
    refine (native_cmp 0 none false a b 0 0 (by decide)).trans ?_
    rw [laneCmp_eq_zeros ha hb]
    rfl
  case functions =>
    intro ha
    exact ⟨(native_rcp ..).trans (bfRcp_zero ha), (native_rsq ..).trans (bfRsq_zero ha), (native_lg2 ..).trans (bfLg2_zero ha)⟩
  case infinities => exact ⟨rfl, rfl, rfl, rfl, rfl, rfl⟩

end Sys2Proof.Machine
end

section
/-! PROOFS. What a line of 16-bit integers reduces to: its count, its exact sums and its extremes (08 R178-R182). -/

namespace Sys2Proof.Machine

/-! ### Sums within ACCX (02 R30; 08 R179) -/

theorem accOf_within {x : Int} (h : x.natAbs ≤ 2 ^ 47 - 1) : accOf true x = .val x := by
  rw [accOf, if_neg]
  simp only [accMax, if_true]
  omega

/-- A sum of small values whose count leaves it within ACCX is exact, from any start that the count leaves room for. -/
theorem foldl_accAdd_exact {α : Type} (g : α → Int) (most : Nat) (xs : List α) (hg : ∀ x ∈ xs, (g x).natAbs ≤ most) (a : Int)
    (hroom : a.natAbs + xs.length * most ≤ 2 ^ 47 - 1) :
    (xs.map (fun x => Acc.val (g x))).foldl (accAdd true) (.val a) = .val (a + (xs.map g).sum) := by
  induction xs generalizing a with
  | nil => simp
  | cons x xs ih =>
    have hx := hg x List.mem_cons_self
    rw [List.length_cons, Nat.succ_mul] at hroom
    have hnext : (a + g x).natAbs + xs.length * most ≤ 2 ^ 47 - 1 := by omega
    rw [List.map_cons, List.foldl_cons, accAdd, accOf_within (by omega),
      ih (fun y hy => hg y (List.mem_cons_of_mem x hy)) _ hnext, List.map_cons, List.sum_cons, Int.add_assoc]

theorem accSum_exact {α : Type} (g : α → Int) (most : Nat) (xs : List α) (hg : ∀ x ∈ xs, (g x).natAbs ≤ most)
    (hroom : xs.length * most ≤ 2 ^ 47 - 1) : accSum (xs.map (fun x => Acc.val (g x))) = .val (xs.map g).sum := by
  rw [accSum, foldl_accAdd_exact g most xs hg 0 (by simpa using hroom), Int.zero_add]

/-! ### Entries of an integer line -/

/-- The value of a 16-bit code (02 R24). -/
def int16Val (c : Nat) : Int := (BitVec.ofNat 16 c).toInt

/-- A line of INT16 codes without the overflow code (02 Table 2-2). -/
def Line.int16 (l : Line) : Prop := ∀ c ∈ l.vals, c < 65536 ∧ c ≠ 0x8000

theorem natAbs_int16Val {c : Nat} (h : c < 65536 ∧ c ≠ 0x8000) : (int16Val c).natAbs ≤ 32767 := by
  obtain ⟨hlt, hne⟩ := h
  rw [int16Val, BitVec.toInt_eq_toNat_cond, BitVec.toNat_ofNat]
  split <;> omega

theorem natAbs_int16Val_sq {c : Nat} (h : c < 65536 ∧ c ≠ 0x8000) : (int16Val c * int16Val c).natAbs ≤ 32767 * 32767 := by
  rw [Int.natAbs_mul]
  exact Nat.mul_le_mul (natAbs_int16Val h) (natAbs_int16Val h)

theorem ruEntry_int16 {c : Nat} (h : c < 65536 ∧ c ≠ 0x8000) (F : Nat) : ruEntry 1 F c = .val (int16Val c) := by
  obtain ⟨hlt, hne⟩ := h
  have hcode : BitVec.ofNat 16 c ≠ 0x8000 := by
    intro he
    have := congrArg BitVec.toNat he
    rw [BitVec.toNat_ofNat, Nat.mod_eq_of_lt hlt] at this
    exact hne this
  simp only [ruEntry, if_true, if_neg hcode, int16Val]

/-- Every code of an integer line enters its sums with its value (08 R179). -/
theorem sumCodes_int16 (codes : List Nat) : sumCodes 1 codes = codes := by
  simp [sumCodes, codeNan]

section
variable {l : Line} (h : l.int16)
include h

theorem Line.int16.entries (F : Nat) : (sumCodes 1 l.vals).map (ruEntry 1 F) = l.vals.map (fun c => .val (int16Val c)) := by
  rw [sumCodes_int16]
  exact List.map_congr_left fun c hc => ruEntry_int16 (h c hc) F

theorem Line.int16.squares (F : Nat) : ((sumCodes 1 l.vals).map (ruEntry 1 F)).map (fun e => accMul e e) =
    l.vals.map (fun c => .val (int16Val c * int16Val c)) := by
  rw [h.entries F, List.map_map]
  refine List.map_congr_left fun c hc => ?_
  exact accOf_within (Nat.le_trans (natAbs_int16Val_sq (h c hc)) (by decide))

end

/-! ### Positions of a line -/

/-- The unmasked elements of a line with their positions (08 R181). -/
def Line.placed (l : Line) : List (Nat × Nat) := l.elems.zipIdx.filterMap (fun x => x.1.map (fun c => (x.2, c)))

theorem Line.mem_placed {l : Line} {k c : Nat} : (k, c) ∈ l.placed ↔ l.elems[k]? = some (some c) := by
  simp only [Line.placed, List.mem_filterMap, Prod.exists, List.mem_zipIdx_iff_getElem?, Option.map_eq_some_iff, Prod.mk.injEq]
  constructor
  · rintro ⟨_, _, he, c', rfl, rfl, rfl⟩
    exact he
  · exact fun he => ⟨_, _, he, c, rfl, rfl, rfl⟩

theorem Line.mem_vals {l : Line} {c : Nat} : c ∈ l.vals ↔ ∃ k : Nat, l.elems[k]? = some (some c) := by
  rw [Line.vals, List.mem_filterMap]
  simp [List.mem_iff_getElem?]

/-- The positions rise. -/
theorem Line.placed_rising (l : Line) : l.placed.Pairwise (fun x y => x.1 < y.1) := by
  have h : l.elems.zipIdx.Pairwise (fun x y => x.2 < y.2) := by
    rw [← List.pairwise_map (f := Prod.snd), List.zipIdx_map_snd]
    exact List.pairwise_lt_range'
  rw [Line.placed, List.pairwise_filterMap]
  refine h.imp ?_
  rintro ⟨x, j⟩ ⟨y, k⟩ hjk u hu v hv
  obtain ⟨-, -, rfl⟩ := Option.map_eq_some_iff.mp hu
  obtain ⟨-, -, rfl⟩ := Option.map_eq_some_iff.mp hv
  exact hjk

/-! ### Extremes (08 R181) -/

/-- The order in which an extreme ranks the codes: by value, or by its opposite for a minimum. -/
def int16Rank (max : Bool) (c : Nat) : Int := if max then int16Val c else -int16Val c

/-- One step of the search: a code that ranks above the best so far takes its place (08 R181). -/
def takeHigher (max : Bool) (best : Option (Nat × Nat)) (x : Nat × Nat) : Option (Nat × Nat) :=
  match best with
  | none => some x
  | some b => if int16Rank max b.2 < int16Rank max x.2 then some x else some b

/-- Among codes that none outranks, the extreme is what the search finds. -/
theorem extreme_int16 (max : Bool) (xs : List (Nat × Nat)) (h : ∀ x ∈ xs, x.2 ≠ 0x8000) :
    extreme 1 max xs = xs.foldl (takeHigher max) none := by
  have hnone : xs.find? (fun x => outranks 1 x.2) = none :=
    List.find?_eq_none.mpr fun x hx hout => h x hx (beq_iff_eq.mp hout)
  rw [extreme, hnone]
  dsimp only
  congr 1
  funext best x
  cases best with
  | none => rfl
  | some b => cases max <;> simp [takeHigher, codeLt, int16Rank, int16Val]

/-- `m` is the first of the highest rank among elements with their positions. -/
def FirstBest (max : Bool) (xs : List (Nat × Nat)) (m : Nat × Nat) : Prop :=
  m ∈ xs ∧ ∀ y ∈ xs, int16Rank max y.2 ≤ int16Rank max m.2 ∧ (y.1 < m.1 → int16Rank max y.2 < int16Rank max m.2)

/-- From a first element on, the search over rising positions finds the first of the highest rank. -/
theorem foldl_takeHigher (max : Bool) (b : Nat × Nat) (xs : List (Nat × Nat)) (h : (b :: xs).Pairwise (fun x y => x.1 < y.1)) :
    ∃ m, xs.foldl (takeHigher max) (some b) = some m ∧ FirstBest max (b :: xs) m := by
  induction xs generalizing b with
  | nil =>
    refine ⟨b, rfl, List.mem_cons_self, fun y hy => ?_⟩
    rw [List.mem_singleton.mp hy]
    exact ⟨Int.le_refl _, fun hlt => absurd hlt (Nat.lt_irrefl _)⟩
  | cons x xs ih =>
    obtain ⟨hb, hx⟩ := List.pairwise_cons.mp h
    have hbx : b.1 < x.1 := hb x List.mem_cons_self
    rw [List.foldl_cons, takeHigher]
    split
    case isTrue higher =>
      obtain ⟨m, hm, hmem, hbest⟩ := ih x hx
      refine ⟨m, hm, List.mem_cons_of_mem b hmem, fun y hy => ?_⟩
      rcases List.mem_cons.mp hy with rfl | hy
      · have := (hbest x List.mem_cons_self).1
        omega
      · exact hbest y hy
    case isFalse lower =>
      have hskip : (b :: xs).Pairwise (fun x y => x.1 < y.1) :=
        List.pairwise_cons.mpr ⟨fun y hy => hb y (List.mem_cons_of_mem x hy), (List.pairwise_cons.mp hx).2⟩
      obtain ⟨m, hm, hmem, hbest⟩ := ih b hskip
      have hfirst := hbest b List.mem_cons_self
      refine ⟨m, hm, ?_, fun y hy => ?_⟩
      · rcases List.mem_cons.mp hmem with rfl | hmem
        · exact List.mem_cons_self
        · exact List.mem_cons_of_mem b (List.mem_cons_of_mem x hmem)
      · rcases List.mem_cons.mp hy with rfl | hy
        · exact hfirst
        rcases List.mem_cons.mp hy with rfl | hy
        · omega
        · exact hbest y (List.mem_cons_of_mem b hy)

/-- An integer line with an element has an extreme: the lowest position of the highest rank. -/
theorem Line.int16.extreme {l : Line} (h : l.int16) (hne : l.vals ≠ []) (max : Bool) :
    ∃ k c, extreme 1 max l.placed = some (k, c) ∧ l.elems[k]? = some (some c) ∧ ∀ j d, l.elems[j]? = some (some d) →
      int16Rank max d ≤ int16Rank max c ∧ (j < k → int16Rank max d < int16Rank max c) := by
  have hplain : ∀ x ∈ l.placed, x.2 ≠ 0x8000 := fun x hx => (h x.2 (Line.mem_vals.mpr ⟨x.1, Line.mem_placed.mp hx⟩)).2
  obtain ⟨c₀, hc₀⟩ := List.exists_mem_of_ne_nil _ hne
  obtain ⟨k₀, hk₀⟩ := Line.mem_vals.mp hc₀
  obtain ⟨b, xs, hplaced⟩ := List.exists_cons_of_ne_nil (List.ne_nil_of_mem (Line.mem_placed.mpr hk₀))
  obtain ⟨⟨k, c⟩, hfold, hmem, hbest⟩ := foldl_takeHigher max b xs (hplaced ▸ l.placed_rising)
  rw [← hplaced] at hmem hbest
  refine ⟨k, c, ?_, Line.mem_placed.mp hmem, fun j d hj => hbest (j, d) (Line.mem_placed.mpr hj)⟩
  rw [extreme_int16 max _ hplain, hplaced, List.foldl_cons]
  exact hfold

theorem extreme_of_empty {l : Line} (h : l.vals = []) (max : Bool) : extreme 1 max l.placed = none := by
  have hplaced : l.placed = [] := List.eq_nil_iff_forall_not_mem.mpr fun x hx => by
    have := Line.mem_vals.mpr ⟨x.1, Line.mem_placed.mp hx⟩
    rw [h] at this
    exact List.not_mem_nil this
  rw [hplaced]
  rfl

/-! ### The results of a line -/

theorem sumOut_accx {D : Tensor} (hD : D.kind = .accx) (F : Nat) (fmt : Fmt) (x : Acc) (e : Bool) :
    (sumOut D F fmt x false e).res = [accCode true x] := by
  simp [sumOut, hD]

theorem not_any_codeNan (codes : List Nat) : codes.any (codeNan 1) = false := by
  simp [codeNan]

section
variable {T : Tensor} (f : Fields) (D : Tensor) (l : Line)

/-- A largest or smallest value is the code that the extreme chooses, or that of an empty line (08 R180, R181). -/
theorem lineOut_value (max : Bool) : (lineOut (if max then 6 else 7) f T D l).res =
    [(extreme (laneFmt T) max l.placed).elim (emptyExtreme (laneFmt T) max) (·.2)] := by
  cases max
  · change [match extreme (laneFmt T) false l.placed with | some x => x.2 | none => _] = _
    cases extreme (laneFmt T) false l.placed <;> rfl
  · change [match extreme (laneFmt T) true l.placed with | some x => x.2 | none => _] = _
    cases extreme (laneFmt T) true l.placed <;> rfl

/-- A position of an extreme is stored as two halves, all ones for an empty line (08 R180, R181). -/
theorem lineOut_position (max : Bool) : (lineOut (if max then 8 else 9) f T D l).res =
    [(extreme (laneFmt T) max l.placed).elim 0xFFFFFFFF (·.1) % 65536,
     (extreme (laneFmt T) max l.placed).elim 0xFFFFFFFF (·.1) / 65536] := by
  cases max
  · change (fun k => [k % 65536, k / 65536]) (match extreme (laneFmt T) false l.placed with | some x => x.1 | none => _) = _
    cases extreme (laneFmt T) false l.placed <;> rfl
  · change (fun k => [k % 65536, k / 65536]) (match extreme (laneFmt T) true l.placed with | some x => x.1 | none => _) = _
    cases extreme (laneFmt T) true l.placed <;> rfl

variable (hT : laneFmt T = 1)
include hT

theorem lineOut_sum (hD : D.kind = .accx) (h : l.int16) {x : Acc} (hx : accSum (l.vals.map (fun c => .val (int16Val c))) = x) :
    (lineOut 1 f T D l).res = [accCode true x] := by
  simp only [lineOut, hT, not_any_codeNan, h.entries, hx, sumOut_accx hD]

theorem lineOut_sumsq (hD : D.kind = .accx) (h : l.int16) {x : Acc}
    (hx : accSum (l.vals.map (fun c => .val (int16Val c * int16Val c))) = x) :
    (lineOut 2 f T D l).res = [accCode true x] := by
  simp only [lineOut, hT, not_any_codeNan, h.squares, hx, sumOut_accx hD]

/-- The value and the position of an extreme of a line that has an element (08 R181). -/
theorem lineOut_extreme (h : l.int16) (hne : l.vals ≠ []) (max : Bool) : ∃ k c, l.elems[k]? = some (some c) ∧
    (lineOut (if max then 6 else 7) f T D l).res = [c] ∧
    (lineOut (if max then 8 else 9) f T D l).res = [k % 65536, k / 65536] ∧
    ∀ j d, l.elems[j]? = some (some d) →
      int16Rank max d ≤ int16Rank max c ∧ (j < k → int16Rank max d < int16Rank max c) := by
  obtain ⟨k, c, hx, hk, hbest⟩ := h.extreme hne max
  refine ⟨k, c, hk, ?_, ?_, hbest⟩
  · rw [lineOut_value, hT, hx, Option.elim_some]
  · rw [lineOut_position, hT, hx, Option.elim_some]

theorem lineOut_empty (hnil : l.vals = []) (max : Bool) :
    (lineOut (if max then 6 else 7) f T D l).res = [emptyExtreme 1 max] ∧
    (lineOut (if max then 8 else 9) f T D l).res = [0xFFFF, 0xFFFF] := by
  rw [lineOut_value, lineOut_position, hT, extreme_of_empty hnil]
  exact ⟨rfl, rfl⟩

end

/-- Settles O27: the sums as exact folds, the extremes as the first of the highest rank. -/
theorem ruLineResults : Obligations.RuLineResults := by
  unfold Obligations.RuLineResults
  intro f T D l hkind _ h v sum sumsq bound
  have hT : laneFmt T = 1 := by rw [laneFmt, hkind]
  refine ⟨?count, fun hD hroom => ?sum, fun hD hroom => ?sumsq, ?empty, fun hne => ?extremes, fun hnil => ?empties⟩
  case count => rfl
  case sum =>
    exact lineOut_sum f D l hT hD h (accSum_exact int16Val 32767 _ (fun c hc => natAbs_int16Val (h c hc)) (by omega))
  case sumsq =>
    exact lineOut_sumsq f D l hT hD h
      (accSum_exact (fun c => int16Val c * int16Val c) (32767 * 32767) _ (fun c hc => natAbs_int16Val_sq (h c hc)) (by omega))
  case empty => simp [lineOut]
  case extremes =>
    obtain ⟨k, c, hk, hmax, hargmax, hbest⟩ := lineOut_extreme f D l hT h hne true
    obtain ⟨m, e, hm, hmin, hargmin, hleast⟩ := lineOut_extreme f D l hT h hne false
    have least : ∀ j d, l.elems[j]? = some (some d) → v e ≤ v d ∧ (j < m → v e < v d) := fun j d hd =>
      (hleast j d hd).imp Int.neg_le_neg_iff.mp (fun hlt hj => Int.neg_lt_neg_iff.mp (hlt hj))
    refine ⟨⟨c, Line.mem_vals.mpr ⟨k, hk⟩, hmax, fun d hd => ?_⟩, ⟨e, Line.mem_vals.mpr ⟨m, hm⟩, hmin, fun d hd => ?_⟩,
      ⟨k, c, hk, hargmax, hbest⟩, ⟨m, e, hm, hargmin, least⟩⟩
    · obtain ⟨j, hj⟩ := Line.mem_vals.mp hd
      exact (hbest j d hj).1
    · obtain ⟨j, hj⟩ := Line.mem_vals.mp hd
      exact (least j d hj).1
  case empties =>
    obtain ⟨hmax, hargmax⟩ := lineOut_empty f D l hT hnil true
    obtain ⟨hmin, hargmin⟩ := lineOut_empty f D l hT hnil false
    exact ⟨hmax, hmin, hargmax, hargmin⟩

end Sys2Proof.Machine
end

section
/-! PROOFS. The element engine in register form: what an instruction that flags, claims a stream and writes a register leaves, and the
lanes and mask bits that it gives (08 R156, R157, R162, R164; 06 R127; 17 R397). -/

namespace Sys2Proof.Machine

/-! ### Registers after a write (08 R157, 09 Table 9-3) -/

theorem Task.vreg_setV_self (t : Task) (r : BitVec 5) (x : BitVec 2048) : (t.setV r x).vreg r = x :=
  Vector.getElem_set_self ..

theorem Task.vreg_setV_ne (t : Task) {r k : BitVec 5} (x : BitVec 2048) (h : k ≠ r) : (t.setV r x).vreg k = t.vreg k :=
  Vector.getElem_set_ne r.isLt k.isLt fun e => h (BitVec.eq_of_toNat_eq e.symm)

theorem Task.mreg_setM_self (t : Task) {r : BitVec 3} (x : BitVec 128) (h : r ≠ 0) : (t.setM r x).mreg r = x := by
  rw [Task.mreg, if_neg h, Task.setM, if_neg h]
  exact Vector.getElem_set_self ..

theorem Task.mreg_setM_ne (t : Task) {r k : BitVec 3} (x : BitVec 128) (h : k ≠ r) : (t.setM r x).mreg k = t.mreg k := by
  unfold Task.setM
  split
  · rfl
  · unfold Task.mreg
    split
    · rfl
    · exact Vector.getElem_set_ne r.isLt k.isLt fun e => h (BitVec.eq_of_toNat_eq e.symm)

/-- A write to a mask register leaves the other files and the task's state alone. -/
theorem Task.setM_files (t : Task) (r : BitVec 3) (x : BitVec 128) :
    (t.setM r x).s = t.s ∧ (t.setM r x).d = t.d ∧ (t.setM r x).v = t.v ∧ (t.setM r x).ending = t.ending := by
  unfold Task.setM
  split <;> exact ⟨rfl, rfl, rfl, rfl⟩

/-- Bits set one by one in a number. -/
theorem testBit_sum_two_pow (on : Nat → Bool) (n l : Nat) : (((List.range n).filter on).map (2 ^ ·)).sum < 2 ^ n ∧
    (((List.range n).filter on).map (2 ^ ·)).sum.testBit l = (decide (l < n) && on l) := by
  induction n with
  | zero => exact ⟨Nat.one_pos, by simp⟩
  | succ n ih =>
    obtain ⟨hlt, hbit⟩ := ih
    have hpow : 2 ^ (n + 1) = 2 ^ n + 2 ^ n := by rw [Nat.pow_succ, Nat.mul_two]
    rw [List.range_succ, List.filter_append, List.map_append, List.sum_append_nat]
    cases hn : on n
    case false =>
      have hlast : (([n].filter on).map (2 ^ ·)).sum = 0 := by simp only [List.filter, hn, List.map_nil, List.sum_nil]
      rw [hlast, Nat.add_zero, hbit]
      refine ⟨by omega, ?_⟩
      by_cases hl : l = n
      · rw [hl, hn, Bool.and_false, Bool.and_false]
      · rw [decide_eq_decide.mpr (by omega : l < n ↔ l < n + 1)]
    case true =>
      have hlast : (([n].filter on).map (2 ^ ·)).sum = 2 ^ n * 1 := by
        simp only [List.filter, hn, List.map_cons, List.map_nil, List.sum_cons, List.sum_nil, Nat.add_zero, Nat.mul_one]
      rw [hlast, Nat.add_comm, Nat.testBit_two_pow_mul_add 1 hlt, hbit]
      refine ⟨by omega, ?_⟩
      by_cases hl : l < n
      · rw [if_pos hl, decide_eq_true hl, decide_eq_true (by omega : l < n + 1)]
      rw [if_neg hl]
      by_cases hl : l = n
      · rw [hl, hn, Nat.sub_self, decide_eq_true (Nat.lt_succ_self n)]
        rfl
      · rw [Nat.testBit_lt_two_pow (Nat.one_lt_two_pow (by omega)), decide_eq_false (by omega : ¬ l < n + 1), Bool.false_and]

theorem getLsbD_sum_two_pow (on : Nat → Bool) {l : Nat} (hl : l < 128) :
    (BitVec.ofNat 128 (((List.range 128).filter on).map (2 ^ ·)).sum).getLsbD l = on l := by
  rw [BitVec.getLsbD_ofNat, (testBit_sum_two_pow on 128 l).2, decide_eq_true hl, Bool.true_and, Bool.true_and]

/-! ### What reissues and claims leave alone -/

section
variable {s : State} {p : Pid} {t : Task}

theorem State.onTask_onTask (s : State) (p : Pid) (g k : Task → Task) :
    (s.onTask p g).onTask p k = s.onTask p (fun t => k (g t)) := by
  simp only [State.onTask, State.onPolder_onPolder, Option.map_map]
  rfl

theorem State.onTask_id (s : State) (p : Pid) {g : Task → Task} (h : ∀ t, g t = t) : s.onTask p g = s := by
  refine State.onPolder_id s p ?_
  rw [funext h, show (fun t : Task => t) = id from rfl, Option.map_id_apply]

/-- Reissues count in the integrity records and in the REPLAYS of the task, and nowhere else (17 R397, R398). -/
theorem State.reissue_only (s : State) (p : Pid) (n : Nat) : ∃ i k, s.reissue p n =
    { s.onTask p (fun t => { t with replays := t.replays + k }) with integ := i } := by
  induction n generalizing s with
  | zero =>
    have same := s.onTask_id p (g := fun t => { t with replays := t.replays + 0 }) (fun t => by simp)
    exact ⟨s.integ, 0, congrArg (fun r : State => { r with integ := s.integ }) same.symm⟩
  | succ n ih =>
    obtain ⟨i, hi, -⟩ := s.countReplay_only p
    obtain ⟨i', k, h⟩ := ih (s.taskReplay p)
    have both := s.onTask_onTask p (fun t => { t with replays := t.replays + 1 }) (fun t => { t with replays := t.replays + k })
    refine ⟨i', 1 + k, ?_⟩
    simp only [BitVec.add_assoc] at both
    rw [State.reissue, h, State.taskReplay, hi]
    exact congrArg (fun r : State => { r with integ := i' }) both

/-- A claim of a stream records it with the task and may count the pair as shared (06 R127). -/
theorem State.claim_only (h : s.polders[p].task = some t) (gen : BitVec 4) (sid : U32) (dest n : Nat) : ∃ z cs,
    s.claim p gen sid dest n = s.onPolder p (fun P => { P with qz := z, task := some { t with claims := cs } }) := by
  have same : s = s.onPolder p (fun P => { P with qz := s.polders[p].qz, task := some { t with claims := t.claims } }) :=
    (State.onPolder_id s p (by rw [← h])).symm
  unfold State.claim
  split
  · exact ⟨_, _, same⟩
  rw [h]
  dsimp only
  split
  · split
    · exact ⟨_, _, same⟩
    · refine ⟨{ s.polders[p].qz with status := stick s.polders[p].qz.status 4 true,
                                     shared := s.polders[p].qz.shared + BitVec.ofNat 64 n }, t.claims, ?_⟩
      rw [State.qzFlag, State.onPolder_onPolder]
      refine State.onPolder_congr s p ?_
      rw [← h]
  · refine ⟨s.polders[p].qz, (if 16 ≤ t.claims.length then t.claims.tail else t.claims) ++ [⟨gen, sid, dest⟩],
      State.onPolder_congr s p ?_⟩
    rw [h]
    rfl
end

/-! ### An instruction that flags, claims a stream and changes its task -/

theorem State.onPolder_withInteg (s : State) (p : Pid) (i : Integ) (g : Polder → Polder) :
    State.onPolder { s with integ := i } p g = { s.onPolder p g with integ := i } := rfl

theorem State.withInteg_polders (s : State) (i : Integ) : State.polders { s with integ := i } = s.polders := rfl

/-- A task after an instruction that reissued `k` times, its next instruction at `pc`. -/
def Task.stepped (t : Task) (k pc : U32) : Task := { t with replays := t.replays + k, pc, wait := none }

/-- What such an instruction leaves of the state: its task, the flag, and counts of its polder and its site. -/
structure Registered (s r : State) (p : Pid) (u : Task) (sat : Bool) : Prop where
  task : r.polders[p].task = some u
  status : r.polders[p].ee.status = stick s.polders[p].ee.status 0 sat
  mem : r.mem = s.mem
  weirs : r.weirs = s.weirs
  res : r.res = s.res
  others : ∀ q, q ≠ p → r.polders[q] = s.polders[q]

/-- An instruction that flags SAT, claims a stream and changes its task completes, with its reissues (17 R397). -/
theorem issue_registered {s : State} {p : Pid} {t : Task} {f : Fields} {u : Use} (hc : CanIssue s p t) (ha : Accepts t u f)
    {gen : BitVec 4} {sid : U32} {dest n : Nat} {sat : Bool} {g : Task → Task} {body : Task → Res State}
    (hb : body t = .ok (((s.eeFlags p sat false).claim p gen sid dest n).onTask p g)) :
    ∃ r cs k, issue p u f s body = .next r ∧
      Registered s r p ((g { t with claims := cs }).stepped k (t.pc + BitVec.ofNat 32 (if u.long then 16 else 8))) sat := by
  have hflag : (s.eeFlags p sat false).polders[p].task = some t := by rw [State.eeFlags, State.onPolder_polders_self, hc.task]
  obtain ⟨z, cs, hclaim⟩ := State.claim_only hflag gen sid dest n
  obtain ⟨i, k, hreissue⟩ := (((s.eeFlags p sat false).claim p gen sid dest n).onTask p g).reissue_only p
    (if u.checked then f.upsets else 0)
  refine ⟨_, cs, k, issue_ok hc ha hb, ?_⟩
  generalize t.pc + BitVec.ofNat 32 (if u.long then 16 else 8) = pc at *
  have hstate : ((((s.eeFlags p sat false).claim p gen sid dest n).onTask p g).reissue p (if u.checked then f.upsets else 0)).setPc p
      pc = { s.onPolder p (fun P => { P with ee := { P.ee with status := stick P.ee.status 0 sat }, qz := z,
                                             task := some ((g { t with claims := cs }).stepped k pc) }) with integ := i } := by
    rw [hreissue, hclaim]
    simp only [State.eeFlags, State.setPc, State.onTask, State.onPolder_withInteg, State.onPolder_onPolder, Option.map_some]
    rfl
  rw [hstate]
  refine ⟨?_, ?_, rfl, rfl, rfl, fun q hq => ?_⟩
  · rw [State.withInteg_polders, State.onPolder_polders_self]
  · rw [State.withInteg_polders, State.onPolder_polders_self]
  · rw [State.withInteg_polders, State.onPolder_polders_ne _ _ _ _ hq]

/-- A sticky flag set where its condition holds (00 Table 0-2). -/
theorem getLsbD_stick {n : Nat} (x : BitVec n) {bit : Nat} (h : bit < n) (on : Bool) :
    (stick x bit on).getLsbD bit = (x.getLsbD bit || on) := by
  cases on <;> simp [stick, h]

/-! ### The lanes of an operation in register form -/

section
variable (s : State) (p : Pid) (t : Task) (op : Nat) (f : Fields)

/-- What an operation gives for lane l of its source registers, with its flag (08 R164). -/
def eeLane (l : Nat) : BitVec 16 × Bool :=
  eeElem s p t op f l ((t.mreg (mnum f.rc)).getLsbD l) (lane (t.vreg f.ra) l) (lane (t.vreg f.rb) l) (lane (t.vreg f.rc) l)

/-- Whether an unmasked lane clamped. -/
def eeSat : Bool := ((List.range 128).filter (fun l => (t.mreg f.mask).getLsbD l)).any (fun l => (eeLane s p t op f l).2)

/-- The mask that a comparison writes (08 R162). -/
def eeHits : BitVec 128 :=
  (if f.z then 0 else t.mreg (mnum f.rd) &&& ~~~ t.mreg f.mask) ||| BitVec.ofNat 128 ((((List.range 128).filter
    (fun l => (t.mreg f.mask).getLsbD l)).filter (fun l => (eeLane s p t op f l).1 != 0)).map (2 ^ ·)).sum

theorem eeSat_iff : eeSat s p t op f = true ↔ ∃ l < 128, (t.mreg f.mask).getLsbD l = true ∧ (eeLane s p t op f l).2 = true := by
  simp only [eeSat, List.any_eq_true, List.mem_filter, List.mem_range, and_assoc]

theorem getLsbD_eeHits {l : Nat} (hl : l < 128) : (eeHits s p t op f).getLsbD l =
    if (t.mreg f.mask).getLsbD l then decide ((eeLane s p t op f l).1 ≠ 0) else !f.z && (t.mreg (mnum f.rd)).getLsbD l := by
  have keep : (if f.z then 0 else t.mreg (mnum f.rd) &&& ~~~ t.mreg f.mask).getLsbD l =
      (!f.z && (t.mreg (mnum f.rd)).getLsbD l && !(t.mreg f.mask).getLsbD l) := by
    cases f.z
    · simp only [Bool.false_eq_true, if_false, BitVec.getLsbD_and, BitVec.getLsbD_not, decide_eq_true hl, Bool.true_and,
        Bool.not_false]
    · simp
  rw [eeHits, BitVec.getLsbD_or, List.filter_filter, getLsbD_sum_two_pow _ hl, keep]
  cases (t.mreg f.mask).getLsbD l
  · simp
  · rw [Bool.eq_iff_iff]
    simp

/-- A comparison writes its mask register (08 R162). -/
theorem eeRegister_compare (h : opCompares op = true) : ∃ n, eeRegister op p f s t =
    ((s.eeFlags p (eeSat s p t op f) false).claim p (w1Gen f) (w1Sid f) (regDest f.rd) n).onTask p
      (fun u => u.setM (mnum f.rd) (eeHits s p t op f)) :=
  ⟨_, if_pos h⟩

/-- Any other operation writes the unmasked lanes of its vector register (08 R157). -/
theorem eeRegister_vector (h : opCompares op = false) : ∃ n, eeRegister op p f s t =
    ((s.eeFlags p (eeSat s p t op f) false).claim p (w1Gen f) (w1Sid f) (regDest f.rd) n).onTask p
      (fun u => u.setV f.rd (mergeLanes (t.mreg f.mask) f.z (u.vreg f.rd) (fun l => (eeLane s p t op f l).1))) :=
  ⟨_, if_neg (by rw [h]; exact Bool.false_ne_true)⟩

/-- A comparison is defined for BF16 and INT16 alone, so its lanes hold all 16 bits (08 R156, R159). -/
theorem opResult_compare (hop : opCompares op = true) (hok : eeOpOk op f = true) (target : Nat) : opResult op (eeFmt f) target ≠ 2 := by
  simp only [opCompares, Bool.and_eq_true, decide_eq_true_eq] at hop
  obtain ⟨hlo, hhi⟩ := hop
  rw [opResult, if_neg (by omega), if_neg (by omega)]
  simp only [eeOpOk, opDefined, Bool.and_eq_true] at hok
  obtain ⟨⟨⟨hdef, -⟩, -⟩, -⟩ := hok
  rw [if_pos (by omega)] at hdef
  have hplain : (op == 0 || op == 0x0B || op == 0x0F) = false := by
    simp only [Bool.or_eq_false_iff, beq_eq_false_iff_ne]
    omega
  rw [hplain, Bool.false_and, Bool.or_false, decide_eq_true_eq] at hdef
  exact Nat.ne_of_lt (Nat.lt_succ_of_le hdef)

/-- Each operation's instruction runs by its code. -/
theorem exec_eeOps : ∀ x ∈ Claims.eeOps, exec (x.1 p f) s = eeInstr x.2 p f s := by
  simp only [Claims.eeOps, List.forall_mem_cons]
  exact ⟨rfl, rfl, rfl, rfl, rfl, rfl, rfl, rfl, rfl, rfl, rfl, rfl, rfl, rfl, rfl, rfl, rfl, rfl, rfl, rfl, rfl, rfl, rfl,
    List.forall_mem_nil _⟩
end

/-- An operation that exists for its format, in register form, completes with what its registers make. -/
theorem eeInstr_register {s : State} {p : Pid} {t : Task} {op : Nat} {f : Fields} (hc : CanIssue s p t) (ha : Accepts t (eeUse op f) f)
    (hform : eeForm f = 0) (hok : eeOpOk op f = true) {gen : BitVec 4} {sid : U32} {dest n : Nat} {sat : Bool} {g : Task → Task}
    (hreg : eeRegister op p f s t = ((s.eeFlags p sat false).claim p gen sid dest n).onTask p g) :
    ∃ r cs k, eeInstr op p f s = .next r ∧
      Registered s r p ((g { t with claims := cs }).stepped k (t.pc + BitVec.ofNat 32 (if eeSr op f then 16 else 8))) sat := by
  refine issue_registered (gen := gen) (sid := sid) (dest := dest) (n := n) hc ha ?_
  simp only [hok, need_true, hform, hreg, if_true]
  rfl

/-- The flag of an operation in register form: kept, or set by an unmasked lane that clamped (08 R157). -/
theorem Registered.flag {s r : State} {p : Pid} {t u : Task} {op : Nat} {f : Fields} (R : Registered s r p u (eeSat s p t op f)) :
    r.polders[p].ee.status.getLsbD 0 = true ↔ s.polders[p].ee.status.getLsbD 0 = true ∨
      ∃ l < 128, (t.mreg f.mask).getLsbD l = true ∧ (eeLane s p t op f l).2 = true := by
  rw [R.status, getLsbD_stick _ (by decide), Bool.or_eq_true, eeSat_iff]

/-- Settles O22: a comparison by the bits it writes, any other operation by its lanes. -/
theorem eeRegisterForm : Obligations.EeRegisterForm := by
  unfold Obligations.EeRegisterForm
  intro s p t f hc hform x hx ha hok on draw res lg
  rw [exec_eeOps s p f x hx]
  obtain ⟨-, -, hending, -⟩ := id hc
  cases hcmp : opCompares x.2
  case true =>
    obtain ⟨n, hreg⟩ := eeRegister_compare s p t x.2 f hcmp
    obtain ⟨r, cs, k, hr, R⟩ := eeInstr_register hc ha hform hok hreg
    obtain ⟨hs, hd, hv, he⟩ := Task.setM_files { t with claims := cs } (mnum f.rd) (eeHits s p t x.2 f)
    refine ⟨r, _, hr, R.task, rfl, rfl, hs, hd, he.trans hending, fun _ => ⟨hv, fun j => Task.mreg_setM_ne _ _, fun h0 l hl => ?_⟩,
      by simp, R.flag, R.mem, R.weirs, R.res, R.others⟩
    refine (congrArg (BitVec.getLsbD · l) (Task.mreg_setM_self _ _ h0)).trans ?_
    have wide : (eeLane s p t x.2 f l).1 = (res l).1 := if_neg (opResult_compare x.2 f hcmp hok _)
    rw [getLsbD_eeHits s p t x.2 f hl, wide]
  case false =>
    obtain ⟨n, hreg⟩ := eeRegister_vector s p t x.2 f hcmp
    obtain ⟨r, cs, k, hr, R⟩ := eeInstr_register hc ha hform hok hreg
    refine ⟨r, _, hr, R.task, rfl, rfl, rfl, rfl, hending, by simp,
      fun _ => ⟨rfl, fun j => Task.vreg_setV_ne { t with claims := cs } _, fun l hl => ?_⟩, R.flag, R.mem, R.weirs, R.res, R.others⟩
    refine (congrArg (lane · l) (Task.vreg_setV_self _ _ _)).trans ?_
    exact lane_mergeLanes _ _ _ _ hl

end Sys2Proof.Machine
end

section
/-! PROOFS. ee.gather, ee.chain and ee.uload (08 R167, R172-R175; 17 R397). -/

namespace Sys2Proof.Machine

/-! ### Checks in sequence -/

theorem Res.ok_bind {α β : Type} (x : α) (k : α → Res β) : (Except.ok x >>= k : Res β) = k x := rfl
theorem Res.error_bind {α β : Type} (e : Stop) (k : α → Res β) : (Except.error e >>= k : Res β) = .error e := rfl

/-- An operand that is read and checked only where a flag asks for it. -/
theorem Res.asked_check {α β : Type} {b : Bool} {read : Res α} {check : α → Res Unit} {k : Res β}
    (h : b = true → ∃ x, read = .ok x ∧ check x = .ok ()) : (if b = true then (do let x ← read; check x; k) else k) = k := by
  split
  · rename_i hb
    obtain ⟨x, hread, hcheck⟩ := h hb
    rw [hread, Res.ok_bind, hcheck, Res.ok_bind]
  · rfl

section
variable {s : State} {p : Pid} {t : Task} {f : Fields}

/-- A short instruction without a vector to check that changes its polder but for the task. -/
theorem issue_engine {u : Use} (hc : CanIssue s p t) (ha : Accepts t u f) {body : Task → Res State} (g : Polder → Polder)
    (hg : ∀ P, (g P).task = P.task) (hb : body t = .ok (s.onPolder p g)) (hchecked : u.checked = false := by rfl)
    (hlong : u.long = false := by rfl) : issue p u f s body = goesTo (s.onPolder p g) p t 8 := by
  rw [issue_plain hc ha (.inl hchecked) hb, hlong, State.setPc_eq (by rw [State.onPolder_polders_self, hg, hc.task])]
  rfl

/-- A change of the task and one of the element engine, in either order. -/
theorem State.onTask_onEe (h : s.polders[p].task = some t) (g : Task → Task) (e : Ee → Ee) :
    (s.onTask p g).onPolder p (fun P => { P with ee := e P.ee }) =
      (s.onPolder p (fun P => { P with ee := e s.polders[p].ee })).onTask p (fun _ => g t) := by
  simp only [State.onTask, State.onPolder_onPolder]
  refine State.onPolder_congr s p ?_
  rw [h]
  rfl

/-! ### Gather (08 R167) -/

/-- The counters of the element engine after a gather that read `read` lanes and skipped `hidden` masked bad indices (08 R167). -/
def Ee.gathered (E : Ee) (hidden read : Nat) (zstride0 : Bool) : Ee :=
  { E with suppressed := E.suppressed + BitVec.ofNat 64 hidden,
           stride0 := E.stride0 + (if zstride0 then BitVec.ofNat 64 read else 0) }

section
variable {T : Tensor} {fmt : Nat} (hc : CanIssue s p t)
  (ha : Accepts t { level := if fmt = 2 then 3 else 1, rd := .any, ra := .pair, rc := .desc, mask := true, z := true, imm := 3,
                    checked := true } f)
  (hfmt : (f.imm.extractLsb' 0 2).toNat = fmt) (hT : readDesc s p t f.rc = .ok T)
  (hparts : checkParts s p (T.parts false) = .ok ()) (hok : isFmt T fmt = true)
include hc ha hfmt hT hparts hok

/-- The first unmasked index at or beyond the extent faults with the number of its lane (08 R167). -/
theorem eeGather_faults {k : Nat} (hk : k < 128) (hon : (t.mreg f.mask).getLsbD k = true)
    (hbad : T.e0 ≤ pairLane t f.ra k) (hfirst : ∀ l < k, (t.mreg f.mask).getLsbD l = true → pairLane t f.ra l < T.e0) :
    exec (.eeGather p f) s = .next (s.taskFault p 0x15 (BitVec.ofNat 32 k)) := by
  subst hfmt
  have hfind : (List.range 128).find? (fun l => (t.mreg f.mask).getLsbD l && decide (T.e0 ≤ pairLane t f.ra l)) = some k := by
    simp only [List.find?_range_eq_some, hon, decide_eq_true hbad, List.mem_range, hk, Bool.and_self, true_and]
    intro l hl
    by_cases h : (t.mreg f.mask).getLsbD l = true
    · simp [hfirst l hl h]
    · simp [h]
  refine issue_fault hc ha ?_
  simp only [hT, hparts, hok, need_true, hfind, Res.ok_bind, Res.error_bind]

/-- Indices below the extent give their elements to the lanes below the fill count (08 R167, 09 R200). -/
theorem eeGather_gives (hin : ∀ l < 128, (t.mreg f.mask).getLsbD l = true → pairLane t f.ra l < T.e0) {live : Nat → Bool}
    (hlive : (fun l => (t.mreg f.mask).getLsbD l && T.live t.fill.toNat ⟨pairLane t f.ra l, 0, 0, 0⟩) = live)
    (htags : gate s false (T.readSlots s (((List.range 128).filter live).map (fun l => ⟨pairLane t f.ra l, 0, 0, 0⟩))) = .ok ()) :
    ∃ E, exec (.eeGather p f) s = .next ((((s.onPolder p (fun P => { P with ee := E })).onTask p (fun _ => t.setV f.rd
      (mergeLanes (BitVec.ofNat 128 (((List.range 128).filter live).map (2 ^ ·)).sum) f.z (t.vreg f.rd)
        (fun l => laneOut fmt (BitVec.ofNat 16 (T.code s ⟨pairLane t f.ra l, 0, 0, 0⟩)))))).reissue p f.upsets).past p t 8) := by
  subst hfmt hlive
  have hfind : (List.range 128).find? (fun l => (t.mreg f.mask).getLsbD l && decide (T.e0 ≤ pairLane t f.ra l)) = none := by
    rw [List.find?_range_eq_none]
    intro l hl
    by_cases h : (t.mreg f.mask).getLsbD l = true
    · simp [hin l hl h]
    · simp [h]
  refine ⟨s.polders[p].ee.gathered
    ((List.range 128).filter (fun l => !(t.mreg f.mask).getLsbD l && decide (T.e0 ≤ pairLane t f.ra l))).length
    ((List.range 128).filter (fun l => (t.mreg f.mask).getLsbD l && T.live t.fill.toNat ⟨pairLane t f.ra l, 0, 0, 0⟩)).length
    T.zstride0, issue_ok hc ha ?_⟩
  simp only [hT, hparts, hok, need_true, hfind, htags, Res.ok_bind]
  exact congrArg Except.ok (State.onTask_onEe hc.task _ (fun E => E.gathered _ _ _))

end

/-! ### Loads of a chain entry and of a micro-program slot (08 R172-R175) -/

/-- The checks of an entry's descriptors and stages (08 R172, R173). -/
structure ChainFits (s : State) (p : Pid) (t : Task) (a : Nat) (c : Chain) : Prop where
  image : chainImage s t a = c
  align : a % 256 = 0
  reads : access s p false [(a, 2304)] [(a, 2304)] = .ok ()
  broadcast : c.cbEn = true → ∃ T, readDesc s p t (((s.byte (a + 72)).setWidth 4).setWidth 5) = .ok T ∧
    checkParts s p (T.parts false) = .ok ()
  tap : c.tapEn = true → 3 ≤ t.stage.level.toNat ∧ ∃ T, readDesc s p t (((s.byte (a + 136)).setWidth 4).setWidth 5) = .ok T ∧
    checkParts s p (T.parts true) = .ok ()
  count : c.count ≤ 8
  tapF : c.tapF ≤ 47
  stages : c.live.all (stageOk c t.stage.level.toNat) = true

/-- ee.chain loads an entry that fits and that no latched tile names (08 R172, R174). -/
theorem eeChain_loads (hc : CanIssue s p t) (ha : Accepts t { level := 2, ra := .any, imm := 0xF } f) {c : Chain} {n : Fin 16}
    (hn : Fin.ofNat 16 f.imm.toNat = n) (h : ChainFits s p t (t.sreg f.ra).toNat c) (hfree : chainHeld s.polders[p] n = false) :
    exec (.eeChain p f) s =
      goesTo (s.onPolder p (fun P => { P with ee := { P.ee with chains := P.ee.chains.set n c } })) p t 8 := by
  obtain ⟨himage, halign, hreads, hcb, htap, hcount, htapF, hstages⟩ := h
  have hfind : c.live.findIdx? (fun w => !stageOk c t.stage.level.toNat w) = none := by
    rw [List.findIdx?_eq_none_iff]
    intro w hw
    rw [List.all_eq_true.mp hstages w hw, Bool.not_true]
  have hlevel : (decide (3 ≤ t.stage.level.toNat) || !c.tapEn) = true := by
    cases htapEn : c.tapEn
    · simp
    · simp [(htap htapEn).1]
  refine issue_engine hc ha (fun P => { P with ee := { P.ee with chains := P.ee.chains.set n c } }) (fun P => rfl) ?_
  simp only [halign, hreads, himage, hfind, hn, hfree, Res.ok_bind, beq_self_eq_true, need_true]
  rw [Res.asked_check hcb, Res.asked_check fun h => (htap h).2, hlevel, decide_eq_true hcount, decide_eq_true htapF]
  rfl

/-- An instruction that uses the low `n` bits of IMM alone has an IMM below 2^n (10 R213). -/
theorem Accepts.imm_lt {u : Use} (ha : Accepts t u f) {n : Nat} (hu : u.imm.toNat = 2 ^ n - 1) : f.imm.toNat < 2 ^ n := by
  obtain ⟨-, hlegal⟩ := ha
  simp only [Use.legal, Bool.and_eq_true, beq_iff_eq] at hlegal
  obtain ⟨⟨-, himm⟩, -⟩ := hlegal
  refine Nat.lt_pow_two_of_testBit _ fun i hi => ?_
  have hbit := congrArg (BitVec.getLsbD · i) himm
  have hout : u.imm.getLsbD i = false := by
    rw [BitVec.getLsbD, hu, Nat.testBit_two_pow_sub_one, decide_eq_false (by omega)]
  rw [BitVec.testBit_toNat]
  by_cases hw : i < 29
  · simp only [BitVec.getLsbD_and, BitVec.getLsbD_not, hout, decide_eq_true hw, Bool.not_false, Bool.and_true] at hbit
    exact hbit.trans (BitVec.getLsbD_zero)
  · exact BitVec.getLsbD_of_ge _ _ (by omega)

/-- The slot and the length of ee.uload, from its ten bits of IMM (08 R175). -/
theorem uload_fields (ha : Accepts t { level := 3, ra := .any, imm := 0x3FF } f) :
    (f.imm.extractLsb' 5 5).toNat = f.imm.toNat / 32 ∧ Fin.ofNat 32 (f.imm.extractLsb' 0 5).toNat = Fin.ofNat 32 f.imm.toNat := by
  have hlt := ha.imm_lt (n := 10) rfl
  refine ⟨?_, Fin.ext ?_⟩
  · rw [BitVec.extractLsb'_toNat, Nat.shiftRight_eq_div_pow]
    omega
  · rw [BitVec.extractLsb'_toNat]
    exact Nat.mod_mod _ _

section
variable (hc : CanIssue s p t) (ha : Accepts t { level := 3, ra := .any, imm := 0x3FF } f) {a len : Nat} {ws : List U32}
  (hsrc : (t.sreg f.ra).toNat = a) (hlen : f.imm.toNat / 32 = len) (halign : a % 8 = 0) (hleast : 1 ≤ len) (hmost : len ≤ 16)
  (hreads : access s p false [(a, 4 * len)] [(a, 4 * len)] = .ok ())
  (hws : (List.range len).map (fun k => BitVec.ofNat 32 (s.num (a + 4 * k) 4)) = ws)
include hc ha hsrc hlen halign hleast hmost hreads hws

theorem eeUload_loads {n : Fin 32} (hn : Fin.ofNat 32 f.imm.toNat = n) (hok : ws.all muOk = true)
    (hfree : uprogHeld s.polders[p] n = false) : exec (.eeUload p f) s =
      goesTo (s.onPolder p (fun P => { P with ee := { P.ee with uprogs := P.ee.uprogs.set n ws } })) p t 8 := by
  obtain ⟨hfield, hslot⟩ := uload_fields ha
  have hfind : ws.findIdx? (fun w => !muOk w) = none := by
    rw [List.findIdx?_eq_none_iff]
    intro w hw
    rw [List.all_eq_true.mp hok w hw, Bool.not_true]
  refine issue_engine hc ha (fun P => { P with ee := { P.ee with uprogs := P.ee.uprogs.set n ws } }) (fun P => rfl) ?_
  simp only [hsrc, hfield, hlen, halign, hreads, hws, hfind, hslot, hn, hfree, decide_eq_true hleast, decide_eq_true hmost,
    Bool.and_self, Res.ok_bind, beq_self_eq_true, need_true]
  rfl

theorem eeUload_faults {k : Nat} (hk : k < len) (hbad : muOk (ws.getD k 0) = false)
    (hfirst : ∀ j < k, muOk (ws.getD j 0) = true) : exec (.eeUload p f) s = .next (s.taskFault p 0x16 (BitVec.ofNat 32 k)) := by
  obtain ⟨hfield, hslot⟩ := uload_fields ha
  have hlength : ws.length = len := by rw [← hws, List.length_map, List.length_range]
  have hfind : ws.findIdx? (fun w => !muOk w) = some k := by
    rw [List.findIdx?_eq_some_iff_getElem]
    refine ⟨by omega, ?_, fun j hj => ?_⟩
    · rw [List.getElem_eq_getD 0, hbad, Bool.not_false]
    · rw [List.getElem_eq_getD 0, hfirst j hj]
      decide
  refine issue_fault hc ha ?_
  simp only [hsrc, hfield, hlen, halign, hreads, hws, hfind, decide_eq_true hleast, decide_eq_true hmost,
    Bool.and_self, Res.ok_bind, Res.error_bind, beq_self_eq_true, need_true]

end

end

/-- Settles O25: the gather by its first bad index, the loads by the checks of their images. -/
theorem gatherChainUload : Obligations.GatherChainUload := by
  unfold Obligations.GatherChainUload
  intro s p t f hc
  refine ⟨?gather, ?chain, ?uload⟩
  case gather =>
    intro fmt ix on ha T hT hparts hok
    refine ⟨fun k hk hon hbad hfirst => eeGather_faults hc ha rfl hT hparts hok hk hon hbad hfirst, ?_⟩
    intro hin live htags
    obtain ⟨E, hE⟩ := eeGather_gives hc ha rfl hT hparts hok hin rfl htags
    refine ⟨_, _, hE, rfl, rfl, fun q hq => State.onPolder_polders_ne s p q _ hq, ⟨t, ?_⟩, fun l hl => ?_⟩
    · rw [State.onPolder_polders_self, hc.task]
    · rw [lane_mergeLanes _ _ _ _ hl, getLsbD_sum_two_pow _ hl]
      rfl
  case chain =>
    intro a n c ha halign hreads regAt hcb htap hcount htapF hstages hfree
    exact eeChain_loads hc ha rfl ⟨rfl, halign, hreads, hcb, htap, hcount, htapF, hstages⟩ hfree
  case uload =>
    intro a n len ws ha halign hleast hmost hreads
    exact ⟨fun hok hfree => eeUload_loads hc ha rfl rfl halign hleast hmost hreads rfl rfl hok hfree,
      fun k hk hbad hfirst => eeUload_faults hc ha rfl rfl halign hleast hmost hreads rfl hk hbad hfirst⟩

end Sys2Proof.Machine
end

section
/-! PROOFS. The reduction unit's instructions: the results of the walked lines stored in order, and what they count (08 R178-R184; 09
R200; 10 R232). -/

namespace Sys2Proof.Machine

/-! ### Stores of elements -/

/-- What a store of bytes leaves alone: all but memory and what has gone to peers. -/
structure StoresOnly (s r : State) : Prop where
  polders : r.polders = s.polders
  weirs : r.weirs = s.weirs
  res : r.res = s.res

theorem StoresOnly.refl (s : State) : StoresOnly s s := ⟨rfl, rfl, rfl⟩

theorem StoresOnly.trans {a b c : State} (hab : StoresOnly a b) (hbc : StoresOnly b c) : StoresOnly a c :=
  ⟨hbc.polders.trans hab.polders, hbc.weirs.trans hab.weirs, hbc.res.trans hab.res⟩

theorem State.storeBits_storesOnly (s : State) (bits : List (Nat × Nat)) (x : Nat) : StoresOnly s (s.storeBits bits x) := by
  induction bits generalizing s x with
  | nil => exact .refl s
  | cons b bits ih =>
    have hput : StoresOnly s (s.putByte b.1 (setField (s.byte b.1) b.2 1 x)) :=
      ⟨State.putByte_polders .., State.putByte_weirs .., State.putByte_res ..⟩
    exact hput.trans (ih _ _)

theorem Tensor.put_storesOnly (T : Tensor) (s : State) (i : Ix) (c : Nat) : StoresOnly s (T.put s i c) := by
  unfold Tensor.put State.putBits
  split
  · exact s.storeBits_storesOnly _ _
  · exact ⟨rfl, rfl, rfl⟩

theorem Tensor.putRun_storesOnly (T : Tensor) (fill : Nat) (s : State) (k : Nat) (codes : List Nat) :
    StoresOnly s (T.putRun fill s k codes) := by
  induction codes generalizing s k with
  | nil => exact .refl s
  | cons c codes ih =>
    refine StoresOnly.trans ?_ (ih _ _)
    split
    · exact T.put_storesOnly s _ c
    · exact .refl s

theorem putLines_storesOnly (D E : Tensor) (w fill : Nat) (s : State) (k : Nat) (ls : List (Bool × LineOut)) :
    StoresOnly s (putLines D E w fill s k ls) := by
  induction ls generalizing s k with
  | nil => exact .refl s
  | cons l ls ih =>
    refine StoresOnly.trans ?_ (ih _ _)
    split
    · exact (D.putRun_storesOnly fill s _ _).trans (E.putRun_storesOnly fill _ _ _)
    · exact .refl s

/-! ### Flags and counts -/

/-- The outcomes of the walked lines. -/
def walkedOuts (op : Nat) (f : Fields) (T D : Tensor) (ls : List Line) : List LineOut :=
  ((ls.map (fun l => (l.walked, lineOut op f T D l))).filter (·.1)).map (·.2)

theorem walkedOuts_eq (op : Nat) (f : Fields) (T D : Tensor) (ls : List Line) :
    walkedOuts op f T D ls = (ls.filter Line.walked).map (lineOut op f T D) := by
  rw [walkedOuts, List.filter_map, List.map_map]
  rfl

/-- The state of a ru instruction after its results are stored: sticky flags and line counts (08 R179, R180, R184). -/
def ruCounted (op : Nat) (p : Pid) (ls : List Line) (done : List LineOut) (s : State) : State :=
  let s := ((s.ruFlag p 0 (done.any LineOut.empty)).ruFlag p 1 (done.any LineOut.ovf)).ruFlag p 2 (done.any LineOut.nan)
  let s := if op = 10 then s.eeFlags p ((ls.filter Line.walked).any lsumSat) false else s
  s.onPolder p (fun P => { P with ru := { P.ru with
    lines := P.ru.lines + BitVec.ofNat 64 done.length,
    emptied := P.ru.emptied + BitVec.ofNat 64 (done.filter LineOut.empty).length } })

/-- Counting changes the reduction unit of its polder and the status of its element engine alone. -/
theorem ruCounted_only (op : Nat) (p : Pid) (ls : List Line) (done : List LineOut) (s : State) : ∃ x e,
    ruCounted op p ls done s = s.onPolder p (fun P => { P with ee := { P.ee with status := e }, ru := { P.ru with
      status := x, lines := P.ru.lines + BitVec.ofNat 64 done.length,
      emptied := P.ru.emptied + BitVec.ofNat 64 (done.filter LineOut.empty).length } }) := by
  unfold ruCounted
  dsimp only
  split
  · simp only [State.ruFlag, State.eeFlags, State.onPolder_onPolder]
    exact ⟨_, _, State.onPolder_congr s p rfl⟩
  · simp only [State.ruFlag, State.onPolder_onPolder]
    exact ⟨_, s.polders[p].ee.status, State.onPolder_congr s p rfl⟩

/-! ### The instruction (10 R232) -/

/-- Each operation's instruction runs by its code. -/
theorem exec_ruOps (s : State) (p : Pid) (f : Fields) : ∀ x ∈ Claims.ruOps, exec (x.1 p f) s = ruInstr x.2 p f s := by
  simp only [Claims.ruOps, List.forall_mem_cons]
  exact ⟨rfl, rfl, rfl, rfl, rfl, rfl, rfl, rfl, rfl, rfl, rfl, List.forall_mem_nil _⟩

/-- The operands of a ru operation pass their checks and wait on nothing (08 R178-R183; 10 R232). -/
structure RuReady (s : State) (p : Pid) (t : Task) (f : Fields) (op : Nat) (T D E : Tensor) (ls : List Line) : Prop where
  source : readDesc s p t f.ra = .ok T
  result : readDesc s p t f.rd = .ok D
  second : (if ruTwo op = true then readDesc s p t f.rb else pure D) = .ok E
  places : ruF f ≤ 47
  lines : linesOf s T (ruAxis f) t.fill.toNat (t.mreg f.mask) = ls
  parts : checkParts s p (T.parts false ++ D.parts true ++ (if ruTwo op then E.parts true else [])) = .ok ()
  agree : (op != 5 || recordsAgree ls) = true
  formats : (ruSourceOk op T && ruResultOk op T D && (!ruTwo op || E.kind == .bf16)) = true
  size : (D.e0 * D.e1 * D.e2 * D.e3 == lineCount T (ruAxis f) * ruWidth op) = true
  size2 : (!ruTwo op || E.e0 * E.e1 * E.e2 * E.e3 == lineCount T (ruAxis f)) = true
  reads : gate s false (T.readSlots s (T.liveIx t.fill.toNat (t.mreg f.mask))) = .ok ()
  writes : gate s true (D.lineSlots t.fill.toNat (ruWidth op) ((ls.zipIdx.filter (fun y => y.1.walked)).map (·.2))) = .ok ()
  writes2 : gate s true (if ruTwo op then E.lineSlots t.fill.toNat 1 ((ls.zipIdx.filter (fun y => y.1.walked)).map (·.2)) else [])
    = .ok ()

theorem ruInstr_completes {s : State} {p : Pid} {t : Task} {f : Fields} {op : Nat} {T D E : Tensor} {ls : List Line}
    (hc : CanIssue s p t) (ha : Accepts t (Claims.ruUse op) f) (h : RuReady s p t f op T D E ls) :
    ruInstr op p f s = .next (((ruCounted op p ls (walkedOuts op f T D ls) (putLines D E (ruWidth op) t.fill.toNat s 0
      (ls.map (fun l => (l.walked, lineOut op f T D l))))).reissue p f.upsets).past p t 8) := by
  obtain ⟨hT, hD, hE, hF, hls, hparts, hagree, hformats, hsize, hsize2, hreads, hwrites, hwrites2⟩ := h
  refine issue_ok hc (t := t) (u := { Claims.ruUse op with checked := true }) ha ?_
  simp only [hT, hD, hE, hls, decide_eq_true hF, hparts, hagree, hformats, hsize, hsize2, hreads, hwrites, hwrites2, need_true,
    Res.ok_bind]
  rfl

/-- The records of every walked line agree where each agrees with its line's totals (08 R183). -/
theorem recordsAgree_of {ls : List Line} (h : ∀ l ∈ ls, l.walked = true → ∀ r ∈ recordsOf l,
    r.K = (totals (recordsOf l)).K ∧ r.F = (totals (recordsOf l)).F) : recordsAgree ls = true := by
  refine List.all_eq_true.mpr fun l hl => List.all_eq_true.mpr fun r hr => ?_
  obtain ⟨hl, hwalked⟩ := List.mem_filter.mp hl
  obtain ⟨hK, hF⟩ := h l hl hwalked r hr
  rw [hK, hF, beq_self_eq_true, beq_self_eq_true, Bool.and_self]

/-- A check asked of an operation with a second result alone. -/
theorem asked_second {two b : Bool} (h : two = true → b = true) : (!two || b) = true := by
  cases two
  · rfl
  · exact h rfl

/-- Settles O26: the stores change memory alone, and the counts the reduction unit and EE_STATUS alone. -/
theorem ruCompletes : Obligations.RuCompletes := by
  unfold Obligations.RuCompletes
  intro s p t f hc x hx ha T D E hT hD hE hF fill mask ls n two w on hparts hagree hsource hresult hbf16 hsize hsize2 hreads hwrites
    hwrites2
  have second : (if ruTwo x.2 = true then readDesc s p t f.rb else pure D) = Except.ok E := by
    split
    case isTrue h =>
      rw [if_pos h] at hE
      exact hE
    case isFalse h =>
      rw [if_neg h] at hE
      rw [hE]
      rfl
  have ready : RuReady s p t f x.2 T D E ls := {
    source := hT
    result := hD
    second
    places := hF
    lines := rfl
    parts := hparts
    agree := by
      by_cases h5 : x.2 = 5
      · rw [recordsAgree_of (hagree h5), Bool.or_true]
      · rw [bne_iff_ne.mpr h5, Bool.true_or]
    formats := by rw [hsource, hresult, asked_second fun h => beq_iff_eq.mpr (hbf16 h)]; rfl
    size := beq_iff_eq.mpr hsize
    size2 := asked_second fun h => beq_iff_eq.mpr (hsize2 h)
    reads := hreads
    writes := hwrites
    writes2 := by
      split
      case isTrue h => exact hwrites2 h
      case isFalse => rfl }
  have stores := putLines_storesOnly D E w fill s 0 (ls.map (fun l => (l.walked, lineOut x.2 f T D l)))
  obtain ⟨flags, status, hcounted⟩ := ruCounted_only x.2 p ls (walkedOuts x.2 f T D ls)
    (putLines D E w fill s 0 (ls.map (fun l => (l.walked, lineOut x.2 f T D l))))
  rw [exec_ruOps s p f x hx]
  refine ⟨_, ruInstr_completes hc ha ready, ?_⟩
  rw [hcounted, walkedOuts_eq, List.filter_map, List.length_map, List.length_map]
  refine ⟨rfl, ?_, ?_, ?_, stores.weirs, stores.res, fun q hq => ?_⟩
  · rw [State.onPolder_polders_self, stores.polders]
  · rw [State.onPolder_polders_self, stores.polders]
    rfl
  · rw [State.onPolder_polders_self, stores.polders]
    exact hc.task
  · rw [State.onPolder_polders_ne _ _ _ _ hq, stores.polders]

end Sys2Proof.Machine
end

section
/-! PROOFS. The move engine: a copy that starts, one with nothing to move, and the end of a byte copy (10 R222, R223; 11 R250). -/

namespace Sys2Proof.Machine

section
variable {s : State} {p : Pid} {t : Task} {f : Fields}

/-! ### The start of a copy (10 R223) -/

theorem needWeirField_ok {w : BitVec 16} (h : w ≠ 0xFFFF → weirGranted s.polders[p].terp.bnd w.toNat = true) :
    needWeirField s p w = .ok () := by
  unfold needWeirField
  split
  case isTrue => rfl
  case isFalse hw => rw [needWeir, h hw, need_true]

/-- A copy whose checks pass signals its weir at once where it has nothing to move, and else starts its transfer. -/
theorem issue_copy {u : Use} {body : Task → Res State} {empty : Prop} [Decidable empty] {work : Work} {w : BitVec 16}
    (hc : CanIssue s p t) (ha : Accepts t u f)
    (hb : body t = if empty then .ok (s.signalWork p w) else .ok (s.startWork p t work w)) (hchecked : u.checked = false := by rfl)
    (hlong : u.long = true := by rfl) :
    issue p u f s body = if empty then .next ((s.signalWork p w).past p t 16) else goesTo (s.startWork p t work w) p t 16 := by
  split
  case isTrue h =>
    rw [if_pos h] at hb
    rw [issue_plain hc ha (.inl hchecked) hb, hlong]
    rfl
  case isFalse h =>
    rw [if_neg h] at hb
    rw [issue_plain hc ha (.inl hchecked) hb, hlong, State.setPc_eq (by exact hc.task)]
    rfl

theorem mvBytes_starts (hc : CanIssue s p t) (ha : Accepts t { rd := .any, ra := .any, rb := .any, long := true, w1 := 0xFFFF } f)
    {src dst n : Nat} (hsrc : (t.sreg f.ra).toNat = src) (hdst : (t.sreg f.rd).toNat = dst) (hn : (t.sreg f.rb).toNat = n)
    (hparts : checkParts s p [(false, [(src, n)]), (true, [(dst, n)])] = .ok ())
    (hweir : needWeirField s p (f.w1.setWidth 16) = .ok ()) :
    exec (.mvBytes p f) s = if n = 0 then .next ((s.signalWork p (f.w1.setWidth 16)).past p t 16)
      else goesTo (s.startWork p t (.bytes src dst n) (f.w1.setWidth 16)) p t 16 := by
  refine issue_copy hc ha ?_
  simp only [hsrc, hdst, hn, hparts, hweir, Res.ok_bind]
  rfl

theorem mvCopy_starts (hc : CanIssue s p t) (ha : Accepts t { rd := .desc, ra := .desc, long := true, w1 := 0xFFFF } f) {x y : Tensor}
    (hx : readDesc s p t f.ra = .ok x) (hy : readDesc s p t f.rd = .ok y)
    (hparts : checkParts s p (x.parts false ++ [(false, if (x.hdr != 0 && y.hdr != 0) = true then x.hdrRun else [])] ++ y.parts true
      ++ [(true, if (x.hdr != 0 && y.hdr != 0) = true then y.hdrRun else [])]) = .ok ())
    (hagrees : copyAgrees x y = true) (hweir : needWeirField s p (f.w1.setWidth 16) = .ok ()) :
    exec (.mvCopy p f) s = if x.e0 * x.e1 * x.e2 * x.e3 = 0 then .next ((s.signalWork p (f.w1.setWidth 16)).past p t 16)
      else goesTo (s.startWork p t (.tensor (t.dreg (dnum f.ra)) (t.dreg (dnum f.rd)) (sideOf s (t.dreg (dnum f.ra)))
        (sideOf s (t.dreg (dnum f.rd)))) (f.w1.setWidth 16)) p t 16 := by
  refine issue_copy hc ha ?_
  simp only [hx, hy, hparts, hagrees, hweir, need_true, Res.ok_bind]
  rfl

end

/-! ### The end of a byte copy (11 R250) -/

@[simp] theorem State.slotEnd_transfers (s : State) (p : Pid) (n : Nat) : (s.slotEnd p n).transfers = s.transfers := by
  unfold State.slotEnd
  split <;> rfl

@[simp] theorem State.slotEnds_transfers (s : State) (l : List (Pid × Nat)) : (s.slotEnds l).transfers = s.transfers := by
  induction l generalizing s with
  | nil => rfl
  | cons x l ih => rw [State.slotEnds, ih, State.slotEnd_transfers]

@[simp] theorem State.markEnds_transfers (s : State) (n : Nat) : (s.markEnds n).transfers = s.transfers := rfl

section
variable {x : Transfer} {a b n : Nat} (hwork : x.work = .bytes a b n) (s : State)
include hwork

theorem workSlots_bytes : workSlots s x = (slotsOf [(a, n)], slotsOf [(b, n)]) := by
  simp only [workSlots, hwork]
  rfl

/-- All of a byte copy's writes at once: the bytes that the source holds now, the slot ends, and the weir's signal. -/
theorem copyWork_bytes (dst : List (Pid × Nat)) : s.copyWork x dst =
    ({ (((s.putBytes b (s.bytes a n)).markEnds s.sent.length).fresh.2).slotEnds dst with
       transfers := s.transfers.filter (fun y => y.id != x.id) } : State).signalWork x.p x.weir := by
  have hcopy : s.copy (workHdrs x.work ++ workRuns s x.fill.toNat x.work) = s.putBytes b (s.bytes a n) := by rw [hwork]; rfl
  have helems : workElems x.fill.toNat x.work = none := by rw [hwork]; rfl
  simp only [State.copyWork, helems, hcopy, State.slotEnds_transfers, State.fresh_transfers, State.markEnds_transfers,
    State.putBytes_transfers]

theorem finishCopy_bytes (hsrc : gate s false (slotsOf [(a, n)]) = .ok ()) (hdst : gate s true (slotsOf [(b, n)]) = .ok ()) :
    s.finishCopy x = .ok (s.copyWork x (slotsOf [(b, n)])) := by
  have hhdrs : gateBusy s (slotsOf ((workHdrs x.work).map (fun r => (r.1, r.2.2)) ++
      (workHdrs x.work).map (fun r => (r.2.1, r.2.2)))) = .ok () := by rw [hwork]; rfl
  simp only [State.finishCopy, workSlots_bytes hwork, hsrc, hdst, hhdrs, Res.ok_bind]
  rfl

end

theorem moveComplete_finishes {s s' r : State} {x : Transfer} (hrun : s.running = true)
    (hfind : s.transfers.find? (fun y => y.id == x.id) = some x) (hcx : x.work.isCx = false)
    (hs' : s.wakeSlots ((workSlots s x).1 ++ (workSlots s x).2) = s') (hr : s'.finishCopy x = .ok r) :
    exec (.moveComplete x.id) s = .next r := by
  simp only [exec_moveComplete, execMoveComplete, whenRunning_on hrun, hfind, hcx, Bool.false_eq_true, if_false, hs', hr]

/-- Settles O7: a copy starts once its checks pass, and a byte copy whose banks and tags let it makes all its writes at its end. -/
theorem moveEngineCopies : Obligations.MoveEngineCopies := by
  unfold Obligations.MoveEngineCopies
  refine ⟨fun s p t f hc hgranted => ⟨fun ha hparts => ?bytes, fun ha x y hx hy hagrees hparts => ?tensor⟩,
    fun s x a b n hrun hfind hwork hsrc hdst => ?complete⟩
  case bytes => exact mvBytes_starts hc ha rfl rfl rfl hparts (needWeirField_ok hgranted)
  case tensor => exact mvCopy_starts hc ha hx hy hparts hagrees (needWeirField_ok hgranted)
  case complete =>
    have hcx : x.work.isCx = false := by rw [hwork]; rfl
    rw [moveComplete_finishes (decide_eq_true hrun) hfind hcx (by rw [workSlots_bytes hwork]) (finishCopy_bytes hwork _ hsrc hdst),
      copyWork_bytes hwork, State.wakeSlots_sent, State.wakeSlots_transfers]

end Sys2Proof.Machine
end

section
/-! PROOFS. The wr class: the weir and the slot that its operands name, and what each of its instructions does once its checks pass (10
R224; 11 R250-R258). -/

namespace Sys2Proof.Machine

section
variable {s : State} {p : Pid} {t : Task} {f : Fields}

/-! ### Operands and checks (10 R224, Table 10-5; 11 R248) -/

theorem weirOperand_eq (t : Task) (f : Fields) : weirOperand t f = ((t.sreg f.ra).toNat + f.imm.toNat % 65536) % 65536 := by
  rw [weirOperand, BitVec.extractLsb'_toNat, Nat.shiftRight_zero]

theorem incOf_eq (f : Fields) : incOf f = f.imm.toNat / 65536 % 4096 := by
  rw [incOf, BitVec.extractLsb'_toNat, Nat.shiftRight_eq_div_pow]

theorem slotOperand_eq (t : Task) (f : Fields) : slotOperand t f = ((t.sreg f.ra).toNat + f.imm.toNat % 131072) % 2 ^ 64 := by
  rw [slotOperand, BitVec.toNat_add, BitVec.toNat_setWidth, BitVec.extractLsb'_toNat, Nat.shiftRight_zero,
    Nat.mod_eq_of_lt (a := f.imm.toNat % 2 ^ 17) (by omega)]

theorem needWeir_granted {w : Nat} (h : weirGranted s.polders[p].terp.bnd w = true) : needWeir s p w = .ok () := by
  rw [needWeir, h, need_true]

/-- A slot of the polder that a region of its base and bound holds. -/
def SlotClaimed (s : State) (p : Pid) (n : Nat) : Prop :=
  n < 90112 ∧ (bounds s.polders[p].terp.bnd).any (fun b => b.covers false (scratchAddr p (4096 * n)) 4096
    || b.covers true (scratchAddr p (4096 * n)) 4096) = true

theorem needSlot_claimed {n : Nat} (h : SlotClaimed s p n) : needSlot s p n = .ok () := by
  obtain ⟨hn, hb⟩ := h
  simp only [needSlot, decide_eq_true hn, hb, Bool.and_self, need_true]

/-! ### Weirs -/

section
variable {w : Nat} (hc : CanIssue s p t) (hw : weirOperand t f = w) (hg : weirGranted s.polders[p].terp.bnd w = true)
include hc hw hg

theorem wrSignal_sends (ha : Accepts t { ra := .any, imm := 0x0FFFFFFF } f) (hinc : incOf f ≠ 0) :
    exec (.wrSignal p f) s = .next ((s.weirSend p w (BitVec.ofNat 32 (incOf f))).past p t 8) := by
  refine issue_plain hc ha (.inl rfl) ?_
  simp only [hw, needWeir_granted hg, bne_iff_ne.mpr hinc, need_true, Res.ok_bind]
  rfl

theorem wrRead_gives (ha : Accepts t { rd := .any, ra := .any, imm := 0xFFFF } f) :
    exec (.wrRead p f) s = goesTo s p (t.setS f.rd ((s.weir w).count.setWidth 64)) 8 := by
  refine issue_task hc ha (fun t => t.setS f.rd ((s.weir w).count.setWidth 64)) ?_ (Task.setS_pc _ _ _) (.inl rfl)
  simp only [hw, needWeir_granted hg, Res.ok_bind]
  rfl

theorem wrWait_goesOn (ha : Accepts t { ra := .any, rb := .any, imm := 0xFFFF } f)
    (hmet : weirHome w = some p ∧ meets (s.weir w).count ((t.sreg f.rb).setWidth 32) = true) :
    exec (.wrWait p f) s = goesTo s p t 8 := by
  refine issue_task hc ha id ?_ rfl (.inl rfl)
  simp only [hw, needWeir_granted hg, Res.ok_bind, if_pos hmet, s.onTask_id p (g := id) (fun _ => rfl)]
  rfl

theorem wrWait_waits (ha : Accepts t { ra := .any, rb := .any, imm := 0xFFFF } f)
    (hmet : ¬ (weirHome w = some p ∧ meets (s.weir w).count ((t.sreg f.rb).setWidth 32) = true)) :
    exec (.wrWait p f) s = .next (((s.watch p w ((t.sreg f.rb).setWidth 32)).onPolder p
      (fun P => { P with weir := { P.weir with waited := true } })).onTask p
        (fun u => { u with wait := some ⟨.weir (BitVec.ofNat 16 w) ((t.sreg f.rb).setWidth 32), s.tb⟩ })) := by
  have htb : (s.watch p w ((t.sreg f.rb).setWidth 32)).tb = s.tb := by
    unfold State.watch
    split <;> rfl
  refine issue_held hc ha ?_
  simp only [hw, needWeir_granted hg, Res.ok_bind, if_neg hmet, State.onPolder_tb, htb]

end

theorem wrRsignal_sends (hc : CanIssue s p t) (ha : Accepts t { ra := .any, imm := 0x0FFF0000 } f) (hinc : incOf f ≠ 0)
    (halign : (t.sreg f.ra).toNat % 4 = 0) (hplace : place (t.sreg f.ra).toNat ≠ .unmapped)
    (hopen : weirWindowOpen s (t.sreg f.ra).toNat = true) : exec (.wrRsignal p f) s =
      goesTo { s with sent := s.sent ++ [(t.sreg f.ra, .signal (BitVec.ofNat 12 (incOf f)))] } p t 8 := by
  rw [goesTo, ← State.setPc_eq (by exact hc.task)]
  refine issue_plain hc ha (.inl rfl) ?_
  simp only [bne_iff_ne.mpr hinc, halign, beq_self_eq_true, bne_iff_ne.mpr hplace, hopen, need_true, Res.ok_bind]
  rfl

/-! ### Slots -/

section
variable {n : Nat} (hc : CanIssue s p t) (ha : Accepts t { ra := .any, imm := 0x1FFFF } f) (hn : slotOperand t f = n)
  (hs : SlotClaimed s p n)
include hc ha hn hs

theorem wrSwait_goesOn (hfull : s.tag p n = true) : exec (.wrSwait p f) s = goesTo s p t 8 := by
  refine issue_task hc ha id ?_ rfl (.inl rfl)
  simp only [hn, needSlot_claimed hs, Res.ok_bind, hfull, if_true, s.onTask_id p (g := id) (fun _ => rfl)]
  rfl

theorem wrSwait_waits (hempty : s.tag p n = false) :
    exec (.wrSwait p f) s = .next (s.onTask p (fun t => { t with wait := some ⟨.slot (BitVec.ofNat 17 n), s.tb⟩ })) := by
  refine issue_held hc ha ?_
  simp only [hn, needSlot_claimed hs, Res.ok_bind, hempty, Bool.false_eq_true, if_false]

theorem setSlot_changes {full : Bool} (hne : s.tag p n ≠ full) : setSlot full p f s = .next ((s.setTag p n full).past p t 8) := by
  refine issue_plain hc ha (.inl rfl) ?_
  simp only [hn, needSlot_claimed hs, Res.ok_bind, if_neg hne]
  rfl

theorem setSlot_redundant {full : Bool} (heq : s.tag p n = full) (hended : ¬ (full = true ∧ n ∈ s.polders[p].terp.ended)) :
    setSlot full p f s = .next ((s.terpFlag p 2 true).past p t 8) := by
  refine issue_plain hc ha (.inl rfl) ?_
  simp only [hn, needSlot_claimed hs, Res.ok_bind, if_pos heq, if_neg hended]
  rfl

/-- wr.sfill in the nanosecond of the slot's end leaves the flag to a free value (log entry 59). -/
theorem setSlot_ended (hfull : s.tag p n = true) (hended : n ∈ s.polders[p].terp.ended) :
    setSlot true p f s = .next ((s.fresh.2.terpFlag p 2 (s.fresh.1.getLsbD 0)).past p t 8) := by
  refine issue_plain hc ha (.inl rfl) ?_
  simp only [hn, needSlot_claimed hs, Res.ok_bind, if_pos hfull, hended, and_self, if_true]
  rfl

end

end

/-- Settles O8: each instruction passes its checks on a claimed weir or slot, and its cases are those of its own decision. -/
theorem wrResults : Obligations.WrResults := by
  unfold Obligations.WrResults
  intro s p t f hc w inc a n
  have hw : weirOperand t f = w := weirOperand_eq t f
  have hinc : incOf f = inc := incOf_eq f
  have hn : slotOperand t f = n := slotOperand_eq t f
  rw [← hinc]
  refine ⟨fun hg => ⟨fun ha hpos => wrSignal_sends hc hw hg ha hpos, fun ha => wrRead_gives hc hw hg ha, fun ha => ⟨?own, ?elsewhere⟩⟩,
    fun ha hpos halign hplace hopen => wrRsignal_sends hc ha hpos halign hplace hopen, fun hlt hbound ha => ?slots⟩
  case own => exact fun hhome hmet => wrWait_goesOn hc hw hg ha ⟨hhome, hmet⟩
  case elsewhere => exact wrWait_waits hc hw hg ha
  case slots =>
    have hs : SlotClaimed s p n := ⟨hlt, hbound⟩
    refine ⟨wrSwait_goesOn hc ha hn hs, wrSwait_waits hc ha hn hs, ?sfree, fun hempty => ?fills, fun hfull hnew => ?redundant,
      fun hfull hended => ⟨_, setSlot_ended hc ha hn hs hfull hended⟩⟩
    case sfree =>
      split
      case isTrue hfull => exact setSlot_changes hc ha hn hs (by rw [hfull]; exact Bool.noConfusion)
      case isFalse hempty => exact setSlot_redundant hc ha hn hs (Bool.eq_false_iff.mpr hempty) (fun h => Bool.noConfusion h.1)
    case fills => exact setSlot_changes hc ha hn hs (by rw [hempty]; exact Bool.noConfusion)
    case redundant => exact setSlot_redundant hc ha hn hs hfull (fun h => hnew h.2)

end Sys2Proof.Machine
end

section
/-! PROOFS. Waits: a fence, a wait whose condition holds, and a wait that has passed its limit (10 R229; 11 R253, R258; 14 R335). -/

namespace Sys2Proof.Machine

section
variable {s : State} {p : Pid} {t : Task}

/-! ### mm.fence (10 R229) -/

section
variable {f : Fields} (hc : CanIssue s p t) (ha : Accepts t {} f)
include hc ha

theorem mmFence_goesOn (hidle : arrayIdle s.polders[p] = true) : exec (.mmFence p f) s = goesTo s p t 8 := by
  rw [goesTo, ← State.setPc_eq hc.task]
  refine issueTo_plain hc ha (.inl rfl) ?_
  rw [hidle, if_pos rfl]
  rfl

theorem mmFence_waits (hbusy : arrayIdle s.polders[p] = false) :
    exec (.mmFence p f) s = .next (s.onTask p (fun t => { t with wait := some ⟨.fence, s.tb⟩ })) := by
  refine issueTo_held hc ha ?_
  rw [hbusy, if_neg Bool.false_ne_true]

end

/-! ### The wait of a task -/

/-- The state in which the watch of a polder is gone (11 R258). -/
def State.unwatched (s : State) (p : Pid) : State := { s with watches := s.watches.filter (fun x => x.p != p) }

section
variable {w : Wait} (hon : s.arithOn = true) (htask : s.polders[p].task = some t) (hwait : t.wait = some w)

include htask in
theorem State.waitDone_eq : s.waitDone p = (s.unwatched p).goesOn p t 8 := by
  have moves : s.onTask p (fun t => { t with pc := t.pc + 8, wait := none }) = s.goesOn p t 8 :=
    State.onPolder_congr s p (by rw [htask]; rfl)
  rw [State.waitDone, moves]
  rfl

include htask hwait in
theorem wait_of_task : s.polders[p].task.bind Task.wait = some w := by rw [htask, Option.bind_some, hwait]

include hon htask hwait

/-- WAIT_COMPLETE judges a wait on a weir or a slot by its condition. -/
theorem waitComplete_judges (hk : (∃ n thr, w.kind = .weir n thr) ∨ ∃ n, w.kind = .slot n) : exec (.waitComplete p) s =
    if waitMet s p w.kind = true then goesTo (s.unwatched p) p t 8 else .next s := by
  rw [goesTo, ← State.waitDone_eq htask, exec_waitComplete, execWaitComplete, whenArith_on hon, wait_of_task htask hwait]
  obtain ⟨n, thr, hk⟩ | ⟨n, hk⟩ := hk <;> simp only [hk]

/-- FENCE_COMPLETE judges a fence by its condition. -/
theorem fenceComplete_judges (hk : w.kind = .fence) : exec (.fenceComplete p) s =
    if arrayIdle s.polders[p] = true then goesTo (s.unwatched p) p t 8 else .next s := by
  rw [goesTo, ← State.waitDone_eq htask, exec_fenceComplete, execFenceComplete, whenArith_on hon, wait_of_task htask hwait]
  simp only [hk, true_and]
  rfl

/-! ### The limit (11 R253) -/

/-- The number of the weir or slot that a wait names in a WAIT_TIMEOUT; a fence names none. -/
def WaitKind.number : WaitKind → Option U32
  | .weir n _ => some (n.setWidth 32)
  | .slot n => some (n.setWidth 32)
  | .access _ n _ => some (n.setWidth 32)
  | .fence => none

theorem waitTimeout_early (hover : waitOver s t w = false) : exec (.waitTimeout p) s = .next s := by
  simp only [exec_waitTimeout, execWaitTimeout, whenArith_on hon, htask, hwait, hover, Bool.not_false, if_true]

section
variable (hover : waitOver s t w = true)
include hover

theorem waitTimeout_met (hnow : waitNow s p w.kind = true) (hk : ∀ q n b, w.kind ≠ .access q n b) :
    exec (.waitTimeout p) s = goesTo (s.unwatched p) p t 8 := by
  rw [goesTo, ← State.waitDone_eq htask]
  simp only [exec_waitTimeout, execWaitTimeout, whenArith_on hon, htask, hwait, hover, hnow, Bool.not_true, Bool.false_eq_true,
    if_false, if_true]

theorem waitTimeout_metAccess (hnow : waitNow s p w.kind = true) {q : Pid} {n : BitVec 17} {b : Bool} (hk : w.kind = .access q n b) :
    exec (.waitTimeout p) s = .next (s.onTask p (fun t => { t with wait := none })) := by
  simp only [exec_waitTimeout, execWaitTimeout, whenArith_on hon, htask, hwait, hover, hnow, Bool.not_true, Bool.false_eq_true,
    if_false, if_true]
  rw [hk]

theorem waitTimeout_faults (hnow : waitNow s p w.kind = false) : exec (.waitTimeout p) s =
    match w.kind.number with
    | some n => .next (s.taskFault p 0x18 n)
    | none => .next (s.fresh.2.taskFault p 0x18 (s.fresh.1.setWidth 32)) := by
  simp only [exec_waitTimeout, execWaitTimeout, whenArith_on hon, htask, hwait, hover, hnow, Bool.not_true, Bool.false_eq_true,
    if_false]
  cases w.kind <;> rfl

end
end
end

theorem waitOver_iff (s : State) (t : Task) (w : Wait) : waitOver s t w = true ↔
    s.holdWaits = false ∧ t.stage.waitLimit.toNat ≠ 0 ∧ w.start.toNat + 1000 * t.stage.waitLimit.toNat ≤ s.tb.toNat := by
  simp only [waitOver, Bool.and_eq_true, Bool.not_eq_true', bne_iff_ne, decide_eq_true_eq, and_assoc]

/-- Settles O9: a fence looks at the array, WAIT_COMPLETE and FENCE_COMPLETE judge the condition, and WAIT_TIMEOUT judges the limit and
then the condition. -/
theorem waitsComplete : Obligations.WaitsComplete := by
  unfold Obligations.WaitsComplete
  refine ⟨fun s p t f hc ha => ⟨mmFence_goesOn hc ha, mmFence_waits hc ha⟩, fun s p t w hon htask hwait => ⟨?weir, ?slot, ?fence⟩,
    fun s p t w hon htask hwait => ⟨?early, ?met, ?faults⟩⟩
  case weir =>
    intro n thr hk
    have judged := waitComplete_judges hon htask hwait (.inl ⟨n, thr, hk⟩)
    rw [hk] at judged
    refine ⟨fun hhome => ?own, fun haway => ?away⟩
    case own =>
      have hmet : waitMet s p (.weir n thr) = meets (s.weir n.toNat).count thr := if_pos hhome
      rw [hmet] at judged
      exact ⟨fun h => judged.trans (if_pos h), fun h => judged.trans (if_neg (Bool.eq_false_iff.mp h))⟩
    case away =>
      have hmet : waitMet s p (.weir n thr) = s.watches.any (fun x => x.p == p && x.sent) := if_neg haway
      rw [hmet] at judged
      refine ⟨fun ⟨x, hx, hp, hsent⟩ => judged.trans (if_pos ?_), fun hnone => judged.trans (if_neg ?_)⟩
      · exact List.any_eq_true.mpr ⟨x, hx, by rw [hp, hsent, beq_self_eq_true, Bool.and_self]⟩
      · rw [List.any_eq_true]
        rintro ⟨x, hx, hboth⟩
        obtain ⟨hp, hsent⟩ := Bool.and_eq_true_iff.mp hboth
        exact Bool.eq_false_iff.mp (hnone x hx (beq_iff_eq.mp hp)) hsent
  case slot =>
    intro n hk
    have judged := waitComplete_judges hon htask hwait (.inr ⟨n, hk⟩)
    rw [hk] at judged
    exact ⟨fun h => judged.trans (if_pos h), fun h => judged.trans (if_neg (Bool.eq_false_iff.mp h))⟩
  case fence =>
    intro hk
    have judged := fenceComplete_judges hon htask hwait hk
    exact ⟨fun h => judged.trans (if_pos h), fun h => judged.trans (if_neg (Bool.eq_false_iff.mp h))⟩
  case early =>
    intro hnot
    exact waitTimeout_early hon htask hwait (Bool.eq_false_iff.mpr (mt (waitOver_iff s t w).mp hnot))
  case met =>
    intro hpassed hnow
    have hover := (waitOver_iff s t w).mpr hpassed
    exact ⟨waitTimeout_met hon htask hwait hover hnow, fun q n b => waitTimeout_metAccess hon htask hwait hover hnow⟩
  case faults =>
    intro hpassed hnow
    have faults := waitTimeout_faults hon htask hwait ((waitOver_iff s t w).mpr hpassed) hnow
    refine ⟨fun n thr hk => ?onWeir, fun n hk => ?onSlot, fun hk => ⟨s.fresh.1.setWidth 32, ?onFence⟩⟩
    case onWeir => rw [faults, hk, WaitKind.number]
    case onSlot => obtain hk | ⟨q, b, hk⟩ := hk <;> rw [faults, hk, WaitKind.number]
    case onFence => rw [faults, hk, WaitKind.number]

end Sys2Proof.Machine
end

section
/-! PROOFS. The pw class and the power block: hints, preferred points, the windows of a rail and its sluice controller, droops, the
estimate, the berm and A1 (10 R237, R238; 16 R371-R378, Table 16-4). -/

namespace Sys2Proof.Machine

/-! ### The pw class (10 R237, R238) -/

theorem pushHint_getLast? (l : List (Fin 4 × BitVec 6 × U64 × BitVec 16)) (h : Fin 4 × BitVec 6 × U64 × BitVec 16) :
    (pushHint l h).getLast? = some h := List.getLast?_concat

theorem pushHint_dropLast (l : List (Fin 4 × BitVec 6 × U64 × BitVec 16)) (h : Fin 4 × BitVec 6 × U64 × BitVec 16) :
    (pushHint l h).dropLast = if 16 ≤ l.length then l.drop (l.length - 15) else l := List.dropLast_concat

/-- A polder with one more hint in its mailbox. -/
def Polder.hinted (h : Fin 4 × BitVec 6 × U64 × BitVec 16) (P : Polder) : Polder := { P with hints := pushHint P.hints h }

/-- The table of phases with the preferred point of one overwritten (10 R238). -/
def Pm.prefer (m : Pm) (g : Fin 4) (k : BitVec 6) (point : Nat) : Vector (Vector Phase 64) 4 :=
  m.phases.set g (m.phases[g].set k.toFin { (m.phases[g])[k.toFin] with pref := some point })

section
variable {s : State} {p : Pid} {t : Task} {f : Fields} (hc : CanIssue s p t)
include hc

theorem pwHint_pushes (ha : Accepts t { level := 2, imm := 0x3FFFFF } f) : exec (.pwHint p f) s =
    goesTo (s.onPolder p (Polder.hinted (t.stage.prog, f.imm.extractLsb' 0 6, s.tb, f.imm.extractLsb' 6 16))) p t 8 := by
  rw [exec_pwHint, execPwHint]
  exact issue_engine hc ha (Polder.hinted _) (fun _ => rfl) rfl

theorem pwPref_overwrites (ha : Accepts t { level := 2, imm := 0x1FF } f) : exec (.pwPref p f) s =
    goesTo { s with pm := { s.pm with phases := s.pm.prefer t.stage.prog (f.imm.extractLsb' 0 6) (prefPoint s f) } } p t 8 := by
  rw [goesTo, ← State.setPc_eq (by exact hc.task), exec_pwPref, execPwPref]
  refine issue_plain hc ha (.inl rfl) ?_
  rfl

theorem pwEnergy_gives (ha : Accepts t { level := 2, rd := .any } f) :
    exec (.pwEnergy p f) s = goesTo s p (t.setS f.rd s.pm.energyJob) 8 :=
  issue_move hc ha (fun t => t.setS f.rd s.pm.energyJob) (Task.setS_pc _ _ _)

end

theorem Pm.prefer_self (m : Pm) (g : Fin 4) (k : BitVec 6) (point : Nat) :
    (m.prefer g k point)[g][k.toFin] = { (m.phases[g])[k.toFin] with pref := some point } := by
  simp [Pm.prefer]

theorem Pm.prefer_ne (m : Pm) (g : Fin 4) (k : BitVec 6) (point : Nat) {h : Fin 4} {j : Fin 64} (hne : h ≠ g ∨ j ≠ k.toFin) :
    (m.prefer g k point)[h][j] = m.phases[h][j] := by
  by_cases hg : h = g
  · subst hg
    have hj : k.toFin.val ≠ j.val := fun e => hne.elim (· rfl) (· (Fin.ext e.symm))
    simp only [Pm.prefer, Fin.getElem_fin, Vector.getElem_set_self, Vector.getElem_set_ne _ _ hj]
  · have hg' : g.val ≠ h.val := fun e => hg (Fin.ext e.symm)
    simp only [Pm.prefer, Fin.getElem_fin, Vector.getElem_set_ne _ _ hg']

/-! ### The close of a window (16 R371, R372) -/

section
variable (s : State) (r : Fin 14) (k : Nat)

/-- A rail after a window has closed: the mean kept, and no report of the next one yet. -/
def Rail.closed (x : Rail) (next : Nat) : Rail :=
  { x with mean := BitVec.ofNat 32 (x.reports.sum / 10), reports := [], window := next }

theorem closeWindow_over (h : 10 * s.pm.rails[r].limit.toNat < s.pm.rails[r].reports.sum) : s.closeWindow r k =
    { s with pm := { s.pm with rails := s.pm.rails.set r (s.pm.rails[r].closed k), limitOver := true,
                               limitOvers := s.pm.limitOvers + 1, alertAt := some s.tb } } := by
  rw [State.closeWindow]
  dsimp only
  rw [decide_eq_true h, if_pos rfl]
  rfl

theorem closeWindow_within (h : s.pm.rails[r].reports.sum ≤ 10 * s.pm.rails[r].limit.toNat) : s.closeWindow r k =
    { s with pm := { s.pm with rails := s.pm.rails.set r (s.pm.rails[r].closed k) } } := by
  rw [State.closeWindow]
  dsimp only
  rw [decide_eq_false (Nat.not_lt.mpr h), if_neg Bool.false_ne_true]
  rfl

theorem closeWindow_rails : (s.closeWindow r k).pm.rails = s.pm.rails.set r (s.pm.rails[r].closed k) := by
  obtain h | h := Nat.lt_or_ge (10 * s.pm.rails[r].limit.toNat) s.pm.rails[r].reports.sum
  · rw [closeWindow_over s r k h]
  · rw [closeWindow_within s r k h]

theorem closeWindow_window : (s.closeWindow r k).pm.rails[r].window = k := by
  simp [closeWindow_rails, Rail.closed]

theorem closeWindow_running : (s.closeWindow r k).running = s.running := by
  obtain h | h := Nat.lt_or_ge (10 * s.pm.rails[r].limit.toNat) s.pm.rails[r].reports.sum
  · rw [closeWindow_over s r k h]; rfl
  · rw [closeWindow_within s r k h]; rfl

theorem closeWindow_tb : (s.closeWindow r k).tb = s.tb := rfl

end

theorem limitWindowClose_early {s : State} {r : Fin 14} (h : s.tb.toNat / 10000 ≤ s.pm.rails[r].window) :
    exec (.limitWindowClose r) s = .next s := by
  simp only [exec_limitWindowClose, execLimitWindowClose, decide_eq_true h, Bool.or_true, if_true]

theorem limitWindowClose_closes {s : State} {r : Fin 14} (hrun : s.running = true) (h : s.pm.rails[r].window < s.tb.toNat / 10000) :
    exec (.limitWindowClose r) s = .next (s.closeWindow r (s.tb.toNat / 10000)) := by
  simp only [exec_limitWindowClose, execLimitWindowClose, hrun, decide_eq_false (Nat.not_le.mpr h), Bool.not_true, Bool.or_self,
    Bool.false_eq_true, if_false]

/-! ### The sluice controller (16 R372, R373) -/

theorem sluicePoint_le (op total limit10 : Nat) : (sluicePoint op total limit10).2 ≤ op := by
  unfold sluicePoint
  split
  case h_1 q hq => exact Nat.le_of_lt_succ (List.mem_range.mp (List.mem_filter.mp (List.mem_of_getLast? hq)).1)
  case h_2 => exact Nat.zero_le op

/-- Whether a stretch to a point lowers the sluice need. -/
def lowersNeed (need : Option Nat) (point : Nat) : Bool :=
  match need with
  | none => true
  | some n => decide (point < n)

/-- The sluice need after a stretch: the lower of the two points. -/
theorem lowered_need (need : Option Nat) (point : Nat) :
    ∃ n, (if lowersNeed need point = true then some point else need) = some n ∧ n ≤ point ∧ ∀ m, need = some m → n ≤ m := by
  cases need with
  | none => exact ⟨point, rfl, Nat.le_refl _, fun m h => nomatch h⟩
  | some m =>
    rw [lowersNeed]
    split
    case isTrue h => exact ⟨point, rfl, Nat.le_refl _, fun k hk => Option.some.inj hk ▸ Nat.le_of_lt (of_decide_eq_true h)⟩
    case isFalse h =>
      exact ⟨m, rfl, Nat.le_of_not_lt (mt decide_eq_true h), fun k hk => Nat.le_of_eq (Option.some.inj hk)⟩

section
variable (s : State) (r : Fin 14) (k : Nat) (mean : U32)

/-- The reports of a rail's window with one more. -/
def State.reportsWith : List Nat := s.pm.rails[r].reports ++ [mean.toNat]

/-- The state once a report has joined window `k`; one of the module input counts as input energy. -/
def State.reported : State :=
  let m := { s.pm with rails := s.pm.rails.set r { s.pm.rails[r] with reports := s.reportsWith r mean, window := k } }
  if r.val = 13 then
    { s with pm := { m with energyInput := (addNj m.energyInput m.fracInput mean.toNat).1,
                            fracInput := (addNj m.energyInput m.fracInput mean.toNat).2 } }
  else { s with pm := m }

/-- Ten times the mean that reports and estimate project for the window (16 R372). -/
def State.projected : Nat := (s.reportsWith r mean).sum + s.pm.estimate[r] * (10 - (s.reportsWith r mean).length)

/-- The state once every clock on a rail is stretched, with the sluice need that asks for. -/
def State.sluiced (st : Nat × Nat) : State :=
  { s with pm := { s.pm with
      sluiceMhz := Vector.ofFn (fun q : Fin 4 =>
        if (decide (4 ≤ r.val) || r.val == q.val) = true then some (combine s.pm.sluiceMhz[q] st) else s.pm.sluiceMhz[q]),
      sluiceQuiet := 0, spoiled := true, nSluice := if lowersNeed s.pm.nSluice st.2 = true then some st.2 else s.pm.nSluice } }

/-- A need that a stretch has lowered is noted with the phases and announced (16 R373, R381). -/
def State.announced (lowers : Bool) : State := if lowers = true then s.noteSluice.refreshCap else s

theorem State.reported_only : ∃ e i, s.reported r k mean = { s with pm := { s.pm with
    rails := s.pm.rails.set r { s.pm.rails[r] with reports := s.reportsWith r mean, window := k },
    energyInput := e, fracInput := i } } := by
  rw [State.reported]
  split
  case isTrue => exact ⟨_, _, rfl⟩
  case isFalse => exact ⟨s.pm.energyInput, s.pm.fracInput, rfl⟩

theorem State.noteSluice_only : ∃ x, s.noteSluice = { s with pm := { s.pm with phases := x } } := by
  unfold State.noteSluice
  generalize List.finRange 4 = l
  induction l generalizing s with
  | nil => exact ⟨s.pm.phases, rfl⟩
  | cons g l ih =>
    rw [List.foldl_cons]
    split
    · exact ih s
    · split
      · exact ih s
      · obtain ⟨x, hx⟩ := ih (s.onPhase g _ _)
        exact ⟨x, hx⟩

theorem State.announced_only (lowers : Bool) : ∃ x c, s.announced lowers = { s with pm := { s.pm with phases := x }, cad := c } := by
  cases lowers with
  | false => exact ⟨s.pm.phases, s.cad, rfl⟩
  | true =>
    obtain ⟨x, hx⟩ := s.noteSluice_only
    obtain ⟨c, hc⟩ := s.noteSluice.refreshCap_only
    exact ⟨x, c, by rw [State.announced, if_pos rfl, hc, hx]⟩

/-- What a projection over the limit does to the state (16 R372). -/
def State.sluiceStep (total limit10 : Nat) : State :=
  if total ≤ limit10 then s
  else (s.sluiced r (sluicePoint s.disc.opNow.toNat total limit10)).announced
    (lowersNeed s.pm.nSluice (sluicePoint s.disc.opNow.toNat total limit10).2)

/-- A report joins its window, and the controller looks at what that projects. -/
def State.afterReport : State := (s.reported r k mean).sluiceStep r
  ((s.reportsWith r mean).sum + (s.reported r k mean).pm.estimate[r] * (10 - (s.reportsWith r mean).length))
  (10 * s.pm.rails[r].limit.toNat)

section
variable {total limit10 : Nat}

theorem State.sluiceStep_within (h : total ≤ limit10) : s.sluiceStep r total limit10 = s := if_pos h

/-- A projection over the limit stretches the rail's clocks to a point not above the one in force; what it announces touches the phases
and the cadence alone. -/
theorem State.sluiceStep_over (h : limit10 < total) : ∃ st x c, st.2 ≤ s.disc.opNow.toNat ∧
    s.sluiceStep r total limit10 = { s.sluiced r st with pm := { (s.sluiced r st).pm with phases := x }, cad := c } := by
  obtain ⟨x, c, hxc⟩ := (s.sluiced r (sluicePoint s.disc.opNow.toNat total limit10)).announced_only
    (lowersNeed s.pm.nSluice (sluicePoint s.disc.opNow.toNat total limit10).2)
  exact ⟨_, x, c, sluicePoint_le _ _ _, (if_neg (Nat.not_le.mpr h)).trans hxc⟩

end

variable {q : Fin 4} (st : Nat × Nat)

theorem State.sluiced_hit (h : 4 ≤ r.val ∨ r.val = q.val) : (s.sluiced r st).pm.sluiceMhz[q].isSome = true := by
  have hits : (decide (4 ≤ r.val) || r.val == q.val) = true := by simpa using h
  simp only [State.sluiced, Fin.getElem_fin, Vector.getElem_ofFn, hits, if_true, Option.isSome_some]

theorem State.sluiced_miss (hlt : r.val < 4) (hne : r.val ≠ q.val) : (s.sluiced r st).pm.sluiceMhz[q] = s.pm.sluiceMhz[q] := by
  have misses : ¬ (decide (4 ≤ r.val) || r.val == q.val) = true := by simpa using ⟨hlt, hne⟩
  simp only [State.sluiced, Fin.getElem_fin, Vector.getElem_ofFn, if_neg misses]

/-- A report changes the rail and the input energy, before the controller looks at what it projects. -/
theorem State.afterReport_eq : ∃ e i, s.afterReport r k mean = State.sluiceStep { s with pm := { s.pm with
    rails := s.pm.rails.set r { s.pm.rails[r] with reports := s.reportsWith r mean, window := k }, energyInput := e, fracInput := i } }
    r (s.projected r mean) (10 * s.pm.rails[r].limit.toNat) := by
  obtain ⟨e, i, h⟩ := s.reported_only r k mean
  exact ⟨e, i, by rw [State.afterReport, h]; rfl⟩

variable {s r k mean}

theorem currentReport_eq (hrun : s.running = true) : exec (.currentReport r mean) s =
    .next ((if s.pm.rails[r].window = windowOf s.tb.toNat then s else s.closeWindow r (windowOf s.tb.toNat)).afterReport r
      (windowOf s.tb.toNat) mean) := by
  rw [exec_currentReport, execCurrentReport, hrun]
  exact (apply_ite Host.Outcome.next _ _ _).symm

/-- The first report of a window closes the one before. -/
theorem currentReport_closes (hrun : s.running = true) (h : s.pm.rails[r].window ≠ windowOf s.tb.toNat) :
    exec (.currentReport r mean) s = exec (.currentReport r mean) (s.closeWindow r (windowOf s.tb.toNat)) := by
  rw [currentReport_eq hrun, currentReport_eq ((closeWindow_running s r _).trans hrun), closeWindow_tb, if_neg h,
    closeWindow_window, if_pos rfl]

theorem currentReport_joins (hrun : s.running = true) (h : s.pm.rails[r].window = windowOf s.tb.toNat) :
    exec (.currentReport r mean) s = .next (s.afterReport r (windowOf s.tb.toNat) mean) := by
  rw [currentReport_eq hrun, if_pos h]

end

/-! ### Alerts and droops (16 R372, R374) -/

section
variable {s : State}

theorem alertPulseEnd_ends {t : U64} (halert : s.pm.alertAt = some t) (h : 1000000 ≤ (s.tb - t).toNat) :
    exec .alertPulseEnd s = .next { s with pm := { s.pm with alertAt := none } } := by
  simp only [exec_alertPulseEnd, execAlertPulseEnd, halert, if_neg (Nat.not_lt.mpr h)]

theorem alertPulseEnd_early {t : U64} (halert : s.pm.alertAt = some t) (h : (s.tb - t).toNat < 1000000) :
    exec .alertPulseEnd s = .next s := by
  simp only [exec_alertPulseEnd, execAlertPulseEnd, halert, if_pos h]

variable {q : Quad}

theorem droopDetect_again (h : s.pm.droop[q] = true) : exec (.droopDetect q) s = .next s := by
  simp only [exec_droopDetect, execDroopDetect, h, Bool.or_true, if_true]

variable (hrun : s.running = true)
include hrun

theorem droopDetect_counts (h : s.pm.droop[q] = false) : exec (.droopDetect q) s =
    .next { s with pm := { s.pm with droop := s.pm.droop.set q true, droops := s.pm.droops + 1, spoiled := true,
                                     droopEpoch := s.pm.droopEpoch.set q (s.pm.droopEpoch[q] + 1) } } := by
  simp only [exec_droopDetect, execDroopDetect, hrun, h, Bool.not_true, Bool.or_self, Bool.false_eq_true, if_false]

theorem droopRelease_ends :
    exec (.droopRelease q) s = .next { s with pm := { s.pm with droop := s.pm.droop.set q false } } := by
  rw [exec_droopRelease, execDroopRelease, if_pos hrun]

end

/-! ### The estimate (16 R375-R377) -/

section
variable {s : State} {rails : List Nat} {input : Nat}

theorem estimateIntervalClose_early (hcut : s.pm.estCut = none) (h : s.tb.toNat < s.pm.estStart.toNat + 2000) :
    exec (.estimateIntervalClose rails input) s = .next s := by
  simp only [exec_estimateIntervalClose, execEstimateIntervalClose, hcut, decide_eq_true h, Option.isNone_none, Bool.and_self,
    Bool.or_true, if_true]

/-- An interval that is over, or that the timebase's step has cut, adds its energy to the module's total, and to a job's where there is
one (R376, R377). -/
theorem estimateIntervalClose_adds (hrun : s.running = true)
    (h : s.pm.estCut.isSome = true ∨ s.pm.estStart.toNat + 2000 ≤ s.tb.toNat) :
    ∃ job fj est room start, exec (.estimateIntervalClose rails input) s = .next { s with pm := { s.pm with
      powerEst := BitVec.ofNat 16 (min 65535 (input / 250)),
      energyTotal := s.pm.energyTotal + BitVec.ofNat 64 ((s.pm.fracTotal + input) / 1000),
      fracTotal := (s.pm.fracTotal + input) % 1000, energyJob := job, fracJob := fj, estimate := est, estCut := none,
      headroom := room, epochNj := s.pm.epochNj + input, estStart := start } } ∧
    (s.pm.jobFrom = none → job = s.pm.energyJob) := by
  have due : ¬ (!s.running || (s.pm.estCut.isNone && decide (s.tb.toNat < s.pm.estStart.toNat + 2000))) = true := by
    rw [hrun]
    obtain h | h := h
    · simp [Option.isNone_eq_false_iff.mpr h]
    · simp [Nat.not_lt.mpr h]
  refine ⟨_, _, _, _, _, (if_neg due).trans rfl, fun hjob => ?_⟩
  have outside : inJob s.pm (s.pm.estCut.getD s.pm.estStart) = false := by rw [inJob, hjob]
  rw [outside]
  rfl

end

/-! ### The berm and A1 (16 R378, Table 16-4) -/

theorem towards_moves (level demand : Nat) : ((towards level demand : Int) - level).natAbs ≤ 1 := by
  unfold towards
  split
  case isTrue => omega
  case isFalse => split <;> omega

theorem towards_nearer {level demand : Nat} (h : level ≠ demand) :
    ((towards level demand : Int) - demand).natAbs + 1 = ((level : Int) - demand).natAbs := by
  unfold towards
  split
  case isTrue => omega
  case isFalse hge => rw [if_pos (by omega)]; omega

section
variable {s : State} {q : Quad}

theorem bermStep_again {b : BermInputs} (h : s.pm.bermStep[q] = s.tb.toNat / 125) : exec (.bermStep q b) s = .next s := by
  simp only [exec_bermStep, execBermStep, decide_eq_true h, Bool.or_true, if_true]

theorem a1Entry_stays (h : s.pm.berm[q] ≠ 0 ∨ quadIdle s q = false ∨ (s.tb - s.pm.idleAt[q]).toNat < 1000) :
    exec (.a1Entry q) s = .next s := by
  obtain h | h | h := h
  · simp only [exec_a1Entry, execA1Entry, decide_eq_true h, Bool.or_true, Bool.true_or, if_true]
  · simp only [exec_a1Entry, execA1Entry, h, Bool.not_false, Bool.or_true, Bool.true_or, if_true]
  · simp only [exec_a1Entry, execA1Entry, decide_eq_true h, Bool.or_true, if_true]

variable (hon : s.arithOn = true)
include hon

theorem bermStep_moves {b : BermInputs} (h : s.pm.bermStep[q] ≠ s.tb.toNat / 125) : exec (.bermStep q b) s =
    .next { s with pm := { s.pm with berm := s.pm.berm.set q (towards s.pm.berm[q] (min 64 b.demand.toNat)),
                                     bermStep := s.pm.bermStep.set q (s.tb.toNat / 125),
                                     bermGaps := s.pm.bermGaps + b.gaps.setWidth 64,
                                     bermFills := s.pm.bermFills + b.fills.setWidth 64 } } := by
  simp only [exec_bermStep, execBermStep, hon, decide_eq_false h, Bool.not_true, Bool.or_self, Bool.false_eq_true, if_false]

theorem a1Entry_enters (ha1 : s.pm.a1[q] = false) (hberm : s.pm.berm[q] = 0) (hidle : quadIdle s q = true)
    (hlong : 1000 ≤ (s.tb - s.pm.idleAt[q]).toNat) :
    exec (.a1Entry q) s = .next { s with pm := { s.pm with a1 := s.pm.a1.set q true } } := by
  simp only [exec_a1Entry, execA1Entry, hon, ha1, hberm, hidle, decide_eq_false (Nat.not_lt.mpr hlong), ne_eq, not_true_eq_false,
    decide_false, Bool.not_true, Bool.or_self, Bool.false_eq_true, if_false]

end

/-- Settles O49: what each command of the power block makes of the state, and in it the values that the statement names. -/
theorem powerControl : Obligations.PowerControl := by
  unfold Obligations.PowerControl
  refine ⟨fun s p t f hc => ⟨fun ha => ?hint, fun ha => ?pref, fun ha => pwEnergy_gives hc ha⟩,
    ⟨fun s r mean hrun => ⟨currentReport_closes hrun, fun hk => ?report⟩, fun s r hrun => ⟨limitWindowClose_early, fun hlt => ?window⟩,
      fun s t halert => ⟨alertPulseEnd_ends halert, alertPulseEnd_early halert⟩,
      fun s q hrun => ⟨droopDetect_again, fun h => ?droop, droopRelease_ends hrun⟩,
      fun s rails input hrun => ⟨estimateIntervalClose_early, fun hdue => ?estimate⟩,
      fun s q b hon => ⟨bermStep_again, fun hne => ?berm⟩, fun s q hon => ⟨a1Entry_enters hon, a1Entry_stays⟩⟩⟩
  case hint =>
    refine ⟨_, pwHint_pushes hc ha, pushHint_getLast? _ _, fun hroom => ?_, fun hfull => ?_⟩
    · rw [pushHint_dropLast, if_neg (Nat.not_le.mpr hroom)]
    · rw [pushHint_dropLast, hfull, if_pos (Nat.le_refl 16), List.drop_one]
  case pref =>
    exact ⟨_, pwPref_overwrites hc ha, s.pm.prefer_self _ _ _, fun h k hne => s.pm.prefer_ne _ _ _ hne, rfl, rfl, rfl⟩
  case report =>
    obtain ⟨e, i, hafter⟩ := s.afterReport_eq r (windowOf s.tb.toNat) mean
    refine ⟨_, currentReport_joins hrun hk, ?_⟩
    obtain hlt | hle := Nat.lt_or_ge (10 * s.pm.rails[r].limit.toNat) (s.projected r mean)
    · obtain ⟨st, x, c, hpoint, hover⟩ := State.sluiceStep_over _ r hlt
      obtain ⟨n, hn, hst, hlow⟩ := lowered_need s.pm.nSluice st.2
      rw [hafter, hover]
      exact ⟨rfl, rfl, rfl, rfl, fun hbelow => absurd hlt hbelow, fun _ => ⟨fun q => State.sluiced_hit _ _ st,
        fun q => State.sluiced_miss _ _ st, n, hn, Nat.le_trans hst hpoint, hlow⟩⟩
    · rw [hafter, State.sluiceStep_within _ _ hle]
      exact ⟨rfl, rfl, rfl, rfl, fun _ => ⟨rfl, rfl, rfl⟩, fun habove => absurd habove (Nat.not_lt.mpr hle)⟩
  case window =>
    refine ⟨_, rfl, limitWindowClose_closes hrun hlt, closeWindow_rails s r _, fun hover => ?_, fun hwithin => ?_⟩
    · rw [closeWindow_over s r _ hover]
      exact ⟨rfl, rfl, rfl, rfl⟩
    · rw [closeWindow_within s r _ hwithin]
      exact ⟨rfl, rfl, rfl⟩
  case droop =>
    refine ⟨_, droopDetect_counts hrun h, rfl, rfl, Vector.getElem_set_self _, ?_⟩
    have stretches : (s.pm.droop.set q true)[q] = true := Vector.getElem_set_self _
    simp only [State.stretched, stretches, Bool.or_true]
  case estimate =>
    obtain ⟨job, fj, est, room, start, hexec, hjob⟩ := estimateIntervalClose_adds (rails := rails) (input := input) hrun hdue
    exact ⟨_, hexec, rfl, rfl, Nat.mod_eq_of_lt (by omega), hjob, rfl, rfl, rfl⟩
  case berm =>
    have moved : (s.pm.berm.set q (towards s.pm.berm[q] (min 64 b.demand.toNat)))[q] = towards s.pm.berm[q] (min 64 b.demand.toNat) :=
      Vector.getElem_set_self _
    refine ⟨_, bermStep_moves hon hne, rfl, rfl, fun j hj => ?_, ?_, fun d hd hne => ?_⟩
    · exact Vector.getElem_set_ne q.isLt j.isLt (fun e => hj (Fin.ext e.symm))
    · rw [moved]
      exact towards_moves _ _
    · rw [moved, ← hd]
      exact towards_nearer hne

end Sys2Proof.Machine
end

section
/-! PROOFS. Weirs: the writes of their registers and the updates that come from another domain (11 R254-R257, R260). -/

namespace Sys2Proof.Machine

open Host (Outcome)

/-! ### Accesses at a weir -/

theorem State.weir_congr {a b : State} (h : a.weirs = b.weirs) (u : Nat) : a.weir u = b.weir u := by
  rw [State.weir, State.weir, h]

/-- A register access at a weir of a running module reaches it, with the quadrant of a polder's weir out of A1 (16 R383). -/
theorem atWeir_reaches {s : State} (hrun : s.running = true) (w : Nat) :
    ∃ s' : State, (∀ k : State → Outcome State Fault Refusal, atWeir s w k = k s') ∧ s'.weirs = s.weirs ∧ s'.mem = s.mem := by
  unfold atWeir
  cases weirHome w with
  | some p => exact ⟨_, fun k => atPolder_on hrun, State.wakeQuad_weirs s _, State.wakeQuad_mem s _⟩
  | none => exact ⟨s, fun k => whenRunning_on hrun, rfl, rfl⟩

/-! ### One weir changes -/

/-- The state `t` has the weir `x` at `w`, and every other weir as `s` has it (11 R254). -/
structure WeirBecomes (s t : State) (w : Nat) (x : Weir) : Prop where
  self : t.weir w = x
  others : ∀ u, u ≠ w → t.weir u = s.weir u

/-- The weir `y` stored over the weir `x`: NOTIFIED is set where NOTIFY_EN is 1 and the weir meets its threshold now and did not before
(11 R260). -/
def Weir.stored (x y : Weir) : Weir :=
  { y with notified := y.notified || (y.notifyEn && meets y.count y.thresh && !meets x.count x.thresh) }

/-- A weir after a write of its WEIR_CTL_i: a NOTIFIED that hardware sets wins over the clear (11 R260, 00 R8). -/
def Weir.controlled (v : U32) (x : Weir) : Weir :=
  { x with notifyEn := v.getLsbD 0, notified := (x.notified && !v.getLsbD 1) || (v.getLsbD 0 && meets x.count x.thresh) }

section
variable (s : State) (w : Nat) (v : U32)

theorem State.putWeir_becomes (y : Weir) : WeirBecomes s (s.putWeir w y) w ((s.weir w).stored y) where
  self := by rw [State.weir_putWeir, if_pos rfl]; rfl
  others u hu := by rw [State.weir_putWeir, if_neg hu]

/-- The count of updates that precedes a change is no weir's. -/
theorem State.countSignal_putWeir_becomes (y : Weir) : WeirBecomes s ((s.countSignal w).putWeir w y) w ((s.weir w).stored y) := by
  obtain ⟨self, others⟩ := (s.countSignal w).putWeir_becomes w y
  rw [s.weir_countSignal] at self
  exact ⟨self, fun u hu => (others u hu).trans (s.weir_countSignal w u)⟩

theorem State.weirAdd_becomes (hw : w < 16384) :
    WeirBecomes s (s.weirAdd w v) w ((s.weir w).stored { s.weir w with count := (s.weir w).count + v }) := by
  rw [State.weirAdd, if_pos hw]
  exact s.countSignal_putWeir_becomes w _

theorem State.weirCtlReg_becomes : WeirBecomes s (s.weirCtlReg w v) w ((s.weir w).controlled v) where
  self := sget_sput_self _ _ _ _
  others _ hu := sget_sput_ne _ _ _ hu

end

/-! ### Commands -/

/-- A write of a weir register in a running module: the change at that weir alone. -/
theorem atWeir_becomes {s : State} {w : Nat} (change : State → State) (becomes : Weir → Weir) (hrun : s.running = true)
    (hchange : ∀ s' : State, WeirBecomes s' (change s') w (becomes (s'.weir w))) :
    ∃ t, atWeir s w (fun s' => .next (change s')) = .next t ∧
      t.weir w = becomes (s.weir w) ∧ ∀ u, u ≠ w → t.weir u = s.weir u := by
  obtain ⟨s', hreach, hweirs, -⟩ := atWeir_reaches hrun w
  obtain ⟨self, others⟩ := hchange s'
  rw [State.weir_congr hweirs] at self
  exact ⟨change s', hreach _, self, fun u hu => (others u hu).trans (State.weir_congr hweirs u)⟩

theorem weirUpdateArrival_none {s : State} {w : Fin 16384} (h : s.flight.find? (fun x => x.1 == w.val) = none) :
    exec (.weirUpdateArrival w) s = .next s := by
  simp only [exec_weirUpdateArrival, execWeirUpdateArrival, h]

/-- An update under way to a weir whose clocks run leaves the crossing and adds its increment (11 R257). -/
theorem weirUpdateArrival_lands {s : State} {w : Fin 16384} {x : Nat × U32} (hon : s.arithOn = true)
    (h : s.flight.find? (fun x => x.1 == w.val) = some x) : exec (.weirUpdateArrival w) s =
      atWeir s w.val (fun s => .next (({ s with flight := s.flight.erase x } : State).weirAdd w.val x.2)) := by
  have hclocks : s.pm.halted = false := by
    simp only [State.arithOn, Bool.and_eq_true, Bool.not_eq_true'] at hon
    exact hon.2
  simp only [exec_weirUpdateArrival, execWeirUpdateArrival, h, hclocks, Bool.and_false, Bool.false_eq_true, if_false]

/-- Settles O10: each write and each update changes its weir as its register says, and a weir that changes is the only one. -/
theorem weirUpdates : Obligations.WeirUpdates := by
  unfold Obligations.WeirUpdates
  refine ⟨fun s w v hrun => ?writes, fun s w hon => ⟨fun inc hfind => ?arrives, weirUpdateArrival_none⟩⟩
  case writes =>
    have hon : s.running = true := decide_eq_true hrun
    exact ⟨
      atWeir_becomes (·.weirAddReg w.val v) (fun x => x.stored { x with count := x.count + v }) hon
        (fun s' => s'.weirAdd_becomes w.val v w.isLt),
      atWeir_becomes (·.weirSetReg w.val v) (fun x => x.stored { x with count := v }) hon
        (fun s' => s'.countSignal_putWeir_becomes w.val _),
      atWeir_becomes (·.weirThreshReg w.val v) (fun x => x.stored { x with thresh := v }) hon
        (fun s' => s'.putWeir_becomes w.val _),
      atWeir_becomes (·.weirCtlReg w.val v) (Weir.controlled v) hon (fun s' => s'.weirCtlReg_becomes w.val v)⟩
  case arrives =>
    obtain ⟨s', hreach, hweirs, hmem⟩ := atWeir_reaches (running_of_arithOn hon) w.val
    obtain ⟨self, others⟩ := ({ s' with flight := s'.flight.erase (w.val, inc) } : State).weirAdd_becomes w.val inc w.isLt
    have hsame (u : Nat) : ({ s' with flight := s'.flight.erase (w.val, inc) } : State).weir u = s.weir u := State.weir_congr hweirs u
    rw [weirUpdateArrival_lands hon hfind, hreach]
    refine ⟨_, rfl, ?_, fun u hu => (others u hu).trans (hsame u), ?_⟩
    · rw [self, hsame]
      rfl
    · rw [State.weirAdd_mem, hmem]

end Sys2Proof.Machine
end

section
/-! PROOFS. Scratchpad banks: bulk tag operations, BANK_READY and the writes of TERP_BANK_CTL_b (11 R241-R245, R267). -/

namespace Sys2Proof.Machine

/-! ### The terp of a polder -/

section
variable (s : State) (p : Pid)

@[simp] theorem State.onTerp_terp_self (g : Terp → Terp) : (s.onTerp p g).polders[p].terp = g s.polders[p].terp := by
  rw [State.onTerp, State.onPolder_polders_self]

@[simp] theorem State.onTerp_onTerp (g k : Terp → Terp) : (s.onTerp p g).onTerp p k = s.onTerp p (fun T => k (g T)) :=
  s.onPolder_onPolder p _ _

theorem State.onTerp_congr {g k : Terp → Terp} (h : g s.polders[p].terp = k s.polders[p].terp) : s.onTerp p g = s.onTerp p k :=
  s.onPolder_congr p (by rw [h])

/-- REFUSED of TERP_STATUS (11 R267). -/
theorem State.terpFlag_refused : s.terpFlag p 1 true = s.onTerp p (fun T => { T with status := T.status ||| 2 }) := rfl

end

theorem Terp.onBank_self (T : Terp) (b : Fin 44) (g : Bank → Bank) : (T.onBank b g).banks[b] = g T.banks[b] :=
  Vector.getElem_set_self _

theorem Terp.onBank_ne (T : Terp) {b c : Fin 44} (h : c ≠ b) (g : Bank → Bank) : (T.onBank b g).banks[c] = T.banks[c] :=
  Vector.getElem_set_ne b.isLt c.isLt (fun e => h (Fin.ext e.symm))

/-! ### Tags (11 R267) -/

theorem testBit_run (first count n : Nat) :
    ((2 ^ count - 1) * 2 ^ first).testBit n = decide (first ≤ n ∧ n < first + count) := by
  rw [Nat.testBit_mul_two_pow, Nat.testBit_two_pow_sub_one, ← Bool.decide_and]
  exact decide_eq_decide.mpr (by omega)

/-- A run of tags set to one value: the slots of the run have it, the others keep theirs. -/
theorem getLsbD_setTags (x : BitVec 90112) (first count : Nat) (full : Bool) {n : Nat} (hn : n < 90112) :
    (setTags x first count full).getLsbD n = if first ≤ n ∧ n < first + count then full else x.getLsbD n := by
  have hrun : (BitVec.ofNat 90112 ((2 ^ count - 1) * 2 ^ first)).getLsbD n = decide (first ≤ n ∧ n < first + count) := by
    rw [BitVec.getLsbD_ofNat, testBit_run, decide_eq_true hn, Bool.true_and]
  unfold setTags
  dsimp only
  cases full with
  | true =>
    rw [if_pos rfl, BitVec.getLsbD_or, hrun]
    split <;> simp [*]
  | false =>
    rw [if_neg Bool.false_ne_true, BitVec.getLsbD_and, BitVec.getLsbD_not, hrun, decide_eq_true hn]
    split <;> simp [*]

section
variable {s : State} {p : Pid} {v : U64} (hrun : s.running = true)
include hrun

theorem terpTagOp_starts (h : s.polders[p].terp.tagOp = none) :
    exec (.terpTagOp p v) s = .next ((s.wakeQuad (quadOf p)).onTerp p (fun T => { T with tagOp := some v })) := by
  simp only [exec_terpTagOp, execTerpTagOp, atPolder_on hrun, State.tagOpWrite, State.wakeQuad_polders, h]

theorem terpTagOp_refused (h : s.polders[p].terp.tagOp ≠ none) : exec (.terpTagOp p v) s =
    .next ((s.wakeQuad (quadOf p)).onTerp p (fun T => { T with status := T.status ||| 2 })) := by
  obtain ⟨u, hu⟩ := Option.ne_none_iff_exists'.mp h
  simp only [exec_terpTagOp, execTerpTagOp, atPolder_on hrun, State.tagOpWrite, State.wakeQuad_polders, hu, State.terpFlag_refused]

theorem tagOpDone_sets (h : s.polders[p].terp.tagOp = some v) :
    exec (.tagOpDone p) s = .next (s.onTerp p (fun T => { T with
      tagOp := none,
      slots := setTags s.polders[p].terp.slots (v.extractLsb' 0 17).toNat (v.extractLsb' 32 17).toNat (v.getLsbD 63) })) := by
  simp only [exec_tagOpDone, execTagOpDone, whenRunning_on hrun, h]
  rw [State.onTerp_congr]
  rfl

theorem bankReady_clears {b : Fin 44} (h : s.polders[p].terp.banks[b].busy = true) :
    exec (.bankReady p b) s = .next (s.onTerp p (fun T => { T with banks := T.banks.set b { T.banks[b] with busy := false } })) := by
  simp only [exec_bankReady, execBankReady, whenRunning_on hrun, h, if_true]
  rfl

end

/-! ### Writes of TERP_BANK_CTL_b (11 R241-R245, Table 11-3) -/

section
variable (x : Bank) (v : U32)

/-- The write changes PROT or TAGS or turns the bank OFF, which a region or an open window over it forbids. -/
def Bank.unsettles : Bool := v.getLsbD 0 != x.prot || v.getLsbD 1 != x.tags || v.extractLsb' 2 2 == 2

/-- The write powers an OFF bank up. -/
def Bank.wakes : Bool := x.power == 2 && v.extractLsb' 2 2 ≤ 1

/-- The write starts a zero-fill. -/
def Bank.fills : Bool := x.wakes v || (v.getLsbD 0 != x.prot && x.power != 2 && v.extractLsb' 2 2 != 2)

/-- The write loses the bank's contents. -/
def Bank.loses : Bool := x.fills v || v.extractLsb' 2 2 == 2

/-- The bank after a write that it takes. -/
def Bank.taken : Bank :=
  { x with prot := v.getLsbD 0, tags := v.getLsbD 1, busy := x.busy || x.fills v,
           power := if v.extractLsb' 2 2 == 3 then x.power else if x.wakes v then 0 else v.extractLsb' 2 2 }

theorem Bank.unsettles_iff : x.unsettles v = true ↔ v.getLsbD 0 ≠ x.prot ∨ v.getLsbD 1 ≠ x.tags ∨ v.extractLsb' 2 2 = 2 := by
  simp only [Bank.unsettles, Bool.or_eq_true, bne_iff_ne, beq_iff_eq, or_assoc]

theorem Bank.wakes_iff : x.wakes v = true ↔ x.power = 2 ∧ (v.extractLsb' 2 2 = 0 ∨ v.extractLsb' 2 2 = 1) := by
  have hle : ∀ k : BitVec 2, k ≤ 1 ↔ k = 0 ∨ k = 1 := by decide
  simp only [Bank.wakes, Bool.and_eq_true, beq_iff_eq, decide_eq_true_eq, hle]

theorem Bank.loses_iff : x.loses v = true ↔ x.fills v = true ∨ v.extractLsb' 2 2 = 2 := by
  rw [Bank.loses, Bool.or_eq_true, beq_iff_eq]

theorem Bank.fills_iff : x.fills v = true ↔
    (x.power = 2 ∧ (v.extractLsb' 2 2 = 0 ∨ v.extractLsb' 2 2 = 1)) ∨
      (v.getLsbD 0 ≠ x.prot ∧ x.power ≠ 2 ∧ v.extractLsb' 2 2 ≠ 2) := by
  simp only [Bank.fills, Bool.or_eq_true, Bool.and_eq_true, bne_iff_ne, Bank.wakes_iff, and_assoc]

theorem Bank.taken_power : (x.taken v).power = if v.extractLsb' 2 2 = 3 then x.power else
    if x.power = 2 ∧ (v.extractLsb' 2 2 = 0 ∨ v.extractLsb' 2 2 = 1) then 0 else v.extractLsb' 2 2 :=
  if_congr beq_iff_eq rfl (if_congr (x.wakes_iff v) rfl rfl)

end

/-- The terp with the tags of a bank empty, where `on` asks for it. -/
def Terp.emptied (T : Terp) (b : Fin 44) (on : Bool) : Terp :=
  if on then { T with slots := setTags T.slots (2048 * b.val) 2048 false } else T

@[simp] theorem Terp.emptied_banks (T : Terp) (b : Fin 44) (on : Bool) : (T.emptied b on).banks = T.banks := by
  unfold Terp.emptied
  split <;> rfl

theorem Terp.getLsbD_emptied (T : Terp) (b : Fin 44) (on : Bool) {n : Nat} (hn : n < 90112) :
    (T.emptied b on).slots.getLsbD n = if on = true ∧ n / 2048 = b.val then false else T.slots.getLsbD n := by
  have hbank : 2048 * b.val ≤ n ∧ n < 2048 * b.val + 2048 ↔ n / 2048 = b.val := by omega
  cases on with
  | true => simp only [Terp.emptied, if_true, getLsbD_setTags _ _ _ _ hn, hbank, true_and]
  | false => simp only [Terp.emptied, Bool.false_eq_true, if_false, false_and]

section
variable (s : State) (p : Pid) (b : Fin 44) (v : U32)

/-- The memory side of a write: a bank that loses its contents reads 0. -/
def State.bankZeroed : State := if s.polders[p].terp.banks[b].loses v then s.zero (scratchAddr p (0x800000 * b.val)) 0x800000 else s

/-- The terp side of a write that the bank takes. -/
def Terp.bankTaken (T : Terp) : Terp :=
  ((T.emptied b (T.banks[b].loses v)).emptied b (v.getLsbD 1 != T.banks[b].tags)).onBank b (fun x => x.taken v)

theorem State.bankWrite_refused (h : s.polders[p].terp.banks[b].unsettles v = true)
    (hheld : rangeHeld s p (0x800000 * b.val) 0x800000 = true) :
    s.bankWrite p b v = { s.terpFlag p 1 true with reply := .status 0x05 } := by
  rw [Bank.unsettles] at h
  simp only [State.bankWrite, h, hheld, Bool.and_self, if_true]

theorem State.onTerp_emptied (on : Bool) :
    (if on = true then s.onTerp p (fun T => { T with slots := setTags T.slots (2048 * b.val) 2048 false }) else s)
      = s.onTerp p (fun T => T.emptied b on) := by
  cases on with
  | true => rfl
  | false => exact (s.onPolder_id p rfl).symm

theorem State.clearBank_of_loses :
    (if s.polders[p].terp.banks[b].loses v = true then s.clearBank p b else s) =
      (s.bankZeroed p b v).onTerp p (fun T => T.emptied b (s.polders[p].terp.banks[b].loses v)) := by
  rw [State.bankZeroed, ← State.onTerp_emptied]
  split <;> rfl

@[simp] theorem State.bankZeroed_polders : (s.bankZeroed p b v).polders = s.polders := by
  unfold State.bankZeroed
  split <;> rfl

theorem State.bankWrite_taken (h : (s.polders[p].terp.banks[b].unsettles v && rangeHeld s p (0x800000 * b.val) 0x800000) = false) :
    s.bankWrite p b v = (s.bankZeroed p b v).onTerp p (Terp.bankTaken b v) := by
  have hsteps : s.bankWrite p b v =
      ((if (v.getLsbD 1 != s.polders[p].terp.banks[b].tags) = true then
          (if s.polders[p].terp.banks[b].loses v = true then s.clearBank p b else s).onTerp p
            (fun T => { T with slots := setTags T.slots (2048 * b.val) 2048 false })
        else if s.polders[p].terp.banks[b].loses v = true then s.clearBank p b else s)).onTerp p
          (fun T => T.onBank b (fun y =>
            { s.polders[p].terp.banks[b].taken v with busy := y.busy || s.polders[p].terp.banks[b].fills v })) :=
    if_neg (Bool.eq_false_iff.mp h)
  rw [hsteps, State.onTerp_emptied, State.clearBank_of_loses, State.onTerp_onTerp, State.onTerp_onTerp]
  refine State.onTerp_congr _ _ ?_
  rw [State.bankZeroed_polders, Terp.bankTaken, Terp.onBank, Terp.onBank]
  simp only [Terp.emptied_banks]
  rfl

/-- A byte of a bank that loses its contents reads 0, every other byte as before. -/
theorem State.byte_bankZeroed (a : Nat) (ha : a < 2 ^ 63) : (s.bankZeroed p b v).byte a =
    if s.polders[p].terp.banks[b].loses v = true ∧
      scratchAddr p (0x800000 * b.val) ≤ a ∧ a < scratchAddr p (0x800000 * b.val) + 0x800000 then 0 else s.byte a := by
  unfold State.bankZeroed
  split
  case isTrue hl => simp only [State.byte_zero, ha, hl, and_true, true_and]
  case isFalse hl => rw [if_neg (fun e => hl e.1)]

theorem Terp.bankTaken_self (T : Terp) : (T.bankTaken b v).banks[b] = T.banks[b].taken v := by
  rw [Terp.bankTaken, Terp.onBank_self, Terp.emptied_banks, Terp.emptied_banks]

theorem Terp.bankTaken_ne (T : Terp) {c : Fin 44} (hc : c ≠ b) : (T.bankTaken b v).banks[c] = T.banks[c] := by
  rw [Terp.bankTaken, Terp.onBank_ne _ hc, Terp.emptied_banks, Terp.emptied_banks]

theorem Terp.getLsbD_bankTaken (T : Terp) {n : Nat} (hn : n < 90112) : (T.bankTaken b v).slots.getLsbD n =
    if (T.banks[b].loses v = true ∨ v.getLsbD 1 ≠ T.banks[b].tags) ∧ n / 2048 = b.val then false else T.slots.getLsbD n := by
  rw [Terp.bankTaken, Terp.onBank, Terp.getLsbD_emptied _ _ _ hn, Terp.getLsbD_emptied _ _ _ hn]
  simp only [bne_iff_ne]
  split
  case isTrue h => rw [if_pos ⟨.inr h.1, h.2⟩]
  case isFalse h =>
    refine if_congr ⟨fun e => ⟨.inl e.1, e.2⟩, fun e => ⟨e.1.resolve_right (fun ht => h ⟨ht, e.2⟩), e.2⟩⟩ rfl rfl

end

/-- Settles O15: a run of tags for the bulk operation, and for a bank the four parts of its write: the bank, the other banks, its bytes
and its tags. -/
theorem bankAndTagControl : Obligations.BankAndTagControl := by
  unfold Obligations.BankAndTagControl
  refine ⟨⟨fun s p v hrun => ?tags, fun s p b hrun => bankReady_clears (decide_eq_true hrun)⟩, fun s p b v hrun => ?bank⟩
  case tags =>
    have hon : s.running = true := decide_eq_true hrun
    exact ⟨⟨terpTagOp_starts hon, terpTagOp_refused hon⟩,
      fun hop => ⟨_, tagOpDone_sets hon hop, fun n hn => getLsbD_setTags _ _ _ _ hn⟩⟩
  case bank =>
    have hon : s.running = true := decide_eq_true hrun
    have hexec : exec (.terpBankCtlWrite p b v) s = .next ((s.wakeQuad (quadOf p)).bankWrite p b v) := by
      rw [exec_terpBankCtlWrite, execTerpBankCtlWrite, atPolder_on hon]
    have hpolders : (s.wakeQuad (quadOf p)).polders = s.polders := s.wakeQuad_polders _
    have hheld : rangeHeld (s.wakeQuad (quadOf p)) p (0x800000 * b.val) 0x800000 = rangeHeld s p (0x800000 * b.val) 0x800000 := by
      rw [rangeHeld, rangeHeld, hpolders, State.wakeQuad_claimedRegions]
    refine ⟨fun hchanges hover => ?refused, fun hfree => ?taken⟩
    case refused =>
      rw [hexec, State.bankWrite_refused _ _ _ _ (by rw [hpolders]; exact (Bank.unsettles_iff _ v).mpr hchanges) (hheld.trans hover)]
      rfl
    case taken =>
      have hsettled : ((s.wakeQuad (quadOf p)).polders[p].terp.banks[b].unsettles v &&
          rangeHeld (s.wakeQuad (quadOf p)) p (0x800000 * b.val) 0x800000) = false := by
        rw [hheld, hpolders, Bool.and_eq_false_iff]
        exact hfree.imp_left (fun h => Bool.eq_false_iff.mpr (mt (Bank.unsettles_iff _ v).mp h))
      rw [hexec, State.bankWrite_taken _ _ _ _ hsettled]
      refine ⟨_, rfl, ?_⟩
      rw [State.onTerp_terp_self, State.bankZeroed_polders, hpolders, Terp.bankTaken_self]
      refine ⟨rfl, rfl, Bank.taken_power _ v, ?busy, fun c hc => Terp.bankTaken_ne b v _ hc, fun a ha => ?bytes, fun n hn => ?tags⟩
      case busy => rw [Bank.taken, Bool.or_eq_true, Bank.fills_iff]
      case bytes =>
        rw [byte_congr (State.onTerp_mem _ _ _) ha, State.byte_bankZeroed _ _ _ _ _ ha, hpolders,
          byte_congr (s.wakeQuad_mem (quadOf p)) ha]
        exact if_congr (and_congr_left' (by rw [Bank.loses_iff, Bank.fills_iff])) rfl rfl
      case tags =>
        rw [State.tag, State.onTerp_terp_self, State.bankZeroed_polders, hpolders, Terp.getLsbD_bankTaken _ _ _ hn]
        exact if_congr (and_congr_left' (by rw [Bank.loses_iff, Bank.fills_iff, or_assoc])) rfl rfl

end Sys2Proof.Machine
end

section
/-! PROOFS. Remote windows: the writes of TERP_RWIN_CTL_w and the packets at a landing port (11 R261-R265). -/

namespace Sys2Proof.Machine

/-! ### Writes of TERP_RWIN_CTL_w (11 R264, R265) -/

section
variable (s : State) (p : Pid) (w : Fin 4) (v : U32)

/-- The window as a write of its control register asks for it. -/
def Window.asked (x : Window) : Window :=
  { x with isOpen := v.getLsbD 31, weirs := v.getLsbD 30, wr := v.getLsbD 29, rd := v.getLsbD 28, arrWeir := v.extractLsb' 0 16 }

/-- A window that opens starts its arrival counter at 0 (11 R264). -/
def Window.opened (x y : Window) : Window := if y.isOpen = true ∧ x.isOpen = false then { y with arr := 0 } else y

theorem Window.opened_asked (x : Window) :
    x.opened (x.asked v) = { x.asked v with arr := if (v.getLsbD 31 && !x.isOpen) = true then 0 else x.arr } := by
  have hopens : ((x.asked v).isOpen = true ∧ x.isOpen = false) ↔ (v.getLsbD 31 && !x.isOpen) = true := by
    rw [Bool.and_eq_true, Bool.not_eq_true']
    rfl
  unfold Window.opened
  split
  case isTrue h => rw [if_pos (hopens.mp h)]
  case isFalse h =>
    rw [if_neg (mt hopens.mpr h)]
    rfl

/-- A write is refused that would retype an open window, or open one that may not open (11 R265). -/
def windowRefused (x : Window) : Prop :=
  (x.isOpen = true ∧ ((x.asked v).weirs ≠ x.weirs ∨ (x.asked v).wr ≠ x.wr ∨ (x.asked v).rd ≠ x.rd)) ∨
    ((x.asked v).isOpen = true ∧ x.isOpen = false ∧ mayOpen s p w (x.asked v).weirs = false)

theorem windowRefused_iff (x : Window) : windowRefused s p w v x ↔
    ((x.isOpen && (v.getLsbD 30 != x.weirs || v.getLsbD 29 != x.wr || v.getLsbD 28 != x.rd)) ||
      (v.getLsbD 31 && !x.isOpen && !mayOpen s p w (v.getLsbD 30))) = true := by
  simp only [windowRefused, Window.asked, Bool.or_eq_true, Bool.and_eq_true, bne_iff_ne, Bool.not_eq_true', or_assoc, and_assoc]

theorem State.windowWrite_refused (h : windowRefused s p w v s.polders[p].terp.windows[w]) :
    s.windowWrite p w v = s.onTerp p (fun T => { T with status := T.status ||| 2 }) :=
  (if_pos ((windowRefused_iff s p w v _).mp h)).trans (s.terpFlag_refused p)

theorem State.windowWrite_taken (h : ¬ windowRefused s p w v s.polders[p].terp.windows[w]) :
    s.windowWrite p w v = s.onTerp p (fun T => { T with
      windows := T.windows.set w (s.polders[p].terp.windows[w].opened (s.polders[p].terp.windows[w].asked v)) }) := by
  refine (if_neg (mt (windowRefused_iff s p w v _).mpr h)).trans (s.onTerp_congr p ?_)
  rw [Window.opened_asked]
  rfl

end

/-! ### The packet at the head of a landing port (11 R261-R265) -/

/-- The terp after a slot end at slot n, where `on` asks for it (11 R250). -/
def Terp.slotFilled (n : Nat) (on : Bool) (T : Terp) : Terp :=
  if (on && T.banks[bankIx n].tags) = true then { T with slots := setField T.slots n 1 1, ended := n :: T.ended } else T

theorem State.slotEnd_eq (s : State) (p : Pid) (n : Nat) (on : Bool) :
    (if on = true then s.slotEnd p n else s) = s.onTerp p (Terp.slotFilled n on) := by
  have hstays (h : ¬ (on && s.polders[p].terp.banks[bankIx n].tags) = true) : s.onTerp p (Terp.slotFilled n on) = s :=
    s.onPolder_id p (by rw [Terp.slotFilled, if_neg h])
  cases on with
  | false => exact (hstays (by rw [Bool.false_and]; exact Bool.false_ne_true)).symm
  | true =>
    rw [if_pos rfl, State.slotEnd]
    split
    case isTrue h =>
      rw [State.setTag, State.onTerp_onTerp]
      exact s.onTerp_congr p (if_pos h).symm
    case isFalse h => exact (hstays h).symm

theorem Terp.slotFilled_tag {T : Terp} {n : Nat} (ht : T.banks[bankIx n].tags = true) (hn : n < 90112) :
    (T.slotFilled n true).slots.getLsbD n = true := by
  rw [Terp.slotFilled, if_pos (by rw [ht]; rfl), getLsbD_setField _ _ hn, if_pos ⟨Nat.le_refl n, Nat.lt_succ_self n⟩, Nat.sub_self]
  rfl

theorem Terp.slotFilled_windows (T : Terp) (n : Nat) (on : Bool) : (T.slotFilled n on).windows = T.windows := by
  unfold Terp.slotFilled
  split <;> rfl

theorem Terp.onWindow_self (T : Terp) (w : Fin 4) (g : Window → Window) : (T.onWindow w g).windows[w] = g T.windows[w] :=
  Vector.getElem_set_self _

theorem Terp.slotFilled_landing (T : Terp) (n : Nat) (on : Bool) : (T.slotFilled n on).landing = T.landing := by
  unfold Terp.slotFilled
  split <;> rfl

section
variable (s : State) (p : Pid) (l : Landing) (data : List Byte) (slotEnd : Bool)

/-- The slot of the last byte that a write puts down. -/
def landingSlot : Nat := (4096 * landingBase s p l + l.offset.toNat + data.length - 1) / 4096

/-- What a write does before the signal of its window's arrival counter: its bytes, the slot end and the count. -/
def State.landed : State := (s.putBytes (landingAddr s p l) data).onTerp p (fun T =>
  (T.slotFilled (landingSlot s p l data) slotEnd).onWindow l.window
    (fun y => { y with arr := s.polders[p].terp.windows[l.window].arr + BitVec.ofNat 64 data.length }))

/-- The multiples of STEP that the arrival counter crosses (11 R264). -/
def landingSteps : Nat :=
  let x := s.polders[p].terp.windows[l.window]
  if x.step = 0 then 0 else (x.arr + BitVec.ofNat 64 data.length).toNat / x.step.toNat - x.arr.toNat / x.step.toNat

theorem State.land_eq : s.land p l data slotEnd =
    if landingSteps s p l data = 0 ∨ s.polders[p].terp.windows[l.window].arrWeir = 0xFFFF then s.landed p l data slotEnd
    else (s.landed p l data slotEnd).weirSend p s.polders[p].terp.windows[l.window].arrWeir.toNat
      (BitVec.ofNat 32 (landingSteps s p l data)) := by
  have hlanded : ((s.putBytes (landingAddr s p l) data).onTerp p (Terp.slotFilled (landingSlot s p l data) slotEnd)).onTerp p
      (fun T => T.onWindow l.window
        (fun y => { y with arr := s.polders[p].terp.windows[l.window].arr + BitVec.ofNat 64 data.length })) =
      s.landed p l data slotEnd := State.onTerp_onTerp _ _ _ _
  have hbase : landingBase (s.putBytes (landingAddr s p l) data) p l = landingBase s p l := by
    rw [landingBase, State.putBytes_polders, landingBase]
  rw [← hlanded, ← State.slotEnd_eq]
  simp only [State.land, hbase]
  rfl

theorem State.land_mem : (s.land p l data slotEnd).mem = (s.putBytes (landingAddr s p l) data).mem := by
  rw [State.land_eq]
  split
  · rfl
  · exact State.weirSend_mem _ _ _ _

theorem State.land_freeIx : (s.land p l data slotEnd).freeIx = (s.putBytes (landingAddr s p l) data).freeIx := by
  rw [State.land_eq]
  split
  · rfl
  · exact State.weirSend_freeIx _ _ _ _

theorem State.land_terp : (s.land p l data slotEnd).polders[p].terp = (s.landed p l data slotEnd).polders[p].terp := by
  rw [State.land_eq]
  split
  · rfl
  · obtain ⟨x, hx⟩ := (s.landed p l data slotEnd).weirSend_polder p p s.polders[p].terp.windows[l.window].arrWeir.toNat
      (BitVec.ofNat 32 (landingSteps s p l data))
    rw [hx]

theorem State.landed_terp : (s.landed p l data slotEnd).polders[p].terp =
    (s.polders[p].terp.slotFilled (landingSlot s p l data) slotEnd).onWindow l.window
      (fun y => { y with arr := s.polders[p].terp.windows[l.window].arr + BitVec.ofNat 64 data.length }) := by
  rw [State.landed, State.onTerp_terp_self, State.putBytes_polders]

/-- Once the packet has left the port: the slot end, the count of its window, and the packets behind it. -/
theorem State.land_popLanding_terp : ((s.land p l data slotEnd).popLanding p).polders[p].terp =
    { (s.polders[p].terp.slotFilled (landingSlot s p l data) slotEnd).onWindow l.window
        (fun y => { y with arr := s.polders[p].terp.windows[l.window].arr + BitVec.ofNat 64 data.length }) with
      landing := s.polders[p].terp.landing.tail } := by
  rw [State.popLanding, State.onTerp_terp_self, State.land_terp, State.landed_terp, Terp.onWindow, Terp.slotFilled_landing]

theorem State.land_popLanding_mem :
    ((s.land p l data slotEnd).popLanding p).mem = (s.putBytes (landingAddr s p l) data).mem := State.land_mem s p l data slotEnd

theorem State.land_popLanding_freeIx :
    ((s.land p l data slotEnd).popLanding p).freeIx = (s.putBytes (landingAddr s p l) data).freeIx :=
  State.land_freeIx s p l data slotEnd

/-- The window that the packet met counts its bytes (11 R264). -/
theorem State.land_popLanding_window : ((s.land p l data slotEnd).popLanding p).polders[p].terp.windows[l.window] =
    { s.polders[p].terp.windows[l.window] with
      arr := s.polders[p].terp.windows[l.window].arr + BitVec.ofNat 64 data.length } := by
  simp only [State.land_popLanding_terp, Terp.onWindow_self, Terp.slotFilled_windows]

/-- A slot end in a bank with TAGS = 1 leaves the slot full (11 R250). -/
theorem State.land_popLanding_tag {n : Nat} (hslot : landingSlot s p l data = n) (hn : n < 90112)
    (htags : s.polders[p].terp.banks[bankIx n].tags = true) : ((s.land p l data true).popLanding p).tag p n = true := by
  rw [State.tag, State.land_popLanding_terp, hslot]
  exact Terp.slotFilled_tag htags hn

/-- A window that names no weir sends none (11 R264). -/
theorem State.land_popLanding_weirs (h : s.polders[p].terp.windows[l.window].arrWeir = 0xFFFF) :
    ((s.land p l data slotEnd).popLanding p).weirs = s.weirs ∧ ((s.land p l data slotEnd).popLanding p).flight = s.flight := by
  rw [State.popLanding, State.onTerp_weirs, State.onTerp_flight, State.land_eq, if_pos (.inr h), State.landed, State.onTerp_weirs,
    State.onTerp_flight, State.putBytes_weirs, State.putBytes_flight]
  exact ⟨rfl, rfl⟩

end

section
variable {s : State} {p : Pid} {l : Landing} {rest : List Landing}

/-! ### What leaves or stays at the port -/

section
variable (hport : s.polders[p].terp.landing = l :: rest)
include hport

theorem State.popLanding_head : s.popLanding p = s.onTerp p (fun T => { T with landing := rest }) := by
  refine s.onTerp_congr p ?_
  rw [hport]
  rfl

theorem State.keepLanding_head : s.keepLanding p l =
    s.onTerp p (fun T => { T with landing := { l with base := some (landingBase s p l) } :: rest }) := by
  refine s.onTerp_congr p ?_
  rw [hport]
  rfl

theorem State.dropLanding_head :
    (s.onTerp p (fun T => { T with refused := T.refused + 1, status := stick T.status 4 true })).popLanding p =
      s.onTerp p (fun T => { T with refused := T.refused + 1, status := T.status ||| 16, landing := rest }) := by
  rw [State.popLanding_head (l := l) (rest := rest) (by rw [State.onTerp_terp_self, hport]), State.onTerp_onTerp]
  rfl

/-- A packet without a sender is dropped, counts and sets REMOTE_REFUSED (11 R262). -/
theorem State.refuseLanding_unsent (hfrom : l.sender = none) : s.refuseLanding p l =
    s.onTerp p (fun T => { T with refused := T.refused + 1, status := T.status ||| 16, landing := rest }) := by
  simp only [State.refuseLanding, hfrom, State.dropLanding_head hport]

/-- The refusal goes back to the sender, with the polder and the pc of its instruction (11 R262; log entry 58). -/
theorem State.refuseLanding_sent {a : Nat} (hfrom : l.sender = some a) : s.refuseLanding p l =
    { s.onTerp p (fun T => { T with refused := T.refused + 1, status := T.status ||| 16, landing := rest }) with
      sent := s.sent ++ [(BitVec.ofNat 64 a, .refused l.tag.1 l.tag.2 (l.offset.setWidth 32))] } := by
  simp only [State.refuseLanding, hfrom, State.dropLanding_head hport, State.onTerp_sent]

end

/-! ### The packet's fates -/

theorem packetOk_wakeQuad (s : State) (q : Quad) (p : Pid) (l : Landing) : packetOk (s.wakeQuad q) p l = packetOk s p l := by
  simp only [packetOk, State.wakeQuad_polders]

theorem landingBase_wakeQuad (s : State) (q : Quad) (p : Pid) (l : Landing) : landingBase (s.wakeQuad q) p l = landingBase s p l := by
  rw [landingBase, State.wakeQuad_polders, landingBase]

theorem landingAddr_wakeQuad (s : State) (q : Quad) (p : Pid) (l : Landing) : landingAddr (s.wakeQuad q) p l = landingAddr s p l := by
  rw [landingAddr, landingBase_wakeQuad, landingAddr]

section
variable (hrun : s.running = true) (hport : s.polders[p].terp.landing = l :: rest)
include hrun hport

theorem remotePacketArrival_refuses (hok : packetOk s p l = false) :
    exec (.remotePacketArrival p) s = .next ((s.wakeQuad (quadOf p)).refuseLanding p l) := by
  simp only [exec_remotePacketArrival, execRemotePacketArrival, atPolder_on hrun, State.wakeQuad_polders, hport, packetOk_wakeQuad, hok,
    Bool.not_false, if_true]

variable (hok : packetOk s p l = true)
include hok

theorem remotePacketArrival_waits {data : List Byte} {slotEnd : Bool} {q : Pid} {n : BitVec 17} {full : Bool}
    (hop : l.op = .write data slotEnd) (hgate : gate (s.wakeQuad (quadOf p)) true
      (slotsOf [(landingAddr s p l, data.length)]) = .error (.blocked q n full)) :
    exec (.remotePacketArrival p) s = .next ((s.wakeQuad (quadOf p)).keepLanding p l) := by
  simp only [exec_remotePacketArrival, execRemotePacketArrival, atPolder_on hrun, State.wakeQuad_polders, hport, packetOk_wakeQuad, hok,
    Bool.not_true, Bool.false_eq_true, if_false, hop, landingAddr_wakeQuad, hgate]

theorem remotePacketArrival_lands {data : List Byte} {slotEnd : Bool} (hop : l.op = .write data slotEnd)
    (hgate : gate (s.wakeQuad (quadOf p)) true (slotsOf [(landingAddr s p l, data.length)]) = .ok ()) :
    exec (.remotePacketArrival p) s = .next (((s.wakeQuad (quadOf p)).land p l data slotEnd).popLanding p) := by
  simp only [exec_remotePacketArrival, execRemotePacketArrival, atPolder_on hrun, State.wakeQuad_polders, hport, packetOk_wakeQuad, hok,
    Bool.not_true, Bool.false_eq_true, if_false, hop, landingAddr_wakeQuad, hgate]

theorem remotePacketArrival_answers {len : BitVec 13} (hop : l.op = .read len)
    (hgate : gate (s.wakeQuad (quadOf p)) false (slotsOf [(landingAddr s p l, len.toNat)]) = .ok ()) :
    exec (.remotePacketArrival p) s = .next (({ s.wakeQuad (quadOf p) with
      sent := s.sent ++ [(BitVec.ofNat 64 (l.sender.getD 0),
        .write ((s.wakeQuad (quadOf p)).bytes (landingAddr s p l) len.toNat) false)] } : State).popLanding p) := by
  simp only [exec_remotePacketArrival, execRemotePacketArrival, atPolder_on hrun, State.wakeQuad_polders, hport, packetOk_wakeQuad, hok,
    Bool.not_true, Bool.false_eq_true, if_false, hop, landingAddr_wakeQuad, hgate, State.wakeQuad_sent]

theorem remotePacketArrival_signals {inc : BitVec 12} (hop : l.op = .signal inc) : exec (.remotePacketArrival p) s =
    .next (((s.wakeQuad (quadOf p)).weirSend p (landingBase s p l + l.offset.toNat / 4)
      (inc.setWidth 32)).popLanding p) := by
  simp only [exec_remotePacketArrival, execRemotePacketArrival, atPolder_on hrun, State.wakeQuad_polders, hport, packetOk_wakeQuad, hok,
    Bool.not_true, Bool.false_eq_true, if_false, hop, landingBase_wakeQuad]

end

/-- A read of bytes depends on the memory and on the counter of the free values alone. -/
theorem State.bytes_congr {s' : State} (hm : s'.mem = s.mem) (hf : s'.freeIx = s.freeIx) (a n : Nat) : s'.bytes a n = s.bytes a n := by
  simp only [State.bytes, State.byte, hm, hf]

end

/-- Settles O16: a window changes as asked or stays, and a packet leaves the port after it has landed, answered, signalled or been
refused, or waits at it. -/
theorem remoteWindows : Obligations.RemoteWindows := by
  unfold Obligations.RemoteWindows
  refine ⟨fun s p w v hrun => ?control, fun s p l rest hrun hport => ?packet⟩
  case control =>
    have hon : s.running = true := decide_eq_true hrun
    have hexec : exec (.terpRwinCtlWrite p w v) s = .next ((s.wakeQuad (quadOf p)).windowWrite p w v) := by
      rw [exec_terpRwinCtlWrite, execTerpRwinCtlWrite, atPolder_on hon]
    have hpolders : (s.wakeQuad (quadOf p)).polders = s.polders := s.wakeQuad_polders _
    have hmay (weirs : Bool) : mayOpen (s.wakeQuad (quadOf p)) p w weirs = mayOpen s p w weirs := by
      simp only [mayOpen, hpolders]
    have hrefused : windowRefused (s.wakeQuad (quadOf p)) p w v (s.wakeQuad (quadOf p)).polders[p].terp.windows[w] ↔
        windowRefused s p w v s.polders[p].terp.windows[w] := by rw [windowRefused, windowRefused, hmay, hpolders]
    rw [hexec]
    refine ⟨fun h => ?_, fun h => ?_⟩
    · rw [State.windowWrite_refused _ _ _ _ (hrefused.mpr h)]
    · rw [State.windowWrite_taken _ _ _ _ (mt hrefused.mp h), hpolders]
      rfl
  case packet =>
    have hon : s.running = true := decide_eq_true hrun
    have hpolders : (s.wakeQuad (quadOf p)).polders = s.polders := s.wakeQuad_polders _
    have hwoken : (s.wakeQuad (quadOf p)).polders[p].terp.landing = l :: rest := by rw [hpolders, hport]
    refine ⟨fun hno => ⟨fun hfrom => ?unsent, fun from_ hfrom => ?refused⟩, fun data slotEnd q n full hop hok hgate => ?waits,
      fun data slotEnd hop hok hlen hgate => ?lands, fun len hop hok hgate => ?answers, fun inc hop hok => ?signals⟩
    case unsent => rw [remotePacketArrival_refuses hon hport hno, State.refuseLanding_unsent hwoken hfrom]
    case refused => rw [remotePacketArrival_refuses hon hport hno, State.refuseLanding_sent hwoken hfrom, State.wakeQuad_sent]
    case waits =>
      rw [remotePacketArrival_waits hon hport hok hop hgate, State.keepLanding_head hwoken, landingBase_wakeQuad]
      rfl
    case lands =>
      refine ⟨_, remotePacketArrival_lands hon hport hok hop hgate, ?port, ?stored, fun b hb hout => ?frame, ?count,
        fun hend htags hn => ?full, fun hnone => ?unsignalled⟩
      case port => rw [State.land_popLanding_terp, hwoken, List.tail_cons]
      case stored =>
        rw [State.bytes_congr (State.land_popLanding_mem _ _ _ _ _) (State.land_popLanding_freeIx _ _ _ _ _), landingAddr_wakeQuad]
        exact State.bytes_putBytes _ _ _ hlen
      case frame =>
        rw [byte_congr (State.land_popLanding_mem _ _ _ _ _) hb, landingAddr_wakeQuad, ← byte_congr (s.wakeQuad_mem (quadOf p)) hb]
        exact State.byte_putBytes_outside _ _ _ _ hout
      case count => rw [State.land_popLanding_window, hpolders]
      case full =>
        have hslot : landingSlot (s.wakeQuad (quadOf p)) p l data =
            (4096 * landingBase s p l + l.offset.toNat + data.length - 1) / 4096 := by rw [landingSlot, landingBase_wakeQuad]
        rw [hend]
        exact State.land_popLanding_tag _ p l data hslot hn (by rw [hpolders]; exact htags)
      case unsignalled =>
        have hwindow : (s.wakeQuad (quadOf p)).polders[p].terp.windows[l.window].arrWeir = 0xFFFF := by rw [hpolders, hnone]
        obtain ⟨hweirs, hflight⟩ := State.land_popLanding_weirs (s.wakeQuad (quadOf p)) p l data slotEnd hwindow
        rw [hweirs, hflight, State.wakeQuad_weirs, State.wakeQuad_flight]
        exact ⟨rfl, rfl⟩
    case answers =>
      rw [remotePacketArrival_answers hon hport hok hop hgate, State.popLanding_head (l := l) (rest := rest) (by exact hwoken),
        State.bytes_congr (s.wakeQuad_mem _) (s.wakeQuad_freeIx _)]
      rfl
    case signals =>
      obtain ⟨x, hx⟩ := (s.wakeQuad (quadOf p)).weirSend_polder p p (landingBase s p l + l.offset.toNat / 4) (inc.setWidth 32)
      refine ⟨_, remotePacketArrival_signals hon hport hok hop, ?_, ?_, rfl, rfl⟩
      · rw [State.popLanding, State.onTerp_terp_self, hx, hwoken]
        rfl
      · rw [State.popLanding, State.onTerp_mem, State.weirSend_mem, State.wakeQuad_mem]

end Sys2Proof.Machine
end

section
/-! PROOFS. Wilvar ports: training and peers, the first hop of a route, the packets that arrive and the packet that an output sends (11
R262; 14 R321-R326). -/

namespace Sys2Proof.Machine

open Host (Outcome)

/-! ### A port changed -/

section
variable (s : State) (w : Fin 6) (g : Wlv → Wlv)

theorem State.onWlv_self : (s.onWlv w g).wlv[w] = g s.wlv[w] := Vector.getElem_set_self _

theorem State.onWlv_ne {v : Fin 6} (h : v ≠ w) : (s.onWlv w g).wlv[v] = s.wlv[v] :=
  Vector.getElem_set_ne w.isLt v.isLt (fun e => h (Fin.ext e.symm))

end

/-! ### Training, the peer and the wake pattern (14 R321, R322, R326) -/

/-- The width that a port trains at: 16, 8 or 4 lanes, or none (14 R321). -/
def trainedWidth (lanes : Nat) : BitVec 2 := if 16 ≤ lanes then 3 else if 8 ≤ lanes then 2 else if 4 ≤ lanes then 1 else 0

theorem trainedWidth_toNat (lanes : Nat) :
    (trainedWidth lanes).toNat = if 16 ≤ lanes then 3 else if 8 ≤ lanes then 2 else if 4 ≤ lanes then 1 else 0 := by
  simp only [trainedWidth, apply_ite BitVec.toNat]
  rfl

theorem trainedWidth_ne_zero (lanes : Nat) : (trainedWidth lanes != 0) = true ↔ 4 ≤ lanes := by
  unfold trainedWidth
  split_ifs
  · exact iff_of_true rfl (by omega)
  · exact iff_of_true rfl (by omega)
  · exact iff_of_true rfl (by omega)
  · exact iff_of_false Bool.false_ne_true (by omega)

/-- A port after its training. -/
def Wlv.trainedAt (lanes : Nat) (x : Wlv) : Wlv :=
  { x with trained := trainedWidth lanes != 0, width := trainedWidth lanes,
           wakeAt := if trainedWidth lanes = 0 then x.wakeAt else none }

/-- A step that changes the cadence or nothing changes the cadence at most. -/
theorem next_cad_of_ite (t : State) (b : Bool) (c : Cad) : ∃ d,
    (if b = true then .next { t with cad := c } else .next t : Outcome State Fault Refusal) = .next { t with cad := d } := by
  cases b with
  | true => exact ⟨c, rfl⟩
  | false => exact ⟨t.cad, rfl⟩

section
variable {s : State} {w : Fin 6} (hrun : s.running = true)
include hrun

/-- A port trains; a member without a parent may find one then (14 R329). -/
theorem wilvarTrain_trains (lanes : Nat) : ∃ c, exec (.wilvarTrain w lanes) s =
    .next { s.onWlv w (Wlv.trainedAt lanes) with cad := c } := by
  rw [exec_wilvarTrain, execWilvarTrain, hrun, if_neg (by decide)]
  exact next_cad_of_ite (s.onWlv w (Wlv.trainedAt lanes)) _ _

/-- A port that has learnt its peer, which the cabling rules predict or not (14 R322). -/
def Wlv.paired (coord : BitVec 12) (predicted : Bool) (x : Wlv) : Wlv :=
  { x with peer := coord, peerValid := true, miscabled := !predicted }

/-- After JOB_OPEN a port that is up learns its peer, and Herd hears of one that the rules do not predict. -/
theorem wilvarPeerExchange_learns {job : U64} {coord : BitVec 12} (hjob : s.pnx.job.isSome = true) (hup : s.wlv[w].trained = true)
    (huses : 1 < s.cad.extent (w.val / 2)) : ∃ r, exec (.wilvarPeerExchange w job coord) s = .next r ∧ r.mem = s.mem ∧
      r.wlv = (s.onWlv w (Wlv.paired coord (s.pnx.job == some job && coord == expectedPeer s.cad w))).wlv := by
  have hopen : s.pnx.job.isNone = false := by rw [← Option.not_isSome, hjob]; rfl
  have hport : s.portUp w = true := hup
  have hused : s.cad.uses w = true := decide_eq_true huses
  simp only [exec_wilvarPeerExchange, execWilvarPeerExchange, hrun, hopen, hport, hused, Bool.not_true, Bool.or_self, Bool.false_eq_true,
    if_false]
  refine ⟨_, rfl, ?_, ?_⟩
  · split
    · rfl
    · exact State.herdEvent_mem _ _ _
  · split
    · rfl
    · exact State.herdEvent_wlv _ _ _

theorem wilvarFlitReplay_counts (hup : s.wlv[w].trained = true) : exec (.wilvarFlitReplay w) s =
    .next (s.onWlv w (fun x => { x with replays := x.replays + 1 })) := by
  have hport : s.portUp w = true := hup
  simp only [exec_wilvarFlitReplay, execWilvarFlitReplay, hrun, hport, Bool.not_true, Bool.or_self, Bool.false_eq_true, if_false]

theorem wilvarPortDown_clears : exec (.wilvarPortDown w) s = .next (s.onWlv w (fun x => { x with trained := false, width := 0 })) := by
  rw [exec_wilvarPortDown, execWilvarPortDown, hrun, if_pos rfl]

theorem wakePatternRepeat_sends (hdown : s.wlv[w].trained = false)
    (hdue : s.wlv[w].wakeAt = none ∨ ∃ t, s.wlv[w].wakeAt = some t ∧ 100000 ≤ (s.tb - t).toNat) :
    exec (.wakePatternRepeat w) s = .next (s.onWlv w (fun x => { x with wakeAt := some s.tb })) := by
  rw [exec_wakePatternRepeat, execWakePatternRepeat]
  obtain hnone | ⟨t, hsome, hlong⟩ := hdue
  · simp only [hrun, hdown, hnone, Bool.not_true, Bool.or_self, Bool.false_eq_true, if_false]
  · simp only [hrun, hdown, hsome, hlong, decide_true, Bool.not_true, Bool.or_self, Bool.false_eq_true, if_false]

omit hrun in
theorem wakePatternRepeat_rests (h : s.wlv[w].trained = true ∨ ∃ t, s.wlv[w].wakeAt = some t ∧ (s.tb - t).toNat < 100000) :
    exec (.wakePatternRepeat w) s = .next s := by
  rw [exec_wakePatternRepeat, execWakePatternRepeat]
  obtain hup | ⟨t, hsome, hshort⟩ := h
  · simp only [hup, Bool.or_true, Bool.true_or, if_true]
  · simp only [hsome, decide_eq_false (Nat.not_le.mpr hshort), Bool.not_false, Bool.or_true, if_true]

end

/-! ### The first hop (14 R323) -/

/-- How far ahead a place lies in the plus direction of a ring. -/
def ringAhead (size src dst : Nat) : Nat := (dst + size - src % size) % size

/-- In one dimension a packet goes the shorter way round, plus on a tie, and not at all where it is there already. -/
theorem stepIn_eq_some {size src dst : Nat} {minus : Bool} : stepIn size src dst = some minus ↔
    ringAhead size src dst ≠ 0 ∧ (minus = false ↔ ringAhead size src dst ≤ size - ringAhead size src dst) := by
  have hstep : stepIn size src dst = if ringAhead size src dst = 0 then none
      else some (decide (size - ringAhead size src dst < ringAhead size src dst)) := rfl
  rw [hstep]
  split
  case isTrue h => simp only [reduceCtorEq, h, ne_eq, not_true_eq_false, false_and]
  case isFalse h =>
    rw [Option.some.injEq, ← Nat.not_lt]
    cases minus <;> simp [h]

theorem stepIn_eq_none {size src dst : Nat} : stepIn size src dst = none ↔ ringAhead size src dst = 0 := by
  rw [stepIn]
  exact ite_eq_left_iff.trans (by simp only [reduceCtorEq, imp_false, not_not, ringAhead])

/-- The first dimension, in order, in which a function gives a value. -/
theorem findSome?_range {α : Type} {f : Nat → Option α} {n : Nat} {a : α} (h : (List.range n).findSome? f = some a) :
    ∃ d < n, f d = some a ∧ ∀ e < d, f e = none := by
  induction n with
  | zero => exact absurd h (by simp)
  | succ n ih =>
    rw [List.range_succ, List.findSome?_append, Option.or_eq_some_iff] at h
    obtain h | ⟨hnone, h⟩ := h
    · obtain ⟨d, hd, hrest⟩ := ih h
      exact ⟨d, Nat.lt_succ_of_lt hd, hrest⟩
    · rw [List.findSome?_singleton] at h
      exact ⟨n, Nat.lt_succ_self n, h, fun e he => List.findSome?_eq_none_iff.mp hnone e (List.mem_range.mpr he)⟩

theorem dirPort_val {d : Nat} (hd : d < 3) (minus : Bool) : (dirPort d minus).val = 2 * d + if minus then 1 else 0 := by
  rw [dirPort, Fin.val_ofNat]
  cases minus <;> simp <;> omega

/-- The first hop of X, Y, Z: the dimension of its port is the first in which the packet is not there, and its direction the shorter. -/
theorem nextHop_spec {c : Cad} {dst : BitVec 12} {o : Fin 6} (h : nextHop c dst = some o) :
    ∃ d < 3, ∃ minus, o = dirPort d minus ∧ stepIn (c.extent d) (coordIn c.coord d) (coordIn dst d) = some minus ∧
      ∀ e < d, stepIn (c.extent e) (coordIn c.coord e) (coordIn dst e) = none := by
  have hfirst : (List.range 3).findSome? (fun d =>
      (stepIn (c.extent d) (coordIn c.coord d) (coordIn dst d)).map (dirPort d)) = some o := h
  obtain ⟨d, hd, hfound, hbefore⟩ := findSome?_range hfirst
  obtain ⟨minus, hstep, hport⟩ := Option.map_eq_some_iff.mp hfound
  exact ⟨d, hd, minus, hport.symm, hstep, fun e he => Option.map_eq_none_iff.mp (hbefore e he)⟩

/-! ### A packet that arrives (14 R323-R325) -/

/-- A packet that waits at the output `o` by the input `inp`: behind those of its virtual channel and input, and no other queue moves. -/
theorem State.queueAt_queues (s : State) (o : Fin 6) (inp : Fin 7) (k : WilvarPacket) (ch : Fin 4) (j : Fin 7) :
    ((s.queueAt o inp k).wlv[o].nets[ch]).queues[j] =
      if ch = wilvarChannel k ∧ j = inp then (s.wlv[o].nets[ch]).queues[j] ++ [(k, fabricCycles s.tb, false)]
      else (s.wlv[o].nets[ch]).queues[j] := by
  rw [State.queueAt, State.onWlv_self]
  by_cases hch : ch = wilvarChannel k
  · subst hch
    simp only [true_and, Fin.getElem_fin, Vector.getElem_set_self, Arbiter.join]
    by_cases hj : j = inp
    · subst hj
      rw [if_pos rfl, Vector.getElem_set_self]
    · rw [if_neg hj, Vector.getElem_set_ne _ _ (fun e => hj (Fin.ext e.symm))]
  · rw [if_neg (fun e => hch e.1)]
    simp only [Fin.getElem_fin, Vector.getElem_set_ne _ _ (fun e => hch (Fin.ext e.symm))]

/-- The landing port of the polder that a packet's offset names takes it last (11 R261, R263). -/
theorem State.deliver_landing (s : State) (k : WilvarPacket) {p : Pid} (hp : Fin.ofNat 32 (k.offset.toNat / 2 ^ 43) = p) :
    (s.deliver k).polders[p].terp.landing = s.polders[p].terp.landing ++ [{
      window := Fin.ofNat 4 (k.offset.toNat / 2 ^ 41), offset := k.offset.setWidth 41, op := k.op,
      sender := some (2 ^ 63 + k.source.toNat * 2 ^ 48), tag := k.tag }] := by
  have hsender : peerAddr k.source 0 = 2 ^ 63 + k.source.toNat * 2 ^ 48 := Nat.add_zero _
  subst hp
  rw [State.deliver, State.onTerp_terp_self, hsender]

theorem State.deliver_ne (s : State) (k : WilvarPacket) {q : Pid} (hq : q ≠ Fin.ofNat 32 (k.offset.toNat / 2 ^ 43)) :
    (s.deliver k).polders[q] = s.polders[q] := s.onPolder_polders_ne _ q _ hq

/-- A port that carries the job's traffic (14 R322). -/
structure Carries (s : State) (w : Fin 6) : Prop where
  running : s.running = true
  job : s.pnx.job.isSome = true
  trained : s.wlv[w].trained = true
  cabled : s.wlv[w].miscabled = false

section
variable {s : State} {w : Fin 6} {k : WilvarPacket} (hc : Carries s w)
include hc

theorem Carries.open_port : (!s.running || s.pnx.job.isNone || !s.portUp w || s.wlv[w].miscabled) = false := by
  rw [State.portUp, hc.running, hc.trained, hc.cabled, ← Option.not_isSome, hc.job]
  rfl

theorem wilvarPacketArrival_delivers (hdest : k.dest = s.cad.coord) (hnet : k.net = .request) :
    exec (.wilvarPacketArrival w k) s = .next ((s.onWlv w (fun x => { x with rx := x.rx + wilvarFlits k })).deliver k) := by
  simp only [exec_wilvarPacketArrival, execWilvarPacketArrival, hc.open_port, Bool.false_eq_true, if_false, hdest, if_true, hnet]

/-- The refusal of a packet of this module, one flit long, faults the instruction that sent it (11 R262). -/
theorem wilvarPacketArrival_refused {p : Pid} {pc info : U32} (hdest : k.dest = s.cad.coord) (hnet : k.net = .response)
    (hop : k.op = .refused p pc info) :
    exec (.wilvarPacketArrival w k) s = .next ((s.onWlv w (fun x => { x with rx := x.rx + 1 })).refusedBy p pc info) := by
  have hflits : wilvarFlits k = 1 := by rw [wilvarFlits, hop]
  simp only [exec_wilvarPacketArrival, execWilvarPacketArrival, hc.open_port, Bool.false_eq_true, if_false, hdest, if_true, hnet, hop,
    hflits]

/-- The packet as it leaves by the output `o`: on the dateline channel where it goes on along its ring there, or crosses the wrap. -/
def hopPacket (k : WilvarPacket) (c : Cad) (w o : Fin 6) : WilvarPacket :=
  { k with dateline := (o.val / 2 == w.val / 2 && k.dateline) || crossesWrap c o }

theorem wilvarPacketArrival_forwards {o : Fin 6} (hdest : k.dest ≠ s.cad.coord) (hhop : nextHop s.cad k.dest = some o)
    (hup : s.wlv[o].trained = true) (hcabled : s.wlv[o].miscabled = false) : exec (.wilvarPacketArrival w k) s =
      .next ((s.onWlv w (fun x => { x with rx := x.rx + wilvarFlits k })).queueAt o w.castSucc (hopPacket k s.cad w o)) := by
  have hport : s.portUp o = true := hup
  simp only [exec_wilvarPacketArrival, execWilvarPacketArrival, hc.open_port, Bool.false_eq_true, if_false, if_neg hdest, hhop, hport,
    hcabled, Bool.not_true, Bool.or_self]
  rfl

end

/-! ### The packet that an output sends (13 R291, R292; 14 R325) -/

/-- The sources that an input's last packet stands for, while its activity timer runs (13 R291). -/
def liveSources (now : Nat) : Option (BitVec 6 × Nat) → Nat
  | some (v, t) => if now < t then v.toNat else 0
  | none => 0

theorem sourcesOf_toNat (last : Vector (Option (BitVec 6 × Nat)) 7) (now : Nat) :
    (sourcesOf last now).toNat = min 63 (max 1 (((List.finRange 7).map (fun j => liveSources now last[j])).sum)) := by
  have hlist : last.toList = (List.finRange 7).map (fun j => last[j]) := by
    refine List.ext_getElem (by simp) fun i h1 h2 => ?_
    simp
  have hsum : sourcesOf last now = BitVec.ofNat 6 (min 63 (max 1 ((last.toList.map (liveSources now)).sum))) := rfl
  rw [hsum, BitVec.toNat_ofNat, Nat.mod_eq_of_lt (by omega), hlist, List.map_map]
  rfl

/-- An output after it has sent the packet at the head of the input `i` of the network `net`. -/
def Wlv.sent (x : Wlv) (now : Nat) (net : Fin 4) (i : Fin 7) (N : Arbiter WilvarPacket) (k : WilvarPacket)
    (rest : List (WilvarPacket × Nat × Bool)) : Wlv :=
  { x with last := x.last.set i (some (k.wsrc, now + 1024)), nets := x.nets.set net (N.sendHead i rest (wilvarCost k)), lastNet := net }

section
variable {x : Wlv} {now t : Nat} {net : Fin 4} {i : Fin 7} {N : Arbiter WilvarPacket} {k : WilvarPacket} {b : Bool}
  {rest : List (WilvarPacket × Nat × Bool)}

theorem Wlv.send_eq (hpick : pickSender (fun k => k.wsrc.toNat) wilvarCost (x.nets[net].promote now) = some (i, N))
    (hhead : N.queues[i] = (k, t, b) :: rest) : x.send now net =
      some ({ k with wsrc := sourcesOf (x.last.set i (some (k.wsrc, now + 1024))) now }, i, x.sent now net i N k rest) := by
  simp only [Wlv.send, hpick, hhead]
  rfl

theorem Wlv.sent_queue : ((x.sent now net i N k rest).nets[net]).queues[i] = rest := by
  simp only [Wlv.sent, Arbiter.sendHead, Fin.getElem_fin, Vector.getElem_set_self]

/-- The sources merged into the stream: those of the packet itself at its input, and what the others' last packets stand for. -/
theorem sourcesOf_sent (last : Vector (Option (BitVec 6 × Nat)) 7) :
    (sourcesOf (last.set i (some (k.wsrc, now + 1024))) now).toNat =
      min 63 (max 1 (((List.finRange 7).map (fun j => if j = i then k.wsrc.toNat else liveSources now last[j])).sum)) := by
  rw [sourcesOf_toNat]
  refine congrArg (fun n => min 63 (max 1 n)) (congrArg List.sum (List.map_congr_left fun j _ => ?_))
  split
  case isTrue h =>
    subst h
    simp only [Fin.getElem_fin, Vector.getElem_set_self, liveSources]
    exact if_pos (by omega)
  case isFalse h => simp only [Fin.getElem_fin, Vector.getElem_set_ne _ _ (fun e => h (Fin.ext e.symm))]

end

theorem State.portSend_silent {s : State} {w : Fin 6} (h : s.wlv[w].trained = false ∨ s.wlv[w].miscabled = true) : s.portSend w = s := by
  obtain h | h := h
  · simp only [State.portSend, h, Bool.not_false, Bool.true_or, if_true]
  · simp only [State.portSend, h, Bool.or_true, if_true]

/-- The virtual channel after the last one has its turn first, and where it has a packet to send the packet leaves. -/
theorem State.portSend_sends {s : State} {w : Fin 6} {k : WilvarPacket} {i : Fin 7} {y : Wlv} (hup : s.wlv[w].trained = true)
    (hcabled : s.wlv[w].miscabled = false) (hsend : s.wlv[w].send (fabricCycles s.tb) (s.wlv[w].lastNet + 1) = some (k, i, y)) :
    s.portSend w = { s with
      wlv := s.wlv.set w { y with tx := y.tx + wilvarFlits k, forwarded := if i = 6 then y.forwarded else y.forwarded + 1 },
      wlvOut := s.wlvOut ++ [(w, k)] } := by
  simp only [State.portSend, hup, hcabled, Bool.not_true, Bool.or_self, Bool.false_eq_true, if_false, List.findSome?_cons, hsend]

/-- Settles O43: what each event at a port makes of it, the packets that arrive by where they go, the packet that the turn picks, and
the first dimension in which a route is not done. -/
theorem wilvarPorts : Obligations.WilvarPorts := by
  unfold Obligations.WilvarPorts
  intro s w hrun
  refine ⟨fun lanes => ?train, fun job coord hjob hup huses => ?learns, wilvarFlitReplay_counts hrun, wakePatternRepeat_sends hrun,
    wakePatternRepeat_rests, wilvarPortDown_clears hrun, fun k hjob hup hcabled => ?arrives, ⟨State.portSend_silent,
      fun i N k t b rest hup hcabled hpick hhead => ?sends⟩, fun dst o hhop => ?hop⟩
  case train =>
    obtain ⟨c, hexec⟩ := wilvarTrain_trains (w := w) hrun lanes
    have hport : ({ s.onWlv w (Wlv.trainedAt lanes) with cad := c } : State).wlv[w] = s.wlv[w].trainedAt lanes := s.onWlv_self w _
    refine ⟨_, hexec, fun v hv => s.onWlv_ne w _ hv, rfl, ?_, ?_⟩
    · rw [hport]
      exact trainedWidth_toNat lanes
    · rw [hport]
      exact trainedWidth_ne_zero lanes
  case learns =>
    obtain ⟨r, hexec, hmem, hwlv⟩ := wilvarPeerExchange_learns (job := job) (coord := coord) hrun hjob hup huses
    have hport : r.wlv[w] = s.wlv[w].paired coord (s.pnx.job == some job && coord == expectedPeer s.cad w) := by
      rw [hwlv, State.onWlv_self]
    refine ⟨r, hexec, ?_, ?_, ?_, fun v hv => by rw [hwlv, State.onWlv_ne _ _ _ hv], hmem⟩
    · rw [hport]
      rfl
    · rw [hport]
      rfl
    · rw [hport, Wlv.paired, Bool.not_eq_true', Bool.and_eq_false_iff, beq_eq_false_iff_ne, beq_eq_false_iff_ne]
  case arrives =>
    have hc : Carries s w := ⟨hrun, hjob, hup, hcabled⟩
    refine ⟨fun hdest hnet => ?delivered, fun o hdest hhop hout hclear => ?forwarded, fun p pc info hdest hnet hop =>
      wilvarPacketArrival_refused hc hdest hnet hop⟩
    case delivered =>
      exact ⟨_, wilvarPacketArrival_delivers hc hdest hnet, State.deliver_landing _ k rfl, fun y hy => State.deliver_ne _ k hy, rfl,
        rfl⟩
    case forwarded =>
      have hnets : (s.onWlv w (fun x => { x with rx := x.rx + wilvarFlits k })).wlv[o].nets = s.wlv[o].nets := by
        by_cases ho : o = w
        · rw [ho, State.onWlv_self]
        · rw [State.onWlv_ne _ _ _ ho]
      refine ⟨_, hopPacket k s.cad w o, wilvarPacketArrival_forwards hc hdest hhop hout hclear, rfl, ?_, ?_, fun ch j hne => ?_, rfl, rfl,
        rfl⟩
      · rw [hopPacket, Bool.or_eq_true, Bool.and_eq_true, beq_iff_eq]
      · rw [State.queueAt_queues, if_pos ⟨rfl, rfl⟩, hnets, State.onWlv_tb]
      · rw [State.queueAt_queues, if_neg (fun e => hne.elim (· e.1) (· e.2)), hnets]
  case sends =>
    have hsent := State.portSend_sends hup hcabled (Wlv.send_eq hpick hhead)
    have hport : (s.portSend w).wlv[w] = { s.wlv[w].sent (fabricCycles s.tb) (s.wlv[w].lastNet + 1) i N k rest with
        tx := s.wlv[w].tx + wilvarFlits k,
        forwarded := if i = 6 then s.wlv[w].forwarded else s.wlv[w].forwarded + 1 } := by
      rw [hsent]
      exact Vector.getElem_set_self _
    refine ⟨_, congrArg State.wlvOut hsent, rfl, ?_, ?_, ?_, ?_, ?_, fun v hv => ?_, by rw [hsent]⟩
    · rw [sourcesOf_sent]
      refine congrArg (fun n => min 63 (max 1 n)) (congrArg List.sum (List.map_congr_left fun j _ => if_congr Iff.rfl rfl ?_))
      cases s.wlv[w].last[j] <;> rfl
    · rw [hport]
      exact Wlv.sent_queue (now := fabricCycles s.tb)
    · rw [hport]
    · rw [hport]
    · rw [hport]
      rfl
    · rw [hsent]
      exact Vector.getElem_set_ne w.isLt v.isLt (fun e => hv (Fin.ext e.symm))
  case hop =>
    obtain ⟨d, hd, minus, rfl, hstep, hbefore⟩ := nextHop_spec hhop
    have hport := dirPort_val hd minus
    have hdim : (dirPort d minus).val / 2 = d := by rw [hport]; split <;> omega
    have hsign : (dirPort d minus).val % 2 = 0 ↔ minus = false := by rw [hport]; cases minus <;> simp
    obtain ⟨haway, hshorter⟩ := stepIn_eq_some.mp hstep
    rw [hdim]
    exact ⟨haway, hsign.trans hshorter, fun e he => stepIn_eq_none.mp (hbefore e he)⟩

end Sys2Proof.Machine
end
section
/-! PROOFS. What no command undoes (the queue, the fuses, the memory's form), kept by the operations of the model. -/

namespace Sys2Proof.Machine
open Host (Outcome)
/-- What no command undoes: the queue of waiting commands stands, the fuses move one way (17 R413, R420), and a memory in its
  canonical
form stays in it (log entry 1). -/
structure Keeps (s₀ s : State) : Prop where
  pending : s.pending = s₀.pending
  fuses : s₀.sec.fuseCtr.toNat ≤ s.sec.fuseCtr.toNat
  lock : s₀.sec.debugLock = true → s.sec.debugLock = true
  memory : Memory.wf s₀.mem = true → Memory.wf s.mem = true

/-- A command answers a next state that keeps all this. -/
def Completes (s₀ : State) (o : Outcome State Fault Refusal) : Prop := ∃ t, o = .next t ∧ Keeps s₀ t

/-- What a stop leaves: the states that it carries keep all this. -/
def Stop.Leaves (s₀ : State) : Stop → Prop
  | .fault _ _ => True
  | .late s _ _ => Keeps s₀ s
  | .blocked _ _ _ => True
  | .held s => Keeps s₀ s

/-- A result that meets `P`, or a stop whose state keeps all this. -/
def Yields {α : Type} (s₀ : State) (P : α → Prop) : Res α → Prop
  | .ok a => P a
  | .error e => e.Leaves s₀

variable {s₀ s t : State}

theorem Keeps.refl (s : State) : Keeps s s := ⟨rfl, Nat.le_refl _, id, id⟩

/-- A change of anything but the queue, the fuses and the memory. -/
theorem Keeps.same {freeIx reply tb polders weirs flight notices watches ccWeir transfers nextId sent handed claimedRegions
  claimedWeirs
    holdWaits timers disc res routers msc mc pnx wlv wlvOut cad herd pm gander integ ckpt flash mgt svn calOrigin granted
    recovery unconfirmed slotB nonce rights measured offsets savedMeas} (h : Keeps s₀ s) :
    Keeps s₀ { s with
      freeIx, reply, tb, polders, weirs, flight, notices, watches, ccWeir, transfers, nextId, sent, handed, claimedRegions,
      claimedWeirs, holdWaits, timers, disc, res, routers, msc, mc, pnx, wlv, wlvOut, cad, herd, pm, gander, integ, ckpt,
      flash, mgt,
      sec := { s.sec with svn, calOrigin, granted, recovery, unconfirmed, slotB, nonce, rights, measured, offsets, savedMeas
        } } :=
  ⟨h.pending, h.fuses, h.lock, h.memory⟩

theorem Keeps.ite {c : Prop} {_ : Decidable c} (ha : Keeps s₀ s) (hb : Keeps s₀ t) : Keeps s₀ (if c then s else t) := by
  split
  · exact ha
  · exact hb

theorem Keeps.foldl {α : Type} {f : State → α → State} (h : Keeps s₀ s) (hf : ∀ s x, Keeps s₀ s → Keeps s₀ (f s x)) (l : List α) :
    Keeps s₀ (l.foldl f s) := by
  induction l generalizing s with
  | nil => exact h
  | cons x l ih => exact ih (hf s x h)

theorem Keeps.foldlFst {α β : Type} {f : State × β → α → State × β} {b : β} (h : Keeps s₀ s)
    (hf : ∀ x y, Keeps s₀ x.1 → Keeps s₀ (f x y).1) (l : List α) : Keeps s₀ (l.foldl f (s, b)).1 := by
  suffices ∀ x : State × β, Keeps s₀ x.1 → Keeps s₀ (l.foldl f x).1 from this (s, b) h
  induction l with
  | nil => exact fun _ h => h
  | cons y l ih => exact fun x hx => ih (f x y) (hf x y hx)

theorem Keeps.next (h : Keeps s₀ s) : Completes s₀ (.next s) := ⟨s, rfl, h⟩

theorem Keeps.putBytes (h : Keeps s₀ s) (a xs) : Keeps s₀ (s.putBytes a xs) :=
  ⟨(s.putBytes_pending a xs).trans h.pending, by rw [State.putBytes_sec]; exact h.fuses, by rw [State.putBytes_sec]; exact h.lock,
    fun hm => State.putBytes_wf (h.memory hm) a xs⟩

theorem Keeps.wakeBank (h : Keeps s₀ s) (p b) : Keeps s₀ (s.wakeBank p b) := h.same

theorem Keeps.gate (h : Keeps s₀ s) (write l) : Yields s₀ (fun _ => True) (gate s write l) := by
  induction l with
  | nil => exact trivial
  | cons x l ih =>
    unfold Machine.gate
    dsimp only
    split
    · exact h
    · split
      · exact h.wakeBank _ _
      · split
        · exact trivial
        · exact ih

theorem Keeps.gateBusy (h : Keeps s₀ s) (l) : Yields s₀ (fun _ => True) (gateBusy s l) := by
  induction l with
  | nil => exact trivial
  | cons x l ih =>
    unfold Machine.gateBusy
    dsimp only
    split
    · exact h
    · split
      · exact h.wakeBank _ _
      · exact ih

theorem Keeps.putByte (h : Keeps s₀ s) (a b) : Keeps s₀ (s.putByte a b) :=
  ⟨(s.putByte_pending a b).trans h.pending, by rw [State.putByte_sec]; exact h.fuses, by rw [State.putByte_sec]; exact h.lock,
    fun hm => State.putByte_wf (h.memory hm) a b⟩

theorem Keeps.storeBytes (h : Keeps s₀ s) (a xs) : Keeps s₀ (s.storeBytes a xs) := by
  induction xs generalizing s a with
  | nil => exact h
  | cons x xs ih => exact ih (h.putByte a x) _

theorem Keeps.markEnds (h : Keeps s₀ s) (n) : Keeps s₀ (s.markEnds n) :=
  h.same

theorem Keeps.onPolder (h : Keeps s₀ s) (p g) : Keeps s₀ (s.onPolder p g) :=
  h.same

theorem Keeps.onTask (h : Keeps s₀ s) (p g) : Keeps s₀ (s.onTask p g) :=
  h.onPolder _ _

theorem Keeps.onTerp (h : Keeps s₀ s) (p g) : Keeps s₀ (s.onTerp p g) :=
  h.onPolder _ _

theorem Keeps.setTag (h : Keeps s₀ s) (p slot full) : Keeps s₀ (s.setTag p slot full) :=
  h.onTerp _ _

theorem Keeps.slotEnd (h : Keeps s₀ s) (p n) : Keeps s₀ (s.slotEnd p n) :=
  Keeps.ite ((h.setTag _ _ _).onTerp _ _) h

theorem Keeps.slotEnds (h : Keeps s₀ s) (l) : Keeps s₀ (s.slotEnds l) := by
  induction l generalizing s with
  | nil => exact h
  | cons x l ih => exact ih (h.slotEnd x.1 x.2)

theorem Keeps.putWeir (h : Keeps s₀ s) (w x) : Keeps s₀ (s.putWeir w x) :=
  h.same

theorem Keeps.countSignal (h : Keeps s₀ s) (w) : Keeps s₀ (s.countSignal w) := by
  unfold State.countSignal
  split
  · exact h.onPolder _ _
  · exact h.same

theorem Keeps.weirAdd (h : Keeps s₀ s) (w inc) : Keeps s₀ (s.weirAdd w inc) :=
  Keeps.ite ((h.countSignal _).putWeir _ _) h

theorem Keeps.weirSend (h : Keeps s₀ s) (p w inc) : Keeps s₀ (s.weirSend p w inc) :=
  Keeps.ite (h.weirAdd _ _) h.same

theorem Keeps.complete (h : Keeps s₀ s) (l record) : Keeps s₀ (s.complete l record) := by
  unfold State.complete
  split
  · exact h.putBytes _ _
  · exact h

theorem Keeps.owe (h : Keeps s₀ s) (p a record) : Keeps s₀ (s.owe p a record) :=
  h.onPolder _ _

theorem Keeps.completeSoon (h : Keeps s₀ s) (p l record) : Keeps s₀ (s.completeSoon p l record) := by
  unfold State.completeSoon
  split
  · exact h
  · have hg := h.gate true (compSlots l)
    split
    · exact h.putBytes _ _
    · rename_i he
      rw [he] at hg
      exact Keeps.owe hg _ _ _
    · exact h.owe _ _ _

theorem Keeps.payRecord (h : Keeps s₀ s) (p) : Keeps s₀ (s.payRecord p) := by
  unfold State.payRecord
  split
  · exact h
  · rename_i a r rest _
    have hg := h.gate true (slotsOf [(a, 32)])
    split
    · exact (h.putBytes _ _).onPolder _ _
    · rename_i he
      rw [he] at hg
      exact hg
    · exact h

theorem Keeps.discardArray (h : Keeps s₀ s) (p) : Keeps s₀ (s.discardArray p) :=
  h.onPolder _ _

theorem Keeps.freeEntry (h : Keeps s₀ s) (e o) : Keeps s₀ (s.freeEntry e o) :=
  h.same

theorem Keeps.dropTask (h : Keeps s₀ s) (p) : Keeps s₀ (s.dropTask p) := h.same

theorem Keeps.taskFaultAt (h : Keeps s₀ s) (p pc code info) : Keeps s₀ (s.taskFaultAt p pc code info) := by
  unfold State.taskFaultAt
  split
  · exact h
  · exact (((h.same.discardArray _).onPolder _ _).completeSoon _ _ _).dropTask _

theorem Keeps.taskFault (h : Keeps s₀ s) (p code info) : Keeps s₀ (s.taskFault p code info) := by
  unfold State.taskFault
  split
  · exact h
  · exact h.taskFaultAt _ _ _ _

theorem Keeps.wakeQuad (h : Keeps s₀ s) (q) : Keeps s₀ (s.wakeQuad q) :=
  Keeps.ite h h.same

theorem Keeps.wakeSlots (h : Keeps s₀ s) (l) : Keeps s₀ (s.wakeSlots l) := by
  induction l generalizing s with
  | nil => exact h
  | cons x l ih => exact ih (h.wakeQuad _)

theorem Keeps.startRollback (h : Keeps s₀ s) (c) : Keeps s₀ (s.startRollback c) :=
  h.same

theorem Keeps.onSite (h : Keeps s₀ s) (n g) : Keeps s₀ (s.onSite n g) :=
  h.same

theorem Keeps.planSite (h : Keeps s₀ s) (n) : Keeps s₀ (s.planSite n) :=
  Keeps.ite h h.same

theorem Keeps.hardFail (h : Keeps s₀ s) (p) : Keeps s₀ (s.hardFail p) :=
  h.same.startRollback _

theorem Keeps.countReplay (h : Keeps s₀ s) (p) : Keeps s₀ (s.countReplay p) :=
  Keeps.ite ((h.onSite _ _).planSite _) (h.onSite _ _)

theorem Keeps.taskReplay (h : Keeps s₀ s) (p) : Keeps s₀ (s.taskReplay p) :=
  (h.countReplay _).onTask _ _

theorem Keeps.reissue (h : Keeps s₀ s) (p n) : Keeps s₀ (s.reissue p n) := by
  induction n generalizing s with
  | zero => exact h
  | succ n ih => exact ih (h.taskReplay p)

theorem Keeps.blockOn (h : Keeps s₀ s) (p q n full) : Keeps s₀ (s.blockOn p q n full) :=
  h.onTask _ _

theorem Keeps.setPc (h : Keeps s₀ s) (p pc) : Keeps s₀ (s.setPc p pc) :=
  h.onTask _ _

theorem Keeps.onOut (h : Keeps s₀ s) (n o g) : Keeps s₀ (s.onOut n o g) :=
  h.same

theorem Keeps.onNet (h : Keeps s₀ s) (n o net g) : Keeps s₀ (s.onNet n o net g) :=
  h.onOut _ _ _

theorem Keeps.packetArrives (h : Keeps s₀ s) (n at_ inp k) : Keeps s₀ (s.packetArrives n at_ inp k) := by
  unfold State.packetArrives
  split
  · exact h
  · split
    · exact h
    · exact h.onNet _ _ _ _

theorem Keeps.packetEnters (h : Keeps s₀ s) (n at_ inp k) : Keeps s₀ (s.packetEnters n at_ inp k) :=
  Keeps.ite h (h.packetArrives _ _ _ _)

theorem Keeps.startPacket (h : Keeps s₀ s) (n o now net) : Keeps s₀ (s.startPacket n o now net) := by
  unfold State.startPacket
  dsimp only
  split
  · exact h
  · split
    · exact h
    · split
      · exact h
      · exact Keeps.ite h (h.onOut _ _ _)

theorem Keeps.packetLeaves (h : Keeps s₀ s) (n o t' k) : Keeps s₀ (s.packetLeaves n o t' k) := by
  unfold State.packetLeaves
  dsimp only
  split
  · exact h.same.packetArrives _ _ _ _
  · exact Keeps.ite ((Keeps.ite h.same (h.same.onOut _ _ _)).packetEnters _ _ _ _) (Keeps.ite h.same (h.same.onOut _ _ _))

theorem Keeps.eeFlags (h : Keeps s₀ s) (p sat narrow) : Keeps s₀ (s.eeFlags p sat narrow) :=
  h.onPolder _ _

theorem Keeps.ocFlags (h : Keeps s₀ s) (p sat narrow) : Keeps s₀ (s.ocFlags p sat narrow) :=
  h.onPolder _ _

theorem Keeps.qzFlag (h : Keeps s₀ s) (p bit on) : Keeps s₀ (s.qzFlag p bit on) :=
  h.onPolder _ _

theorem Keeps.bpeFlag (h : Keeps s₀ s) (p bit on) : Keeps s₀ (s.bpeFlag p bit on) :=
  h.onPolder _ _

theorem Keeps.logFlag (h : Keeps s₀ s) (p bit on) : Keeps s₀ (s.logFlag p bit on) :=
  h.onPolder _ _

theorem Keeps.ruFlag (h : Keeps s₀ s) (p bit on) : Keeps s₀ (s.ruFlag p bit on) :=
  h.onPolder _ _

theorem Keeps.spwFlag (h : Keeps s₀ s) (p bit on) : Keeps s₀ (s.spwFlag p bit on) :=
  h.onPolder _ _

theorem Keeps.terpFlag (h : Keeps s₀ s) (p bit on) : Keeps s₀ (s.terpFlag p bit on) :=
  h.onTerp _ _

theorem Keeps.onMc (h : Keeps s₀ s) (m g) : Keeps s₀ (s.onMc m g) :=
  h.same

theorem Keeps.onMsc (h : Keeps s₀ s) (k g) : Keeps s₀ (s.onMsc k g) :=
  h.same

theorem Keeps.lineLost (h : Keeps s₀ s) (a) : Keeps s₀ (s.lineLost a).1 := by
  unfold State.lineLost
  dsimp only
  split
  · exact (h.putBytes _ _).same
  · exact h.startRollback _

theorem Keeps.readLine (h : Keeps s₀ s) (m l e) : Keeps s₀ (s.readLine m l e).1 := by
  unfold State.readLine
  extract_lets c half dead s1 y t1 t2 s2
  have h1 : Keeps s₀ s1 := h.onMc _ _
  split
  · exact h1
  · dsimp only
    exact h1.onMc _ _
  · have h2 : Keeps s₀ t2 := Keeps.same (s := t1) (h1.onMc _ _)
    split
    · exact h2.putBytes _ _
    · exact h2
  · have h2 : Keeps s₀ s2 := h1.onMc _ _
    split
    · exact h2.lineLost _
    · exact h2

theorem Keeps.mscServe (h : Keeps s₀ s) (x) (hs : s.mscServe x = some t) : Keeps s₀ t := by
  unfold State.mscServe at hs
  dsimp only at hs
  generalize locate x.addr.toNat = ml at hs
  obtain ⟨m, l⟩ := ml
  dsimp only at hs
  have hread : ∀ (k : Fin 4) (fetch : Bool),
      Keeps s₀ (if fetch then (s.onMsc k (fun c => { c with misses := c.misses + 1 })).readLine m l x.errs
        else (s.onMsc k (fun c => { c with misses := c.misses + 1 }), true)).1 := by
    intro k fetch
    split
    · exact (h.onMsc k _).readLine m l x.errs
    · dsimp only
      exact h.onMsc k _
  rcases ite_eq_iff.mp hs with ⟨_, hs⟩ | ⟨_, hs⟩
  · exact Option.some.inj hs ▸ h
  rcases ite_eq_iff.mp hs with ⟨_, hs⟩ | ⟨_, hs⟩
  · exact Option.some.inj hs ▸ h.onMsc _ _
  rcases ite_eq_iff.mp hs with ⟨_, hs⟩ | ⟨_, hs⟩
  · cases hs
  specialize hread (Fin.ofNat 4 (m.val / 2)) (decide (x.kind ≠ .writeWhole))
  rcases ite_eq_iff.mp hs with ⟨_, hs⟩ | ⟨_, hs⟩
  · exact Option.some.inj hs ▸ hread
  split at hs
  · exact Option.some.inj hs ▸ hread.onMsc _ _
  · rcases ite_eq_iff.mp hs with ⟨_, hs⟩ | ⟨_, hs⟩
    · exact Option.some.inj hs ▸ hread
    · exact Option.some.inj hs ▸ hread.onMsc _ _

theorem Keeps.mscAll (h : Keeps s₀ s) (waiting l) : Keeps s₀ (s.mscAll waiting l) := by
  induction l generalizing s waiting with
  | nil => exact h
  | cons x l ih =>
    unfold State.mscAll
    dsimp only
    split
    · exact ih h _
    · split
      · rename_i hs
        exact ih (h.mscServe x hs) _
      · exact ih h _

theorem Keeps.mscFlush (h : Keeps s₀ s) (k) : Keeps s₀ (s.mscFlush k) :=
  h.onMsc _ _

theorem Keeps.watch (h : Keeps s₀ s) (p w t') : Keeps s₀ (s.watch p w t') :=
  Keeps.ite h h.same

theorem Keeps.waitDone (h : Keeps s₀ s) (p) : Keeps s₀ (s.waitDone p) := h.same

theorem Keeps.weirAddReg (h : Keeps s₀ s) (w v) : Keeps s₀ (s.weirAddReg w v) :=
  h.weirAdd _ _

theorem Keeps.weirSetReg (h : Keeps s₀ s) (w v) : Keeps s₀ (s.weirSetReg w v) :=
  (h.countSignal _).putWeir _ _

theorem Keeps.weirThreshReg (h : Keeps s₀ s) (w v) : Keeps s₀ (s.weirThreshReg w v) :=
  h.putWeir _ _

theorem Keeps.weirCtlReg (h : Keeps s₀ s) (w v) : Keeps s₀ (s.weirCtlReg w v) :=
  h.same

theorem Keeps.sendFrame (h : Keeps s₀ s) (type cls tag payload) : Keeps s₀ (s.sendFrame type cls tag payload) :=
  h.same

theorem Keeps.herdEvent (h : Keeps s₀ s) (code payload) : Keeps s₀ (s.herdEvent code payload) :=
  Keeps.ite (Keeps.ite h.same h.same) (Keeps.ite h.same h.same)

theorem Keeps.flood (h : Keeps s₀ s) (a except) : Keeps s₀ (s.flood a except) :=
  h.same

theorem Keeps.holdAnnounce (h : Keeps s₀ s) (a) : Keeps s₀ (s.holdAnnounce a) := by
  obtain ⟨c, hc⟩ := State.holdAnnounce_only s a
  rw [hc]
  exact h.same

theorem Keeps.announce (h : Keeps s₀ s) (kind point) : Keeps s₀ (s.announce kind point) :=
  Keeps.ite (h.same.flood _ _) ((h.same.flood _ _).holdAnnounce _)

theorem Keeps.haltFrom (h : Keeps s₀ s) (o) : Keeps s₀ (s.haltFrom o) :=
  h.same

theorem Keeps.resumeFrom (h : Keeps s₀ s) (o) : Keeps s₀ (s.resumeFrom o) :=
  Keeps.ite h.same.same h.same

theorem Keeps.refreshCap (h : Keeps s₀ s) : Keeps s₀ (s.refreshCap) := by
  unfold State.refreshCap
  dsimp only
  split
  · split
    · exact Keeps.ite h (h.same.announce _ _)
    · exact Keeps.ite h (h.same.announce _ _)
  · exact Keeps.ite h (h.same.announce _ _)

theorem Keeps.setPoint (h : Keeps s₀ s) (p) : Keeps s₀ (s.setPoint p) :=
  h.same

theorem Keeps.frameIn (h : Keeps s₀ s) : Keeps s₀ (s.frameIn) :=
  h.same

theorem Keeps.ackOn (h : Keeps s₀ s) (lane seq status) : Keeps s₀ (s.ackOn lane seq status) :=
  h.same

theorem Keeps.frameDropped (h : Keeps s₀ s) (f) : Keeps s₀ (s.frameDropped f) :=
  Keeps.ite h.frameIn (Keeps.ite h h.same)

theorem Keeps.respond (h : Keeps s₀ s) (f status rest) : Keeps s₀ (s.respond f status rest) :=
  Keeps.ite (h.sendFrame 4 f.cls f.tag (status :: rest)).same (h.sendFrame _ _ _ _)

theorem Keeps.skipReserved (h : Keeps s₀ s) (n) : Keeps s₀ (skipReserved n s) := by
  induction n generalizing s with
  | zero => exact h
  | succ n ih =>
    unfold Machine.skipReserved
    split
    · rename_i f rest _
      exact Keeps.ite (ih (Keeps.respond (s := { s with pnx := { s.pnx with cmds := rest } }) h.same f 2 [])) h
    · exact h

theorem Keeps.resendFrom (h : Keeps s₀ s) (i lane) : Keeps s₀ (s.resendFrom i lane) :=
  h.same

theorem Keeps.pump (h : Keeps s₀ s) (n) : Keeps s₀ (pump n s) := by
  induction n generalizing s with
  | zero => exact h
  | succ n ih =>
    unfold Machine.pump
    dsimp only
    split
    · exact h
    · exact Keeps.ite h (Keeps.ite h (ih h.same))

theorem Keeps.pumpAll (h : Keeps s₀ s) : Keeps s₀ (s.pumpAll) := by
  unfold State.pumpAll
  split
  · exact h
  · exact Keeps.ite h (h.pump _)

theorem Keeps.sendWrite (h : Keeps s₀ s) (v) : Keeps s₀ (s.sendWrite v) := by
  unfold State.sendWrite
  extract_lets q id
  refine Keeps.ite h.same (Keeps.ite h.same ?_)
  split
  · exact h.same
  · exact Keeps.ite h.same (Keeps.pumpAll h.same)

theorem Keeps.creditBack (h : Keeps s₀ s) (type n) : Keeps s₀ (s.creditBack type n) :=
  h.same.pumpAll

theorem Keeps.replayFrom (h : Keeps s₀ s) (lseq) : Keeps s₀ (s.replayFrom lseq) :=
  h.same

theorem Keeps.onWlv (h : Keeps s₀ s) (w g) : Keeps s₀ (s.onWlv w g) :=
  h.same

theorem Keeps.queueAt (h : Keeps s₀ s) (o inp k) : Keeps s₀ (s.queueAt o inp k) :=
  h.onWlv _ _

theorem Keeps.portSend (h : Keeps s₀ s) (o) : Keeps s₀ (s.portSend o) := by
  unfold State.portSend
  dsimp only
  split
  · exact h
  · split
    · exact h
    · exact h.same

theorem Keeps.deliver (h : Keeps s₀ s) (k) : Keeps s₀ (s.deliver k) := h.same

theorem Keeps.ownPacket (h : Keeps s₀ s) (x) : Keeps s₀ (s.ownPacket x) := by
  unfold State.ownPacket
  dsimp only
  split
  · exact h.queueAt _ _ _
  · exact h.deliver _

theorem Keeps.wilvarTurn (h : Keeps s₀ s) : Keeps s₀ s.wilvarTurn := by
  unfold State.wilvarTurn
  have hown := h.foldl (fun _ x h => Keeps.ownPacket h x) (s.sent.drop s.handed)
  exact Keeps.ite h ((Keeps.same hown).foldl (fun _ o h => h.portSend o) _)

theorem Keeps.refusedBy (h : Keeps s₀ s) (p pc info) : Keeps s₀ (s.refusedBy p pc info) :=
  h.same.taskFaultAt _ _ _ _

theorem Keeps.stepTimebase (h : Keeps s₀ s) (t') : Keeps s₀ (s.stepTimebase t') :=
  h.same

theorem Keeps.onPhase (h : Keeps s₀ s) (g k f) : Keeps s₀ (s.onPhase g k f) :=
  h.same

theorem Keeps.learn (h : Keeps s₀ s) (point) : Keeps s₀ (s.learn point) := by
  unfold State.learn
  extract_lets pairs
  refine Keeps.ite h ?_
  split
  · exact h
  · split
    · exact h
    · exact Keeps.ite h (h.onPhase _ _ _)

theorem Keeps.target (h : Keeps s₀ s) : Keeps s₀ (s.target) := by
  unfold State.target
  split
  · exact h
  · split
    · exact h
    · exact Keeps.ite h (h.announce _ _)

theorem Keeps.noteSluice (h : Keeps s₀ s) : Keeps s₀ s.noteSluice := by
  refine h.foldl (fun s g h => Keeps.ite h ?_) _
  split
  · exact h
  · exact h.onPhase _ _ _

theorem Keeps.closeWindow (h : Keeps s₀ s) (r next) : Keeps s₀ (s.closeWindow r next) :=
  h.same

theorem Keeps.enter (h : Keeps s₀ s) (goal) : Keeps s₀ (s.enter goal) := by
  unfold State.enter
  extract_lets pm gander s1 s2 sec
  have h1 : Keeps s₀ s1 := h.same
  have h2 : Keeps s₀ s2 := h1.foldl (fun _ k h => h.mscFlush k) _
  exact Keeps.ite h2.same h1

theorem Keeps.request (h : Keeps s₀ s) (goal) : Keeps s₀ (s.request goal) :=
  Keeps.ite h (Keeps.ite h.same (h.enter _))

theorem Keeps.wakeSource (h : Keeps s₀ s) (bits) : Keeps s₀ (s.wakeSource bits) :=
  Keeps.ite h h.same

theorem Keeps.trip (h : Keeps s₀ s) : Keeps s₀ (s.trip) :=
  Keeps.ite h ((h.same.announce _ _).haltFrom _)

theorem Keeps.preAlarm (h : Keeps s₀ s) : Keeps s₀ (s.preAlarm) :=
  h.same.refreshCap

theorem Keeps.preAlarmClears (h : Keeps s₀ s) : Keeps s₀ (s.preAlarmClears) :=
  h.same.refreshCap

theorem Keeps.comparator (h : Keeps s₀ s) (n now) : Keeps s₀ (s.comparator n now) := by
  unfold State.comparator
  extract_lets g was act wov s1 s2 pm s3 pm' s4
  have h1 : Keeps s₀ s1 := h.same
  have h2 : Keeps s₀ s2 := Keeps.ite (h1.wakeSource _) h1
  have h3 : Keeps s₀ s3 := Keeps.ite h2.same h2
  have h4 : Keeps s₀ s4 := Keeps.ite (Keeps.refreshCap h3.same) h3
  exact Keeps.ite (Keeps.ite h4.trip (Keeps.ite h4.preAlarm h4)) (Keeps.ite (Keeps.ite h1.preAlarmClears h1.refreshCap) h1)

theorem Keeps.holdG7 (h : Keeps s₀ s) (src) : Keeps s₀ (s.holdG7 src) :=
  Keeps.ite h h.same

theorem Keeps.ganderWrite (h : Keeps s₀ s) (n thr v) : Keeps s₀ (s.ganderWrite n thr v) :=
  Keeps.ite h.same (Keeps.ite h.same (Keeps.ite h.same (h.same.comparator _ _)))

theorem Keeps.wordLost (h : Keeps s₀ s) (p n) : Keeps s₀ (s.wordLost p n) :=
  Keeps.ite (Keeps.ite h h.same) ((Keeps.ite ((h.onSite _ _).planSite _) (h.onSite _ _)).startRollback _)

theorem Keeps.ckptWrite (h : Keeps s₀ s) (v) : Keeps s₀ (s.ckptWrite v) :=
  Keeps.ite h.same (Keeps.ite h.same h.same)

theorem Keeps.bootRom (h : Keeps s₀ s) (entropy) : Keeps s₀ (s.bootRom entropy) := by
  unfold State.bootRom
  dsimp only
  split
  · exact h.same
  · exact h.same

theorem Keeps.confirm (h : Keeps s₀ s) : Keeps s₀ s.confirm := by
  refine ⟨h.pending, h.fuses.trans ?_, h.lock, h.memory⟩
  unfold State.confirm
  dsimp only
  split
  · rw [BitVec.toNat_ofNat]
    omega
  · exact Nat.le_refl _

theorem Keeps.interrupt (h : Keeps s₀ s) : Keeps s₀ (s.interrupt) :=
  Keeps.ite h.same h

theorem Keeps.spdmError (h : Keeps s₀ s) (code data) : Keeps s₀ (s.spdmError code data) :=
  h.same

theorem Keeps.answer (h : Keeps s₀ s) (bs) : Keeps s₀ (s.answer bs) :=
  h.same

theorem Keeps.revoke (h : Keeps s₀ s) : Keeps s₀ (s.revoke) :=
  h.same

theorem Keeps.unpowered (h : Keeps s₀ s) : Keeps s₀ s.unpowered := ⟨h.pending, h.fuses, h.lock, fun _ => Memory.wf_nil⟩

theorem Keeps.restoreMap (h : Keeps s₀ s) : Keeps s₀ (s.restoreMap) := by
  unfold State.restoreMap
  split
  · exact h.same
  · exact h

theorem Keeps.restoreRemaps (h : Keeps s₀ s) : Keeps s₀ (s.restoreRemaps) :=
  h.same

theorem Keeps.powerUp (h : Keeps s₀ s) (b) : Keeps s₀ (s.powerUp b) := by
  unfold State.powerUp
  extract_lets pm mgt s1 s2 s3 disc pnx cad herd pm' integ s4
  have h1 : Keeps s₀ s1 := h.same
  have h2 : Keeps s₀ s2 := h1.bootRom _
  have h3 : Keeps s₀ s3 := h2.restoreMap.restoreRemaps
  have h4 : Keeps s₀ s4 := h3.same
  exact Keeps.ite h2 (h4.setPoint 0).confirm

theorem Keeps.fromMgt (h : Keeps s₀ s) (b) : Keeps s₀ (s.fromMgt b) :=
  Keeps.ite h.same (h.powerUp _)

theorem Keeps.stopAll (h : Keeps s₀ s) : Keeps s₀ (s.stopAll) :=
  h.same

theorem Keeps.powerDown (h : Keeps s₀ s) : Keeps s₀ (s.powerDown) :=
  Keeps.ite h (Keeps.ite h.stopAll.same h.unpowered)

theorem Keeps.mrst (h : Keeps s₀ s) (b) : Keeps s₀ (s.mrst b) :=
  h.unpowered.same.fromMgt _

theorem Keeps.updateImage (h : Keeps s₀ s) (i) : Keeps s₀ (s.updateImage i) :=
  h.same

theorem Keeps.updateCal (h : Keeps s₀ s) (c) : Keeps s₀ (s.updateCal c) :=
  Keeps.ite h.same h.same

theorem Keeps.serveUpdates (h : Keeps s₀ s) : Keeps s₀ s.serveUpdates := by
  refine Keeps.foldl h.same (fun s u h => ?_) _
  split
  · exact (h.updateImage _).interrupt
  · exact (h.updateCal _).interrupt

theorem Keeps.wakeS1 (h : Keeps s₀ s) : Keeps s₀ (s.wakeS1) :=
  (h.same.setPoint _).serveUpdates

theorem Keeps.fromS2 (h : Keeps s₀ s) : Keeps s₀ s.fromS2 := by
  have hu : Keeps s₀ { s.unpowered with mem := s.mem } := ⟨h.pending, h.fuses, h.lock, h.memory⟩
  unfold State.fromS2
  extract_lets t1 pm ckpt mgt t2 disc res
  have h2 : Keeps s₀ t2 := hu.same
  split
  · exact h2
  · exact h2.same

theorem Keeps.wakeS2 (h : Keeps s₀ s) (b) : Keeps s₀ (s.wakeS2 b) := by
  unfold State.wakeS2
  extract_lets kept boot t1 disc t2 t3 pm mgt
  have h1 : Keeps s₀ t1 := h.fromS2.powerUp _
  have h3 : Keeps s₀ t3 := h.unpowered
  exact Keeps.ite (Keeps.serveUpdates h1.same) (Keeps.fromMgt h3.same b)

theorem Keeps.notReady (h : Keeps s₀ s) : Keeps s₀ (notReady s) :=
  h.same

theorem Keeps.channelReading (h : Keeps s₀ s) (src) : Keeps s₀ (channelReading s src) := by
  unfold Machine.channelReading
  refine Keeps.ite h.same ?_
  split
  · exact h.same
  · exact h.same

theorem Keeps.sensorValue (h : Keeps s₀ s) (id) : Keeps s₀ (sensorValue s id) := by
  cases id with
  | channel src => exact h.channelReading src
  | _ => exact h.same

theorem Keeps.update (h : Keeps s₀ s) (u) (hn : Keeps s₀ t) : Keeps s₀ (update s u t) := by
  unfold Machine.update
  exact Keeps.ite hn.interrupt (Keeps.ite (Keeps.wakeSource h.same _) h.notReady.interrupt)

theorem Keeps.sbWrite (h : Keeps s₀ s) (n v) : Keeps s₀ (s.sbWrite n v) :=
  Keeps.ite h.same (Keeps.ite h h.same)

theorem Keeps.setOwner (h : Keeps s₀ s) (e o) : Keeps s₀ (s.setOwner e o) :=
  h.same

theorem Keeps.claimRefused (h : Keeps s₀ s) : Keeps s₀ (s.claimRefused) :=
  h.same

theorem Keeps.onTimer (h : Keeps s₀ s) (n g) : Keeps s₀ (s.onTimer n g) :=
  h.same

theorem Keeps.storeBits (h : Keeps s₀ s) (l x) : Keeps s₀ (s.storeBits l x) := by
  induction l generalizing s x with
  | nil => exact h
  | cons y l ih => exact ih (h.putByte _ _) _

theorem Keeps.putBits (h : Keeps s₀ s) (bits x) : Keeps s₀ (s.putBits bits x) :=
  Keeps.ite (h.storeBits _ _) h.same

theorem Keeps.tensorPut (h : Keeps s₀ s) (T i c) : Keeps s₀ (Tensor.put T s i c) :=
  h.putBits _ _

theorem Keeps.tagOpWrite (h : Keeps s₀ s) (p v) : Keeps s₀ (s.tagOpWrite p v) := by
  unfold State.tagOpWrite
  split
  · exact h.terpFlag _ _ _
  · exact h.onTerp _ _

theorem Keeps.zero (h : Keeps s₀ s) (a n) : Keeps s₀ (s.zero a n) :=
  ⟨h.pending, h.fuses, h.lock, fun hm => State.zero_wf (h.memory hm) a n⟩

theorem Keeps.clearBank (h : Keeps s₀ s) (p b) : Keeps s₀ (s.clearBank p b) :=
  (h.zero _ _).onTerp _ _

theorem Keeps.bankWrite (h : Keeps s₀ s) (p b v) : Keeps s₀ (s.bankWrite p b v) := by
  unfold State.bankWrite
  extract_lets x prot tags power flagged wakes fills s1 s2
  have h1 : Keeps s₀ s1 := Keeps.ite (h.clearBank _ _) h
  have h2 : Keeps s₀ s2 := Keeps.ite (h1.onTerp _ _) h1
  exact Keeps.ite (h.terpFlag p 1 true).same (h2.onTerp _ _)

theorem Keeps.windowWrite (h : Keeps s₀ s) (p w v) : Keeps s₀ (s.windowWrite p w v) :=
  Keeps.ite (h.terpFlag _ _ _) (h.onTerp _ _)

theorem Keeps.windowField (h : Keeps s₀ s) (p w field v) : Keeps s₀ (s.windowField p w field v) :=
  Keeps.ite (h.terpFlag _ _ _) (h.onTerp _ _)

theorem Keeps.land (h : Keeps s₀ s) (p l data slotEnd) : Keeps s₀ (s.land p l data slotEnd) :=
  Keeps.ite ((Keeps.ite ((h.putBytes _ _).slotEnd _ _) (h.putBytes _ _)).onTerp _ _) (((Keeps.ite ((h.putBytes _ _).slotEnd _ _)
    (h.putBytes _ _)).onTerp _ _).weirSend _ _ _)

theorem Keeps.popLanding (h : Keeps s₀ s) (p) : Keeps s₀ (s.popLanding p) :=
  h.onTerp _ _

theorem Keeps.keepLanding (h : Keeps s₀ s) (p l) : Keeps s₀ (s.keepLanding p l) :=
  h.onTerp _ _

theorem Keeps.refuseLanding (h : Keeps s₀ s) (p l) : Keeps s₀ (s.refuseLanding p l) := by
  unfold State.refuseLanding
  extract_lets s1
  have h1 : Keeps s₀ s1 := (h.onTerp _ _).popLanding _
  split
  · exact h1.same
  · exact h1

theorem Keeps.onSeq (h : Keeps s₀ s) (p g) : Keeps s₀ (s.onSeq p g) :=
  h.onPolder _ _

theorem Keeps.launchWord (h : Keeps s₀ s) (p k v) : Keeps s₀ (s.launchWord p k v) := h.same

theorem Keeps.launchFault (h : Keeps s₀ s) (p l code info) : Keeps s₀ (s.launchFault p l code info) :=
  (h.onSeq _ _).completeSoon _ _ _

theorem Keeps.signalEnd (h : Keeps s₀ s) (p l) : Keeps s₀ (s.signalEnd p l) :=
  Keeps.ite (Keeps.ite h (h.weirSend _ _ _)) ((Keeps.ite h (h.weirSend _ _ _)).weirSend _ _ _)

theorem Keeps.seqFlush (h : Keeps s₀ s) (p) : Keeps s₀ (s.seqFlush p) :=
  h.onSeq _ _

theorem Keeps.seqAbort (h : Keeps s₀ s) (p) : Keeps s₀ (s.seqAbort p) := by
  unfold State.seqAbort
  split
  · exact h
  · exact ((h.same.discardArray _).completeSoon _ _ _).dropTask _

theorem Keeps.seqResume (h : Keeps s₀ s) (p) : Keeps s₀ (s.seqResume p) :=
  h.onSeq _ _

theorem Keeps.resResult (h : Keeps s₀ s) (r) : Keeps s₀ (s.resResult r) :=
  h.same

theorem Keeps.resClaim (h : Keeps s₀ s) (owner entry) : Keeps s₀ (s.resClaim owner entry) := by
  unfold State.resClaim
  split
  · exact Keeps.ite ((h.setOwner _ _).resResult _) (h.claimRefused.resResult _)
  · exact h.resResult _

theorem Keeps.resRelease (h : Keeps s₀ s) (owner entry) : Keeps s₀ (s.resRelease owner entry) := by
  unfold State.resRelease
  split
  · exact Keeps.ite ((h.setOwner _ _).resResult _) (h.resResult _)
  · exact h.resResult _

theorem Keeps.moveCounter (h : Keeps s₀ s) (p o) : Keeps s₀ (s.moveCounter p o) :=
  Keeps.ite (h.same.onPolder _ _) h

theorem Keeps.holdWrite (h : Keeps s₀ s) (p v) : Keeps s₀ (s.holdWrite p v) :=
  Keeps.ite (h.onPolder _ _) (h.onPolder _ _)

theorem Keeps.dbgAddrWrite (h : Keeps s₀ s) (p v) : Keeps s₀ (s.dbgAddrWrite p v) :=
  h.onPolder _ _

theorem Keeps.weirWrite (h : Keeps s₀ s) (w o v) : Keeps s₀ (s.weirWrite w o v) :=
  Keeps.ite (h.weirThreshReg _ _) (Keeps.ite (h.weirAddReg _ _) (Keeps.ite (h.weirSetReg _ _) (Keeps.ite (h.weirCtlReg _ _) h)))

theorem Keeps.seqCtl (h : Keeps s₀ s) (p v) : Keeps s₀ (s.seqCtl p v) :=
  Keeps.ite ((Keeps.ite ((Keeps.ite (h.seqFlush _) h).seqAbort _) (Keeps.ite (h.seqFlush _) h)).seqResume _) (Keeps.ite
    ((Keeps.ite (h.seqFlush _) h).seqAbort _) (Keeps.ite (h.seqFlush _) h))

theorem Keeps.windowStore (h : Keeps s₀ s) (p o v) : Keeps s₀ (s.windowStore p o v) :=
  Keeps.ite (h.seqCtl _ _) (Keeps.ite (h.onSeq _ _) (Keeps.ite (h.onSeq _ _) (Keeps.ite (h.launchWord _ _ _) (Keeps.ite
    (h.onPolder _ _) (Keeps.ite (h.onPolder _ _) (Keeps.ite (h.holdWrite _ _) (Keeps.ite (h.onPolder _ _) (Keeps.ite
    (h.dbgAddrWrite _ _) (Keeps.ite (h.onPolder _ _) (Keeps.ite (h.onPolder _ _) (Keeps.ite (h.onPolder _ _) (Keeps.ite
    (h.onPolder _ _) (Keeps.ite (h.onPolder _ _) (Keeps.ite (h.onPolder _ _) (Keeps.ite (h.onPolder _ _) (Keeps.ite (h.onPolder _
    _) (Keeps.ite (h.onTerp _ _) (Keeps.ite (h.tagOpWrite _ _) (Keeps.ite (h.bankWrite _ _ _) (Keeps.ite (Keeps.ite
    (h.windowWrite _ _ _) (Keeps.ite (h.windowField _ _ _ _) (Keeps.ite (h.windowField _ _ _ _) (Keeps.ite (h.windowField _ _ _
    _) h)))) (Keeps.ite (h.weirWrite _ _ _) h)))))))))))))))))))))

theorem Keeps.startWork (h : Keeps s₀ s) (p t' w weir) : Keeps s₀ (s.startWork p t' w weir) :=
  h.same

theorem Keeps.signalWork (h : Keeps s₀ s) (p weir) : Keeps s₀ (s.signalWork p weir) :=
  Keeps.ite h (h.weirSend _ _ _)

theorem Keeps.copy (h : Keeps s₀ s) (l) : Keeps s₀ (s.copy l) := by
  induction l generalizing s with
  | nil => exact h
  | cons x l ih => exact ih (h.putBytes _ _)

theorem Keeps.copyElems (h : Keeps s₀ s) (x y l) : Keeps s₀ (s.copyElems x y l) := by
  induction l generalizing s with
  | nil => exact h
  | cons i l ih =>
    unfold State.copyElems
    exact Keeps.ite (ih (Keeps.tensorPut (s := s.fresh.2) h.same y i _)) (ih (h.tensorPut y i _))

theorem Keeps.copyWork (h : Keeps s₀ s) (x dst) : Keeps s₀ (s.copyWork x dst) := by
  unfold State.copyWork
  extract_lets n rs s1 s2
  have h1 : Keeps s₀ s1 := by
    unfold s1
    split
    · exact (h.copy _).copyElems _ _ _
    · exact h.copy _
  have h2 : Keeps s₀ s2 := Keeps.slotEnds (Keeps.same (h1.markEnds n)) dst
  exact Keeps.signalWork h2.same _ _

theorem Keeps.claim (h : Keeps s₀ s) (p gen sid dest n) : Keeps s₀ (s.claim p gen sid dest n) := by
  unfold State.claim
  split
  · exact h
  · split
    · exact h
    · split
      · exact Keeps.ite h ((h.qzFlag _ _ _).onPolder _ _)
      · exact h.onTask _ _

theorem Keeps.eeRegister (h : Keeps s₀ s) (op p f t') : Keeps s₀ (eeRegister op p f s t') :=
  Keeps.ite (((h.eeFlags _ _ _).claim _ _ _ _ _).onTask _ _) (((h.eeFlags _ _ _).claim _ _ _ _ _).onTask _ _)

theorem Keeps.tensorPutRun (h : Keeps s₀ s) (T fill k l) : Keeps s₀ (Tensor.putRun T fill s k l) := by
  induction l generalizing s k with
  | nil => exact h
  | cons c l ih => exact ih (Keeps.ite (h.tensorPut T _ c) h) _

theorem Keeps.putLines (h : Keeps s₀ s) (D E w fill k l) : Keeps s₀ (putLines D E w fill s k l) := by
  induction l generalizing s k with
  | nil => exact h
  | cons x l ih => exact ih (Keeps.ite ((h.tensorPutRun D fill _ _).tensorPutRun E fill _ _) h) _

theorem Keeps.startCx (h : Keeps s₀ s) (p t' w h' weir) : Keeps s₀ (s.startCx p t' w h' weir) :=
  h.same.startWork _ _ _ _

theorem Keeps.storeColumn (h : Keeps s₀ s) (p D L fill o ls s2) : Keeps s₀ (storeColumn p D L fill s o ls s2) :=
  ((((h.tensorPutRun _ _ _ _).putBytes _ _).putBytes _ _).qzFlag _ _ _).qzFlag _ _ _

theorem Keeps.optElem (h : Keeps s₀ s) (p t' f h' X i) : Keeps s₀ (optElem p t' f h' X s i) :=
  Keeps.ite ((h.qzFlag _ _ _).onPolder _ _) (((((((h.tensorPut _ _ _).tensorPut _ _ _).tensorPut _ _ _).eeFlags _ _ _).qzFlag _ _
    _).qzFlag _ _ _).claim _ _ _ _ _).same

theorem Keeps.onSpw (h : Keeps s₀ s) (p g) : Keeps s₀ (s.onSpw p g) :=
  h.onPolder _ _

theorem Keeps.passCounts (h : Keeps s₀ s) (p c) : Keeps s₀ (s.passCounts p c) := by
  unfold State.passCounts
  extract_lets s1 s2
  have h1 : Keeps s₀ s1 := ((h.bpeFlag _ _ _).bpeFlag _ _ _).bpeFlag _ _ _
  have h2 : Keeps s₀ s2 := ((h1.qzFlag _ _ _).qzFlag _ _ _).logFlag _ _ _
  exact h2.onPolder _ _

theorem Keeps.replayGroup (h : Keeps s₀ s) (p work) : Keeps s₀ (s.replayGroup p work) :=
  (h.taskReplay _).passCounts _ _

theorem Keeps.countRow (h : Keeps s₀ s) (p F outs) : Keeps s₀ (s.countRow p F outs) := by
  unfold State.countRow
  dsimp only
  split
  · exact ((((h.foldl (fun _ _ h => h.claim _ _ _ _ _) _).eeFlags _ _ _).logFlag _ _ _).logFlag _ _ _).onPolder _ _
  · exact ((((((h.foldl (fun _ _ h => h.claim _ _ _ _ _) _).eeFlags _ _ _).logFlag _ _ _).logFlag _ _ _).ruFlag _ _ _).ruFlag _ _
      _).onPolder _ _

theorem Keeps.drainRow (h : Keeps s₀ s) (p g k i F es) : Keeps s₀ (s.drainRow p g k i F es) :=
  (h.countRow p F (rowOuts s p F i es)).same

theorem Keeps.redrain (h : Keeps s₀ s) (p l) : Keeps s₀ (s.redrain p l) := by
  induction l generalizing s with
  | nil => exact h
  | cons x l ih => exact ih (h.countRow _ _ _)

theorem Keeps.replayDrain (h : Keeps s₀ s) (p g k i) : Keeps s₀ (s.replayDrain p g k i) :=
  Keeps.ite (h.hardFail _) ((((h.replayGroup _ _).onPolder _ _).redrain _ _).onPolder _ _)

theorem Keeps.writeTile (h : Keeps s₀ s) (p D t' rows o w taps slots) : Keeps s₀ (s.writeTile p D t' rows o w taps slots) := by
  unfold State.writeTile
  dsimp only
  split
  · split
    · exact ((((((((((((h.foldl (fun _ _ h => h.putBytes _ _) _).putBytes _ _).foldl (fun _ _ h =>
        h.putBytes _ _) _).foldl (fun _ _ h => h.tensorPut _ _ _) _).markEnds _).slotEnds _).ocFlags _ _ _).qzFlag _ _ _).qzFlag
        _ _ _).qzFlag _ _ _).claim _ _ _ _ _).onTask _ _).onPolder _ _
    · exact ((((((((((((h.foldl (fun _ _ h => h.putBytes _ _) _).foldl (fun _ _ h => h.tensorPut _ _ _) _).foldl (fun _ _ h =>
        h.putBytes _ _) _).foldl (fun _ _ h => h.tensorPut _ _ _) _).markEnds _).slotEnds _).ocFlags _ _ _).qzFlag _ _ _).qzFlag
        _ _ _).qzFlag _ _ _).claim _ _ _ _ _).onTask _ _).onPolder _ _
  · split
    · exact (((((((((((h.foldl (fun _ _ h => h.putBytes _ _) _).putBytes _ _).foldl (fun _ _ h =>
        h.putBytes _ _) _).markEnds _).slotEnds _).ocFlags _ _ _).qzFlag _ _ _).qzFlag _ _ _).qzFlag _ _ _).claim _ _ _ _
        _).onTask _ _).onPolder _ _
    · exact (((((((((((h.foldl (fun _ _ h => h.putBytes _ _) _).foldl (fun _ _ h => h.tensorPut _ _ _) _).foldl (fun _ _ h =>
        h.putBytes _ _) _).markEnds _).slotEnds _).ocFlags _ _ _).qzFlag _ _ _).qzFlag _ _ _).qzFlag _ _ _).claim _ _ _ _
        _).onTask _ _).onPolder _ _

theorem Keeps.onProg (h : Keeps s₀ s) (g f) : Keeps s₀ (s.onProg g f) :=
  h.same

theorem Keeps.sendRecords (h : Keeps s₀ s) (g) : Keeps s₀ (s.sendRecords g) := by
  unfold State.sendRecords
  split
  · exact h
  · refine Keeps.ite h ?_
    split
    · exact h
    · dsimp -zeta only
      extract_lets full bs job s1 pnx
      have hfull : ∀ s, Keeps s₀ s → Keeps s₀ (full s) := fun s h => Keeps.ite h (Keeps.herdEvent h.same _ _)
      have h1 : Keeps s₀ s1 := h.onProg _ _
      exact Keeps.ite (hfull s h) (hfull _ (Keeps.pumpAll h1.same))

theorem Keeps.sendAll (h : Keeps s₀ s) : Keeps s₀ s.sendAll := h.foldl (fun _ g h => h.sendRecords g) _

theorem Keeps.emit (h : Keeps s₀ s) (g rs) : Keeps s₀ (s.emit g rs) := by
  unfold State.emit
  split
  · exact h
  · extract_lets fresh sent s1 herd s2
    have h1 : Keeps s₀ s1 := h.onProg _ _
    have h2 : Keeps s₀ s2 := h1.same
    exact Keeps.ite h (h2.sendRecords g)

theorem Keeps.answerEnded (h : Keeps s₀ s) (l) : Keeps s₀ (s.answerEnded l) := by
  refine h.foldl (fun s c h => ?_) l
  split
  · exact h.respond _ _ _
  · exact h

theorem Keeps.endAll (h : Keeps s₀ s) (g reason) : Keeps s₀ (s.endAll g reason) := by
  unfold State.endAll
  split
  · exact h
  · exact ((h.onProg _ _).emit _ _).answerEnded _

theorem Keeps.cancelQueued (h : Keeps s₀ s) (g hit) : Keeps s₀ (s.cancelQueued g hit) := by
  unfold State.cancelQueued
  split
  · exact h
  · exact (h.onProg _ _).emit _ _

theorem Keeps.commit (h : Keeps s₀ s) (p l) : Keeps s₀ (s.commit p l) :=
  Keeps.ite h ((h.wakeQuad _).onSeq _ _)

theorem Keeps.launchAll (h : Keeps s₀ s) (P xs n epoch) : Keeps s₀ (s.launchAll P xs n epoch) :=
  h.foldl (fun _ _ h => (h.commit _ _)) _

theorem Keeps.portTouch (h : Keeps s₀ s) (a len) : Keeps s₀ (s.portTouch a len) :=
  h.foldl (fun _ _ h => (Keeps.ite (h.onTerp _ _) (Keeps.ite (h.wakeBank _ _) h))) _

theorem Keeps.portPut (h : Keeps s₀ s) (a bs) : Keeps s₀ (s.portPut a bs) :=
  Keeps.ite ((h.portTouch _ _).putBytes _ _) ((h.portTouch _ _).foldl (fun _ _ h => (Keeps.ite h (h.putByte _ _))) _)

theorem Keeps.directories (h : Keeps s₀ s) (P) : Keeps s₀ (s.directories P) :=
  h.foldl (fun _ _ h => (h.foldl (fun _ _ h => (h.portPut _ _)) _)) _

theorem Keeps.launchStep (h : Keeps s₀ s) (P b chunk) : Keeps s₀ (s.launchStep P b chunk) := by
  unfold State.launchStep
  dsimp only
  split
  · exact Keeps.ite ((h.launchAll _ _ _ _).launchAll _ _ _ _) (h.launchAll _ _ _ _)
  · exact h.launchAll _ _ _ _

theorem Keeps.rollbackPoint (h : Keeps s₀ s) (g) : Keeps s₀ (s.rollbackPoint g) := by
  unfold State.rollbackPoint
  extract_lets weirs s1 flash herd s2
  have h1 : Keeps s₀ s1 := h.onProg _ _
  have h2 : Keeps s₀ s2 := h1.same
  exact Keeps.ite h2 (h2.startRollback _)

theorem Keeps.logOp (h : Keeps s₀ s) (g n o) : Keeps s₀ (s.logOp g n o) :=
  h.onProg _ _

theorem Keeps.recompress (h : Keeps s₀ s) (x) : Keeps s₀ (s.recompress x) := by
  unfold State.recompress
  dsimp only
  split
  · exact h.portPut _ _
  · exact (h.portPut _ _).portPut _ _

theorem Keeps.powerBanks (h : Keeps s₀ s) (p off len) : Keeps s₀ (s.powerBanks p off len) :=
  h.foldl (fun _ _ h => (Keeps.ite ((h.clearBank _ _).onTerp _ _) h)) _

theorem Keeps.powerRegion (h : Keeps s₀ s) (r) : Keeps s₀ (s.powerRegion r) := by
  unfold State.powerRegion
  split
  · exact h.powerBanks _ _ _
  · exact h

theorem Keeps.ownPolders (h : Keeps s₀ s) (ps o) : Keeps s₀ (s.ownPolders ps o) :=
  h.foldl (fun _ _ h => (h.setOwner _ _)) _

theorem Keeps.freePolders (h : Keeps s₀ s) (ps o) : Keeps s₀ (s.freePolders ps o) :=
  h.foldl (fun _ _ h => (h.freeEntry _ _)) _

theorem Keeps.poolRange (h : Keeps s₀ s) (g poolBase poolLen on) : Keeps s₀ (s.poolRange g poolBase poolLen on) :=
  h.same

theorem Keeps.noteTiled (h : Keeps s₀ s) (k plan) : Keeps s₀ (s.noteTiled k plan) :=
  Keeps.ite h h.same

theorem Keeps.placePlan (h : Keeps s₀ s) (g P) : Keeps s₀ (s.placePlan g P) :=
  (((((h.foldl (fun _ _ h => h.portPut _ _) _).foldl (fun _ _ h => h.portPut _ _) _).foldl (fun _ _ h =>
    h.onSeq _ _) _).foldl (fun _ _ h => h.onPolder _ _) _).foldl (fun _ _ h => h.same) _).foldl (fun _ _ h => h.same) _

theorem Keeps.attachSamples (h : Keeps s₀ s) : Keeps s₀ s.attachSamples := by
  refine h.foldl (fun s g h => ?_) _
  split
  · exact h
  · refine Keeps.ite h ?_
    split
    · exact h.onProg _ _
    · exact h

theorem Keeps.bind (h : Keeps s₀ s) (g P regions) : Keeps s₀ (s.bind g P regions) := by
  unfold State.bind
  extract_lets s1 s2 weirs s3 s4 phases herd pm s5
  have h2 : Keeps s₀ s2 := (h.foldl (fun _ r h => h.powerRegion r) regions).ownPolders _ _
  have h3 : Keeps s₀ s3 := h2.same
  have h4 : Keeps s₀ s4 := (Keeps.ite h3 (h3.poolRange _ _ _ _)).placePlan _ _
  have h5 : Keeps s₀ s5 := h4.same
  exact (h5.onProg _ _).attachSamples

theorem Keeps.dropTimers (h : Keeps s₀ s) (g) : Keeps s₀ (s.dropTimers g) :=
  h.foldl (fun _ _ h => (Keeps.ite ((h.setOwner _ _).onTimer _ _) h)) _

theorem Keeps.unbind (h : Keeps s₀ s) (g) : Keeps s₀ (s.unbind g) := by
  unfold State.unbind
  split
  · exact h
  · extract_lets s1 s2 s3 s4 zero s5 herd s6
    have h1 : Keeps s₀ s1 := h.endAll g 6
    have h2 : Keeps s₀ s2 := h1.foldl (fun _ p h => (h.seqAbort p).seqFlush p) _
    have h3 : Keeps s₀ s3 := (h2.freePolders _ _).dropTimers g
    have h4 : Keeps s₀ s4 := Keeps.ite h3 (h3.poolRange _ _ _ _)
    have h5 : Keeps s₀ s5 := h4.foldl (fun _ _ h => h.same) _
    have h6 : Keeps s₀ s6 := h5.same
    exact Keeps.ite h6.same h6

theorem Keeps.renewCad (h : Keeps s₀ s) (coord extents locked) : Keeps s₀ (s.renewCad coord extents locked) :=
  h.same.refreshCap

theorem Keeps.enqueue (h : Keeps s₀ s) (g r) : Keeps s₀ (s.enqueue g r) :=
  h.onProg _ _

theorem Keeps.cancelIn (h : Keeps s₀ s) (g id f) : Keeps s₀ (s.cancelIn g id f) := by
  unfold State.cancelIn
  split
  · exact h
  · split
    · split
      · exact (h.cancelQueued _ _).respond _ _ _
      · exact h.cancelQueued _ _
    · exact h.onProg _ _

theorem Keeps.onStream (h : Keeps s₀ s) (id f) : Keeps s₀ (s.onStream id f) :=
  h.same

theorem Keeps.creditPacket (h : Keeps s₀ s) (lseq nak) : Keeps s₀ (s.creditPacket lseq nak) :=
  h.same

theorem Keeps.creditOwed (h : Keeps s₀ s) (type n) : Keeps s₀ (s.creditOwed type n) :=
  h.same.creditPacket _ _

theorem Keeps.streamFault (h : Keeps s₀ s) (id) : Keeps s₀ (s.streamFault id) :=
  (h.same.herdEvent _ _).foldl (fun _ _ h => (h.cancelQueued _ _)) _

theorem Keeps.promptLands (h : Keeps s₀ s) (x) : Keeps s₀ (s.promptLands x) :=
  h.foldl (fun _ _ h => (h.onProg _ _)) _

theorem Keeps.replayNow (h : Keeps s₀ s) (g) : Keeps s₀ (s.replayNow g) := by
  unfold State.replayNow
  split
  · exact h
  · refine (h.onProg _ _).foldl (fun s x h => ?_) _
    split
    · exact (h.logOp _ _ _).enqueue _ _
    · exact (h.logOp _ _ _).cancelIn _ _ _
    · exact h

theorem Keeps.answerCancel (h : Keeps s₀ s) (f ended) : Keeps s₀ (s.answerCancel f ended) := by
  unfold State.answerCancel
  split
  · exact h
  · exact Keeps.ite (h.respond _ _ _) (h.respond _ _ _)

theorem Keeps.boundary (h : Keeps s₀ s) (g b rows) : Keeps s₀ (s.boundary g b rows) := by
  unfold State.boundary
  split
  · exact h
  · extract_lets T s1
    dsimp only
    have h1 : Keeps s₀ s1 := h.same
    split
    · exact ((h1.onProg g _).emit g _).foldl (fun _ c h => h.answerCancel _ _) _
    · exact ((((h1.onProg g _).emit g _).foldl (fun _ c h => h.answerCancel _ _) _).directories _).launchStep _ _ _

theorem Keeps.stopTasks (h : Keeps s₀ s) (P) : Keeps s₀ (s.stopTasks P) :=
  h.foldl (fun _ _ h => ((h.seqAbort _).seqFlush _)) _

theorem Keeps.commitLeft (h : Keeps s₀ s) (late l) : Keeps s₀ (State.commitLeft late s l).1 := by
  induction l generalizing s late with
  | nil => exact h
  | cons x l ih =>
    unfold State.commitLeft
    split
    · exact ih h _
    · exact ih (h.commit _ _) _

theorem Keeps.trainTurn (h : Keeps s₀ s) (g) : Keeps s₀ (s.trainTurn g) := by
  unfold State.trainTurn
  split
  · exact h
  · split
    · exact h
    · extract_lets s1
      have h1 : Keeps s₀ s1 := Keeps.ite h (h.foldl (fun _ a h => h.portPut _ _) _)
      exact Keeps.ite h ((h1.commitLeft _ _).onProg _ _)

theorem Keeps.herdTurn (h : Keeps s₀ s) : Keeps s₀ s.herdTurn := by
  unfold State.herdTurn
  extract_lets herd s1
  have h1 : Keeps s₀ s1 := Keeps.ite h.same h
  exact Keeps.ite h (Keeps.ite h1 (h1.foldl (fun _ g h => h.trainTurn g) _))

theorem Keeps.sendCheckpoint (h : Keeps s₀ s) (g) : Keeps s₀ (s.sendCheckpoint g) := by
  unfold State.sendCheckpoint
  split
  · exact h.same.pumpAll
  · exact h

theorem Keeps.resWrite (h : Keeps s₀ s) (v) : Keeps s₀ (s.resWrite v) :=
  Keeps.ite (Keeps.ite (h.resClaim _ _).same (h.resClaim _ _)) (Keeps.ite (h.resRelease _ _) (h.resResult _))

theorem Keeps.controlStore (h : Keeps s₀ s) (o v) : Keeps s₀ (s.controlStore o v) :=
  Keeps.ite (h.resWrite _) (Keeps.ite (h.weirWrite _ _ _) h)

theorem Keeps.mscStore (h : Keeps s₀ s) (k o v) : Keeps s₀ (s.mscStore k o v) :=
  Keeps.ite (Keeps.ite (h.mscFlush _) h) (Keeps.ite (h.onMsc _ _) (Keeps.ite (h.onMsc _ _) h))

theorem Keeps.pnxStore (h : Keeps s₀ s) (o v) : Keeps s₀ (s.pnxStore o v) :=
  Keeps.ite h.same (Keeps.ite h.same (Keeps.ite (h.sendWrite _) h))

theorem Keeps.edgeStore (h : Keeps s₀ s) (k o v) : Keeps s₀ (s.edgeStore k o v) := by
  unfold State.edgeStore
  dsimp only
  split
  · exact h.mscStore _ _ _
  · split
    · exact Keeps.ite (h.onMc _ _) h
    · exact Keeps.ite h.same h
    · exact Keeps.ite (h.pnxStore _ _) h

theorem Keeps.dbgWrite (h : Keeps s₀ s) (v) : Keeps s₀ (s.dbgWrite v) :=
  Keeps.ite (Keeps.ite h.revoke h).same.same.same.same.same (Keeps.ite h.revoke h)

theorem Keeps.integStore (h : Keeps s₀ s) (o v) : Keeps s₀ (s.integStore o v) :=
  Keeps.ite h.same (Keeps.ite h.same (Keeps.ite (Keeps.ite h.same h.same) h))

theorem Keeps.ckptStore (h : Keeps s₀ s) (o v) : Keeps s₀ (s.ckptStore o v) :=
  Keeps.ite (h.ckptWrite _) (Keeps.ite h.same (Keeps.ite h.same (Keeps.ite h.same (Keeps.ite h.same h))))

theorem Keeps.pmCtlWrite (h : Keeps s₀ s) (v) : Keeps s₀ (s.pmCtlWrite v) :=
  Keeps.ite (h.same.request _) (Keeps.ite (h.same.request _) h.same)

theorem Keeps.pmStore (h : Keeps s₀ s) (o v) : Keeps s₀ (s.pmStore o v) :=
  Keeps.ite (h.pmCtlWrite _) (Keeps.ite h.same h)

theorem Keeps.ganderStore (h : Keeps s₀ s) (o v) : Keeps s₀ (s.ganderStore o v) :=
  Keeps.ite h.same (Keeps.ite h.same (Keeps.ite (h.ganderWrite _ _ _) (Keeps.ite (h.ganderWrite _ _ _) h)))

theorem Keeps.mgtStore (h : Keeps s₀ s) (o v) : Keeps s₀ (s.mgtStore o v) :=
  Keeps.ite h.same (Keeps.ite (h.sbWrite _ _) h)

theorem Keeps.systemStore (h : Keeps s₀ s) (o v) : Keeps s₀ (s.systemStore o v) :=
  Keeps.ite (Keeps.ite (h.dbgWrite _) h) (Keeps.ite (h.integStore _ _) (Keeps.ite (h.ckptStore _ _) (Keeps.ite h (Keeps.ite
    (h.pmStore _ _) (Keeps.ite (h.ganderStore _ _) (Keeps.ite (h.mgtStore _ _) h))))))

theorem Keeps.regStore (h : Keeps s₀ s) (x v) : Keeps s₀ (s.regStore x v) := by
  unfold State.regStore
  split
  · exact (h.wakeQuad _).windowStore _ _ _
  · exact h.controlStore _ _
  · exact h.edgeStore _ _ _
  · exact h.systemStore _ _
  · exact h

theorem Keeps.rollStart (h : Keeps s₀ s) : Keeps s₀ s.rollStart := by
  unfold State.rollStart
  extract_lets s1 s2
  have h1 : Keeps s₀ s1 := h.foldl (fun _ p h => (h.seqAbort p).seqFlush p) _
  have h2 : Keeps s₀ s2 := h1.announce 5 0
  clear_value s2
  exact Keeps.ite h h2.same

theorem Keeps.saveMap (h : Keeps s₀ s) : Keeps s₀ (s.saveMap) :=
  h.same

theorem Keeps.clearWeirs (h : Keeps s₀ s) (p) : Keeps s₀ (s.clearWeirs p) :=
  h.same

theorem Keeps.rebind (h : Keeps s₀ s) (g P) : Keeps s₀ (s.rebind g P) :=
  (h.noteTiled _ _).placePlan _ _

theorem Keeps.restoreTags (h : Keeps s₀ s) (g P) : Keeps s₀ (s.restoreTags g P) :=
  (h.foldl (fun _ _ h => (Keeps.ite (h.setTag _ _ _) h)) _).foldl (fun _ _ h => (h.weirSetReg _ _)) _

theorem Keeps.restoreProg (h : Keeps s₀ s) (c g P) : Keeps s₀ (s.restoreProg c g P) :=
  Keeps.ite ((h.foldl (fun _ _ h => h.portPut _ _) _).onProg _ _) ((((h.foldl (fun _ _ h =>
    h.portPut _ _) _).onProg _ _).directories _).foldl (fun _ _ h => h.launchStep _ _ _) _)

theorem Keeps.giveUp (h : Keeps s₀ s) (final) : Keeps s₀ (s.giveUp final) :=
  (h.foldl (fun _ _ h => (((h.stopTasks _).endAll _ _).onProg _ _)) _).same

theorem Keeps.activate (h : Keeps s₀ s) (n ok) : Keeps s₀ (s.activate n ok).1 := by
  unfold State.activate
  split
  · rename_i p m _ _
    dsimp only
    split
    · exact (((Keeps.same h).zero _ _).onPolder p newPolder).clearWeirs p |>.saveMap
    · exact Keeps.saveMap h.same
  · exact h

theorem Keeps.rollOn (h : Keeps s₀ s) (c i) : Keeps s₀ (s.rollOn c i) := by
  unfold State.rollOn
  extract_lets sites
  have h1 := h.foldlFst (b := true) (f := fun x n => ((x.1.activate n i.selfTestOk).1, x.2 && (x.1.activate n i.selfTestOk).2))
    (fun _ n h => h.activate n i.selfTestOk) sites
  dsimp -zeta only
  extract_lets integ s2 s3 s4 s5
  have h2 : Keeps s₀ s2 := h1.same
  refine Keeps.ite ((h2.giveUp _).announce _ _) ?_
  have h3 : Keeps s₀ s3 := Keeps.ite h2 (h2.foldl (fun _ (x : Fin 4 × Prog) h => h.rebind x.1 x.2) _)
  have h4 : Keeps s₀ s4 := h3.foldl (fun _ (x : Fin 4 × Prog) h => h.onProg x.1 _) _
  have h5 : Keeps s₀ s5 := h4.foldl (fun _ (x : Fin 4 × Prog) h => h.restoreTags x.1 x.2) _
  clear_value s5
  split
  · have h6 : Keeps s₀ { s5 with integ := { s5.integ with rolling := false } } := h5.same
    exact Keeps.announce (Keeps.same (h6.foldl (fun _ x h => h.restoreProg c x.1 x.2) s5.bound)) _ _
  · exact (Keeps.giveUp h5.same _).announce _ _
  · exact (h5.giveUp _).announce _ _
  · exact (h5.giveUp _).announce _ _

theorem Keeps.contend (h : Keeps s₀ s) : Keeps s₀ (s.contend) :=
  Keeps.ite h.same h

theorem Keeps.clearEnded (h : Keeps s₀ s) : Keeps s₀ (s.clearEnded) :=
  Keeps.ite h h.same

theorem Keeps.fetchAll (h : Keeps s₀ s) : Keeps s₀ s.fetchAll := by
  refine h.foldl (fun s p h => ?_) _
  split
  · exact h.taskFault _ _ _
  · exact h

theorem Keeps.tick (h : Keeps s₀ s) : Keeps s₀ s.tick := by
  unfold State.tick
  extract_lets s1 s2 n adv cad pm
  have h1 : Keeps s₀ s1 := h.contend.foldl (fun _ p h => h.payRecord p) _
  have h2 : Keeps s₀ s2 := h1.clearEnded.fetchAll.herdTurn.wilvarTurn
  clear_value s2
  exact Keeps.ite h2.same h

theorem Keeps.withFetchWord (h : Keeps s₀ s) (nbits w) : Keeps s₀ (s.withFetchWord nbits w) :=
  h

end Sys2Proof.Machine
end
section
/-! PROOFS. Every instruction keeps what no command undoes. -/

namespace Sys2Proof.Machine
open Host (Outcome)
variable {s₀ s t : State} {α β : Type} {P : α → Prop} {Q : β → Prop}

/-! ### Results and stops -/

theorem Yields.fault {c i} : Yields s₀ (fun _ : α => True) (.error (.fault c i)) := trivial

theorem Yields.stop {c i} : Yields s₀ P (.error (.fault c i)) := trivial

theorem Yields.ok {a : α} : Yields s₀ (fun _ => True) (.ok a) := trivial

theorem Yields.bind {x : Res α} {f : α → Res β} (hx : Yields s₀ P x) (hf : ∀ a, P a → Yields s₀ Q (f a)) : Yields s₀ Q (x >>= f)
  := by
  cases x with
  | ok a => exact hf a hx
  | error e => exact hx

theorem Yields.ite {c : Prop} [Decidable c] {x y : Res α} (hx : Yields s₀ P x) (hy : Yields s₀ P y) :
    Yields s₀ P (if c then x else y) := by
  split
  · exact hx
  · exact hy

theorem Yields.need (ok c i) : Yields s₀ (fun _ => True) (need ok c i) := by
  unfold Machine.need
  exact Yields.ite trivial trivial

theorem Yields.mono {P' : α → Prop} {x : Res α} (hx : Yields s₀ P x) (hP : ∀ a, P a → P' a) : Yields s₀ P' x := by
  cases x with
  | ok a => exact hP a hx
  | error e => exact hx

theorem Yields.mapM {f : α → Res β} (hf : ∀ a, Yields s₀ (fun _ => True) (f a)) (l : List α) :
    Yields s₀ (fun _ => True) (l.mapM f) := by
  induction l with
  | nil => exact trivial
  | cons a l ih =>
    rw [List.mapM_cons]
    exact (hf a).bind fun _ _ => ih.bind fun _ _ => trivial

theorem Yields.forM {f : α → Res PUnit} (hf : ∀ a, Yields s₀ (fun _ => True) (f a)) (l : List α) :
    Yields s₀ (fun _ => True) (l.forM f) := by
  induction l with
  | nil => exact trivial
  | cons a l ih => exact (hf a).bind fun _ _ => ih

theorem Yields.checkParts (s p parts) : Yields s₀ (fun _ => True) (checkParts s p parts) := by
  unfold Machine.checkParts
  dsimp only
  split
  · exact trivial
  · split
    · exact trivial
    · split
      · exact trivial
      · split
        · exact trivial
        · exact trivial

theorem Yields.checkRuns (s p write runs) : Yields s₀ (fun _ => True) (checkRuns s p write runs) := Yields.checkParts _ _ _

theorem Keeps.access (h : Keeps s₀ s) (p write may does) : Yields s₀ (fun _ => True) (access s p write may does) :=
  (Yields.checkRuns _ _ _ _).bind fun _ _ => h.gate _ _

/-! ### Commands -/

theorem Completes.ite {c : Prop} [Decidable c] {x y : Outcome State Fault Refusal} (hx : Completes s₀ x) (hy : Completes s₀ y) :
    Completes s₀ (if c then x else y) := by
  split
  · exact hx
  · exact hy

variable {k : State → Outcome State Fault Refusal}

theorem Keeps.whenArith (h : Keeps s₀ s) (hk : ∀ s, Keeps s₀ s → Completes s₀ (k s)) : Completes s₀ (whenArith s k) :=
  Completes.ite (hk s h) h.next

theorem Keeps.whenRunning (h : Keeps s₀ s) (hk : ∀ s, Keeps s₀ s → Completes s₀ (k s)) : Completes s₀ (whenRunning s k) :=
  Completes.ite (hk s h) h.next

theorem Keeps.atPolder (h : Keeps s₀ s) (p) (hk : ∀ s, Keeps s₀ s → Completes s₀ (k s)) : Completes s₀ (atPolder s p k) :=
  Completes.ite (hk _ (h.wakeQuad _)) h.next

theorem Keeps.atWeir (h : Keeps s₀ s) (w) (hk : ∀ s, Keeps s₀ s → Completes s₀ (k s)) : Completes s₀ (atWeir s w k) := by
  unfold Machine.atWeir
  split
  · exact h.atPolder _ hk
  · exact h.whenRunning hk

theorem Keeps.whenMgt (h : Keeps s₀ s) (ht : Keeps s₀ t) : Completes s₀ (whenMgt s t) := (Keeps.ite ht h).next

theorem Keeps.whenPldm (h : Keeps s₀ s) (ht : Keeps s₀ t) : Completes s₀ (whenPldm s t) := h.whenMgt ht.interrupt

theorem Keeps.tap (h : Keeps s₀ s) (i) : Completes s₀ (tap s i) := (Keeps.ite h h.same).next

theorem Keeps.issueTo (h : Keeps s₀ s) (p u f) {body : Task → Res (State × U32)}
    (hb : ∀ t, Yields s₀ (fun x => Keeps s₀ x.1) (body t)) : Completes s₀ (issueTo p u f s body) := by
  unfold Machine.issueTo
  split
  · exact h.next
  · refine Completes.ite (h.taskFault _ _ _).next (Completes.ite (h.taskFault _ _ _).next ?_)
    rename_i t _
    have ht := hb t
    split
    · rename_i he
      rw [he] at ht
      exact ((Keeps.reissue ht _ _).setPc _ _).next
    · exact (h.taskFault _ _ _).next
    · rename_i he
      rw [he] at ht
      exact (Keeps.taskFault ht _ _ _).next
    · exact (h.blockOn _ _ _ _).next
    · rename_i he
      rw [he] at ht
      exact Keeps.next ht

theorem Keeps.issue (h : Keeps s₀ s) (p u f) {body : Task → Res State} (hb : ∀ t, Yields s₀ (Keeps s₀) (body t)) :
    Completes s₀ (issue p u f s body) :=
  h.issueTo p u f fun t => (hb t).bind fun _ hs => hs

theorem Keeps.ofHeld {x : Res α} (hx : Yields s₀ P x) (he : x = .error (.held t)) : Keeps s₀ t := by
  rw [he] at hx
  exact hx

theorem Keeps.ofOk {x : Res State} (hx : Yields s₀ (Keeps s₀) x) (he : x = .ok t) : Keeps s₀ t := by
  rw [he] at hx
  exact hx

theorem Yields.needWeir (s p w) : Yields s₀ (fun _ => True) (needWeir s p w) := Yields.need _ _ _

theorem Yields.needSlot (s p n) : Yields s₀ (fun _ => True) (needSlot s p n) := Yields.need _ _ _

theorem Yields.needSpw (s p) : Yields s₀ (fun _ => True) (needSpw s p) := Yields.need _ _ _

theorem Yields.needWeirField (s p w) : Yields s₀ (fun _ => True) (needWeirField s p w) := Yields.ite trivial (Yields.needWeir _ _
  _)

theorem Yields.cxRank (s p n) : Yields s₀ (fun _ => True) (cxRank s p n) := by
  unfold Machine.cxRank
  split
  · exact trivial
  · exact trivial

theorem Keeps.readDesc (h : Keeps s₀ s) (p t r) : Yields s₀ (fun _ => True) (readDesc s p t r) := by
  unfold Machine.readDesc
  have hrest : Yields s₀ (fun _ => True) (do
      need (descWell t.stage.level.toNat (t.dreg (dnum r)) (sideOf s (t.dreg (dnum r)))) 0x0B r.toNat
      let T := tensor (t.dreg (dnum r)) (sideOf s (t.dreg (dnum r)))
      match descMisaligned T with
      | some x => Except.error (.fault 0x0A (BitVec.ofNat 32 x))
      | none => Except.ok ()
      need (descParams T) 0x0C r.toNat
      return T) := by
    refine (Yields.need _ _ _).bind fun _ _ => ?_
    dsimp only
    split
    · exact Yields.fault.bind fun _ _ => (Yields.need _ _ _).bind fun _ _ => trivial
    · exact Yields.ok.bind fun _ _ => (Yields.need _ _ _).bind fun _ _ => trivial
  dsimp only
  split
  · exact (h.gate _ _).bind fun _ _ => hrest
  · exact Yields.ok.bind fun _ _ => hrest

theorem Keeps.checkMask (h : Keeps s₀ s) (p t f D) : Yields s₀ (fun _ => True) (checkMask s p t f D) := by
  unfold Machine.checkMask
  refine Yields.ite ?_ ((Yields.need _ _ _).bind fun _ _ => trivial)
  refine (h.readDesc _ _ _).bind fun _ _ => (Yields.checkParts _ _ _).bind fun _ _ => ?_
  split
  · exact (Yields.need _ _ _).bind fun _ _ => (h.gate _ _).bind fun _ _ => (Yields.need _ _ _).bind fun _ _ => trivial
  · exact trivial

theorem Yields.taskReg (s p k a) : Yields s₀ (fun _ => True) (taskReg s p k a) := by
  unfold Machine.taskReg
  split
  · refine (Yields.need _ _ _).bind fun _ _ => (Yields.need _ _ _).bind fun _ _ => (Yields.need _ _ _).bind fun _ _ => ?_
    split
    · exact trivial
    · exact trivial
  · exact (Yields.need _ _ _).bind fun _ _ => (Yields.need _ _ _).bind fun _ _ => (Yields.need _ _ _).bind fun _ _ => trivial
  · exact (Yields.need _ _ _).bind fun _ _ => (Yields.need _ _ _).bind fun _ _ => trivial

/-! ### Answers of Herd, the node's commands and other shapes of commands -/

/-- An answer whose state keeps all this. -/
def Answers (s₀ : State) (a : Answer) : Prop := Keeps s₀ a.1

theorem Answers.ite {c : Prop} [Decidable c] {x y : Answer} (hx : Answers s₀ x) (hy : Answers s₀ y) : Answers s₀ (if c then x
  else y) := by
  split
  · exact hx
  · exact hy

theorem Keeps.done (h : Keeps s₀ s) : Answers s₀ (done s) := h

theorem Keeps.refusedFor (h : Keeps s₀ s) (r) : Answers s₀ (refusedFor s r) := h

theorem Keeps.refusedPlain (h : Keeps s₀ s) : Answers s₀ (refusedPlain s) := h

theorem Keeps.malformed (h : Keeps s₀ s) : Answers s₀ (malformed s) := h

theorem Keeps.onProgram (h : Keeps s₀ s) (f) {k} (hk : ∀ g P, Answers s₀ (k g P)) : Answers s₀ (onProgram f s k) := by
  unfold Machine.onProgram
  refine Answers.ite h.malformed ?_
  dsimp only
  split
  · exact h.refusedFor 1
  · exact hk _ _

theorem Keeps.herdCommand (h : Keeps s₀ s) (cls) {k : Frame → State → Answer} (hk : ∀ f s, Keeps s₀ s → Answers s₀ (k f s)) :
    Completes s₀ (herdCommand cls s k) := by
  unfold Machine.herdCommand
  split
  · exact h.next
  · rename_i f rest _
    refine Completes.ite h.next ?_
    have hs : Keeps s₀ { s with pnx := { s.pnx with cmds := rest } } := h.same
    have ha := hk f _ hs
    split
    · rename_i he
      rw [he] at ha
      exact (Keeps.skipReserved (Keeps.respond ha _ _ _) _).next
    · rename_i he
      rw [he] at ha
      exact (Keeps.skipReserved ha _).next

theorem Keeps.announced (h : Keeps s₀ s) (kind port a) {k : State → State} (hk : ∀ s, Keeps s₀ s → Keeps s₀ (k s)) :
    Completes s₀ (announced kind port a s k) :=
  Completes.ite h.next (Completes.ite h.next (hk _ (h.flood _ _)).next)

theorem Keeps.attested (h : Keeps s₀ s) {k : Measured → State} (hk : ∀ m, Keeps s₀ (k m)) : Completes s₀ (attested s k) := by
  unfold Machine.attested
  split
  · exact Completes.ite (hk _).interrupt.next h.next
  · exact h.next

theorem Keeps.timerHeld (h : Keeps s₀ s) (p f) {body : Task → Res State} (hb : ∀ t, Yields s₀ (Keeps s₀) (body t)) :
    Completes s₀ (timerHeld p f s body) :=
  h.issue _ _ _ fun t => (Yields.need _ _ _).bind fun _ _ => hb t

theorem Keeps.eeWalk (h : Keeps s₀ s) (op p f t D a b c l) : Keeps s₀ (eeWalk op p f t D a b c s l).1 := by
  induction l generalizing s with
  | nil => exact h
  | cons i l ih => exact ih (h.tensorPut D i _)

/-! ### Instructions -/

theorem Keeps.execFabricPacketForward (h : Keeps s₀ s) (n o now arrivals taken) :
    Completes s₀ (execFabricPacketForward n o now arrivals taken s) := by
  unfold Machine.execFabricPacketForward
  refine h.whenRunning fun s h => ?_
  extract_lets s1 s2 s3 P
  have h1 : Keeps s₀ s1 := h.foldl (fun _ x h => h.packetEnters n now x.1 x.2) _
  have h2 : Keeps s₀ s2 := Keeps.ite h1 (h1.onOut _ _ _)
  have h3 : Keeps s₀ s3 := (h2.startPacket _ _ _ _).startPacket _ _ _ _
  clear_value s3
  split
  · exact h3.next
  · split
    · exact h3.next
    · exact (Keeps.packetLeaves (Keeps.same (h3.onOut n o _)) _ _ _ _).next

theorem Keeps.execPacketPromotion (h : Keeps s₀ s) (n o net inp now) : Completes s₀ (execPacketPromotion n o net inp now s) := by
  unfold Machine.execPacketPromotion
  refine h.whenRunning fun _ h => ?_
  split
  · exact Completes.ite h.next (h.onNet _ _ _ _).same.next
  · exact h.next

theorem Keeps.execActivityTimerExpire (h : Keeps s₀ s) (n inp out now) : Completes s₀ (execActivityTimerExpire n inp out now s)
  := by
  unfold Machine.execActivityTimerExpire
  refine h.whenRunning fun _ h => ?_
  dsimp only
  split
  · exact Completes.ite h.next h.same.next
  · exact h.next

theorem Keeps.execMscAccess (h : Keeps s₀ s) (addr kind x) : Completes s₀ (execMscAccess addr kind x s) :=
  h.whenRunning fun _ h => (h.mscAll _ _).next

theorem Keeps.execMscCtlFlush (h : Keeps s₀ s) (k) : Completes s₀ (execMscCtlFlush k s) :=
  (Keeps.ite (h.mscFlush _) h).next

theorem Keeps.execFlushDone (h : Keeps s₀ s) (k) : Completes s₀ (execFlushDone k s) := by
  unfold Machine.execFlushDone
  split
  · exact h.next
  · exact (h.onMsc _ _).next

theorem Keeps.execMscRangeWrite (h : Keeps s₀ s) (k n lim v) : Completes s₀ (execMscRangeWrite k n lim v s) :=
  (Keeps.ite (h.onMsc _ _) h).next

theorem Keeps.execRefpb (h : Keeps s₀ s) (m ch bank) : Completes s₀ (execRefpb m ch bank s) :=
  Completes.ite h.next (h.onMc _ _).next

theorem Keeps.execTempReportPoll (h : Keeps s₀ s) (m reports) : Completes s₀ (execTempReportPoll m reports s) :=
  Completes.ite h.next (h.onMc _ _).next

theorem Keeps.execWckDriftTracking (h : Keeps s₀ s) (m ch) : Completes s₀ (execWckDriftTracking m ch s) :=
  Completes.ite h.next (h.onMc _ _).next

theorem Keeps.execPatrolScrubRead (h : Keeps s₀ s) (m errs) : Completes s₀ (execPatrolScrubRead m errs s) :=
  Completes.ite h.next ((h.readLine _ _ _).onMc _ _).next

theorem Keeps.execSpareCopyDone (h : Keeps s₀ s) (m) : Completes s₀ (execSpareCopyDone m s) := by
  unfold Machine.execSpareCopyDone
  split
  · exact h.next
  · exact (h.onMc _ _).next

theorem Keeps.execChannelFailure (h : Keeps s₀ s) (m ch) : Completes s₀ (execChannelFailure m ch s) :=
  (Keeps.ite h (h.onMc _ _)).next

theorem Keeps.execWrSignal (h : Keeps s₀ s) (p f) : Completes s₀ (execWrSignal p f s) :=
  h.issue _ _ _ fun _ => (Yields.need _ _ _).bind fun _ _ => (Yields.needWeir _ _ _).bind fun _ _ => h.weirSend _ _ _

theorem Keeps.execWrWait (h : Keeps s₀ s) (p f) : Completes s₀ (execWrWait p f s) :=
  h.issue _ _ _ fun _ => (Yields.needWeir _ _ _).bind fun _ _ => Yields.ite h (((h.watch _ _ _).onPolder _ _).onTask _ _)

theorem Keeps.execWrRead (h : Keeps s₀ s) (p f) : Completes s₀ (execWrRead p f s) :=
  h.issue _ _ _ fun _ => (Yields.needWeir _ _ _).bind fun _ _ => h.onTask _ _

theorem Keeps.execWrRsignal (h : Keeps s₀ s) (p f) : Completes s₀ (execWrRsignal p f s) :=
  h.issue _ _ _ fun _ => (Yields.need _ _ _).bind fun _ _ => (Yields.need _ _ _).bind fun _ _ =>
    (Yields.need _ _ _).bind fun _ _ => (Yields.need _ _ _).bind fun _ _ => h.same

theorem Keeps.execWrSwait (h : Keeps s₀ s) (p f) : Completes s₀ (execWrSwait p f s) :=
  h.issue _ _ _ fun _ => (Yields.needSlot _ _ _).bind fun _ _ => Yields.ite h (h.onTask _ _)

theorem Keeps.setSlot (h : Keeps s₀ s) (full p f) : Completes s₀ (setSlot full p f s) :=
  h.issue _ _ _ fun _ => (Yields.needSlot _ _ _).bind fun _ _ =>
    Yields.ite (Yields.ite (h.same.terpFlag _ _ _) (h.terpFlag _ _ _)) (h.setTag _ _ _)

theorem Keeps.execWrSfree (h : Keeps s₀ s) (p f) : Completes s₀ (execWrSfree p f s) :=
  h.setSlot _ _ _

theorem Keeps.execWrSfill (h : Keeps s₀ s) (p f) : Completes s₀ (execWrSfill p f s) :=
  h.setSlot _ _ _

theorem Keeps.execWaitComplete (h : Keeps s₀ s) (p) : Completes s₀ (execWaitComplete p s) := by
  unfold Machine.execWaitComplete
  refine h.whenArith fun _ h => ?_
  split
  · exact h.next
  · split
    · exact Completes.ite (h.waitDone _).next h.next
    · exact Completes.ite (h.waitDone _).next h.next
    · exact h.next

theorem Keeps.execFenceComplete (h : Keeps s₀ s) (p) : Completes s₀ (execFenceComplete p s) := by
  unfold Machine.execFenceComplete
  refine h.whenArith fun _ h => ?_
  split
  · exact h.next
  · exact Completes.ite (h.waitDone _).next h.next

theorem Keeps.execWaitTimeout (h : Keeps s₀ s) (p) : Completes s₀ (execWaitTimeout p s) := by
  unfold Machine.execWaitTimeout
  refine h.whenArith fun _ h => ?_
  split
  · exact h.next
  · split
    · exact h.next
    · refine Completes.ite h.next (Completes.ite ?_ ?_)
      · split
        · exact (h.onTask _ _).next
        · exact (h.waitDone _).next
      · split
        · exact (h.taskFault _ _ _).next
        · exact (h.taskFault _ _ _).next
        · exact (h.taskFault _ _ _).next
        · exact (h.same.taskFault _ _ _).next

theorem Keeps.execWeirAddWrite (h : Keeps s₀ s) (w v) : Completes s₀ (execWeirAddWrite w v s) :=
  h.atWeir _ fun _ h => (h.weirAddReg _ _).next

theorem Keeps.execWeirSetWrite (h : Keeps s₀ s) (w v) : Completes s₀ (execWeirSetWrite w v s) :=
  h.atWeir _ fun _ h => (h.weirSetReg _ _).next

theorem Keeps.execWeirThreshWrite (h : Keeps s₀ s) (w v) : Completes s₀ (execWeirThreshWrite w v s) :=
  h.atWeir _ fun _ h => (h.weirThreshReg _ _).next

theorem Keeps.execWeirCtlWrite (h : Keeps s₀ s) (w v) : Completes s₀ (execWeirCtlWrite w v s) :=
  h.atWeir _ fun _ h => (h.weirCtlReg _ _).next

theorem Keeps.execWeirUpdateArrival (h : Keeps s₀ s) (w) : Completes s₀ (execWeirUpdateArrival w s) := by
  unfold Machine.execWeirUpdateArrival
  split
  · exact h.next
  · exact Completes.ite h.next (h.atWeir _ fun _ h => (h.same.weirAdd _ _).next)

theorem Keeps.execCommandFrame (h : Keeps s₀ s) (lane f) : Completes s₀ (execCommandFrame lane f s) :=
  Completes.ite h.next (Completes.ite (h.frameDropped _).next (Completes.ite (Completes.ite ((h.frameIn.same.ackOn _ _
    _).skipReserved _).next (h.frameIn.same.ackOn _ _ _).next) (Completes.ite (h.frameIn.ackOn _ _ _).next (h.frameIn.ackOn _ _
    _).next)))

theorem Keeps.execHeartbeatFrame (h : Keeps s₀ s) (lane f) : Completes s₀ (execHeartbeatFrame lane f s) :=
  Completes.ite h.next (Completes.ite (h.frameDropped _).next (h.frameIn.ackOn _ _ _).next)

theorem Keeps.execAckFrame (h : Keeps s₀ s) (lane f) : Completes s₀ (execAckFrame lane f s) :=
  Completes.ite h.next (Completes.ite (h.frameDropped _).next (Completes.ite (h.frameIn.same.skipReserved _).next (Completes.ite
    (h.frameIn.resendFrom _ _).next h.frameIn.next)))

theorem Keeps.execFrameResendTimeout (h : Keeps s₀ s) : Completes s₀ (execFrameResendTimeout s) := by
  unfold Machine.execFrameResendTimeout
  refine Completes.ite h.next ?_
  split
  · exact h.next
  · exact (h.resendFrom _ _).next

theorem Keeps.execHeartbeatIdleTimeout (h : Keeps s₀ s) (lane) : Completes s₀ (execHeartbeatIdleTimeout lane s) :=
  Completes.ite h.next h.same.next

theorem Keeps.execControlLinkLost (h : Keeps s₀ s) : Completes s₀ (execControlLinkLost s) :=
  Completes.ite h.next h.same.next

theorem Keeps.execPnxSendGo (h : Keeps s₀ s) (v) : Completes s₀ (execPnxSendGo v s) :=
  h.whenRunning fun _ h => (h.sendWrite _).next

theorem Keeps.execStreamCredit (h : Keeps s₀ s) (type count) : Completes s₀ (execStreamCredit type count s) :=
  Completes.ite h.next (h.creditBack _ _).next

theorem Keeps.execStreamNak (h : Keeps s₀ s) (lseq) : Completes s₀ (execStreamNak lseq s) :=
  Completes.ite h.next (h.replayFrom _).next

theorem Keeps.execStreamLaneRetrain (h : Keeps s₀ s) (working) : Completes s₀ (execStreamLaneRetrain working s) := by
  unfold Machine.execStreamLaneRetrain
  refine Completes.ite h.next (Keeps.next ?_)
  split
  · exact (h.same.replayFrom _).pumpAll
  · exact h.same.pumpAll

theorem Keeps.execWilvarTrain (h : Keeps s₀ s) (w lanes) : Completes s₀ (execWilvarTrain w lanes s) :=
  Completes.ite h.next (Completes.ite (h.onWlv _ _).same.next (h.onWlv _ _).next)

theorem Keeps.execWilvarPeerExchange (h : Keeps s₀ s) (w jobId coord) : Completes s₀ (execWilvarPeerExchange w jobId coord s) :=
  Completes.ite h.next (Keeps.ite (h.onWlv _ _) ((h.onWlv _ _).herdEvent _ _)).next

theorem Keeps.execWilvarPacketArrival (h : Keeps s₀ s) (w k) : Completes s₀ (execWilvarPacketArrival w k s) := by
  unfold Machine.execWilvarPacketArrival
  refine Completes.ite h.next (Completes.ite ?_ ?_)
  · dsimp only
    split
    · split
      · exact ((h.onWlv _ _).refusedBy _ _ _).next
      · exact (h.onWlv _ _).next
    · exact ((h.onWlv _ _).deliver _).next
  · split
    · exact h.next
    · exact Completes.ite h.next ((h.onWlv _ _).queueAt _ _ _).next

theorem Keeps.execWilvarFlitReplay (h : Keeps s₀ s) (w) : Completes s₀ (execWilvarFlitReplay w s) :=
  Completes.ite h.next (h.onWlv _ _).next

theorem Keeps.execWakePatternRepeat (h : Keeps s₀ s) (w) : Completes s₀ (execWakePatternRepeat w s) :=
  Completes.ite h.next (h.onWlv _ _).next

theorem Keeps.execWilvarPortDown (h : Keeps s₀ s) (w) : Completes s₀ (execWilvarPortDown w s) :=
  (Keeps.ite (h.onWlv _ _) h).next

theorem Keeps.execSyncExchange (h : Keeps s₀ s) (t') : Completes s₀ (execSyncExchange t' s) := by
  unfold Machine.execSyncExchange
  dsimp only
  split
  · exact h.next
  · exact Completes.ite h.next (Keeps.ite ((Keeps.ite h (h.stepTimebase _)).same.announce _ _) (Keeps.ite h (h.stepTimebase
      _)).same).next

theorem Keeps.execParentPortDown (h : Keeps s₀ s) : Completes s₀ (execParentPortDown s) := by
  unfold Machine.execParentPortDown
  dsimp only
  split
  · exact h.next
  · refine Completes.ite h.next ?_
    split
    · exact h.same.next
    · exact h.same.next

theorem Keeps.execAnnounceLocked (h : Keeps s₀ s) (port a) : Completes s₀ (execAnnounceLocked port a s) :=
  h.announced _ _ _ fun _ h => h.holdAnnounce _

theorem Keeps.execAnnounceTarget (h : Keeps s₀ s) (port a) : Completes s₀ (execAnnounceTarget port a s) :=
  h.announced _ _ _ fun _ h => h.holdAnnounce _

theorem Keeps.execAnnounceCap (h : Keeps s₀ s) (port a) : Completes s₀ (execAnnounceCap port a s) :=
  h.announced _ _ _ fun _ h => h.holdAnnounce _

theorem Keeps.execAnnounceRelease (h : Keeps s₀ s) (port a) : Completes s₀ (execAnnounceRelease port a s) :=
  h.announced _ _ _ fun _ h => h.holdAnnounce _

theorem Keeps.execAnnounceHalt (h : Keeps s₀ s) (port a) : Completes s₀ (execAnnounceHalt port a s) :=
  h.announced _ _ _ fun _ h => h.same.haltFrom _

theorem Keeps.execAnnounceResume (h : Keeps s₀ s) (port a) : Completes s₀ (execAnnounceResume port a s) :=
  h.announced _ _ _ fun _ h => h.resumeFrom _

theorem Keeps.execEpochBoundary (h : Keeps s₀ s) (i) : Completes s₀ (execEpochBoundary i s) :=
  Completes.ite h.next ((h.same.setPoint _).learn _).same.refreshCap.target.same.next

theorem Keeps.execCurrentReport (h : Keeps s₀ s) (r mean) : Completes s₀ (execCurrentReport r mean s) :=
  Completes.ite h.next (Completes.ite (Keeps.ite (Keeps.ite h (h.closeWindow _ _)).same.same (Keeps.ite h (h.closeWindow _
    _)).same).next (Keeps.ite (Keeps.ite (Keeps.ite h (h.closeWindow _ _)).same.same (Keeps.ite h (h.closeWindow _
    _)).same).same.noteSluice.refreshCap (Keeps.ite (Keeps.ite h (h.closeWindow _ _)).same.same (Keeps.ite h (h.closeWindow _
    _)).same).same).next)

theorem Keeps.execLimitWindowClose (h : Keeps s₀ s) (r) : Completes s₀ (execLimitWindowClose r s) :=
  Completes.ite h.next (h.closeWindow _ _).next

theorem Keeps.execAlertPulseEnd (h : Keeps s₀ s) : Completes s₀ (execAlertPulseEnd s) := by
  unfold Machine.execAlertPulseEnd
  split
  · exact h.next
  · exact Completes.ite h.next h.same.next

theorem Keeps.execDroopDetect (h : Keeps s₀ s) (q) : Completes s₀ (execDroopDetect q s) :=
  Completes.ite h.next h.same.next

theorem Keeps.execDroopRelease (h : Keeps s₀ s) (q) : Completes s₀ (execDroopRelease q s) :=
  (Keeps.ite h.same h).next

theorem Keeps.execEstimateIntervalClose (h : Keeps s₀ s) (railNj inputNj) : Completes s₀ (execEstimateIntervalClose railNj
  inputNj s) :=
  Completes.ite h.next h.same.next

theorem Keeps.execBermStep (h : Keeps s₀ s) (q b) : Completes s₀ (execBermStep q b s) :=
  Completes.ite h.next h.same.next

theorem Keeps.execA1Entry (h : Keeps s₀ s) (q) : Completes s₀ (execA1Entry q s) :=
  Completes.ite h.next h.same.next

theorem Keeps.execPmCtlS1Req (h : Keeps s₀ s) : Completes s₀ (execPmCtlS1Req s) :=
  (h.request _).next

theorem Keeps.execPmCtlS2Req (h : Keeps s₀ s) : Completes s₀ (execPmCtlS2Req s) :=
  (h.request _).next

theorem Keeps.execS1IdleTimeout (h : Keeps s₀ s) : Completes s₀ (execS1IdleTimeout s) :=
  Completes.ite h.next (h.enter _).next

theorem Keeps.execPowerStateEntryComplete (h : Keeps s₀ s) : Completes s₀ (execPowerStateEntryComplete s) := by
  unfold Machine.execPowerStateEntryComplete
  split
  · exact h.next
  · exact Completes.ite (Keeps.next ⟨h.pending, h.fuses, h.lock, fun hm => Memory.wf_filter (h.memory hm) _⟩) h.same.next

theorem Keeps.execWakeNAssert (h : Keeps s₀ s) : Completes s₀ (execWakeNAssert s) :=
  (h.wakeSource _).next

theorem Keeps.execLinkSignalDetect (h : Keeps s₀ s) (src pattern) : Completes s₀ (execLinkSignalDetect src pattern s) := by
  unfold Machine.execLinkSignalDetect
  refine Completes.ite h.next ?_
  split
  · exact (h.wakeSource _).next
  · exact ((Keeps.ite (h.onWlv _ _) h).wakeSource _).next

theorem Keeps.execGanderSample (h : Keeps s₀ s) (n src value) : Completes s₀ (execGanderSample n src value s) :=
  Completes.ite h.next (Completes.ite (Keeps.ite ((Keeps.ite h.trip h).holdG7 _) (Keeps.ite h.trip h)).next ((Keeps.ite
    (Keeps.ite ((Keeps.ite h.trip h).holdG7 _) (Keeps.ite h.trip h)).same.same (Keeps.ite ((Keeps.ite h.trip h).holdG7 _)
    (Keeps.ite h.trip h)).same).comparator _ _).next)

theorem Keeps.execTripRestart (h : Keeps s₀ s) : Completes s₀ (execTripRestart s) := by
  unfold Machine.execTripRestart
  split
  · exact h.next
  · exact Completes.ite h.next ((h.same.refreshCap.announce _ _).resumeFrom _).next

theorem Keeps.execGanderCmpWrite (h : Keeps s₀ s) (n v) : Completes s₀ (execGanderCmpWrite n v s) :=
  h.whenRunning fun _ h => (h.ganderWrite _ _ _).next

theorem Keeps.execGanderThrWrite (h : Keeps s₀ s) (n v) : Completes s₀ (execGanderThrWrite n v s) :=
  h.whenRunning fun _ h => (h.ganderWrite _ _ _).next

theorem Keeps.execTerpPatrolScrub (h : Keeps s₀ s) (p addr ecc) : Completes s₀ (execTerpPatrolScrub p addr ecc s) := by
  unfold Machine.execTerpPatrolScrub
  dsimp only
  refine Completes.ite h.next ?_
  split
  · exact h.next
  · exact (h.onSite _ _).next
  · exact (h.wordLost _ _).next
  · exact (h.wordLost _ _).next

theorem Keeps.execRefetchDone (h : Keeps s₀ s) (p slot) : Completes s₀ (execRefetchDone p slot s) := by
  unfold Machine.execRefetchDone
  dsimp only
  refine Completes.ite h.next ?_
  split
  · exact h.same.next
  · exact ((h.same.putBytes _ _).onSite _ _).next

theorem Keeps.execCkptCtlGo (h : Keeps s₀ s) (v) : Completes s₀ (execCkptCtlGo v s) :=
  h.whenRunning fun _ h => (h.ckptWrite _).next

theorem Keeps.execCkptCopyDone (h : Keeps s₀ s) (ue) : Completes s₀ (execCkptCopyDone ue s) :=
  Completes.ite h.next (Completes.ite h.same.next (Completes.ite h.same.next (h.same.putBytes _ _).next))

theorem Keeps.execGetVersion (h : Keeps s₀ s) : Completes s₀ (execGetVersion s) :=
  h.attested fun _ => h.answer _

theorem Keeps.execGetCapabilities (h : Keeps s₀ s) : Completes s₀ (execGetCapabilities s) :=
  h.attested fun _ => h.answer _

theorem Keeps.execNegotiateAlgorithms (h : Keeps s₀ s) (asym hash) : Completes s₀ (execNegotiateAlgorithms asym hash s) :=
  h.attested fun _ => Keeps.ite (h.same.answer _) (h.spdmError _ _)

theorem Keeps.execGetDigests (h : Keeps s₀ s) : Completes s₀ (execGetDigests s) :=
  h.attested fun _ => h.answer _

theorem Keeps.execGetCertificate (h : Keeps s₀ s) (slot offset len) : Completes s₀ (execGetCertificate slot offset len s) :=
  h.attested fun _ => Keeps.ite (h.spdmError _ _) (h.answer _)

theorem Keeps.execChallenge (h : Keeps s₀ s) (slot nonce) : Completes s₀ (execChallenge slot nonce s) :=
  h.attested fun _ => Keeps.ite (h.spdmError _ _) (h.answer _)

theorem Keeps.execGetMeasurements (h : Keeps s₀ s) (index signed nonce) : Completes s₀ (execGetMeasurements index signed nonce s)
  := by
  unfold Machine.execGetMeasurements
  refine h.attested fun _ => ?_
  dsimp only
  split
  · exact h.spdmError _ _
  · exact h.answer _

theorem Keeps.execUnsupportedRequest (h : Keeps s₀ s) (code) : Completes s₀ (execUnsupportedRequest code s) :=
  h.attested fun _ => h.spdmError _ _

theorem Keeps.execDebugToken (h : Keeps s₀ s) (tok entropy) : Completes s₀ (execDebugToken tok entropy s) :=
  Completes.ite h.next h.same.next

theorem Keeps.execSecDbgRevoke (h : Keeps s₀ s) : Completes s₀ (execSecDbgRevoke s) :=
  h.whenRunning fun _ h => h.revoke.next

theorem Keeps.execSecDbgNewNonce (h : Keeps s₀ s) (entropy) : Completes s₀ (execSecDbgNewNonce entropy s) :=
  h.whenRunning fun _ h => h.same.next

theorem Keeps.execInputValid (h : Keeps s₀ s) (straps b) : Completes s₀ (execInputValid straps b s) :=
  Completes.ite h.next (h.unpowered.same.fromMgt _).next

theorem Keeps.execVinUndervoltage (h : Keeps s₀ s) : Completes s₀ (execVinUndervoltage s) :=
  h.powerDown.next

theorem Keeps.execVinOvervoltage (h : Keeps s₀ s) : Completes s₀ (execVinOvervoltage s) :=
  h.powerDown.next

theorem Keeps.execEnInFall (h : Keeps s₀ s) : Completes s₀ (execEnInFall s) :=
  h.powerDown.same.next

theorem Keeps.execMrstN (h : Keeps s₀ s) (b) : Completes s₀ (execMrstN b s) :=
  Completes.ite h.next (Completes.ite h.same.next (h.mrst _).next)

theorem Keeps.execFlashWriteComplete (h : Keeps s₀ s) : Completes s₀ (execFlashWriteComplete s) := by
  unfold Machine.execFlashWriteComplete
  refine Completes.ite h.next (Completes.ite h.same.unpowered.same.next ?_)
  split
  · exact (h.same.mrst _).next
  · exact h.same.next

theorem Keeps.execWake (h : Keeps s₀ s) (b) : Completes s₀ (execWake b s) :=
  Completes.ite h.next (Completes.ite h.wakeS1.next (Completes.ite (h.wakeS2 _).next h.next))

theorem Keeps.execI3cSetdasa (h : Keeps s₀ s) (static dyn) : Completes s₀ (execI3cSetdasa static dyn s) :=
  h.whenMgt (Keeps.ite h.same h)

theorem Keeps.execI3cEntdaa (h : Keeps s₀ s) (dyn) : Completes s₀ (execI3cEntdaa dyn s) :=
  h.whenMgt (Keeps.ite h.same h)

theorem Keeps.execI3cSetnewda (h : Keeps s₀ s) (dyn) : Completes s₀ (execI3cSetnewda dyn s) :=
  h.whenMgt (Keeps.ite h h.same)

theorem Keeps.execI3cRstdaa (h : Keeps s₀ s) : Completes s₀ (execI3cRstdaa s) :=
  h.whenMgt h.same

theorem Keeps.execI3cGetpid (h : Keeps s₀ s) : Completes s₀ (execI3cGetpid s) :=
  h.whenMgt h.same

theorem Keeps.execI3cGetbcr (h : Keeps s₀ s) : Completes s₀ (execI3cGetbcr s) :=
  h.whenMgt h.same

theorem Keeps.execI3cGetdcr (h : Keeps s₀ s) : Completes s₀ (execI3cGetdcr s) :=
  h.whenMgt h.same

theorem Keeps.execI3cGetstatus (h : Keeps s₀ s) : Completes s₀ (execI3cGetstatus s) :=
  h.whenMgt h.same.same

theorem Keeps.execI3cEnec (h : Keeps s₀ s) (ev) : Completes s₀ (execI3cEnec ev s) :=
  h.whenMgt h.same

theorem Keeps.execI3cDisec (h : Keeps s₀ s) (ev) : Completes s₀ (execI3cDisec ev s) :=
  h.whenMgt h.same

theorem Keeps.execI3cGetmwl (h : Keeps s₀ s) : Completes s₀ (execI3cGetmwl s) :=
  h.whenMgt h.same

theorem Keeps.execI3cSetmwl (h : Keeps s₀ s) (len) : Completes s₀ (execI3cSetmwl len s) :=
  h.whenMgt h.same

theorem Keeps.execI3cGetmrl (h : Keeps s₀ s) : Completes s₀ (execI3cGetmrl s) :=
  h.whenMgt h.same

theorem Keeps.execI3cSetmrl (h : Keeps s₀ s) (len) : Completes s₀ (execI3cSetmrl len s) :=
  h.whenMgt h.same

theorem Keeps.execPldmSensorRead (h : Keeps s₀ s) (id) : Completes s₀ (execPldmSensorRead id s) :=
  h.whenPldm (Keeps.ite (h.sensorValue _) h.notReady)

theorem Keeps.execPldmEnterS1 (h : Keeps s₀ s) : Completes s₀ (execPldmEnterS1 s) :=
  h.whenPldm (Keeps.ite (h.enter _) h.notReady)

theorem Keeps.execPldmEnterS2 (h : Keeps s₀ s) : Completes s₀ (execPldmEnterS2 s) :=
  h.whenPldm (Keeps.ite (h.enter _) h.notReady)

theorem Keeps.execPldmClearLockout (h : Keeps s₀ s) : Completes s₀ (execPldmClearLockout s) :=
  h.whenPldm (Keeps.ite h.same h.notReady)

theorem Keeps.execPldmBurnDebugLock (h : Keeps s₀ s) : Completes s₀ (execPldmBurnDebugLock s) :=
  h.whenPldm (Keeps.ite ⟨h.pending, h.fuses, fun _ => rfl, h.memory⟩ h.notReady)

theorem Keeps.execPldmFwUpdateImage (h : Keeps s₀ s) (i) : Completes s₀ (execPldmFwUpdateImage i s) :=
  h.whenMgt (h.update (.image i) (h.updateImage i))

theorem Keeps.execPldmFwUpdateCalibration (h : Keeps s₀ s) (c) : Completes s₀ (execPldmFwUpdateCalibration c s) :=
  h.whenMgt (h.update (.calibration c) (h.updateCal c))

theorem Keeps.execPldmSteppingRead (h : Keeps s₀ s) : Completes s₀ (execPldmSteppingRead s) :=
  h.whenPldm h.same

theorem Keeps.execMgtSbCfgWrite (h : Keeps s₀ s) (n v) : Completes s₀ (execMgtSbCfgWrite n v s) :=
  h.whenRunning fun _ h => (h.sbWrite _ _).next

theorem Keeps.execTapBypass (h : Keeps s₀ s) : Completes s₀ (execTapBypass s) :=
  h.tap _

theorem Keeps.execTapIdcode (h : Keeps s₀ s) : Completes s₀ (execTapIdcode s) :=
  Completes.ite h.next (h.same.tap _)

theorem Keeps.execTapSamplePreload (h : Keeps s₀ s) (pins preload) : Completes s₀ (execTapSamplePreload pins preload s) :=
  Completes.ite h.next (h.same.tap _)

theorem Keeps.execTapExtest (h : Keeps s₀ s) : Completes s₀ (execTapExtest s) :=
  h.tap _

theorem Keeps.execTapClamp (h : Keeps s₀ s) : Completes s₀ (execTapClamp s) :=
  h.tap _

theorem Keeps.execTapHighz (h : Keeps s₀ s) : Completes s₀ (execTapHighz s) :=
  h.tap _

theorem Keeps.ctlOp (h : Keeps s₀ s) (g p f) : Completes s₀ (ctlOp g p f s) :=
  h.issue _ _ _ fun _ => h.onTask _ _

theorem Keeps.ctlImm (h : Keeps s₀ s) (used g p f) : Completes s₀ (ctlImm used g p f s) :=
  h.issue _ _ _ fun _ => h.onTask _ _

theorem Keeps.branch (h : Keeps s₀ s) (u cond p f) : Completes s₀ (branch u cond p f s) :=
  h.issueTo _ _ _ fun _ => Yields.ite (Yields.ite h Yields.stop) h

theorem Keeps.execCtlNop (h : Keeps s₀ s) (p f) : Completes s₀ (execCtlNop p f s) :=
  h.issue _ _ _ fun _ => h

theorem Keeps.execCtlEnd (h : Keeps s₀ s) (p f) : Completes s₀ (execCtlEnd p f s) :=
  h.issueTo _ _ _ fun _ => h.onTask _ _

theorem Keeps.execCtlJmp (h : Keeps s₀ s) (p f) : Completes s₀ (execCtlJmp p f s) :=
  h.branch _ _ _ _

theorem Keeps.execCtlBeq (h : Keeps s₀ s) (p f) : Completes s₀ (execCtlBeq p f s) :=
  h.branch _ _ _ _

theorem Keeps.execCtlBne (h : Keeps s₀ s) (p f) : Completes s₀ (execCtlBne p f s) :=
  h.branch _ _ _ _

theorem Keeps.execCtlBlt (h : Keeps s₀ s) (p f) : Completes s₀ (execCtlBlt p f s) :=
  h.branch _ _ _ _

theorem Keeps.execCtlBge (h : Keeps s₀ s) (p f) : Completes s₀ (execCtlBge p f s) :=
  h.branch _ _ _ _

theorem Keeps.execCtlBltu (h : Keeps s₀ s) (p f) : Completes s₀ (execCtlBltu p f s) :=
  h.branch _ _ _ _

theorem Keeps.execCtlBgeu (h : Keeps s₀ s) (p f) : Completes s₀ (execCtlBgeu p f s) :=
  h.branch _ _ _ _

theorem Keeps.execCtlAdd (h : Keeps s₀ s) (p f) : Completes s₀ (execCtlAdd p f s) :=
  h.ctlOp _ _ _

theorem Keeps.execCtlSub (h : Keeps s₀ s) (p f) : Completes s₀ (execCtlSub p f s) :=
  h.ctlOp _ _ _

theorem Keeps.execCtlMul (h : Keeps s₀ s) (p f) : Completes s₀ (execCtlMul p f s) :=
  h.ctlOp _ _ _

theorem Keeps.execCtlAnd (h : Keeps s₀ s) (p f) : Completes s₀ (execCtlAnd p f s) :=
  h.ctlOp _ _ _

theorem Keeps.execCtlOr (h : Keeps s₀ s) (p f) : Completes s₀ (execCtlOr p f s) :=
  h.ctlOp _ _ _

theorem Keeps.execCtlXor (h : Keeps s₀ s) (p f) : Completes s₀ (execCtlXor p f s) :=
  h.ctlOp _ _ _

theorem Keeps.execCtlShl (h : Keeps s₀ s) (p f) : Completes s₀ (execCtlShl p f s) :=
  h.ctlOp _ _ _

theorem Keeps.execCtlShr (h : Keeps s₀ s) (p f) : Completes s₀ (execCtlShr p f s) :=
  h.ctlOp _ _ _

theorem Keeps.execCtlSra (h : Keeps s₀ s) (p f) : Completes s₀ (execCtlSra p f s) :=
  h.ctlOp _ _ _

theorem Keeps.execCtlAddi (h : Keeps s₀ s) (p f) : Completes s₀ (execCtlAddi p f s) :=
  h.ctlImm _ _ _ _

theorem Keeps.execCtlShli (h : Keeps s₀ s) (p f) : Completes s₀ (execCtlShli p f s) :=
  h.ctlImm _ _ _ _

theorem Keeps.execCtlShri (h : Keeps s₀ s) (p f) : Completes s₀ (execCtlShri p f s) :=
  h.ctlImm _ _ _ _

theorem Keeps.execCtlAndi (h : Keeps s₀ s) (p f) : Completes s₀ (execCtlAndi p f s) :=
  h.ctlImm _ _ _ _

theorem Keeps.execCtlLi (h : Keeps s₀ s) (p f) : Completes s₀ (execCtlLi p f s) :=
  h.issue _ _ _ fun _ => h.onTask _ _

theorem Keeps.execCtlTime (h : Keeps s₀ s) (p f) : Completes s₀ (execCtlTime p f s) :=
  h.issue _ _ _ fun _ => h.onTask _ _

theorem Keeps.execCtlTimerClaim (h : Keeps s₀ s) (p f) : Completes s₀ (execCtlTimerClaim p f s) :=
  h.issue _ _ _ fun _ => Yields.ite (h.setOwner _ _) h.claimRefused

theorem Keeps.execCtlTimerArm (h : Keeps s₀ s) (p f) : Completes s₀ (execCtlTimerArm p f s) :=
  h.timerHeld _ _ fun _ => (Yields.need _ _ _).bind fun _ _ => h.onTimer _ _

theorem Keeps.execCtlTimerRelease (h : Keeps s₀ s) (p f) : Completes s₀ (execCtlTimerRelease p f s) :=
  h.timerHeld _ _ fun _ => (h.setOwner _ _).onTimer _ _

theorem Keeps.execCtlTimerRead (h : Keeps s₀ s) (p f) : Completes s₀ (execCtlTimerRead p f s) :=
  h.timerHeld _ _ fun _ => h.onTask _ _

theorem Keeps.execTimerExpiry (h : Keeps s₀ s) (n) : Completes s₀ (execTimerExpiry n s) :=
  Completes.ite (h.onTimer _ _).same.next h.next

theorem Keeps.execTerpTagOp (h : Keeps s₀ s) (p v) : Completes s₀ (execTerpTagOp p v s) :=
  h.atPolder _ fun _ h => (h.tagOpWrite _ _).next

theorem Keeps.execTagOpDone (h : Keeps s₀ s) (p) : Completes s₀ (execTagOpDone p s) := by
  unfold Machine.execTagOpDone
  refine h.whenRunning fun _ h => ?_
  split
  · exact h.next
  · exact (h.onTerp _ _).next

theorem Keeps.execTerpBankCtlWrite (h : Keeps s₀ s) (p b v) : Completes s₀ (execTerpBankCtlWrite p b v s) :=
  h.atPolder _ fun _ h => (h.bankWrite _ _ _).next

theorem Keeps.execBankReady (h : Keeps s₀ s) (p b) : Completes s₀ (execBankReady p b s) :=
  h.whenRunning fun _ h => Completes.ite (h.onTerp _ _).next h.next

theorem Keeps.execTerpRwinCtlWrite (h : Keeps s₀ s) (p w v) : Completes s₀ (execTerpRwinCtlWrite p w v s) :=
  h.atPolder _ fun _ h => (h.windowWrite _ _ _).next

theorem Keeps.execRemotePacketArrival (h : Keeps s₀ s) (p) : Completes s₀ (execRemotePacketArrival p s) := by
  unfold Machine.execRemotePacketArrival
  refine h.atPolder _ fun s h => ?_
  split
  · exact h.next
  · refine Completes.ite (h.refuseLanding _ _).next ?_
    split
    · split
      · exact ((h.land _ _ _ _).popLanding _).next
      · exact (Keeps.keepLanding (Keeps.ofHeld (h.gate _ _) (by assumption)) _ _).next
      · exact (h.keepLanding _ _).next
    · split
      · exact (Keeps.popLanding h.same _).next
      · exact (Keeps.keepLanding (Keeps.ofHeld (h.gate _ _) (by assumption)) _ _).next
      · exact (h.keepLanding _ _).next
    · exact ((h.weirSend _ _ _).popLanding _).next
    · exact (h.popLanding _).next

theorem Keeps.execLaunchCommit (h : Keeps s₀ s) (p w7) : Completes s₀ (execLaunchCommit p w7 s) :=
  h.atPolder _ fun _ h => (h.launchWord _ _ _).next

theorem Keeps.execTaskStart (h : Keeps s₀ s) (p) : Completes s₀ (execTaskStart p s) := by
  unfold Machine.execTaskStart
  refine h.whenArith fun _ h => ?_
  dsimp only
  split
  · exact (h.payRecord _).next
  · refine Completes.ite (h.payRecord _).next ?_
    split
    · exact ((h.onSeq _ _).launchFault _ _ _ _).next
    · refine Completes.ite ((h.onSeq _ _).launchFault _ _ _ _).next (Completes.ite ?_ ((h.onSeq _ _).onPolder _ _).next)
      split
      · exact (Keeps.ofHeld (h.gate _ _) (by assumption)).next
      · exact h.next
      · exact ((((h.onSeq _ _).complete _ _).onSeq _ _).signalEnd _ _).next

theorem Keeps.execTaskEnd (h : Keeps s₀ s) (p) : Completes s₀ (execTaskEnd p s) := by
  unfold Machine.execTaskEnd
  refine h.whenArith fun _ h => ?_
  split
  · exact h.next
  · refine Completes.ite h.next (Completes.ite (h.taskFaultAt _ _ _ _).next ?_)
    split
    · exact (Keeps.ofHeld (h.gate _ _) (by assumption)).next
    · exact h.next
    · exact ((((h.same.complete _ _).onSeq _ _).dropTask _).signalEnd _ _).next

theorem Keeps.execSeqCtlFlush (h : Keeps s₀ s) (p) : Completes s₀ (execSeqCtlFlush p s) :=
  h.atPolder _ fun _ h => (h.seqFlush _).next

theorem Keeps.execSeqCtlAbort (h : Keeps s₀ s) (p) : Completes s₀ (execSeqCtlAbort p s) :=
  h.atPolder _ fun _ h => (h.seqAbort _).next

theorem Keeps.execSeqCtlResume (h : Keeps s₀ s) (p) : Completes s₀ (execSeqCtlResume p s) :=
  h.atPolder _ fun _ h => (h.seqResume _).next

theorem Keeps.execResClaimClaim (h : Keeps s₀ s) (owner entry) : Completes s₀ (execResClaimClaim owner entry s) :=
  h.whenRunning fun _ h => (h.resClaim _ _).next

theorem Keeps.execResClaimRelease (h : Keeps s₀ s) (owner entry) : Completes s₀ (execResClaimRelease owner entry s) :=
  h.whenRunning fun _ h => (h.resRelease _ _).next

theorem Keeps.execMvLd (h : Keeps s₀ s) (p f) : Completes s₀ (execMvLd p f s) := by
  unfold Machine.execMvLd
  dsimp only
  refine h.issue _ _ _ fun _ => Yields.ite ((Yields.taskReg _ _ _ _).bind fun _ _ => ?_) ((Yields.need _ _ _).bind fun _ _ =>
    (h.access _ _ _ _).bind fun _ _ => Keeps.ite (h.onTask _ _) (h.onTask _ _).same)
  split
  · exact (h.moveCounter _ _).onTask _ _
  · exact h.onTask _ _

theorem Keeps.execMvSt (h : Keeps s₀ s) (p f) : Completes s₀ (execMvSt p f s) := by
  unfold Machine.execMvSt
  dsimp only
  refine h.issue _ _ _ fun _ => Yields.ite ((Yields.taskReg _ _ _ _).bind fun _ _ => ?_) ((Yields.need _ _ _).bind fun _ _ =>
    (h.access _ _ _ _).bind fun _ _ => h.putBytes _ _)
  split
  · exact h.windowStore _ _ _
  · exact h

theorem Keeps.execMvLane (h : Keeps s₀ s) (p f) : Completes s₀ (execMvLane p f s) :=
  h.issue _ _ _ fun _ => h.onTask _ _

theorem Keeps.execMvSplat (h : Keeps s₀ s) (p f) : Completes s₀ (execMvSplat p f s) :=
  h.issue _ _ _ fun _ => h.onTask _ _

theorem Keeps.execMvDget (h : Keeps s₀ s) (p f) : Completes s₀ (execMvDget p f s) :=
  h.issue _ _ _ fun _ => h.onTask _ _

theorem Keeps.execMvDput (h : Keeps s₀ s) (p f) : Completes s₀ (execMvDput p f s) :=
  h.issue _ _ _ fun _ => h.onTask _ _

theorem Keeps.execMvMand (h : Keeps s₀ s) (p f) : Completes s₀ (execMvMand p f s) :=
  h.issue _ _ _ fun _ => h.onTask _ _

theorem Keeps.execMvMor (h : Keeps s₀ s) (p f) : Completes s₀ (execMvMor p f s) :=
  h.issue _ _ _ fun _ => h.onTask _ _

theorem Keeps.execMvMnot (h : Keeps s₀ s) (p f) : Completes s₀ (execMvMnot p f s) :=
  h.issue _ _ _ fun _ => h.onTask _ _

theorem Keeps.execMvMset (h : Keeps s₀ s) (p f) : Completes s₀ (execMvMset p f s) :=
  h.issue _ _ _ fun _ => h.onTask _ _

theorem Keeps.execMvCopy (h : Keeps s₀ s) (p f) : Completes s₀ (execMvCopy p f s) :=
  h.issue _ _ _ fun _ => (h.readDesc _ _ _).bind fun _ _ => (h.readDesc _ _ _).bind fun _ _ =>
    (Yields.checkParts _ _ _).bind fun _ _ => (Yields.need _ _ _).bind fun _ _ => (Yields.needWeirField _ _ _).bind fun _ _ =>
    Yields.ite (h.signalWork _ _) (h.startWork _ _ _ _)

theorem Keeps.execMvBytes (h : Keeps s₀ s) (p f) : Completes s₀ (execMvBytes p f s) :=
  h.issue _ _ _ fun _ => (Yields.checkParts _ _ _).bind fun _ _ => (Yields.needWeirField _ _ _).bind fun _ _ =>
    Yields.ite (h.signalWork _ _) (h.startWork _ _ _ _)

theorem Keeps.finishCopy (h : Keeps s₀ s) (t') : Yields s₀ (Keeps s₀) (State.finishCopy s t') :=
  (h.gate _ _).bind fun _ _ => (h.gate _ _).bind fun _ _ => (h.gateBusy _).bind fun _ _ => h.copyWork _ _

theorem Keeps.execMoveComplete (h : Keeps s₀ s) (id) : Completes s₀ (execMoveComplete id s) := by
  unfold Machine.execMoveComplete
  refine h.whenRunning fun _ h => ?_
  split
  · exact h.next
  · refine Completes.ite h.next ?_
    dsimp only
    split
    · exact (Keeps.ofOk ((h.wakeSlots _).finishCopy _) (by assumption)).next
    · exact (Keeps.ofHeld ((h.wakeSlots _).finishCopy _) (by assumption)).next
    · exact (h.wakeSlots _).next

theorem Keeps.eeTensor (h : Keeps s₀ s) (op p f t') : Yields s₀ (Keeps s₀) (eeTensor op p f s t') := by
  have hend (D : Tensor) (live a b c draws n) :
      Keeps s₀ ((((Machine.eeWalk op p f t' D a b c s live).1.eeFlags p (Machine.eeWalk op p f t' D a b c s live).2 false).claim
        p (w1Gen f) (w1Sid f)
        D.base draws).onPolder p (fun P => { P with ee := { P.ee with stride0 := P.ee.stride0 + BitVec.ofNat 64 n } })) :=
    (((h.eeWalk op p f t' D a b c live).eeFlags _ _ _).claim _ _ _ _ _).onPolder _ _
  unfold Machine.eeTensor
  dsimp only
  refine (h.readDesc _ _ _).bind fun _ _ =>
    (Yields.ite Yields.ok (Yields.ite Yields.ok ((h.readDesc _ _ _).bind fun _ _ => Yields.ok))).bind fun _ _ =>
    (Yields.ite ((h.readDesc _ _ _).bind fun _ _ => Yields.ok) Yields.ok).bind fun _ _ => (h.readDesc _ _ _).bind fun _ _ =>
    (Yields.checkParts _ _ _).bind fun _ _ => (Yields.need _ _ _).bind fun _ _ => ?_
  split
  · exact Yields.fault.bind fun _ _ => (h.gate _ _).bind fun _ _ => (h.gate _ _).bind fun _ _ => (h.gate _ _).bind fun _ _ =>
      (h.gate _ _).bind fun _ _ => hend _ _ _ _ _ _ _
  · exact Yields.ok.bind fun _ _ => (h.gate _ _).bind fun _ _ => (h.gate _ _).bind fun _ _ => (h.gate _ _).bind fun _ _ =>
      (h.gate _ _).bind fun _ _ => hend _ _ _ _ _ _ _

theorem Keeps.eeInstr (h : Keeps s₀ s) (op p f) : Completes s₀ (eeInstr op p f s) :=
  h.issue _ _ _ fun _ => (Yields.need _ _ _).bind fun _ _ => Yields.ite (h.eeRegister _ _ _ _) (h.eeTensor _ _ _ _)

theorem Keeps.execEePass (h : Keeps s₀ s) (p f) : Completes s₀ (execEePass p f s) :=
  h.eeInstr _ _ _

theorem Keeps.execEeAdd (h : Keeps s₀ s) (p f) : Completes s₀ (execEeAdd p f s) :=
  h.eeInstr _ _ _

theorem Keeps.execEeSub (h : Keeps s₀ s) (p f) : Completes s₀ (execEeSub p f s) :=
  h.eeInstr _ _ _

theorem Keeps.execEeMul (h : Keeps s₀ s) (p f) : Completes s₀ (execEeMul p f s) :=
  h.eeInstr _ _ _

theorem Keeps.execEeFma (h : Keeps s₀ s) (p f) : Completes s₀ (execEeFma p f s) :=
  h.eeInstr _ _ _

theorem Keeps.execEeMin (h : Keeps s₀ s) (p f) : Completes s₀ (execEeMin p f s) :=
  h.eeInstr _ _ _

theorem Keeps.execEeMax (h : Keeps s₀ s) (p f) : Completes s₀ (execEeMax p f s) :=
  h.eeInstr _ _ _

theorem Keeps.execEeCmpEq (h : Keeps s₀ s) (p f) : Completes s₀ (execEeCmpEq p f s) :=
  h.eeInstr _ _ _

theorem Keeps.execEeCmpNe (h : Keeps s₀ s) (p f) : Completes s₀ (execEeCmpNe p f s) :=
  h.eeInstr _ _ _

theorem Keeps.execEeCmpLt (h : Keeps s₀ s) (p f) : Completes s₀ (execEeCmpLt p f s) :=
  h.eeInstr _ _ _

theorem Keeps.execEeCmpLe (h : Keeps s₀ s) (p f) : Completes s₀ (execEeCmpLe p f s) :=
  h.eeInstr _ _ _

theorem Keeps.execEeSel (h : Keeps s₀ s) (p f) : Completes s₀ (execEeSel p f s) :=
  h.eeInstr _ _ _

theorem Keeps.execEeAbs (h : Keeps s₀ s) (p f) : Completes s₀ (execEeAbs p f s) :=
  h.eeInstr _ _ _

theorem Keeps.execEeNeg (h : Keeps s₀ s) (p f) : Completes s₀ (execEeNeg p f s) :=
  h.eeInstr _ _ _

theorem Keeps.execEeRsh (h : Keeps s₀ s) (p f) : Completes s₀ (execEeRsh p f s) :=
  h.eeInstr _ _ _

theorem Keeps.execEeCvt (h : Keeps s₀ s) (p f) : Completes s₀ (execEeCvt p f s) :=
  h.eeInstr _ _ _

theorem Keeps.execEeRcp (h : Keeps s₀ s) (p f) : Completes s₀ (execEeRcp p f s) :=
  h.eeInstr _ _ _

theorem Keeps.execEeRsq (h : Keeps s₀ s) (p f) : Completes s₀ (execEeRsq p f s) :=
  h.eeInstr _ _ _

theorem Keeps.execEeEx2 (h : Keeps s₀ s) (p f) : Completes s₀ (execEeEx2 p f s) :=
  h.eeInstr _ _ _

theorem Keeps.execEeLg2 (h : Keeps s₀ s) (p f) : Completes s₀ (execEeLg2 p f s) :=
  h.eeInstr _ _ _

theorem Keeps.execEeLmul (h : Keeps s₀ s) (p f) : Completes s₀ (execEeLmul p f s) :=
  h.eeInstr _ _ _

theorem Keeps.execEeLdiv (h : Keeps s₀ s) (p f) : Completes s₀ (execEeLdiv p f s) :=
  h.eeInstr _ _ _

theorem Keeps.execEeLexp (h : Keeps s₀ s) (p f) : Completes s₀ (execEeLexp p f s) :=
  h.eeInstr _ _ _

theorem Keeps.execEeGather (h : Keeps s₀ s) (p f) : Completes s₀ (execEeGather p f s) := by
  unfold Machine.execEeGather
  dsimp only
  refine h.issue _ _ _ fun _ => (h.readDesc _ _ _).bind fun _ _ => (Yields.checkParts _ _ _).bind fun _ _ =>
    (Yields.need _ _ _).bind fun _ _ => ?_
  split
  · exact Yields.fault.bind fun _ _ => (h.gate _ _).bind fun _ _ => (h.onTask _ _).onPolder _ _
  · exact Yields.ok.bind fun _ _ => (h.gate _ _).bind fun _ _ => (h.onTask _ _).onPolder _ _

theorem Keeps.execEeChain (h : Keeps s₀ s) (p f) : Completes s₀ (execEeChain p f s) := by
  unfold Machine.execEeChain
  refine h.issue _ _ _ fun _ => (Yields.need _ _ _).bind fun _ _ => (h.access _ _ _ _).bind fun _ _ =>
    Yields.ite ((h.readDesc _ _ _).bind fun _ _ => (Yields.checkParts _ _ _).bind fun _ _ =>
    Yields.ite ((h.readDesc _ _ _).bind fun _ _ => (Yields.checkParts _ _ _).bind fun _ _ => (Yields.need _ _ _).bind fun _ _ =>
    ?_) ((Yields.need _ _ _).bind fun _ _ => ?_)) (Yields.ite ((h.readDesc _ _ _).bind fun _ _ =>
    (Yields.checkParts _ _ _).bind fun _ _ => (Yields.need _ _ _).bind fun _ _ => ?_) ((Yields.need _ _ _).bind fun _ _ => ?_))
  · dsimp only
    split
    · exact Yields.fault.bind fun _ _ => Yields.ite h (h.onPolder _ _)
    · exact Yields.ok.bind fun _ _ => Yields.ite h (h.onPolder _ _)
  · dsimp only
    split
    · exact Yields.fault.bind fun _ _ => Yields.ite h (h.onPolder _ _)
    · exact Yields.ok.bind fun _ _ => Yields.ite h (h.onPolder _ _)
  · dsimp only
    split
    · exact Yields.fault.bind fun _ _ => Yields.ite h (h.onPolder _ _)
    · exact Yields.ok.bind fun _ _ => Yields.ite h (h.onPolder _ _)
  · dsimp only
    split
    · exact Yields.fault.bind fun _ _ => Yields.ite h (h.onPolder _ _)
    · exact Yields.ok.bind fun _ _ => Yields.ite h (h.onPolder _ _)

theorem Keeps.execEeUload (h : Keeps s₀ s) (p f) : Completes s₀ (execEeUload p f s) := by
  unfold Machine.execEeUload
  refine h.issue _ _ _ fun _ => (Yields.need _ _ _).bind fun _ _ => (h.access _ _ _ _).bind fun _ _ =>
    (Yields.need _ _ _).bind fun _ _ => ?_
  dsimp only
  split
  · exact Yields.fault.bind fun _ _ => Yields.ite h (h.onPolder _ _)
  · exact Yields.ok.bind fun _ _ => Yields.ite h (h.onPolder _ _)

theorem Keeps.ruInstr (h : Keeps s₀ s) (op p f) : Completes s₀ (ruInstr op p f s) :=
  h.issue _ _ _ fun _ => (h.readDesc _ _ _).bind fun _ _ => (h.readDesc _ _ _).bind fun _ _ =>
    (Yields.ite (h.readDesc _ _ _) Yields.ok).bind fun _ _ => (Yields.checkParts _ _ _).bind fun _ _ =>
    (Yields.need _ _ _).bind fun _ _ => (Yields.need _ _ _).bind fun _ _ => (Yields.need _ _ _).bind fun _ _ =>
    (Yields.need _ _ _).bind fun _ _ => (h.gate _ _).bind fun _ _ => (Yields.need _ _ _).bind fun _ _ =>
    (h.gate _ _).bind fun _ _ => (h.gate _ _).bind fun _ _ =>
    (Keeps.ite (((((h.putLines _ _ _ _ _ _).ruFlag _ _ _).ruFlag _ _ _).ruFlag _ _ _).eeFlags _ _ _) ((((h.putLines _ _ _ _ _
    _).ruFlag _ _ _).ruFlag _ _ _).ruFlag _ _ _)).onPolder _ _

theorem Keeps.execRuCount (h : Keeps s₀ s) (p f) : Completes s₀ (execRuCount p f s) :=
  h.ruInstr _ _ _

theorem Keeps.execRuSum (h : Keeps s₀ s) (p f) : Completes s₀ (execRuSum p f s) :=
  h.ruInstr _ _ _

theorem Keeps.execRuSumsq (h : Keeps s₀ s) (p f) : Completes s₀ (execRuSumsq p f s) :=
  h.ruInstr _ _ _

theorem Keeps.execRuMv (h : Keeps s₀ s) (p f) : Completes s₀ (execRuMv p f s) :=
  h.ruInstr _ _ _

theorem Keeps.execRuMvp (h : Keeps s₀ s) (p f) : Completes s₀ (execRuMvp p f s) :=
  h.ruInstr _ _ _

theorem Keeps.execRuMvf (h : Keeps s₀ s) (p f) : Completes s₀ (execRuMvf p f s) :=
  h.ruInstr _ _ _

theorem Keeps.execRuMax (h : Keeps s₀ s) (p f) : Completes s₀ (execRuMax p f s) :=
  h.ruInstr _ _ _

theorem Keeps.execRuMin (h : Keeps s₀ s) (p f) : Completes s₀ (execRuMin p f s) :=
  h.ruInstr _ _ _

theorem Keeps.execRuArgmax (h : Keeps s₀ s) (p f) : Completes s₀ (execRuArgmax p f s) :=
  h.ruInstr _ _ _

theorem Keeps.execRuArgmin (h : Keeps s₀ s) (p f) : Completes s₀ (execRuArgmin p f s) :=
  h.ruInstr _ _ _

theorem Keeps.execRuLsum (h : Keeps s₀ s) (p f) : Completes s₀ (execRuLsum p f s) :=
  h.ruInstr _ _ _

theorem Keeps.cxInstr (h : Keeps s₀ s) (prim p f) : Completes s₀ (cxInstr prim p f s) := by
  unfold Machine.cxInstr
  refine h.issue _ _ _ fun _ => (Yields.need _ _ _).bind fun _ _ => (h.readDesc _ _ _).bind fun _ _ =>
    (h.readDesc _ _ _).bind fun _ _ => (Yields.checkParts _ _ _).bind fun _ _ => (Yields.need _ _ _).bind fun _ _ =>
    (Yields.need _ _ _).bind fun _ _ => (Yields.need _ _ _).bind fun _ _ => ?_
  dsimp only
  split
  · exact Yields.fault.bind fun _ _ => (Yields.needWeir _ _ _).bind fun _ _ => (Yields.cxRank _ _ _).bind fun _ _ =>
      h.startCx _ _ _ _ _
  · exact Yields.ok.bind fun _ _ => (Yields.needWeir _ _ _).bind fun _ _ => (Yields.cxRank _ _ _).bind fun _ _ =>
      h.startCx _ _ _ _ _

theorem Keeps.execCxAllreduce (h : Keeps s₀ s) (p f) : Completes s₀ (execCxAllreduce p f s) :=
  h.cxInstr _ _ _

theorem Keeps.execCxReducescatter (h : Keeps s₀ s) (p f) : Completes s₀ (execCxReducescatter p f s) :=
  h.cxInstr _ _ _

theorem Keeps.execCxAllgather (h : Keeps s₀ s) (p f) : Completes s₀ (execCxAllgather p f s) :=
  h.cxInstr _ _ _

theorem Keeps.execCxBroadcast (h : Keeps s₀ s) (p f) : Completes s₀ (execCxBroadcast p f s) :=
  h.cxInstr _ _ _

theorem Keeps.execCxBarrier (h : Keeps s₀ s) (p f) : Completes s₀ (execCxBarrier p f s) :=
  h.issue _ _ _ fun _ => (Yields.needWeir _ _ _).bind fun _ _ => (Yields.cxRank _ _ _).bind fun _ _ => h.startCx _ _ _ _ _

theorem Keeps.execCollectiveComplete (h : Keeps s₀ s) (id peers) : Completes s₀ (execCollectiveComplete id peers s) := by
  unfold Machine.execCollectiveComplete
  refine h.whenRunning fun s h => ?_
  split
  · exact h.next
  · split
    · refine Completes.ite h.next ?_
      split
      · exact (h.same.taskFaultAt _ _ _ _).next
      · split
        · exact h.next
        · dsimp only
          split
          · exact h.next
          · have h1 := fun l => h.wakeSlots l
            split
            · exact (Keeps.ofHeld (((h1 _).gate _ _).bind fun _ _ => (h1 _).gate _ _) (by assumption)).next
            · exact (h1 _).next
            · exact (((((Keeps.ite (Keeps.ite (h1 _) (h1 _).same) ((Keeps.ite (h1 _) (h1 _).same).tensorPutRun _ _ _ _)).markEnds
                _).slotEnds _).same).signalWork _ _).next
    · exact h.next

theorem Keeps.execQzCbk (h : Keeps s₀ s) (p f) : Completes s₀ (execQzCbk p f s) :=
  h.issue _ _ _ fun _ => Yields.ite ((Yields.need _ _ _).bind fun _ _ => (h.access _ _ _ _).bind fun _ _ =>
    (Yields.need _ _ _).bind fun _ _ => Yields.ite h (((h.qzFlag _ _ _).eeFlags _ _ _).onPolder _ _)) ((Yields.need _ _ _).bind
    fun _ _ => Yields.ite h (((h.qzFlag _ _ _).eeFlags _ _ _).onPolder _ _))

theorem Keeps.execQzSurvey (h : Keeps s₀ s) (p f) : Completes s₀ (execQzSurvey p f s) :=
  h.issue _ _ _ fun _ => (h.readDesc _ _ _).bind fun _ _ => (h.readDesc _ _ _).bind fun _ _ => (h.readDesc _ _ _).bind fun _ _ =>
    (Yields.checkParts _ _ _).bind fun _ _ => (Yields.need _ _ _).bind fun _ _ => (Yields.need _ _ _).bind fun _ _ =>
    (Yields.need _ _ _).bind fun _ _ => (Yields.need _ _ _).bind fun _ _ => (h.gate _ _).bind fun _ _ =>
    (h.gate _ _).bind fun _ _ => (h.gate _ _).bind fun _ _ => (h.gate _ _).bind fun _ _ => h.foldl (fun _ _ h =>
    h.storeColumn _ _ _ _ _ _ _) _

theorem Keeps.execQzQuant (h : Keeps s₀ s) (p f) : Completes s₀ (execQzQuant p f s) :=
  h.issue _ _ _ fun _ => (h.readDesc _ _ _).bind fun _ _ => (h.readDesc _ _ _).bind fun _ _ =>
    (Yields.checkParts _ _ _).bind fun _ _ => (h.checkMask _ _ _ _).bind fun _ _ => (Yields.need _ _ _).bind fun _ _ =>
    (h.gate _ _).bind fun _ _ => (h.gate _ _).bind fun _ _ => (h.gate _ _).bind fun _ _ => ((((Keeps.ite (((h.foldl (fun _ _ h =>
    h.putBytes _ _) _).foldl (fun _ _ h => h.tensorPut _ _ _) _).claim _ _ _ _ _).same (((h.foldl (fun _ _ h =>
    h.putBytes _ _) _).foldl (fun _ _ h => h.tensorPut _ _ _) _).claim _ _ _ _ _)).eeFlags _ _ _).qzFlag _ _ _).qzFlag _ _
    _).onPolder _ _

theorem Keeps.execQzOpt (h : Keeps s₀ s) (p f) : Completes s₀ (execQzOpt p f s) :=
  h.issue _ _ _ fun _ => (h.readDesc _ _ _).bind fun _ _ => (h.readDesc _ _ _).bind fun _ _ => (h.readDesc _ _ _).bind fun _ _ =>
    (h.readDesc _ _ _).bind fun _ _ => (Yields.checkParts _ _ _).bind fun _ _ => (Yields.need _ _ _).bind fun _ _ =>
    (h.access _ _ _ _).bind fun _ _ => (Yields.need _ _ _).bind fun _ _ => (Yields.need _ _ _).bind fun _ _ =>
    (Yields.need _ _ _).bind fun _ _ => (Yields.need _ _ _).bind fun _ _ => (Yields.need _ _ _).bind fun _ _ =>
    (Yields.need _ _ _).bind fun _ _ => (Yields.need _ _ _).bind fun _ _ => (Yields.need _ _ _).bind fun _ _ =>
    (h.gate _ _).bind fun _ _ => (h.gate _ _).bind fun _ _ => (h.gate _ _).bind fun _ _ => (h.gate _ _).bind fun _ _ =>
    (h.gate _ _).bind fun _ _ => h.foldl (fun _ i h => h.optElem _ _ _ _ _ i) _

theorem Keeps.spApply (h : Keeps s₀ s) (p free us) : Yields s₀ (Keeps s₀) (spApply s p free us) := by
  unfold Machine.spApply
  dsimp only
  refine (h.gate _ _).bind fun _ _ => ?_
  split
  · exact (h.onSpw _ _).foldl (fun _ _ h => h.putBytes _ _) _
  · exact (h.onSpw _ _).foldl (fun _ _ h => h.putBytes _ _) _

theorem Keeps.execSpOpen (h : Keeps s₀ s) (p f) : Completes s₀ (execSpOpen p f s) :=
  h.issue _ _ _ fun _ => Yields.ite h.claimRefused ((Yields.need _ _ _).bind fun _ _ => (Yields.need _ _ _).bind fun _ _ =>
    (h.setOwner _ _).onSpw _ _)

theorem Keeps.execSpAdd (h : Keeps s₀ s) (p f) : Completes s₀ (execSpAdd p f s) :=
  h.issue _ _ _ fun _ => (Yields.needSpw _ _).bind fun _ _ => h.spApply _ _ _

theorem Keeps.execSpFlush (h : Keeps s₀ s) (p f) : Completes s₀ (execSpFlush p f s) :=
  h.issue _ _ _ fun _ => (Yields.needSpw _ _).bind fun _ _ => (Yields.need _ _ _).bind fun _ _ =>
    (Yields.checkRuns _ _ _ _).bind fun _ _ => (Yields.need _ _ _).bind fun _ _ => (h.gate _ _).bind fun _ _ =>
    (((h.putBytes _ _).onSpw _ _).freeEntry _ _).onTask _ _

theorem Keeps.execSpMerge (h : Keeps s₀ s) (p f) : Completes s₀ (execSpMerge p f s) :=
  h.issue _ _ _ fun _ => (Yields.needSpw _ _).bind fun _ _ => (Yields.need _ _ _).bind fun _ _ =>
    (Yields.checkRuns _ _ _ _).bind fun _ _ => (Yields.need _ _ _).bind fun _ _ => (h.gate _ _).bind fun _ _ => h.spApply _ _ _

theorem Keeps.execMmLd (h : Keeps s₀ s) (p f) : Completes s₀ (execMmLd p f s) := by
  unfold Machine.execMmLd
  refine h.issue _ _ _ fun _ => (h.readDesc _ _ _).bind fun _ _ => (Yields.checkParts _ _ _).bind fun _ _ =>
    (Yields.need _ _ _).bind fun _ _ => ?_
  dsimp only
  split
  · exact Yields.fault.bind fun _ _ => (Yields.need _ _ _).bind fun _ _ => (Yields.need _ _ _).bind fun _ _ =>
      (Yields.need _ _ _).bind fun _ _ => Yields.ite h ((h.onPolder _ _).onTask _ _)
  · exact Yields.ok.bind fun _ _ => (Yields.need _ _ _).bind fun _ _ => (Yields.need _ _ _).bind fun _ _ =>
      (Yields.need _ _ _).bind fun _ _ => Yields.ite h ((h.onPolder _ _).onTask _ _)

theorem Keeps.execWeightLoadStart (h : Keeps s₀ s) (p) : Completes s₀ (execWeightLoadStart p s) := by
  unfold Machine.execWeightLoadStart
  refine h.whenArith fun _ h => ?_
  dsimp only
  split
  · exact h.next
  · exact Completes.ite h.next (h.onPolder _ _).next

theorem Keeps.execWeightLoadDone (h : Keeps s₀ s) (e) : Completes s₀ (execWeightLoadDone e s) := by
  unfold Machine.execWeightLoadDone
  refine h.whenArith fun s h => ?_
  split
  · exact h.next
  · dsimp only
    split
    · exact (Keeps.ofHeld (h.gate _ _) (by assumption)).next
    · exact h.next
    · exact Completes.ite (h.taskFaultAt _ _ _ _).next (Completes.ite (h.taskReplay _).next
        ((((h.qzFlag _ _ _).qzFlag _ _ _).bpeFlag _ _ _).onPolder _ _).next)

theorem Keeps.execMmBp (h : Keeps s₀ s) (p f) : Completes s₀ (execMmBp p f s) := by
  unfold Machine.execMmBp
  refine h.issue _ _ _ fun t => ?_
  extract_lets half m r0 a maddr b od ad
  clear_value maddr b od ad a r0 m
  split
  · exact Yields.stop
  · refine (h.readDesc _ _ _).bind fun A _ => (h.readDesc _ _ _).bind fun D _ => (Yields.checkParts _ _ _).bind fun _ _ =>
      (Yields.need _ _ _).bind fun _ _ => (h.access _ _ _ _).bind fun _ _ => (Yields.need _ _ _).bind fun _ _ => ?_
    extract_lets clamps request rest
    have hrest (u) : Yields s₀ (Keeps s₀) (rest u) := by
      refine (Yields.need _ _ _).bind fun _ _ => ?_
      split
      · exact Yields.stop
      · exact (Yields.need _ _ _).bind fun _ _ => (Yields.need _ _ _).bind fun _ _ => (Yields.need _ _ _).bind fun _ _ =>
          (Yields.need _ _ _).bind fun _ _ => (Yields.need _ _ _).bind fun _ _ => Yields.ite h (h.onPolder _ _)
    exact Yields.ite ((h.access _ _ _ _).bind fun u _ => hrest u) (hrest ())

theorem Keeps.execMmFence (h : Keeps s₀ s) (p f) : Completes s₀ (execMmFence p f s) :=
  h.issueTo _ _ _ fun _ => Yields.ite h (h.onTask _ _)

theorem Keeps.execPassStart (h : Keeps s₀ s) (p slip) : Completes s₀ (execPassStart p slip s) := by
  unfold Machine.execPassStart
  refine h.whenArith fun s h => ?_
  dsimp only
  split
  · split
    · exact h.next
    · refine Completes.ite h.next ?_
      split
      · exact (h.taskFaultAt _ _ _ _).next
      · split
        · exact (h.taskFaultAt _ _ _ _).next
        · split
          · exact (Keeps.ofHeld (h.gate _ _) (by assumption)).next
          · exact h.next
          · exact Completes.ite (h.taskFaultAt _ _ _ _).next (Completes.ite ((h.passCounts _ _).hardFail _).next
              (Keeps.onPolder (Keeps.ite ((h.passCounts _ _).replayGroup _ _) (h.passCounts _ _)) _ _).next)
  · exact h.next

theorem Keeps.execLastProductRetire (h : Keeps s₀ s) (p) : Completes s₀ (execLastProductRetire p s) :=
  h.whenArith fun _ h => Completes.ite (h.onPolder _ _).next h.next

theorem Keeps.execSetSwap (h : Keeps s₀ s) (p) : Completes s₀ (execSetSwap p s) := by
  unfold Machine.execSetSwap
  refine h.whenArith fun _ h => ?_
  dsimp only
  split
  · exact Completes.ite (h.onPolder _ _).next h.next
  · exact h.next

theorem Keeps.execDrainRow (h : Keeps s₀ s) (p slip) : Completes s₀ (execDrainRow p slip s) := by
  unfold Machine.execDrainRow
  refine h.whenArith fun _ h => ?_
  dsimp only
  split
  · exact h.next
  · split
    · exact h.next
    · exact Completes.ite h.next (Completes.ite (h.replayDrain _ _ _ _).next (h.drainRow _ _ _ _ _ _).next)

theorem Keeps.execOcTileWrite (h : Keeps s₀ s) (e) : Completes s₀ (execOcTileWrite e s) := by
  unfold Machine.execOcTileWrite
  refine h.whenArith fun _ h => ?_
  split
  · exact h.next
  · refine Completes.ite (h.replayDrain _ _ _ _).next ?_
    split
    · exact (Keeps.ofHeld (h.gate _ _) (by assumption)).next
    · exact h.next
    · exact (Keeps.ite (h.writeTile _ _ _ _ _ _ _ _).same (h.writeTile _ _ _ _ _ _ _ _)).next

theorem Keeps.execSumpDbgStart (h : Keeps s₀ s) (p v) : Completes s₀ (execSumpDbgStart p v s) :=
  h.atPolder _ fun _ h => (h.dbgAddrWrite _ _).next

theorem Keeps.execDrainHoldWrite (h : Keeps s₀ s) (p v) : Completes s₀ (execDrainHoldWrite p v s) :=
  h.atPolder _ fun _ h => (h.holdWrite _ _).next

theorem Keeps.execSnapshotDone (h : Keeps s₀ s) (p) : Completes s₀ (execSnapshotDone p s) := by
  unfold Machine.execSnapshotDone
  refine h.whenArith fun _ h => ?_
  dsimp only
  split
  · exact h.next
  · exact (h.onPolder _ _).next

theorem Keeps.execPwHint (h : Keeps s₀ s) (p f) : Completes s₀ (execPwHint p f s) :=
  h.issue _ _ _ fun _ => h.onPolder _ _

theorem Keeps.execPwPref (h : Keeps s₀ s) (p f) : Completes s₀ (execPwPref p f s) :=
  h.issue _ _ _ fun _ => h.same

theorem Keeps.execPwEnergy (h : Keeps s₀ s) (p f) : Completes s₀ (execPwEnergy p f s) :=
  h.issue _ _ _ fun _ => h.onTask _ _

theorem Keeps.execJobOpen (h : Keeps s₀ s) : Completes s₀ (execJobOpen s) :=
  h.herdCommand _ fun _ _ h => Answers.ite h.malformed (Answers.ite h.refusedPlain ((Keeps.ite ((h.same.renewCad _ _
    _).same.announce _ _) (h.same.renewCad _ _ _).same).done))

theorem Keeps.execJobClose (h : Keeps s₀ s) : Completes s₀ (execJobClose s) := by
  refine h.herdCommand _ fun f s h => Answers.ite h.malformed (Answers.ite h.refusedPlain ?_)
  have h1 := h.foldl (fun _ g h => h.unbind g) (List.finRange 4)
  exact Keeps.done (Keeps.renewCad (Keeps.same h1) _ _ _)

theorem Keeps.execStreamOpen (h : Keeps s₀ s) : Completes s₀ (execStreamOpen s) :=
  h.herdCommand _ fun _ _ h => Answers.ite h.malformed (Answers.ite h.refusedPlain ((Keeps.ite (h.same.foldl (fun _ _ h =>
    h.onProg _ _) _) h.same).attachSamples.sendAll.done))

theorem Keeps.execStreamClose (h : Keeps s₀ s) : Completes s₀ (execStreamClose s) :=
  h.herdCommand _ fun _ _ h => Answers.ite h.malformed (Answers.ite h.refusedPlain h.same.done)

theorem Keeps.execStatusRead (h : Keeps s₀ s) : Completes s₀ (execStatusRead s) :=
  h.herdCommand _ fun _ _ h => Answers.ite h.malformed h

theorem Keeps.execModelLoad (h : Keeps s₀ s) (packageOk) : Completes s₀ (execModelLoad packageOk s) :=
  h.herdCommand _ fun _ _ h => Answers.ite h.malformed (Answers.ite (h.refusedFor _) h.same.done)

theorem Keeps.execProgBind (h : Keeps s₀ s) (plan) : Completes s₀ (execProgBind plan s) := by
  refine h.herdCommand _ fun f s h => Answers.ite h.malformed
    (Answers.ite (h.refusedFor _) (Answers.ite (h.refusedFor _) (Answers.ite (h.refusedFor _) ?_)))
  split
  · exact Keeps.refusedFor (Keeps.same (Keeps.ite h.claimRefused h)) _
  · exact ((h.noteTiled _ _).bind _ _ _).done

theorem Keeps.execProgUnbind (h : Keeps s₀ s) : Completes s₀ (execProgUnbind s) :=
  h.herdCommand _ fun _ _ h => h.onProgram _ fun _ _ => (h.unbind _).done

theorem Keeps.execProgRestart (h : Keeps s₀ s) : Completes s₀ (execProgRestart s) :=
  h.herdCommand _ fun _ _ h => h.onProgram _ fun _ _ => Answers.ite h.done ((h.onProg _ _).done)

theorem Keeps.execReqSubmit (h : Keeps s₀ s) : Completes s₀ (execReqSubmit s) := by
  refine Completes.ite h.next (h.herdCommand _ fun f s h => Answers.ite h.malformed ?_)
  dsimp only
  split
  · exact h.refusedFor _
  · exact ((h.logOp _ _ _).enqueue _ _).done

theorem Keeps.execReqCancel (h : Keeps s₀ s) : Completes s₀ (execReqCancel s) := by
  refine Completes.ite h.next (h.herdCommand _ fun f s h => Answers.ite h.malformed ?_)
  dsimp only
  split
  · exact h.refusedFor _
  · exact Answers.ite ((h.logOp _ _ _).cancelIn _ _ _).done ((h.logOp _ _ _).cancelIn _ _ _)

theorem Keeps.execTrainStart (h : Keeps s₀ s) : Completes s₀ (execTrainStart s) := by
  refine h.herdCommand _ fun f s h => Answers.ite h.malformed ?_
  dsimp only
  split
  · exact h.refusedFor _
  · exact Answers.ite (h.refusedFor _) (Answers.ite (h.refusedFor _) (Answers.ite (h.refusedFor _)
      ((h.logOp _ _ _).onProg _ _).done))

theorem Keeps.execTrainStop (h : Keeps s₀ s) : Completes s₀ (execTrainStop s) := by
  refine h.herdCommand _ fun f s h => h.onProgram f fun g P => ?_
  split
  · exact h.done
  · exact ((h.logOp _ _ _).onProg _ _).done

theorem Keeps.execStatsRead (h : Keeps s₀ s) : Completes s₀ (execStatsRead s) :=
  h.herdCommand _ fun _ _ h => Answers.ite h.malformed h

theorem Keeps.execStreamPacketArrival (h : Keeps s₀ s) (k) : Completes s₀ (execStreamPacketArrival k s) := by
  unfold Machine.execStreamPacketArrival
  extract_lets credited n take
  have hcredited : ∀ s, Keeps s₀ s → Keeps s₀ (credited s) := fun s h => Keeps.ite h (h.creditBack _ _)
  have htake : ∀ s, Keeps s₀ s → Keeps s₀ (take s) := fun s h => Keeps.creditOwed (hcredited _ h.same) _ _
  refine Completes.ite h.next (Completes.ite (h.creditPacket _ _).next (Completes.ite
    (Keeps.ite (Keeps.replayFrom (hcredited s h) _) (hcredited s h)).next (Completes.ite h.next ?_)))
  split
  · exact (htake _ (h.streamFault _)).next
  · refine Completes.ite (htake _ (h.streamFault _)).next ?_
    dsimp only
    split
    · exact (Keeps.ofHeld ((h.wakeSlots _).gate _ _) (by assumption)).next
    · exact (h.wakeSlots _).next
    · exact (htake _ ((((h.wakeSlots _).putBytes _ _).slotEnds _).onStream _ _)).next

theorem Keeps.execStreamDone (h : Keeps s₀ s) (id) : Completes s₀ (execStreamDone id s) := by
  unfold Machine.execStreamDone
  refine Completes.ite h.next ?_
  split
  · exact h.next
  · exact Completes.ite h.next (((Keeps.ite (h.onStream _ _) (h.onStream _ _).same).herdEvent _ _).promptLands _).next

theorem Keeps.execStreamSendDone (h : Keeps s₀ s) : Completes s₀ (execStreamSendDone s) := by
  unfold Machine.execStreamSendDone
  split
  · exact h.next
  · exact Completes.ite h.next h.same.sendAll.next

theorem Keeps.execEventLogSend (h : Keeps s₀ s) : Completes s₀ (execEventLogSend s) := by
  unfold Machine.execEventLogSend
  split
  · exact h.next
  · exact Completes.ite h.next (h.same.sendFrame _ _ _ _).next

theorem Keeps.execMicrobatchBoundary (h : Keeps s₀ s) (g b rows) : Completes s₀ (execMicrobatchBoundary g b rows s) := by
  unfold Machine.execMicrobatchBoundary
  split
  · exact h.next
  · refine Completes.ite h.next ?_
    dsimp only
    split
    · exact (h.replayNow _).next
    · refine Completes.ite (h.replayNow _).next ?_
      split
      · exact ((h.replayNow _).boundary _ _ _).next
      · exact (Keeps.ite (((h.replayNow _).boundary _ _ _).rollbackPoint _) ((h.replayNow _).boundary _ _ _)).next

theorem Keeps.execHerdFaultHandler (h : Keeps s₀ s) (p) : Completes s₀ (execHerdFaultHandler p s) := by
  unfold Machine.execHerdFaultHandler
  refine Completes.ite h.next ?_
  split
  · exact h.next
  · exact (((((h.stopTasks _).endAll _ _).herdEvent _ _).onProg _ _).seqResume _).next

theorem Keeps.execTrainStep (h : Keeps s₀ s) (g i) : Completes s₀ (execTrainStep g i s) := by
  unfold Machine.execTrainStep
  split
  · exact h.next
  · split
    · exact h.next
    · extract_lets a b c unit old H d ends next e r k
      have ha : Keeps s₀ a := h.foldl (fun _ x h => h.putBytes x.1.toNat x.2) i.written
      have hb : Keeps s₀ b := Keeps.ite (ha.foldl (fun _ x h => h.recompress x) _) ha
      have hc : Keeps s₀ c := hb.foldl (fun _ x h => h.putBytes x.1.toNat x.2) i.recoded
      have hd : Keeps s₀ d := Keeps.ite hc (hc.same.herdEvent _ _)
      have he : Keeps s₀ e := hd.onProg _ _
      have hk : Keeps s₀ k := Keeps.ite (Keeps.ite ((he.rollbackPoint g).sendCheckpoint g) (he.rollbackPoint g)) he
      exact Completes.ite h.next (hk.onProg _ _).next

theorem Keeps.execRegisterWrite (h : Keeps s₀ s) (addr wide v) : Completes s₀ (execRegisterWrite addr wide v s) := by
  unfold Machine.execRegisterWrite
  refine h.whenRunning fun _ h => ?_
  dsimp only
  split
  · exact h.same.next
  · exact Completes.ite h.same.next (Completes.ite h.same.next (Completes.ite h.same.next (h.same.regStore _ _).next))

theorem Keeps.execRollback (h : Keeps s₀ s) (i) : Completes s₀ (execRollback i s) := by
  unfold Machine.execRollback
  split
  · exact h.next
  · exact Completes.ite h.next (Completes.ite h.same.rollStart.next (h.same.rollStart.rollOn _ _).next)

end Sys2Proof.Machine
end
section
/-! PROOFS. Every command completes, and every step keeps the memory canonical. -/

namespace Sys2Proof.Machine
open Host (Outcome)
variable {s₀ s : State}

/-- Every command answers a next state, and that state keeps the queue, the fuses' one way and the memory's form. -/
theorem Keeps.exec (h : Keeps s₀ s) : ∀ c : Instr, Completes s₀ (Machine.exec c s)
  | .ctlNop p f => h.execCtlNop p f
  | .ctlEnd p f => h.execCtlEnd p f
  | .ctlJmp p f => h.execCtlJmp p f
  | .ctlBeq p f => h.execCtlBeq p f
  | .ctlBne p f => h.execCtlBne p f
  | .ctlBlt p f => h.execCtlBlt p f
  | .ctlBge p f => h.execCtlBge p f
  | .ctlBltu p f => h.execCtlBltu p f
  | .ctlBgeu p f => h.execCtlBgeu p f
  | .ctlAdd p f => h.execCtlAdd p f
  | .ctlSub p f => h.execCtlSub p f
  | .ctlMul p f => h.execCtlMul p f
  | .ctlAnd p f => h.execCtlAnd p f
  | .ctlOr p f => h.execCtlOr p f
  | .ctlXor p f => h.execCtlXor p f
  | .ctlShl p f => h.execCtlShl p f
  | .ctlShr p f => h.execCtlShr p f
  | .ctlSra p f => h.execCtlSra p f
  | .ctlAddi p f => h.execCtlAddi p f
  | .ctlShli p f => h.execCtlShli p f
  | .ctlShri p f => h.execCtlShri p f
  | .ctlAndi p f => h.execCtlAndi p f
  | .ctlLi p f => h.execCtlLi p f
  | .ctlTime p f => h.execCtlTime p f
  | .ctlTimerClaim p f => h.execCtlTimerClaim p f
  | .ctlTimerArm p f => h.execCtlTimerArm p f
  | .ctlTimerRelease p f => h.execCtlTimerRelease p f
  | .ctlTimerRead p f => h.execCtlTimerRead p f
  | .timerExpiry n => h.execTimerExpiry n
  | .mvLd p f => h.execMvLd p f
  | .mvSt p f => h.execMvSt p f
  | .mvLane p f => h.execMvLane p f
  | .mvSplat p f => h.execMvSplat p f
  | .mvDget p f => h.execMvDget p f
  | .mvDput p f => h.execMvDput p f
  | .mvMand p f => h.execMvMand p f
  | .mvMor p f => h.execMvMor p f
  | .mvMnot p f => h.execMvMnot p f
  | .mvMset p f => h.execMvMset p f
  | .mvCopy p f => h.execMvCopy p f
  | .mvBytes p f => h.execMvBytes p f
  | .moveComplete id => h.execMoveComplete id
  | .wrSignal p f => h.execWrSignal p f
  | .wrWait p f => h.execWrWait p f
  | .wrRead p f => h.execWrRead p f
  | .wrRsignal p f => h.execWrRsignal p f
  | .wrSwait p f => h.execWrSwait p f
  | .wrSfree p f => h.execWrSfree p f
  | .wrSfill p f => h.execWrSfill p f
  | .waitComplete p => h.execWaitComplete p
  | .waitTimeout p => h.execWaitTimeout p
  | .mmLd p f => h.execMmLd p f
  | .mmBp p f => h.execMmBp p f
  | .mmFence p f => h.execMmFence p f
  | .fenceComplete p => h.execFenceComplete p
  | .weightLoadStart p => h.execWeightLoadStart p
  | .weightLoadDone e => h.execWeightLoadDone e
  | .passStart p upset => h.execPassStart p upset
  | .lastProductRetire p => h.execLastProductRetire p
  | .setSwap p => h.execSetSwap p
  | .drainRow p upset => h.execDrainRow p upset
  | .ocTileWrite e => h.execOcTileWrite e
  | .sumpDbgStart p v => h.execSumpDbgStart p v
  | .snapshotDone p => h.execSnapshotDone p
  | .drainHoldWrite p v => h.execDrainHoldWrite p v
  | .eePass p f => h.execEePass p f
  | .eeAdd p f => h.execEeAdd p f
  | .eeSub p f => h.execEeSub p f
  | .eeMul p f => h.execEeMul p f
  | .eeFma p f => h.execEeFma p f
  | .eeMin p f => h.execEeMin p f
  | .eeMax p f => h.execEeMax p f
  | .eeCmpEq p f => h.execEeCmpEq p f
  | .eeCmpNe p f => h.execEeCmpNe p f
  | .eeCmpLt p f => h.execEeCmpLt p f
  | .eeCmpLe p f => h.execEeCmpLe p f
  | .eeSel p f => h.execEeSel p f
  | .eeAbs p f => h.execEeAbs p f
  | .eeNeg p f => h.execEeNeg p f
  | .eeRsh p f => h.execEeRsh p f
  | .eeCvt p f => h.execEeCvt p f
  | .eeRcp p f => h.execEeRcp p f
  | .eeRsq p f => h.execEeRsq p f
  | .eeEx2 p f => h.execEeEx2 p f
  | .eeLg2 p f => h.execEeLg2 p f
  | .eeLmul p f => h.execEeLmul p f
  | .eeLdiv p f => h.execEeLdiv p f
  | .eeLexp p f => h.execEeLexp p f
  | .eeGather p f => h.execEeGather p f
  | .eeChain p f => h.execEeChain p f
  | .eeUload p f => h.execEeUload p f
  | .ruCount p f => h.execRuCount p f
  | .ruSum p f => h.execRuSum p f
  | .ruSumsq p f => h.execRuSumsq p f
  | .ruMv p f => h.execRuMv p f
  | .ruMvp p f => h.execRuMvp p f
  | .ruMvf p f => h.execRuMvf p f
  | .ruMax p f => h.execRuMax p f
  | .ruMin p f => h.execRuMin p f
  | .ruArgmax p f => h.execRuArgmax p f
  | .ruArgmin p f => h.execRuArgmin p f
  | .ruLsum p f => h.execRuLsum p f
  | .qzCbk p f => h.execQzCbk p f
  | .qzSurvey p f => h.execQzSurvey p f
  | .qzQuant p f => h.execQzQuant p f
  | .qzOpt p f => h.execQzOpt p f
  | .pwHint p f => h.execPwHint p f
  | .pwPref p f => h.execPwPref p f
  | .pwEnergy p f => h.execPwEnergy p f
  | .cxAllreduce p f => h.execCxAllreduce p f
  | .cxReducescatter p f => h.execCxReducescatter p f
  | .cxAllgather p f => h.execCxAllgather p f
  | .cxBroadcast p f => h.execCxBroadcast p f
  | .cxBarrier p f => h.execCxBarrier p f
  | .collectiveComplete id peers => h.execCollectiveComplete id peers
  | .spOpen p f => h.execSpOpen p f
  | .spAdd p f => h.execSpAdd p f
  | .spFlush p f => h.execSpFlush p f
  | .spMerge p f => h.execSpMerge p f
  | .launchCommit p w7 => h.execLaunchCommit p w7
  | .taskStart p => h.execTaskStart p
  | .taskEnd p => h.execTaskEnd p
  | .seqCtlFlush p => h.execSeqCtlFlush p
  | .seqCtlAbort p => h.execSeqCtlAbort p
  | .seqCtlResume p => h.execSeqCtlResume p
  | .resClaimClaim owner entry => h.execResClaimClaim owner entry
  | .resClaimRelease owner entry => h.execResClaimRelease owner entry
  | .terpTagOp p v => h.execTerpTagOp p v
  | .tagOpDone p => h.execTagOpDone p
  | .terpBankCtlWrite p b v => h.execTerpBankCtlWrite p b v
  | .bankReady p b => h.execBankReady p b
  | .terpRwinCtlWrite p w v => h.execTerpRwinCtlWrite p w v
  | .weirAddWrite w v => h.execWeirAddWrite w v
  | .weirSetWrite w v => h.execWeirSetWrite w v
  | .weirThreshWrite w v => h.execWeirThreshWrite w v
  | .weirCtlWrite w v => h.execWeirCtlWrite w v
  | .weirUpdateArrival w => h.execWeirUpdateArrival w
  | .remotePacketArrival p => h.execRemotePacketArrival p
  | .registerWrite addr wide v => h.execRegisterWrite addr wide v
  | .fabricPacketForward site out now arrivals taken => h.execFabricPacketForward site out now arrivals taken
  | .packetPromotion site out net inp now => h.execPacketPromotion site out net inp now
  | .activityTimerExpire site inp out now => h.execActivityTimerExpire site inp out now
  | .mscAccess addr kind x => h.execMscAccess addr kind x
  | .mscCtlFlush k => h.execMscCtlFlush k
  | .flushDone k => h.execFlushDone k
  | .mscRangeWrite k n lim v => h.execMscRangeWrite k n lim v
  | .refpb mc ch bank => h.execRefpb mc ch bank
  | .tempReportPoll mc reports => h.execTempReportPoll mc reports
  | .wckDriftTracking mc ch => h.execWckDriftTracking mc ch
  | .patrolScrubRead mc errs => h.execPatrolScrubRead mc errs
  | .spareCopyDone mc => h.execSpareCopyDone mc
  | .channelFailure mc ch => h.execChannelFailure mc ch
  | .terpPatrolScrub p addr ecc => h.execTerpPatrolScrub p addr ecc
  | .refetchDone p slot => h.execRefetchDone p slot
  | .commandFrame lane fr => h.execCommandFrame lane fr
  | .heartbeatFrame lane fr => h.execHeartbeatFrame lane fr
  | .ackFrame lane fr => h.execAckFrame lane fr
  | .frameResendTimeout => h.execFrameResendTimeout
  | .heartbeatIdleTimeout lane => h.execHeartbeatIdleTimeout lane
  | .controlLinkLost => h.execControlLinkLost
  | .jobOpen => h.execJobOpen
  | .jobClose => h.execJobClose
  | .streamOpen => h.execStreamOpen
  | .streamClose => h.execStreamClose
  | .statusRead => h.execStatusRead
  | .modelLoad packageOk => h.execModelLoad packageOk
  | .progBind plan => h.execProgBind plan
  | .progUnbind => h.execProgUnbind
  | .progRestart => h.execProgRestart
  | .reqSubmit => h.execReqSubmit
  | .reqCancel => h.execReqCancel
  | .trainStart => h.execTrainStart
  | .trainStop => h.execTrainStop
  | .statsRead => h.execStatsRead
  | .streamPacketArrival pk => h.execStreamPacketArrival pk
  | .streamDone stream => h.execStreamDone stream
  | .streamCredit type count => h.execStreamCredit type count
  | .streamNak lseq => h.execStreamNak lseq
  | .pnxSendGo v => h.execPnxSendGo v
  | .streamSendDone => h.execStreamSendDone
  | .streamLaneRetrain working => h.execStreamLaneRetrain working
  | .wilvarTrain w lanes => h.execWilvarTrain w lanes
  | .wilvarPeerExchange w jobId coord => h.execWilvarPeerExchange w jobId coord
  | .wilvarPacketArrival w pk => h.execWilvarPacketArrival w pk
  | .wilvarFlitReplay w => h.execWilvarFlitReplay w
  | .wakePatternRepeat w => h.execWakePatternRepeat w
  | .syncExchange t => h.execSyncExchange t
  | .parentPortDown => h.execParentPortDown
  | .announceLocked port a => h.execAnnounceLocked port a
  | .announceTarget port a => h.execAnnounceTarget port a
  | .announceCap port a => h.execAnnounceCap port a
  | .announceRelease port a => h.execAnnounceRelease port a
  | .announceHalt port a => h.execAnnounceHalt port a
  | .announceResume port a => h.execAnnounceResume port a
  | .epochBoundary inputs => h.execEpochBoundary inputs
  | .currentReport r mean => h.execCurrentReport r mean
  | .limitWindowClose r => h.execLimitWindowClose r
  | .alertPulseEnd => h.execAlertPulseEnd
  | .droopDetect q => h.execDroopDetect q
  | .droopRelease q => h.execDroopRelease q
  | .estimateIntervalClose railNj inputNj => h.execEstimateIntervalClose railNj inputNj
  | .bermStep q b => h.execBermStep q b
  | .a1Entry q => h.execA1Entry q
  | .pmCtlS1Req => h.execPmCtlS1Req
  | .pmCtlS2Req => h.execPmCtlS2Req
  | .s1IdleTimeout => h.execS1IdleTimeout
  | .wakeNAssert => h.execWakeNAssert
  | .linkSignalDetect src pattern => h.execLinkSignalDetect src pattern
  | .wake b => h.execWake b
  | .ganderSample n src value => h.execGanderSample n src value
  | .tripRestart => h.execTripRestart
  | .ganderCmpWrite n v => h.execGanderCmpWrite n v
  | .ganderThrWrite n v => h.execGanderThrWrite n v
  | .microbatchBoundary prog b rows => h.execMicrobatchBoundary prog b rows
  | .herdFaultHandler p => h.execHerdFaultHandler p
  | .eventLogSend => h.execEventLogSend
  | .trainStep prog inputs => h.execTrainStep prog inputs
  | .rollback inputs => h.execRollback inputs
  | .ckptCtlGo v => h.execCkptCtlGo v
  | .ckptCopyDone ue => h.execCkptCopyDone ue
  | .secDbgRevoke => h.execSecDbgRevoke
  | .secDbgNewNonce entropy => h.execSecDbgNewNonce entropy
  | .debugToken tok entropy => h.execDebugToken tok entropy
  | .mgtSbCfgWrite n v => h.execMgtSbCfgWrite n v
  | .inputValid straps b => h.execInputValid straps b
  | .vinUndervoltage => h.execVinUndervoltage
  | .vinOvervoltage => h.execVinOvervoltage
  | .enInFall => h.execEnInFall
  | .mrstN b => h.execMrstN b
  | .i3cSetdasa static dyn => h.execI3cSetdasa static dyn
  | .i3cEntdaa dyn => h.execI3cEntdaa dyn
  | .i3cSetnewda dyn => h.execI3cSetnewda dyn
  | .i3cRstdaa => h.execI3cRstdaa
  | .i3cGetpid => h.execI3cGetpid
  | .i3cGetbcr => h.execI3cGetbcr
  | .i3cGetdcr => h.execI3cGetdcr
  | .i3cGetstatus => h.execI3cGetstatus
  | .i3cEnec ev => h.execI3cEnec ev
  | .i3cDisec ev => h.execI3cDisec ev
  | .i3cGetmwl => h.execI3cGetmwl
  | .i3cSetmwl len => h.execI3cSetmwl len
  | .i3cGetmrl => h.execI3cGetmrl
  | .i3cSetmrl len => h.execI3cSetmrl len
  | .pldmSensorRead id => h.execPldmSensorRead id
  | .pldmEnterS1 => h.execPldmEnterS1
  | .pldmEnterS2 => h.execPldmEnterS2
  | .pldmClearLockout => h.execPldmClearLockout
  | .pldmBurnDebugLock => h.execPldmBurnDebugLock
  | .pldmFwUpdateImage image => h.execPldmFwUpdateImage image
  | .pldmFwUpdateCalibration cal => h.execPldmFwUpdateCalibration cal
  | .pldmSteppingRead => h.execPldmSteppingRead
  | .getVersion => h.execGetVersion
  | .getCapabilities => h.execGetCapabilities
  | .negotiateAlgorithms asym hash => h.execNegotiateAlgorithms asym hash
  | .getDigests => h.execGetDigests
  | .getCertificate slot offset len => h.execGetCertificate slot offset len
  | .challenge slot nonce => h.execChallenge slot nonce
  | .getMeasurements index signed nonce => h.execGetMeasurements index signed nonce
  | .tapBypass => h.execTapBypass
  | .tapIdcode => h.execTapIdcode
  | .tapSamplePreload pins preload => h.execTapSamplePreload pins preload
  | .tapExtest => h.execTapExtest
  | .tapClamp => h.execTapClamp
  | .tapHighz => h.execTapHighz
  | .wilvarPortDown w => h.execWilvarPortDown w
  | .flashWriteComplete => h.execFlashWriteComplete
  | .powerStateEntryComplete => h.execPowerStateEntryComplete
  | .unsupportedRequest code => h.execUnsupportedRequest code

theorem exec_completes (c : Instr) (s : State) : Completes s (Machine.exec c s) := (Keeps.refl s).exec c

/-- Settles O1: `step` takes the front of the queue off and runs it, by definition. -/
theorem frontCommandRuns : Obligations.FrontCommandRuns := fun _ _ => rfl

/-- Settles O56: what every instruction keeps from a state, kept from the command's own. -/
theorem everyCommandCompletes : Obligations.EveryCommandCompletes := by
  intro c s
  obtain ⟨t, ht, hk⟩ := exec_completes c s
  exact ⟨t, ht, hk.pending, hk.fuses, hk.lock⟩

theorem step_keeps_memory (s : State) : ∃ t, step s = .next t ∧ (Memory.wf s.mem = true → Memory.wf t.mem = true) := by
  unfold step
  split
  · exact ⟨s.tick, rfl, (Keeps.refl s).tick.memory⟩
  · obtain ⟨t, ht, hk⟩ := exec_completes _ _
    exact ⟨t, ht, hk.memory⟩

/-- Settles O57: a nanosecond and every command keep it. -/
theorem memoryStaysCanonical : Obligations.MemoryStaysCanonical := by
  intro s t hs hstep
  obtain ⟨t', ht', hk⟩ := step_keeps_memory s
  obtain rfl : t' = t := Outcome.next.inj (ht'.symm.trans hstep)
  exact hk hs

end Sys2Proof.Machine
end
section
/-! PROOFS. What a nanosecond moves (14 R327, log entry 8). -/

namespace Sys2Proof.Machine

/-- What a nanosecond leaves: no queue, weir, timer, transfer, store of the always-on part or steering moves. -/
structure Undisturbed (s₀ s : State) : Prop where
  pending : s.pending = s₀.pending
  tb : s.tb = s₀.tb
  cad : s.cad = s₀.cad
  weirs : s.weirs = s₀.weirs
  flight : s.flight = s₀.flight
  timers : s.timers = s₀.timers
  transfers : s.transfers = s₀.transfers
  disc : s.disc = s₀.disc
  sec : s.sec = s₀.sec
  flash : s.flash = s₀.flash
  gander : s.gander = s₀.gander
  mgt : s.mgt = s₀.mgt

variable {s₀ s : State}

theorem Undisturbed.refl (s : State) : Undisturbed s s := ⟨rfl, rfl, rfl, rfl, rfl, rfl, rfl, rfl, rfl, rfl, rfl, rfl⟩

/-- A change of anything else. -/
theorem Undisturbed.other {freeIx mem polders watches sent handed res wlv wlvOut herd pm} (h : Undisturbed s₀ s) :
    Undisturbed s₀ { s with freeIx, mem, polders, watches, sent, handed, res, wlv, wlvOut, herd, pm } := by
  obtain ⟨pending, tb, cad, weirs, flight, timers, transfers, disc, sec, flash, gander, mgt⟩ := h
  exact ⟨pending, tb, cad, weirs, flight, timers, transfers, disc, sec, flash, gander, mgt⟩

theorem Undisturbed.foldl {α : Type} {f : State → α → State} (h : Undisturbed s₀ s)
    (hf : ∀ s x, Undisturbed s₀ s → Undisturbed s₀ (f s x)) (l : List α) : Undisturbed s₀ (l.foldl f s) := by
  induction l generalizing s with
  | nil => exact h
  | cons x l ih => exact ih (hf s x h)

theorem Undisturbed.putBytes (h : Undisturbed s₀ s) (a : Nat) (bs : List Byte) : Undisturbed s₀ (s.putBytes a bs) := by
  obtain ⟨m, x, e⟩ := State.putBytes_only s a bs
  rw [e]
  exact h.other

theorem Undisturbed.putByte (h : Undisturbed s₀ s) (a : Nat) (b : Byte) : Undisturbed s₀ (s.putByte a b) := by
  unfold State.putByte
  split
  · exact h.other
  · exact h.other

theorem Undisturbed.contend (h : Undisturbed s₀ s) : Undisturbed s₀ s.contend := by
  unfold State.contend
  split
  · exact h.other
  · exact h

theorem Undisturbed.payRecord (h : Undisturbed s₀ s) (p : Pid) : Undisturbed s₀ (s.payRecord p) := by
  unfold State.payRecord
  split
  · exact h
  · split
    · exact (h.putBytes _ _).other
    · rename_i hg
      obtain ⟨P, rfl⟩ := gate_held hg
      exact h.other
    · exact h

theorem Undisturbed.clearEnded (h : Undisturbed s₀ s) : Undisturbed s₀ s.clearEnded := by
  unfold State.clearEnded
  split
  · exact h
  · exact h.other

theorem Undisturbed.taskFaultAt (h : Undisturbed s₀ s) (p : Pid) (pc : U32) (code : Byte) (info : U32) :
    Undisturbed s₀ (s.taskFaultAt p pc code info) := by
  unfold State.taskFaultAt
  split
  · exact h
  · dsimp only
    generalize hs : State.completeSoon _ _ _ _ = x
    obtain ⟨P, m, y, e⟩ := State.completeSoon_only _ _ _ _
    rw [e] at hs
    subst hs
    exact h.other

theorem Undisturbed.fetchAll (h : Undisturbed s₀ s) : Undisturbed s₀ s.fetchAll := by
  refine h.foldl (fun s p h => ?_) _
  split
  · unfold State.taskFault
    split
    · exact h
    · exact h.taskFaultAt _ _ _ _
  · exact h

theorem Undisturbed.portTouch (h : Undisturbed s₀ s) (a len : Nat) : Undisturbed s₀ (s.portTouch a len) := by
  refine h.foldl (fun s x h => ?_) _
  dsimp only
  split
  · exact h.other
  · split
    · exact h.other
    · exact h

theorem Undisturbed.portPut (h : Undisturbed s₀ s) (a : Nat) (bs : List Byte) : Undisturbed s₀ (s.portPut a bs) := by
  unfold State.portPut
  dsimp only
  split
  · exact (h.portTouch _ _).putBytes _ _
  · refine (h.portTouch _ _).foldl (fun s x h => ?_) _
    split
    · exact h
    · exact h.putByte _ _

theorem Undisturbed.commit (h : Undisturbed s₀ s) (p : Pid) (l : BitVec 512) : Undisturbed s₀ (s.commit p l) := by
  unfold State.commit State.wakeQuad
  split
  · exact h
  · exact h.other

theorem Undisturbed.commitLeft (h : Undisturbed s₀ s) (late : List Pid) (l : List (Pid × BitVec 512)) :
    Undisturbed s₀ (State.commitLeft late s l).1 := by
  induction l generalizing s late with
  | nil => exact h
  | cons x l ih =>
    unfold State.commitLeft
    split
    · exact ih h _
    · exact ih (h.commit _ _) _

theorem Undisturbed.trainTurn (h : Undisturbed s₀ s) (g : Fin 4) : Undisturbed s₀ (s.trainTurn g) := by
  unfold State.trainTurn
  split
  · exact h
  · split
    · exact h
    · extract_lets s1
      have h1 : Undisturbed s₀ s1 := by
        unfold s1
        split
        · exact h
        · exact h.foldl (fun s a h => h.portPut _ _) _
      split
      · exact h
      · exact (h1.commitLeft _ _).other

theorem Undisturbed.herdTurn (h : Undisturbed s₀ s) : Undisturbed s₀ s.herdTurn := by
  unfold State.herdTurn
  extract_lets herd s1
  have h1 : Undisturbed s₀ s1 := by
    unfold s1
    split
    · exact h.other
    · exact h
  split
  · exact h
  · split
    · exact h1
    · exact h1.foldl (fun s g h => h.trainTurn g) _

theorem Undisturbed.ownPacket (h : Undisturbed s₀ s) (x : U64 × RemoteOp) : Undisturbed s₀ (s.ownPacket x) := by
  unfold State.ownPacket
  dsimp only
  split
  · exact h.other
  · exact h.other

theorem Undisturbed.portSend (h : Undisturbed s₀ s) (o : Fin 6) : Undisturbed s₀ (s.portSend o) := by
  unfold State.portSend
  dsimp only
  split
  · exact h
  · split
    · exact h
    · exact h.other

theorem Undisturbed.wilvarTurn (h : Undisturbed s₀ s) : Undisturbed s₀ s.wilvarTurn := by
  unfold State.wilvarTurn
  have hown := h.foldl (fun _ x h => Undisturbed.ownPacket h x) (s.sent.drop s.handed)
  split
  · exact h
  · exact (Undisturbed.other hown).foldl (fun _ o h => h.portSend o) _

/-- The turn of everything that works in a nanosecond, before the timebase counts it. -/
def State.worked (s : State) : State := ((List.finRange 32).foldl State.payRecord
    s.contend).clearEnded.fetchAll.herdTurn.wilvarTurn

theorem Undisturbed.worked (s : State) : Undisturbed s s.worked :=
  ((Undisturbed.refl s).contend.foldl (fun _ p h => h.payRecord p) _).clearEnded.fetchAll.herdTurn.wilvarTurn

theorem State.tick_off (h : s.pm.state = .off) : s.tick = s := if_neg (by simp [State.timed, h])

theorem slewed_zero (held : Bool) (n : Nat) : slewed held 0 n = 0 := by simp [slewed]

/-- Without a slew a nanosecond is the work of the nanosecond and 1 on the timebase. -/
theorem State.tick_unslewed (h : s.pm.state ≠ .off) (h0 : s.cad.slew = 0) : ∃ c m, s.tick =
    { s.worked with tb := s.tb + 1, cad := c, pm := m } := by
  unfold State.tick
  rw [if_pos (by simp [State.timed, h])]
  have hw : s.worked.cad = s.cad := (Undisturbed.worked s).cad
  have htb : s.worked.tb = s.tb := (Undisturbed.worked s).tb
  unfold State.worked at *
  dsimp only
  rw [hw, htb, h0, slewed_zero, slewed_zero]
  exact ⟨_, _, rfl⟩

/-! Nothing under way. -/

theorem foldl_stays {α : Type} {f : State → α → State} {l : List α} (hf : ∀ x ∈ l, f s x = s) : l.foldl f s = s := by
  induction l with
  | nil => rfl
  | cons x l ih =>
    rw [List.foldl_cons, hf x List.mem_cons_self]
    exact ih fun y hy => hf y (List.mem_cons_of_mem _ hy)

theorem State.contend_of_idle (h : ∀ p, terpBusy s p = false) : s.contend = s :=
  if_neg (by simp [h])

theorem State.payRecord_of_none {p : Pid} (h : s.polders[p].seq.owed = []) : s.payRecord p = s := by
  simp only [State.payRecord, h]

theorem State.clearEnded_of_none (h : ∀ p : Pid, s.polders[p].terp.ended = []) : s.clearEnded = s :=
  if_pos (List.all_eq_true.mpr fun p _ => List.isEmpty_iff.mpr (h p))

theorem State.fetchAll_of_none (h : ∀ p, fetchStop s p = none) : s.fetchAll = s :=
  foldl_stays fun p _ => by rw [h p]

theorem State.trainTurn_of_none {g : Fin 4} (h : ∀ x ∈ s.bound, x.2.tables.train = none) : s.trainTurn g = s := by
  unfold State.trainTurn
  split
  · rfl
  · rename_i P hP
    have := h (g, P) (by simp [State.bound, hP])
    rw [this]

theorem State.herdTurn_of_none (h : ∀ x ∈ s.bound, x.2.tables.train = none) (hl : s.herd.linkEvent = false) : s.herdTurn = s := by
  unfold State.herdTurn
  simp only [hl, Bool.false_eq_true, if_false]
  rw [foldl_stays fun g _ => State.trainTurn_of_none h, ite_self, ite_self]

theorem State.wilvarTurn_of_no_job (h : s.pnx.job = none) : s.wilvarTurn = s := if_pos (by simp [h])

theorem State.worked_of_none
    (h : ∀ p : Pid, s.polders[p].seq.owed = [] ∧ terpBusy s p = false ∧ s.polders[p].terp.ended = [] ∧ fetchStop s p = none)
    (ht : ∀ x ∈ s.bound, x.2.tables.train = none) (hl : s.herd.linkEvent = false) (hj : s.pnx.job = none) : s.worked = s := by
  unfold State.worked
  rw [State.contend_of_idle fun p => (h p).2.1, foldl_stays fun p _ => State.payRecord_of_none (h p).1,
    State.clearEnded_of_none fun p => (h p).2.2.1, State.fetchAll_of_none fun p => (h p).2.2.2, State.herdTurn_of_none ht hl,
    State.wilvarTurn_of_no_job hj]

/-- Settles O2: without a slew a nanosecond is `State.worked` and 1 on the timebase, and where nothing is under way,
the latter alone. -/
theorem idleTickAdvancesTimebase : Obligations.IdleTickAdvancesTimebase := by
  intro s hq
  have hstep : step s = .next s.tick := by simp only [step, hq]
  refine ⟨fun h => by rw [hstep, State.tick_off h], fun h h0 => ?_⟩
  obtain ⟨c, m, ht⟩ := State.tick_unslewed h h0
  refine ⟨s.tick, hstep, ?_⟩
  rw [ht]
  have hnone := State.worked_of_none (s := s)
  have hw := Undisturbed.worked s
  generalize s.worked = w at hnone hw
  obtain ⟨pending, -, -, weirs, flight, timers, transfers, disc, sec, flash, gander, mgt⟩ := hw
  refine ⟨rfl, pending.trans hq, weirs, flight, timers, transfers, disc, sec, flash, gander, mgt, fun hp hb hl hj => ?_⟩
  obtain rfl := hnone hp hb hl hj
  exact ⟨rfl, rfl, rfl, rfl, rfl, rfl⟩

end Sys2Proof.Machine
end
section
/-! PROOFS. The I3C target, the sideband configuration and the test access port (18 R430, R432, R434). -/

namespace Sys2Proof.Machine

variable {s k : State}

theorem State.mgtRuns_iff : s.mgtRuns = true ↔ s.pm.state ≠ .off ∧ s.pm.state ≠ .s2 := by
  unfold State.mgtRuns
  cases s.pm.state <;> simp

theorem whenMgt_on (h : s.mgtRuns = true) : whenMgt s k = .next k := by simp [whenMgt, h]
theorem whenMgt_off (h : s.mgtRuns = false) : whenMgt s k = .next s := by simp [whenMgt, h]

theorem State.mgtRuns_eq_false (h : s.pm.state = .off ∨ s.pm.state = .s2) : s.mgtRuns = false := by
  rw [← Bool.not_eq_true, State.mgtRuns_iff]
  tauto

theorem mgt_ite {c : Prop} [Decidable c] {M : Mgt} :
    (if c then { s with mgt := M } else s) = { s with mgt := if c then M else s.mgt } := by split <;> rfl

theorem mgt_ite_not {c : Prop} [Decidable c] {M : Mgt} :
    (if c then s else { s with mgt := M }) = { s with mgt := if c then s.mgt else M } := by split <;> rfl

theorem straps_address {a : BitVec 7} {x : BitVec 2} : a = 0x50 + x.setWidth 7 ↔ a.toNat = 0x50 + x.toNat := by
  rw [← BitVec.toNat_inj]
  have := x.isLt
  have h50 : (0x50 : BitVec 7).toNat = 0x50 := rfl
  rw [BitVec.toNat_add, BitVec.toNat_setWidth, h50]
  omega

theorem capped_length (len : BitVec 16) : (if 256 < len.toNat then 256 else len) = BitVec.ofNat 16 (min 256 len.toNat) := by
  split
  · rw [min_eq_left (by omega)]
    rfl
  · rw [min_eq_right (by omega), BitVec.ofNat_toNat, BitVec.setWidth_eq]

theorem provisionalId_maker (s : State) : ((provisionalId s).setWidth 64).extractLsb' 16 16 = (0x4736 : BitVec 16) := by
  ext i hi
  interval_cases i <;> simp [provisionalId, BitVec.getElem_setWidth]

theorem provisionalId_straps (s : State) : ((provisionalId s).setWidth 64).extractLsb' 12 2 = s.mgt.straps.addrSel := by
  ext i hi
  interval_cases i <;> simp [provisionalId, BitVec.getElem_setWidth]

theorem State.ownerOf_pin (s : State) (n : Fin 8) : s.ownerOf (88 + n.val) = s.owner ⟨88 + n.val, by omega⟩ := dif_pos _

section
variable {n : Fin 8} {v : U32}

theorem State.sbWrite_refused (h : v.extractLsb' 28 4 ≠ s.ownerOf (88 + n.val)) :
    s.sbWrite n v = { s with mgt := { s.mgt with refused := true }, reply := .status 5 } := if_pos h

theorem State.sbWrite_kept (h : v.extractLsb' 28 4 = s.ownerOf (88 + n.val)) (hk : n.val < 3 ∨ v.extractLsb' 0 3 = 6) :
    s.sbWrite n v = s := by rw [State.sbWrite, if_neg (not_not.mpr h), if_pos hk]

theorem State.sbWrite_taken (h : v.extractLsb' 28 4 = s.ownerOf (88 + n.val)) (h3 : 3 ≤ n.val) (h6 : v.extractLsb' 0 3 ≠ 6) :
    s.sbWrite n v = { s with mgt := { s.mgt with sbCfg := s.mgt.sbCfg.set n (v &&& 0xF0000017) } } := by
  rw [State.sbWrite, if_neg (not_not.mpr h), if_neg (not_or.mpr ⟨by omega, h6⟩)]

end

theorem tapPermits_iff : tapPermits s = true ↔ s.pm.state = .refused ∨
    (s.running = true ∧ s.pnx.job = none ∧ ∀ q : Fin 4, s.pm.a1[q] = true) := by
  simp [tapPermits, and_assoc, Vector.all_eq_true, Fin.forall_iff]

theorem tap_off (h : s.pm.state = .off) (i : TapIns) : tap s i = .next s := by simp only [tap, h, if_true]
theorem tap_on (h : s.pm.state ≠ .off) (i : TapIns) : tap s i = .next { s with mgt := { s.mgt with tap := i } } := by
  simp only [tap, h, if_false]

/-- Settles O54: an access is `whenMgt`, `State.sbWrite` or `tap`, whose outcomes the lemmas above give. -/
theorem i3cSidebandAndTap : Obligations.I3cSidebandAndTap := by
  refine ⟨fun s a d ev len => ⟨fun h => ?_, fun h1 h2 => ?_⟩, fun s n v hr => ⟨fun h => ?_, fun h => ⟨fun hk => ?_,
    fun h3 h6 => ?_⟩⟩,
    fun s pins preload => ⟨fun h => ?_, fun h => ⟨?_, ?_, ?_, ?_⟩⟩⟩
  · have hoff := fun k => whenMgt_off (k := k) (State.mgtRuns_eq_false h)
    constructor
    · simp [execI3cGetpid, execI3cGetbcr, execI3cGetdcr, execI3cGetstatus, execI3cGetmwl, execI3cGetmrl, hoff]
    · simp [execI3cSetdasa, execI3cEntdaa, execI3cSetnewda, execI3cRstdaa, execI3cEnec, execI3cDisec, execI3cSetmwl,
        execI3cSetmrl, hoff]
  · have hon := fun k => whenMgt_on (k := k) (State.mgtRuns_iff.mpr ⟨h1, h2⟩)
    refine ⟨?_, ?_, hon _, hon _, _, hon _, provisionalId_maker s, provisionalId_straps s⟩
    · simp only [List.forall_mem_cons, exec_i3cSetdasa, execI3cSetdasa, exec_i3cEntdaa, execI3cEntdaa, exec_i3cSetnewda,
        execI3cSetnewda,
        exec_i3cSetmwl, execI3cSetmwl, exec_i3cSetmrl, execI3cSetmrl, hon, straps_address, capped_length, mgt_ite, mgt_ite_not,
          true_and]
      exact ⟨hon _, hon _, hon _, List.forall_mem_nil _⟩
    · simp only [List.forall_mem_cons]
      exact ⟨⟨_, _, hon _, rfl, rfl⟩, ⟨_, _, hon _, rfl, rfl⟩, ⟨_, _, hon _, rfl, rfl⟩, ⟨_, _, hon _, rfl, rfl⟩,
        ⟨_, _, hon _, rfl, rfl⟩, ⟨_, _, hon _, rfl, rfl⟩, List.forall_mem_nil _⟩
  · rw [exec_mgtSbCfgWrite, execMgtSbCfgWrite, whenRunning_on hr, State.sbWrite_refused (by rwa [State.ownerOf_pin])]
  · rw [exec_mgtSbCfgWrite, execMgtSbCfgWrite, whenRunning_on hr, State.sbWrite_kept (by rwa [State.ownerOf_pin]) hk]
  · rw [exec_mgtSbCfgWrite, execMgtSbCfgWrite, whenRunning_on hr, State.sbWrite_taken (by rwa [State.ownerOf_pin]) h3 h6]
  · have hoff := fun i => tap_off h i
    simp only [List.map, List.cons_append, List.nil_append, List.forall_mem_cons]
    exact ⟨hoff _, if_pos h, if_pos h, hoff _, hoff _, hoff _, List.forall_mem_nil _⟩
  · exact tap_on h _
  · exact (if_neg h).trans (tap_on (by exact h) _)
  · exact (if_neg h).trans (tap_on (by exact h) _)
  · have hpin (c : Instr) (i : TapIns) (hc : exec c s = tap s (if tapPermits s then i else .bypass)) :
        (tapPermits s = true → exec c s = .next { s with mgt := { s.mgt with tap := i } }) ∧
        (¬ tapPermits s = true → exec c s = .next { s with mgt := { s.mgt with tap := .bypass } }) := by
      rw [hc, tap_on h]
      exact ⟨fun hp => by rw [if_pos hp], fun hp => by rw [if_neg hp]⟩
    simp only [← tapPermits_iff, List.forall_mem_cons]
    exact ⟨hpin _ _ rfl, hpin _ _ rfl, hpin _ _ rfl, List.forall_mem_nil _⟩

end Sys2Proof.Machine
end
section
/-! PROOFS. PLDM (18 R433, Table 18-9). -/

namespace Sys2Proof.Machine

variable {s k : State}

theorem whenPldm_on (h : s.mgtRuns = true) : whenPldm s k = .next k.interrupt := whenMgt_on h

theorem State.interrupt_only (s : State) : ∃ i, s.interrupt = { s with mgt := { s.mgt with ibis := i } } := by
  unfold State.interrupt
  split
  · exact ⟨_, rfl⟩
  · exact ⟨s.mgt.ibis, rfl⟩

@[simp] theorem State.interrupt_reply (s : State) : s.interrupt.reply = s.reply := by obtain ⟨i, h⟩ := s.interrupt_only; rw [h]
@[simp] theorem State.interrupt_mem (s : State) : s.interrupt.mem = s.mem := by obtain ⟨i, h⟩ := s.interrupt_only; rw [h]
@[simp] theorem State.interrupt_pm (s : State) : s.interrupt.pm = s.pm := by obtain ⟨i, h⟩ := s.interrupt_only; rw [h]
@[simp] theorem State.interrupt_flash (s : State) : s.interrupt.flash = s.flash := by obtain ⟨i, h⟩ := s.interrupt_only; rw [h]

/-- An interrupt looks at nothing but the management block. -/
theorem State.interrupt_reply_freeIx (s : State) (r : Reply) (n : Nat) :
    { ({ s with reply := r, freeIx := n } : State).interrupt with reply := s.reply, freeIx := s.freeIx } = s.interrupt := by
  unfold State.interrupt
  split <;> rfl

/-- A flush of caches touches them alone. -/
theorem foldl_mscFlush_only (s : State) (l : List (Fin 4)) : ∃ m, l.foldl (fun s k => s.mscFlush k) s = { s with msc := m } := by
  induction l generalizing s with
  | nil => exact ⟨s.msc, rfl⟩
  | cons k l ih =>
    obtain ⟨m, h⟩ := ih (s.mscFlush k)
    exact ⟨m, h⟩

theorem State.enter_only (s : State) (goal : PowerState) : ∃ m x, s.enter goal =
    { s with pm := { s.pm with entering := some goal, wakeLatched := false }, gander := { s.gander with wakeSrc := 0 },
             msc := m, sec := x } := by
  unfold State.enter
  extract_lets pm gander s1 s2 sec
  split
  · obtain ⟨m, h⟩ := foldl_mscFlush_only s1 (List.finRange 4)
    exact ⟨m, _, by unfold s2; rw [h]⟩
  · exact ⟨s.msc, s.sec, rfl⟩

@[simp] theorem State.enter_entering (s : State) (goal : PowerState) : (s.enter goal).pm.entering = some goal := by
  obtain ⟨m, x, h⟩ := s.enter_only goal; rw [h]
@[simp] theorem State.enter_mem (s : State) (goal : PowerState) : (s.enter goal).mem = s.mem := by
  obtain ⟨m, x, h⟩ := s.enter_only goal; rw [h]

theorem State.running_state (h : s.running = true) : s.pm.state = .run := of_decide_eq_true h

theorem State.not_running (h : s.pm.state ≠ .run) : s.running = false := decide_eq_false h

theorem State.runsOrRecovers_iff : s.runsOrRecovers = true ↔ s.running = true ∨ s.pm.state = .recovery := by
  simp [State.runsOrRecovers]

theorem State.runsOrRecovers_eq_false (h : s.pm.state ≠ .run) (h' : s.pm.state ≠ .recovery) : s.runsOrRecovers = false := by
  rw [← Bool.not_eq_true, State.runsOrRecovers_iff]
  simp [State.not_running h, h']

/-! Sensors. -/

/-- A sensor's reading changes the reply and, where the value is free, the index of the free values. -/
theorem sensorValue_only (s : State) (id : SensorId) : ∃ r n, sensorValue s id = { s with reply := r, freeIx := n } := by
  cases id with
  | channel src =>
    simp only [sensorValue, channelReading]
    split
    · exact ⟨_, s.freeIx, rfl⟩
    · split
      · exact ⟨_, s.freeIx, rfl⟩
      · exact ⟨_, _, rfl⟩
  | energyTotal | powerState | coolClass | strapFault | bootSlot | recovery | calOrigin | integrityLost | thermalLockout
  | trainingFailure => exact ⟨_, s.freeIx, rfl⟩

theorem execPldmSensorRead_served {id : SensorId} (hm : s.mgtRuns = true) (h : sensorServed s id = true) :
    execPldmSensorRead id s = .next (sensorValue s id).interrupt := by
  rw [execPldmSensorRead, if_pos h, whenPldm_on hm]

theorem execPldmSensorRead_not_served {id : SensorId} (hm : s.mgtRuns = true) (h : sensorServed s id = false) :
    execPldmSensorRead id s = .next (notReady s).interrupt := by
  rw [execPldmSensorRead, h, whenPldm_on hm]
  rfl

theorem sensorServed_of_running (hm : s.mgtRuns = true) (h : s.running = true) : sensorServed s .energyTotal = true ∧
    sensorServed s .thermalLockout = true ∧ sensorServed s .trainingFailure = true := by
  simp [sensorServed, hm, h, State.running_state h]

theorem sensorValue_trainingFailure (s : State) : sensorValue s .trainingFailure =
    { s with reply := .value (if ∀ m : Fin 8, s.mc[m].trained = true ∧ s.mc[m].failed = [] then 0 else 1) } := by
  simp [sensorValue, Vector.all_eq_true, Fin.forall_iff]

/-! Power requests. -/

theorem execPldmEnterS1_unused (hm : s.mgtRuns = true) (hr : s.running = true) (hu : s.unused = true) (he : s.pm.entering =
    none) :
    execPldmEnterS1 s = .next (s.enter .s1).interrupt := by
  rw [execPldmEnterS1, if_pos (by simp [hr, hu, he]), whenPldm_on hm]

theorem execPldmEnterS1_not_ready (hm : s.mgtRuns = true) (h : s.running = false ∨ s.unused = false) :
    execPldmEnterS1 s = .next (notReady s).interrupt := by
  rw [execPldmEnterS1, if_neg (by rcases h with h | h <;> simp [h]), whenPldm_on hm]

theorem execPldmEnterS2_unused (hm : s.mgtRuns = true) (h : (s.running = true ∧ s.unused = true) ∨ s.pm.state = .s1)
    (he : s.pm.entering = none) : execPldmEnterS2 s = .next (s.enter .s2).interrupt := by
  rw [execPldmEnterS2, if_pos (by simpa [he] using h), whenPldm_on hm]

theorem execPldmEnterS2_not_ready (hm : s.mgtRuns = true) (hu : s.unused = false) (h : s.pm.state ≠ .s1) :
    execPldmEnterS2 s = .next (notReady s).interrupt := by
  rw [execPldmEnterS2, if_neg (by simp [hu, h]), whenPldm_on hm]

/-! The lockout and the debug lock. -/

theorem execPldmClearLockout_locked (hm : s.mgtRuns = true) (hr : s.running = true) (hl : s.pm.lockout = true) :
    execPldmClearLockout s =
      .next ({ s with pm := { s.pm with lockout := false, tripTimes := [] }, reply := .status 0 } : State).interrupt := by
  rw [execPldmClearLockout, if_pos (by simp [hr, hl]), whenPldm_on hm]

theorem execPldmClearLockout_not_ready (hm : s.mgtRuns = true) (h : s.running = false ∨ s.pm.lockout = false) :
    execPldmClearLockout s = .next (notReady s).interrupt := by
  rw [execPldmClearLockout, if_neg (by rcases h with h | h <;> simp [h]), whenPldm_on hm]

theorem execPldmBurnDebugLock_serves (hm : s.mgtRuns = true) (h : s.runsOrRecovers = true) : execPldmBurnDebugLock s =
    .next ({ s with sec := { s.sec with debugLock := true }, reply := .status 0 } : State).interrupt := by
  rw [execPldmBurnDebugLock, if_pos h, whenPldm_on hm]

theorem execPldmBurnDebugLock_not_ready (hm : s.mgtRuns = true) (h : ¬ s.runsOrRecovers = true) :
    execPldmBurnDebugLock s = .next (notReady s).interrupt := by
  rw [execPldmBurnDebugLock, if_neg h, whenPldm_on hm]

/-! Updates. -/

theorem update_serves {u : FwUpdate} {now : State} (h : s.runsOrRecovers = true) : update s u now = now.interrupt := if_pos h

theorem update_s1 {u : FwUpdate} {now : State} (h : s.pm.state = .s1) :
    update s u now = { s with mgt := { s.mgt with updates := s.mgt.updates ++ [u] } }.wakeSource 0x10 := by
  rw [update, State.runsOrRecovers_eq_false (by simp [h]) (by simp [h]), if_pos h]
  rfl

theorem update_refused {u : FwUpdate} {now : State} (h : s.pm.state = .refused) : update s u now = (notReady s).interrupt := by
  rw [update, State.runsOrRecovers_eq_false (by simp [h]) (by simp [h]), if_neg (show ¬ s.pm.state = .s1 by simp [h])]
  rfl

theorem State.wakeSource_latched {bits : U32} (h : s.pm.state = .s1) : (s.wakeSource bits).pm.wakeLatched = true := by
  simp [State.wakeSource, h]

theorem slot_set_same (v : Vector FwImage 2) (i : FwImage) (b : Bool) :
    (v.set (if b then 1 else 0) i (by split <;> omega))[if b then (1 : Fin 2) else 0] = i := by cases b <;> simp

theorem slot_set_other (v : Vector FwImage 2) (i : FwImage) (b : Bool) :
    (v.set (if b then 1 else 0) i (by split <;> omega))[if !b then (1 : Fin 2) else 0] = v[if !b then (1 : Fin 2) else 0] := by
  cases b <;> simp

theorem State.updateImage_slots (s : State) (i : FwImage) : ∃ b, (s.updateImage i).flash.pending = some b ∧
    (s.updateImage i).flash.preferB = b ∧ (s.updateImage i).flash.slot b = i ∧
    (s.updateImage i).flash.slot (!b) = s.flash.slot (!b) ∧ (s.sec.recovery = false → b = !s.sec.slotB) :=
  ⟨if s.sec.recovery then !s.flash.preferB else !s.sec.slotB, rfl, rfl, slot_set_same _ _ _, slot_set_other _ _ _,
    fun h => by simp [h]⟩

/-- Settles O55: one lemma for each outcome of each service. -/
theorem pldmServices : Obligations.PldmServices := by
  intro s hm
  refine ⟨whenPldm_on hm, fun id h => execPldmSensorRead_not_served hm h, fun id h => ?_, fun hr => ?_,
    fun he => ⟨fun hr hu => ?_, fun h1 => ?_, fun hu h1 => ?_⟩, fun hr hl => ?_, fun h => execPldmClearLockout_not_ready hm h,
    fun h => ?_, fun h => ?_, fun i cal => ⟨fun h => ?_, fun h1 => ?_, fun h => ?_⟩⟩
  · obtain ⟨r, n, hv⟩ := sensorValue_only s id
    exact ⟨_, execPldmSensorRead_served hm h, by rw [hv]; exact s.interrupt_reply_freeIx r n⟩
  · obtain ⟨he, hl, ht⟩ := sensorServed_of_running hm hr
    exact ⟨execPldmSensorRead_served hm he, execPldmSensorRead_served hm hl,
      (execPldmSensorRead_served hm ht).trans (by rw [sensorValue_trainingFailure])⟩
  · exact ⟨⟨_, execPldmEnterS1_unused hm hr hu he, by simp, by simp⟩, _,
      execPldmEnterS2_unused hm (.inl ⟨hr, hu⟩) he, by simp, by simp⟩
  · exact ⟨execPldmEnterS1_not_ready hm (.inl (State.not_running (by simp [h1]))), _,
      execPldmEnterS2_unused hm (.inr h1) he, by simp⟩
  · exact ⟨execPldmEnterS1_not_ready hm (.inr hu), execPldmEnterS2_not_ready hm hu h1⟩
  · exact ⟨_, execPldmClearLockout_locked hm hr hl, by simp, by simp, by simp, by simp⟩
  · exact execPldmBurnDebugLock_serves hm (State.runsOrRecovers_iff.mpr h)
  · exact execPldmBurnDebugLock_not_ready hm (mt State.runsOrRecovers_iff.mp h)
  · have hu := fun u now => update_serves (u := u) (now := now) (State.runsOrRecovers_iff.mpr h)
    have himage : exec (.pldmFwUpdateImage i) s = .next (s.updateImage i).interrupt := (whenMgt_on hm).trans (by rw [hu])
    have hcal : exec (.pldmFwUpdateCalibration cal) s = .next (s.updateCal cal).interrupt := (whenMgt_on hm).trans (by rw [hu])
    refine ⟨⟨_, himage, ?_⟩, fun h0 => ?_, fun h0 => ?_⟩
    · simp only [State.interrupt_reply, State.interrupt_flash, State.interrupt_mem]
      exact ⟨rfl, rfl, rfl, rfl, rfl, s.updateImage_slots i⟩
    · rw [hcal, State.updateCal, if_pos h0]
    · rw [hcal, State.updateCal, if_neg h0]
  · rintro c u (⟨rfl, rfl⟩ | ⟨rfl, rfl⟩)
    · exact ⟨_, (whenMgt_on hm).trans (congrArg _ (update_s1 h1)), by simp, State.wakeSource_latched h1, by simp⟩
    · exact ⟨_, (whenMgt_on hm).trans (congrArg _ (update_s1 h1)), by simp, State.wakeSource_latched h1, by simp⟩
  · exact ⟨(whenMgt_on hm).trans (by rw [update_refused h]; rfl), (whenMgt_on hm).trans (by rw [update_refused h]; rfl)⟩

end Sys2Proof.Machine
end
section
/-! PROOFS. Attestation and debug access (17 R415, R416, R420, R421). -/

namespace Sys2Proof.Machine

variable {s : State} {k : Measured → State} {m : Measured}

theorem attested_off (h : ¬ (s.running = true ∨ s.pm.state = .s1) ∨ s.sec.measured = none) : attested s k = .next s := by
  unfold attested
  split
  · rename_i m hm
    exact if_neg (by simpa [hm] using h)
  · rfl

theorem attested_on (h : s.running = true ∨ s.pm.state = .s1) (hm : s.sec.measured = some m) :
    attested s k = .next (k m).interrupt := by
  simp [attested, hm, h]

/-- What an answer changes: the reply, the count of interrupts and, for NEGOTIATE_ALGORITHMS, that a choice was made. -/
theorem interrupt_of_answer (s : State) (bs : List Byte) (b : Bool) :
    (let r := ({ s with reply := .bytes bs, mgt := { s.mgt with negotiated := b } } : State).interrupt
     r.reply = .bytes bs ∧ { r with reply := s.reply, mgt := s.mgt } = s ∧
     { r.mgt with negotiated := s.mgt.negotiated, ibis := s.mgt.ibis } = s.mgt ∧
     r.mgt.ibis = s.mgt.ibis + (if s.mgt.events.getLsbD 0 then 1 else 0)) := by
  unfold State.interrupt
  dsimp only
  split
  · exact ⟨rfl, rfl, rfl, rfl⟩
  · exact ⟨rfl, rfl, rfl, rfl⟩

/-- A request whose answer is a reply, with or without the choice of algorithms. -/
def Answered (s r : State) : Prop := ∃ bs b, r = { s with reply := .bytes bs, mgt := { s.mgt with negotiated := b } }

theorem Answered.bytes (s : State) (bs : List Byte) : Answered s { s with reply := .bytes bs } := ⟨bs, s.mgt.negotiated, rfl⟩

theorem Answered.interrupt {r : State} (h : Answered s r) : ∃ bs, r.interrupt.reply = .bytes bs ∧
    { r.interrupt with reply := s.reply, mgt := s.mgt } = s ∧
    { r.interrupt.mgt with negotiated := s.mgt.negotiated, ibis := s.mgt.ibis } = s.mgt ∧
    r.interrupt.mgt.ibis = s.mgt.ibis + (if s.mgt.events.getLsbD 0 then 1 else 0) := by
  obtain ⟨bs, b, rfl⟩ := h
  exact ⟨bs, interrupt_of_answer s bs b⟩

theorem Answered.ite {c : Prop} [Decidable c] {r t : State} (hr : Answered s r) (ht : Answered s t) :
    Answered s (if c then r else t) := by
  split
  · exact hr
  · exact ht

/-! GET_MEASUREMENTS. -/

/-- The blocks of Table 17-8. -/
def measuredBlocks (s : State) (m : Measured) : List (List Byte) :=
  [m.rom, m.header ++ [if m.slotB then 1 else 0, m.svn], [m.ctr.setWidth 8], m.cal ++ [m.origin.setWidth 8],
    [s.sec.granted.setWidth 8], s.flash.retired.map (fun n => BitVec.ofNat 8 n.val) ++ [s.disc.mapGen]]

theorem measurement_eq (s : State) (m : Measured) (i : Nat) : measurement s m (i + 1) = (measuredBlocks s m)[i]? := by
  rcases i with _ | _ | _ | _ | _ | _ | i
  case succ.succ.succ.succ.succ.succ => simp [measurement, measuredBlocks]
  all_goals rfl

theorem measurement_all (s : State) (m : Measured) :
    (List.range 6).flatMap (fun i => (measurement s m (i + 1)).getD []) = (measuredBlocks s m).flatten := by
  simp [measurement_eq, measuredBlocks, List.range_succ]

/-- The bytes that GET_MEASUREMENTS answers for an index, with none for an index without a block. -/
def measuredBytes (s : State) (m : Measured) (index : Byte) : Option (List Byte) :=
  if index = 0 then some [6] else if index = 0xFF then some (measuredBlocks s m).flatten else measurement s m index.toNat

theorem execGetMeasurements_some {index : Byte} {signed : Bool} {nonce : BitVec 256} {bs : List Byte}
    (h : s.running = true ∨ s.pm.state = .s1) (hm : s.sec.measured = some m) (hb : measuredBytes s m index = some bs) :
    exec (.getMeasurements index signed nonce) s = .next ({ s with reply := .bytes ([0x60, index] ++ (if signed then
      bs ++ leBytes 32 nonce.toNat ++ Config.sign (aliasSeed m) (bs ++ leBytes 32 nonce.toNat) else bs)) } : State).interrupt :=
        by
  rw [exec_getMeasurements, execGetMeasurements, attested_on h hm]
  dsimp only
  rw [measurement_all, ← measuredBytes, hb]
  rfl

theorem execGetMeasurements_none {index : Byte} {signed : Bool} {nonce : BitVec 256}
    (h : s.running = true ∨ s.pm.state = .s1) (hm : s.sec.measured = some m) (hb : measuredBytes s m index = none) :
    exec (.getMeasurements index signed nonce) s = .next ({ s with reply := .bytes [0x7F, 1, 0] } : State).interrupt := by
  rw [exec_getMeasurements, execGetMeasurements, attested_on h hm]
  dsimp only
  rw [measurement_all, ← measuredBytes, hb]
  rfl

theorem measuredBytes_block {i : Nat} {bs : List Byte} (h : (measuredBlocks s m)[i]? = some bs) :
    measuredBytes s m (BitVec.ofNat 8 (i + 1)) = some bs := by
  have hi : i < 6 := (List.getElem?_eq_some_iff.mp h).1
  have hn : (BitVec.ofNat 8 (i + 1)).toNat = i + 1 := by rw [BitVec.toNat_ofNat]; omega
  rw [measuredBytes, if_neg (by intro h0; rw [h0] at hn; simp at hn), if_neg (by intro h0; rw [h0] at hn; simp at hn; omega), hn,
    measurement_eq, h]

theorem measuredBytes_reserved {index : Byte} (h : 6 < index.toNat) (hF : index ≠ 0xFF) : measuredBytes s m index = none := by
  obtain ⟨n, hn⟩ : ∃ n, index.toNat = n + 1 := ⟨index.toNat - 1, by omega⟩
  rw [measuredBytes, if_neg (by rintro rfl; simp at h), if_neg hF, hn, measurement_eq]
  exact List.getElem?_eq_none (by simp only [measuredBlocks, List.length]; omega)

/-! Tokens and nonces. -/

theorem tokenOk_iff {tok : List Byte} : tokenOk s tok = true ↔ tok.length = 3381 ∧ tok.take 32 = deviceId ∧ s.sec.nonce ≠ 0 ∧
    leNat ((tok.drop 32).take 32) = s.sec.nonce.toNat ∧ leNat ((tok.drop 64).take 4) < 8 ∧ leNat ((tok.drop 68).take 4) = 0 ∧
    s.sec.debugLock = false ∧ Config.verifies Config.dbgKey (Config.sha3 (tok.take 72)) (tok.drop 72) = true := by
  simp [tokenOk, and_assoc]

/-- The next draw that is not 0, and the old nonce where there is none. -/
theorem freshNonce_drawn (old : BitVec 256) (draws : List (BitVec 256)) :
    (∀ d ∈ draws, d = 0) ∧ freshNonce old draws = old ∨ freshNonce old draws ≠ 0 ∧ freshNonce old draws ∈ draws := by
  unfold freshNonce
  cases h : draws.find? (fun n => n != 0) with
  | none => exact .inl ⟨fun d hd => by simpa using List.find?_eq_none.mp h d hd, rfl⟩
  | some x => exact .inr ⟨by simpa using List.find?_some h, List.mem_of_find?_eq_some h⟩

theorem State.revoke_granted (s : State) : s.revoke.sec.granted ≠ 1 := by
  unfold State.revoke
  dsimp only
  split
  · decide
  · assumption

/-- Settles O52: every request is `attested`, so a lemma over its answer gives what it changes;
the token's conditions are `tokenOk`. -/
theorem attestationAndDebug : Obligations.AttestationAndDebug := by
  refine ⟨fun s asym hash slot off len nonce index code signed => ⟨fun h => ?_, fun m h hm => ⟨?_, ?_, ?_, ?_, fun h0 => ?_,
    fun h0 => ?_, fun h0 => ?_, fun i bs hi hx => ?_, fun hx => ?_, fun hx => ?_, fun h6 hx => ?_⟩⟩,
    fun s tok draws hr => ⟨fun h => ?_, fun h => ?_, ?_, ?_⟩⟩
  · have hoff := fun k => attested_off (k := k) h
    simp only [List.forall_mem_cons]
    exact ⟨hoff _, hoff _, hoff _, hoff _, hoff _, hoff _, hoff _, hoff _, List.forall_mem_nil _⟩
  · have hone (c : Instr) (r : State) (hc : exec c s = .next r.interrupt) (hr : Answered s r) :
        ∃ r bs, exec c s = .next r ∧ r.reply = .bytes bs ∧ { r with reply := s.reply, mgt := s.mgt } = s ∧
          { r.mgt with negotiated := s.mgt.negotiated, ibis := s.mgt.ibis } = s.mgt ∧
          r.mgt.ibis = s.mgt.ibis + (if s.mgt.events.getLsbD 0 then 1 else 0) := by
      obtain ⟨bs, hbs⟩ := hr.interrupt
      exact ⟨r.interrupt, bs, hc, hbs⟩
    have hb := Answered.bytes s
    simp only [List.forall_mem_cons]
    refine ⟨hone _ _ (attested_on h hm) (hb _), hone _ _ (attested_on h hm) (hb _),
      hone _ _ (attested_on h hm) (Answered.ite ⟨_, true, rfl⟩ (hb _)), hone _ _ (attested_on h hm) (hb _),
      hone _ _ (attested_on h hm) (Answered.ite (hb _) (hb _)), hone _ _ (attested_on h hm) (Answered.ite (hb _) (hb _)), ?_,
      hone _ _ (attested_on h hm) (hb _), List.forall_mem_nil _⟩
    cases hx : measuredBytes s m index with
    | none => exact hone _ _ (execGetMeasurements_none h hm hx) (hb _)
    | some bs => exact hone _ _ (execGetMeasurements_some h hm hx) (hb _)
  · exact attested_on h hm
  · exact attested_on h hm
  · exact attested_on h hm
  · exact ⟨(attested_on h hm).trans (by rw [if_pos h0]; rfl), (attested_on h hm).trans (by rw [if_pos h0]; rfl)⟩
  · exact ⟨(attested_on h hm).trans (by rw [if_neg (not_not.mpr h0)]; rfl),
      (attested_on h hm).trans (by rw [if_neg (not_not.mpr h0)]; rfl)⟩
  · have hnot : ¬ (asym.getLsbD 1 && hash.getLsbD 3) = true := by rwa [Bool.and_eq_true, not_and_or, Bool.not_eq_true,
      Bool.not_eq_true]
    exact (attested_on h hm).trans (by rw [if_neg hnot]; rfl)
  · subst hx
    exact execGetMeasurements_some h hm (measuredBytes_block hi)
  · exact execGetMeasurements_some h hm (by rw [measuredBytes, if_neg (by simp [hx]), if_pos hx]; rfl)
  · exact execGetMeasurements_some h hm (if_pos hx)
  · exact execGetMeasurements_none h hm (measuredBytes_reserved h6 hx)
  · exact if_pos (by simpa [hr, ← Bool.not_eq_true] using mt tokenOk_iff.mp h)
  · refine ⟨freshNonce 0 draws, freshNonce_drawn 0 draws, if_neg ?_⟩
    simp [hr, tokenOk_iff.mpr h]
  · exact ⟨freshNonce s.sec.nonce draws, freshNonce_drawn _ draws,
      by rw [exec_secDbgNewNonce, execSecDbgNewNonce, whenRunning_on hr]⟩
  · refine ⟨s.revoke, by rw [exec_secDbgRevoke, execSecDbgRevoke, whenRunning_on hr], s.revoke_granted, rfl, ?_, rfl,
      fun h => if_neg h, rfl, rfl⟩
    exact Bool.and_eq_false_iff.mpr (.inl (by simpa using s.revoke_granted))

end Sys2Proof.Machine
end
section
/-! PROOFS. Announcements (14 R330-R332, R335). -/

namespace Sys2Proof.Machine

variable {s : State} {w : Fin 6} {a : Announce} {kind : BitVec 4} {k : State → State}

theorem mem_floodPorts {v : Fin 6} : v ∈ s.floodPorts (some w) ↔
    v ≠ w ∧ s.wlv[v].trained = true ∧ s.wlv[v].miscabled = false ∧ 1 < s.cad.extent (v.val / 2) := by
  simp [State.floodPorts, Cad.uses]
  tauto

theorem announced_seen (h : a.kind ≠ kind ∨ (a.origin, a.seq) ∈ s.cad.seen) : announced kind w a s k = .next s := by
  unfold announced
  rcases h with h | h
  · rw [if_pos (by simp [h])]
  · rw [if_pos (List.contains_iff_mem.mpr h), ite_self]

/-- The first copy on a port of the job. -/
theorem announced_first (hr : s.running = true) (hj : s.pnx.job.isSome = true) (hw : s.wlv[w].trained = true) (hk : a.kind = kind)
    (h : (a.origin, a.seq) ∉ s.cad.seen) : announced kind w a s k = .next (k (s.flood a (some w))) := by
  obtain ⟨j, hj⟩ := Option.isSome_iff_exists.mp hj
  unfold announced
  have hp : s.portUp w = true := hw
  rw [if_neg (by simp [hr, hj, hk, hp]), if_neg (by simpa using h)]

/-- What flooding adds on every port but the one it came in by. -/
def Flooded (s : State) (w : Fin 6) (a : Announce) (r : State) : Prop :=
  ∃ ports, r.cad.sent = s.cad.sent ++ [(a, ports)] ∧ r.cad.announces = s.cad.announces + 1 ∧ (a.origin, a.seq) ∈ r.cad.seen ∧
    ∀ v, v ∈ ports ↔ v ≠ w ∧ s.wlv[v].trained = true ∧ s.wlv[v].miscabled = false ∧ 1 < s.cad.extent (v.val / 2)

theorem Flooded.of_flood {r : State} (h1 : r.cad.sent = (s.flood a (some w)).cad.sent)
    (h2 : r.cad.announces = (s.flood a (some w)).cad.announces) (h3 : r.cad.seen =
      (s.flood a (some w)).cad.seen) : Flooded s w a r :=
  ⟨s.floodPorts (some w), h1, h2, h3 ▸ List.mem_append_right _ List.mem_cons_self, fun _ => mem_floodPorts⟩

theorem State.holdAnnounce_due (h : s.tb.toNat ≤ effectAt a.stamp.toNat) :
    s.holdAnnounce a = { s with cad := { s.cad with held := s.cad.held ++ [(a, effectAt a.stamp.toNat)] } } := by
  simp only [State.holdAnnounce, Nat.not_lt.mpr h, if_false]

theorem State.holdAnnounce_late (h : effectAt a.stamp.toNat < s.tb.toNat) :
    s.holdAnnounce a = { s with cad := { s.cad with
      held := s.cad.held ++ [(a, (s.tb.toNat + 19999) / 20000 * 20000)], late := s.cad.late + 1 } } := by
  simp only [State.holdAnnounce, h, if_true]

theorem State.mem_haltFrom (s : State) (o : BitVec 12) : o ∈ (s.haltFrom o).cad.haltsHeld := by
  unfold State.haltFrom
  dsimp only
  split
  · exact List.contains_iff_mem.mp ‹_›
  · exact List.mem_append_right _ List.mem_cons_self

/-- A RESUME touches the origins that hold, the hold and the waits of the polders. -/
theorem State.resumeFrom_only (s : State) (o : BitVec 12) : ∃ P, s.resumeFrom o =
    { s with cad := { s.cad with haltsHeld := s.cad.haltsHeld.filter (fun x => x != o) },
             holdWaits := !(s.cad.haltsHeld.filter (fun x => x != o)).isEmpty, polders := P } := by
  unfold State.resumeFrom
  dsimp only
  split
  · exact ⟨_, rfl⟩
  · exact ⟨s.polders, rfl⟩

theorem holds_iff {l : List (BitVec 12)} {o : BitVec 12} : (!(l.filter (fun x => x != o)).isEmpty) = true ↔ ∃ x ∈ l, x ≠ o := by
  simp

/-- The clause of the obligation for one command: what it does with a later copy, and with the first. -/
def Announces (s : State) (w : Fin 6) (a : Announce) (kind : BitVec 4) (c : Instr) : Prop :=
  (a.kind ≠ kind ∨ (a.origin, a.seq) ∈ s.cad.seen → exec c s = .next s) ∧
  (a.kind = kind → (a.origin, a.seq) ∉ s.cad.seen → ∃ r, exec c s = .next r ∧ Flooded s w a r ∧ r.mem = s.mem ∧ r.disc = s.disc ∧
    (kind.toNat ≤ 4 →
      (s.tb.toNat ≤ effectAt a.stamp.toNat → r.cad.held = s.cad.held ++ [(a, effectAt a.stamp.toNat)] ∧ r.cad.late = s.cad.late) ∧
      (effectAt a.stamp.toNat < s.tb.toNat →
        r.cad.held = s.cad.held ++ [(a, (s.tb.toNat + 19999) / 20000 * 20000)] ∧ r.cad.late = s.cad.late + 1)) ∧
    (kind = 5 → r.cad.halts = s.cad.halts + 1 ∧ r.holdWaits = true ∧ a.origin ∈ r.cad.haltsHeld ∧ r.cad.held = s.cad.held) ∧
    (kind = 6 → a.origin ∉ r.cad.haltsHeld ∧ r.cad.held = s.cad.held ∧ (r.holdWaits = true ↔ ∃ o ∈ s.cad.haltsHeld,
      o ≠ a.origin)))

section
variable {c : Instr} (hr : s.running = true) (hj : s.pnx.job.isSome = true) (hw : s.wlv[w].trained = true)
include hr hj hw

theorem announces_held (h4 : kind.toNat ≤ 4) (hc : exec c s = announced kind w a s fun s => s.holdAnnounce a) :
    Announces s w a kind c := by
  have hnot : kind ≠ 5 ∧ kind ≠ 6 := ⟨by rintro rfl; simp at h4, by rintro rfl; simp at h4⟩
  refine ⟨fun h => hc.trans (announced_seen h), fun hk h => ?_⟩
  have hr := hc.trans (announced_first hr hj hw hk h)
  rcases Nat.lt_or_ge (effectAt a.stamp.toNat) s.tb.toNat with hd | hd
  · rw [State.holdAnnounce_late (s := s.flood a (some w)) hd] at hr
    exact ⟨_, hr, Flooded.of_flood rfl rfl rfl, rfl, rfl, fun _ => ⟨fun h => absurd hd (Nat.not_lt.mpr h), fun _ => ⟨rfl, rfl⟩⟩,
      fun h => absurd h hnot.1, fun h => absurd h hnot.2⟩
  · rw [State.holdAnnounce_due (s := s.flood a (some w)) hd] at hr
    exact ⟨_, hr, Flooded.of_flood rfl rfl rfl, rfl, rfl, fun _ => ⟨fun _ => ⟨rfl, rfl⟩, fun h => absurd h (Nat.not_lt.mpr hd)⟩,
      fun h => absurd h hnot.1, fun h => absurd h hnot.2⟩

theorem announces_halt (hc : exec c s = announced 5 w a s fun s =>
    ({ s with cad := { s.cad with halts := s.cad.halts + 1 } } : State).haltFrom a.origin) : Announces s w a 5 c :=
  ⟨fun h => hc.trans (announced_seen h), fun hk h => ⟨_, hc.trans (announced_first hr hj hw hk h), Flooded.of_flood rfl rfl rfl,
    rfl, rfl,
    fun h => by simp at h, fun _ => ⟨rfl, rfl, State.mem_haltFrom _ _, rfl⟩, fun h => by simp at h⟩⟩

theorem announces_resume (hc : exec c s = announced 6 w a s fun s => s.resumeFrom a.origin) : Announces s w a 6 c := by
  obtain ⟨P, hP⟩ := (s.flood a (some w)).resumeFrom_only a.origin
  refine ⟨fun h => hc.trans (announced_seen h), fun hk h => ⟨_, (hc.trans (announced_first hr hj hw hk h)).trans (congrArg _ hP),
    Flooded.of_flood rfl rfl rfl, rfl, rfl, fun h => by simp at h, fun h => by simp at h, fun _ => ⟨?_, rfl, holds_iff⟩⟩⟩
  simp

end

/-- Settles O44: LOCKED, TARGET, CAP and RELEASE are held, a HALT holds the waits and a RESUME lets them go. -/
theorem announcements : Obligations.Announcements := by
  intro s w a hr hj hw
  have hheld := fun (kind : BitVec 4) (c : Instr) h4 hc => announces_held (kind := kind) (c := c) (a := a) hr hj hw h4 hc
  intro c cmds floods due x hx
  simp only [cmds, List.mem_cons, List.not_mem_nil, or_false] at hx
  rcases hx with rfl | rfl | rfl | rfl | rfl | rfl
  · exact hheld 1 _ (by decide) rfl
  · exact hheld 2 _ (by decide) rfl
  · exact hheld 3 _ (by decide) rfl
  · exact hheld 4 _ (by decide) rfl
  · exact announces_halt hr hj hw rfl
  · exact announces_resume hr hj hw rfl

end Sys2Proof.Machine
end
section
/-! PROOFS. Scratchpad protection and checkpoints (13 R304; 17 R399-R402, R409). -/

namespace Sys2Proof.Machine

/-! ### Lists of equal blocks -/

section
variable {α : Type} {f : Nat → List α} {m : Nat}

theorem length_flatMap_blocks (hf : ∀ k, (f k).length = m) (n : Nat) : ((List.range n).flatMap f).length = m * n := by
  induction n with
  | zero => rfl
  | succ n ih => simp [List.range_succ, ih, hf, Nat.mul_succ]

theorem getElem?_flatMap_blocks (hf : ∀ k, (f k).length = m) {n k i : Nat} (hk : k < n) (hi : i < m) :
    ((List.range n).flatMap f)[m * k + i]? = (f k)[i]? := by
  induction n with
  | zero => omega
  | succ n ih =>
    have hlen := length_flatMap_blocks hf n
    simp only [List.range_succ, List.flatMap_append, List.flatMap_cons, List.flatMap_nil, List.append_nil]
    rcases Nat.lt_or_eq_of_le (Nat.le_of_lt_succ hk) with h | rfl
    · have hin : m * k + i < m * n := by
        calc m * k + i < m * (k + 1) := by rw [Nat.mul_succ]; omega
          _ ≤ m * n := Nat.mul_le_mul_left _ h
      rw [List.getElem?_append_left (by omega), ih h]
    · rw [List.getElem?_append_right (by omega), hlen, Nat.add_sub_cancel_left]

end

theorem leBytes_length (n x : Nat) : (leBytes n x).length = n := by
  induction n generalizing x with
  | zero => rfl
  | succ n ih => rw [leBytes, List.length_cons, ih]

/-! ### The reserve -/

theorem sget_putReserve (r : Sparse Byte) (a : Nat) (bs : List Byte) (k : Nat) :
    sget 0 (putReserve r a bs) k = if a ≤ k ∧ k < a + bs.length then bs.getD (k - a) 0 else sget 0 r k := by
  induction bs generalizing r a with
  | nil => rw [putReserve, if_neg (by simp)]
  | cons b t ih =>
    rw [putReserve, ih, sget_sput, List.length_cons]
    rcases Nat.lt_trichotomy k a with h | rfl | h
    · rw [if_neg (by omega), if_neg (by omega), if_neg (by omega)]
    · rw [if_neg (by omega), if_pos rfl, if_pos (by omega), Nat.sub_self, List.getD_cons_zero]
    · obtain ⟨j, rfl⟩ : ∃ j, k = a + 1 + j := ⟨k - (a + 1), by omega⟩
      rw [show a + 1 + j - a = j + 1 by omega, List.getD_cons_succ, Nat.add_sub_cancel_left]
      by_cases hj : j < t.length
      · rw [if_pos (by omega), if_pos (by omega)]
      · rw [if_neg (by omega), if_neg (by omega), if_neg (by omega)]

/-- The payload of a unit in the bytes that are saved. -/
def unitPayload (bs : List Byte) (q : Nat) : List Byte := (bs.drop (960 * q)).take 960

theorem unitBytes_length {p : List Byte} (h : p.length = 960) : (unitBytes p).length = 1024 := by
  rw [unitBytes, List.length_append, List.length_append, length_flatMap_blocks (m := 4) fun _ => leBytes_length _ _, h]
  rfl

theorem unitBytes_payload {p : List Byte} (h : p.length = 960) {i : Nat} (hi : i < 960) : (unitBytes p).getD i 0 = p.getD i 0 :=
    by
  rw [unitBytes, List.append_assoc, List.getD_append _ _ _ _ (by omega)]

/-- The check bytes of a unit's lines stand in line 15. -/
theorem unitBytes_check {p : List Byte} (h : p.length = 960) {line i : Nat} (hl : line < 15) (hi : i < 4) :
    (unitBytes p).getD (960 + 4 * line + i) 0 = (leBytes 4 (Config.rsCheck ((p.drop (64 * line)).take 64)).toNat).getD i 0 := by
  have hb := length_flatMap_blocks (m := 4) (f := fun j => leBytes 4 (Config.rsCheck ((p.drop (64 * j)).take 64)).toNat)
    (fun _ => leBytes_length _ _) 15
  rw [unitBytes, List.getD_eq_getElem?_getD, List.getElem?_append_left (by rw [List.length_append, hb]; omega),
    List.getElem?_append_right (by omega), h, show 960 + 4 * line + i - 960 = 4 * line + i by omega,
    getElem?_flatMap_blocks (fun _ => leBytes_length _ _) hl hi, List.getD_eq_getElem?_getD]

theorem unitPayload_length {bs : List Byte} {q n : Nat} (hq : q < n) (h : bs.length = 960 * n) : (unitPayload bs q).length =
    960 := by
  rw [unitPayload, List.length_take, List.length_drop]
  omega

theorem sget_putUnits_outside (r : Sparse Byte) (first : Nat) {bs : List Byte} {n m : Nat} (hm : m ≤ n) (hlen : bs.length =
    960 * n) {k : Nat}
    (h : k < 1024 * first ∨ 1024 * (first + m) ≤ k) : sget 0 (putUnits r first bs m) k = sget 0 r k := by
  induction m with
  | zero => rfl
  | succ m ih =>
    have hl : (unitBytes (unitPayload bs m)).length = 1024 := unitBytes_length (unitPayload_length (by omega) hlen)
    rw [putUnits, sget_putReserve, ← unitPayload, hl, if_neg (by omega)]
    exact ih (by omega) (by omega)

theorem sget_putUnits_inside (r : Sparse Byte) (first : Nat) {bs : List Byte} {n m : Nat} (hm : m ≤ n) (hlen : bs.length =
    960 * n) {q o : Nat}
    (hq : q < m) (ho : o < 1024) : sget 0 (putUnits r first bs m) (1024 * (first + q) + o) =
      (unitBytes (unitPayload bs q)).getD o 0 := by
  induction m with
  | zero => omega
  | succ m ih =>
    have hl : (unitBytes (unitPayload bs m)).length = 1024 := unitBytes_length (unitPayload_length (by omega) hlen)
    rw [putUnits, sget_putReserve, ← unitPayload, hl]
    rcases Nat.lt_or_eq_of_le (Nat.le_of_lt_succ hq) with h | rfl
    · rw [if_neg (by omega)]
      exact ih (by omega) h
    · rw [if_pos (by omega), Nat.add_sub_cancel_left]

theorem readUnits_length (r : Sparse Byte) (first n : Nat) : (readUnits r first n).length = 960 * n :=
  length_flatMap_blocks (by simp) n

theorem readUnits_getD (r : Sparse Byte) (first : Nat) {n b : Nat} (h : b < 960 * n) :
    (readUnits r first n).getD b 0 = sget 0 r (1024 * (first + b / 960) + b % 960) := by
  have hb := Nat.div_add_mod b 960
  have hm := Nat.mod_lt b (show 0 < 960 by omega)
  have := getElem?_flatMap_blocks (f := fun k => (List.range 960).map (fun i => sget 0 r (1024 * (first + k) + i))) (m := 960)
    (by simp) (k := b / 960) (i := b % 960) (n := n) (by omega) hm
  rw [hb] at this
  rw [readUnits, List.getD_eq_getElem?_getD, this]
  simp [hm]

/-! ### Bytes -/

theorem State.bytes_length (s : State) (a n : Nat) : (s.bytes a n).length = n := by simp [State.bytes]

theorem State.bytes_getD (s : State) (a : Nat) {n k : Nat} (h : k < n) : (s.bytes a n).getD k 0 = s.byte (a + k) := by
  simp [State.bytes, h]

theorem State.bytes_take_drop (s : State) (a : Nat) {n k m : Nat} (h : k + m ≤ n) : ((s.bytes a n).drop k).take m =
    s.bytes (a + k) m := by
  refine List.ext_getElem (by simp [State.bytes]; omega) fun i h1 h2 => ?_
  simp [State.bytes, Nat.add_assoc]

/-- What an own byte holds after a store, wherever the store ends. -/
theorem State.byte_putBytes (s : State) (a : Nat) (xs : List Byte) {b : Nat} (hb : b < 2 ^ 63) :
    (s.putBytes a xs).byte b = if a ≤ b ∧ b < a + xs.length then xs.getD (b - a) 0 else s.byte b := by
  by_cases h : a ≤ b ∧ b < a + xs.length
  · rw [if_pos h, State.putBytes_own s xs (by omega)]
    induction xs generalizing s a with
    | nil => simp at h; omega
    | cons x t ih =>
      rw [State.storeBytes]
      rcases Nat.eq_or_lt_of_le h.1 with rfl | hlt
      · rw [State.byte_storeBytes_outside _ _ _ _ (.inl (by omega)), State.byte_putByte_self _ _ hb, Nat.sub_self,
          List.getD_cons_zero]
      · rw [List.length_cons] at h
        rw [ih _ _ ⟨by omega, by omega⟩, show b - a = (b - (a + 1)) + 1 by omega, List.getD_cons_succ]
  · rw [if_neg h, State.byte_putBytes_outside _ _ _ _ (by omega)]

/-! ### Patrol and refetch -/

section
variable {s : State} {p : Pid} {addr : BitVec 29}

/-- The patrol reads a word of a bank that is on, not busy and not under refetch. -/
def PatrolReads (s : State) (p : Pid) (addr : BitVec 29) : Prop :=
  ¬ (!s.running || scratchBytes ≤ addr.toNat || s.polders[p].terp.banks[bankIx (addr.toNat / 4096)].busy ||
    s.polders[p].terp.banks[bankIx (addr.toNat / 4096)].power ≠ 0 || s.integ.refetching.contains (p, addr.toNat / 4096)) = true

theorem patrolReads_of (hr : s.running = true) (ha : addr.toNat < scratchBytes)
    (hb : s.polders[p].terp.banks[bankIx (addr.toNat / 4096)].busy = false)
    (h0 : s.polders[p].terp.banks[bankIx (addr.toNat / 4096)].power = 0)
    (hf : s.integ.refetching.contains (p, addr.toNat / 4096) = false) : PatrolReads s p addr := by
  simp only [PatrolReads, hr, hb, h0, hf, decide_eq_false (Nat.not_le.mpr ha), ne_eq, not_true, decide_false, Bool.not_true,
    Bool.or_self, Bool.false_eq_true, not_false_eq_true]

theorem execTerpPatrolScrub_clean (h : PatrolReads s p addr) : execTerpPatrolScrub p addr .clean s = .next s :=
    (if_neg h).trans rfl

theorem execTerpPatrolScrub_corrected (h : PatrolReads s p addr) (y : BitVec 7) : execTerpPatrolScrub p addr (.corrected y) s =
    .next (s.onSite (s.siteOf p) (fun x => { x with ce := x.ce + 1 })) := (if_neg h).trans rfl

theorem execTerpPatrolScrub_uncorrectable (h : PatrolReads s p addr) :
    execTerpPatrolScrub p addr .uncorrectable s = .next (s.wordLost p (addr.toNat / 4096)) := (if_neg h).trans rfl

theorem State.onSite_same (s : State) (n : Site) (g : SiteInteg → SiteInteg) :
    (s.onSite n g).integ.sites[n] = g s.integ.sites[n] := by
  simp [State.onSite]

theorem State.onSite_other (s : State) {n k : Site} (g : SiteInteg → SiteInteg) (h : k ≠ n) :
    (s.onSite n g).integ.sites[k] = s.integ.sites[k] := by
  simp [State.onSite, show ¬ n.val = k.val from fun e => h (Fin.ext e.symm)]

theorem State.onSite_integ_refetching (s : State) (n : Site) (g : SiteInteg → SiteInteg) :
    (s.onSite n g).integ.refetching = s.integ.refetching := rfl

theorem State.onSite_byte (s : State) (n : Site) (g : SiteInteg → SiteInteg) (b : Nat) : (s.onSite n g).byte b = s.byte b := rfl

theorem State.planSite_only (s : State) (n : Site) :
    ∃ l, s.planSite n = { s with integ := { s.integ with planned := l } } ∧ n ∈ l := by
  unfold State.planSite
  split
  · exact ⟨s.integ.planned, rfl, List.contains_iff_mem.mp ‹_›⟩
  · exact ⟨_, rfl, List.mem_append_right _ List.mem_cons_self⟩

theorem State.wordLost_refetch {n : Nat} (hp : s.polders[p].terp.banks[bankIx n].prot = true)
    (hi : (refetchImage s p n).isSome = true) (hf : s.integ.refetching.contains (p, n) = false) :
    s.wordLost p n = { s with integ := { s.integ with refetching := s.integ.refetching ++ [(p, n)] } } := by
  unfold State.wordLost
  dsimp only
  rw [if_pos (by rw [hp, hi]; rfl), hf, if_neg (by simp)]

/-- A word lost elsewhere counts, plans its site when it is the second within a day, and is a cause to roll back. -/
theorem State.wordLost_counted {n : Nat} (h : s.polders[p].terp.banks[bankIx n].prot = false ∨ refetchImage s p n = none) :
    (s.wordLost p n).integ.sites[s.siteOf p].ue = s.integ.sites[s.siteOf p].ue + 1 ∧ (s.wordLost p n).integ.cause.isSome = true ∧
    (s.wordLost p n).mem = s.mem ∧ (∀ t, s.integ.sites[s.siteOf p].firstUe = some t → (s.tb - t).toNat < dayNs →
      s.siteOf p ∈ (s.wordLost p n).integ.planned) := by
  unfold State.wordLost
  extract_lets weight I x again s1 s2
  rw [if_neg (by rcases h with h | h <;> simp [weight, h])]
  have h1 : s1.integ.sites[s.siteOf p].ue = s.integ.sites[s.siteOf p].ue + 1 := by
    unfold s1
    rw [State.onSite_same]
  have h2 : s2.integ.sites = s1.integ.sites ∧ s2.mem = s.mem ∧ (again = true → s.siteOf p ∈ s2.integ.planned) := by
    unfold s2
    split
    · obtain ⟨l, hl, hm⟩ := s1.planSite_only (s1.siteOf p)
      rw [hl]
      exact ⟨rfl, rfl, fun _ => hm⟩
    · rename_i ha
      exact ⟨rfl, rfl, fun h => absurd h ha⟩
  obtain ⟨hs, hm, hplan⟩ := h2
  refine ⟨?_, ?_, hm, fun t ht hd => hplan ?_⟩
  · rw [← h1, ← hs]
    rfl
  · unfold State.startRollback
    dsimp only
    split <;> rfl
  · simp only [again, x, ht]
    exact decide_eq_true hd

theorem execRefetchDone_image {slot : BitVec 17} {a : Nat} (hr : s.running = true)
    (hf : s.integ.refetching.contains (p, slot.toNat) = true) (hi : refetchImage s p slot.toNat = some a) :
    execRefetchDone p slot s = .next ((({ s with
        integ := { s.integ with refetching := s.integ.refetching.erase (p, slot.toNat) } } : State).putBytes
      (scratchAddr p (4096 * slot.toNat)) (s.bytes a 4096)).onSite (s.siteOf p) (fun x => { x with refetch := x.refetch + 1 })) :=
        by
  unfold execRefetchDone
  dsimp only
  rw [if_neg (by simp only [hr, hf, Bool.not_true, Bool.or_self, Bool.false_eq_true, not_false_eq_true])]
  have hi' : refetchImage { s with integ := { s.integ with refetching := s.integ.refetching.erase (p,
    slot.toNat) } } p slot.toNat =
    some a := hi
  rw [hi']
  dsimp only
  rw [State.siteOf, State.putBytes_disc]
  rfl

end

/-! ### Checkpoint copies -/

section
variable {s : State} {v : U32}

theorem go_dir (v : U32) : (v ||| 0x80000000) &&& 0x40000000 = v &&& 0x40000000 := by
  ext i hi
  interval_cases i <;> simp

theorem execCkptCtlGo_on (h : s.running = true) : execCkptCtlGo v s = .next (s.ckptWrite (v ||| 0x80000000)) := whenRunning_on h

theorem ckptWrite_busy (h : s.ckpt.busy = true) :
    s.ckptWrite (v ||| 0x80000000) = { s with ckpt := { s.ckpt with ctl := v &&& 0x40000000 } } := by
  unfold State.ckptWrite
  dsimp only
  rw [if_pos (by simp [h]), go_dir]

theorem ckptWrite_too_far (h : s.ckpt.busy = false) (hu : reserveUnits < s.ckpt.unit.toNat + s.ckpt.units.toNat) :
    s.ckptWrite (v ||| 0x80000000) =
      { s with ckpt := { s.ckpt with ctl := v &&& 0x40000000, status := s.ckpt.status ||| 8 } } := by
  unfold State.ckptWrite
  dsimp only
  rw [if_neg (by simp [h]), if_pos hu, go_dir]

theorem ckptWrite_starts (h : s.ckpt.busy = false) (hu : s.ckpt.unit.toNat + s.ckpt.units.toNat ≤ reserveUnits) :
    s.ckptWrite (v ||| 0x80000000) = { s with ckpt := { s.ckpt with
      ctl := v &&& 0x40000000, busy := true,
      job := ⟨v.getLsbD 30, s.ckpt.addr.toNat, s.ckpt.unit.toNat, s.ckpt.units.toNat⟩ } } := by
  unfold State.ckptWrite
  dsimp only
  rw [if_neg (by simp [h]), if_neg (by omega), go_dir]
  simp

end

section
variable {s : State} {ue : Bool} (hr : s.running = true) (hb : s.ckpt.busy = true)
include hr hb

theorem execCkptCopyDone_save (h : s.ckpt.job.restore = false) : execCkptCopyDone ue s = .next { s with ckpt := { s.ckpt with
    busy := false, status := s.ckpt.status ||| 2 ||| 0,
    reserve := putUnits s.ckpt.reserve s.ckpt.job.unit (s.bytes s.ckpt.job.addr (960 * s.ckpt.job.units)) s.ckpt.job.units } } :=
      by
  unfold execCkptCopyDone
  dsimp only
  rw [if_neg (by simp [hr, hb]), h]
  rfl

theorem execCkptCopyDone_lost (h : s.ckpt.job.restore = true) (hl : (ue || unitsDead s s.ckpt.job.unit s.ckpt.job.units) = true) :
    execCkptCopyDone ue s = .next { s with ckpt := { s.ckpt with busy := false, status := s.ckpt.status ||| 2 ||| 4 } } := by
  unfold execCkptCopyDone
  dsimp only
  rw [if_neg (by simp [hr, hb]), h, hl]
  rfl

theorem execCkptCopyDone_restore (h : s.ckpt.job.restore = true)
    (hl : (ue || unitsDead s s.ckpt.job.unit s.ckpt.job.units) = false) :
    execCkptCopyDone ue s = .next (({ s with
      ckpt := { s.ckpt with busy := false, status := s.ckpt.status ||| 2 ||| 0 } } : State).putBytes
      s.ckpt.job.addr (readUnits s.ckpt.reserve s.ckpt.job.unit s.ckpt.job.units)) := by
  unfold execCkptCopyDone
  dsimp only
  rw [if_neg (by simp [hr, hb]), h, hl]
  rfl

end

/-- What a save leaves in the reserve: the bytes of each unit, the check bytes of its lines, and everything else as before. -/
theorem putUnits_saves (s : State) (r : Sparse Byte) (first a n : Nat) :
    (∀ b < 960 * n, sget 0 (putUnits r first (s.bytes a (960 * n)) n) (1024 * (first + b / 960) + b % 960) = s.byte (a + b)) ∧
    (∀ k < n, ∀ line < 15, ∀ i < 4, sget 0 (putUnits r first (s.bytes a (960 * n)) n)
        (1024 * (first + 960 * k / 960) + 960 + 4 * line + i) =
      (leBytes 4 (Config.rsCheck (s.bytes (a + 960 * k + 64 * line) 64)).toNat).getD i 0) ∧
    ∀ k, k < 1024 * first ∨ 1024 * (first + n) ≤ k → sget 0 (putUnits r first (s.bytes a (960 * n)) n) k = sget 0 r k := by
  have hlen := s.bytes_length a (960 * n)
  have hpay (q : Nat) (hq : q < n) : unitPayload (s.bytes a (960 * n)) q = s.bytes (a + 960 * q) 960 :=
    s.bytes_take_drop a (by omega)
  refine ⟨fun b hb => ?_, fun k hk line hl i hi => ?_, fun k hk => sget_putUnits_outside r first (Nat.le_refl n) hlen hk⟩
  · have hm := Nat.mod_lt b (show 0 < 960 by omega)
    rw [sget_putUnits_inside r first (Nat.le_refl n) hlen (by omega) (by omega), hpay _ (by omega),
      unitBytes_payload (s.bytes_length _ _) hm, s.bytes_getD _ hm, Nat.add_assoc, Nat.div_add_mod]
  · rw [Nat.mul_div_cancel_left k (by omega), Nat.add_assoc, Nat.add_assoc,
      sget_putUnits_inside r first (Nat.le_refl n) hlen hk (by omega), hpay k hk, ← Nat.add_assoc,
      unitBytes_check (s.bytes_length _ _) hl hi, s.bytes_take_drop _ (by omega)]

/-- Settles O40: the patrol, the refetch, the write of CKPT_CTL and the end of a copy, each by the lemmas of its outcomes. -/
theorem protectionAndCheckpoints : Obligations.ProtectionAndCheckpoints := by
  refine ⟨fun s p addr hr ha hb h0 hf => ?_, fun s p slot a hr hf hi => ?_, fun s v hr => ⟨fun hb => ?_, fun hb hu => ?_,
    fun hb hu => ?_⟩,
    fun s ue hr hb => ?_⟩
  · have hread := patrolReads_of hr ha hb h0 hf
    exact ⟨execTerpPatrolScrub_clean hread, fun y => ⟨_, execTerpPatrolScrub_corrected hread y, by rw [State.onSite_same],
        fun k hk => State.onSite_other s _ hk, rfl⟩,
      fun hp hi => ⟨_, (execTerpPatrolScrub_uncorrectable hread).trans (congrArg Host.Outcome.next (State.wordLost_refetch hp hi
        hf)),
        rfl, rfl, rfl, rfl⟩,
      fun h => ⟨_, execTerpPatrolScrub_uncorrectable hread, State.wordLost_counted h⟩⟩
  · refine ⟨_, execRefetchDone_image hr hf hi, ?_, ?_, fun b hb => ?_⟩
    · rw [State.onSite_integ_refetching, State.putBytes_integ]
    · rw [State.onSite_same, State.putBytes_integ]
    · rw [State.onSite_byte, State.byte_putBytes _ _ _ hb, State.bytes_length]
      split
      · exact State.bytes_getD s a (by omega)
      · rfl
  · exact (execCkptCtlGo_on hr).trans (congrArg Host.Outcome.next (ckptWrite_busy hb))
  · exact (execCkptCtlGo_on hr).trans (congrArg Host.Outcome.next (ckptWrite_too_far hb hu))
  · exact (execCkptCtlGo_on hr).trans (congrArg Host.Outcome.next (ckptWrite_starts hb hu))
  · intro c j a unit lost
    have hbit1 (x : BitVec 32) (y : BitVec 32) : (x ||| 2 ||| y).getLsbD 1 = true := by simp
    cases hres : s.ckpt.job.restore with
    | false =>
      exact ⟨_, execCkptCopyDone_save hr hb hres, rfl, hbit1 _ _, fun _ => ⟨rfl, putUnits_saves _ _ _ _ _⟩,
        fun h => absurd h Bool.false_ne_true, fun h => absurd h Bool.false_ne_true⟩
    | true =>
      cases hl : lost with
      | true =>
        exact ⟨_, execCkptCopyDone_lost hr hb hres hl, rfl, hbit1 _ _, fun h => absurd h.symm Bool.false_ne_true, fun _ _ => ⟨rfl,
          rfl, by simp⟩,
          fun _ h => absurd h.symm Bool.false_ne_true⟩
      | false =>
        refine ⟨_, execCkptCopyDone_restore hr hb hres hl, ?_, ?_, fun h => absurd h.symm Bool.false_ne_true,
          fun _ h => absurd h Bool.false_ne_true,
          fun _ _ => ⟨?_, fun b hb => ?_⟩⟩
        · rw [State.putBytes_ckpt]
        · rw [State.putBytes_ckpt]
          exact hbit1 _ _
        · rw [State.putBytes_ckpt]
        · rw [State.byte_putBytes _ _ _ hb, readUnits_length]
          split
          · exact readUnits_getD _ _ (by omega)
          · rfl

end Sys2Proof.Machine
end
section
/-! PROOFS. Entry into S1 and S2, wake sources and wakes (16 R383-R386). -/

namespace Sys2Proof.Machine

variable {s : State}

/-! ### Entries -/

/-- An entry begun: the goal stands, wake sources are clear, and memory and polders are as before. -/
def Begun (s r : State) (goal : PowerState) : Prop :=
  r.pm.entering = some goal ∧ r.pm.state = .run ∧ r.pm.wakeLatched = false ∧ r.gander.wakeSrc = 0 ∧ r.mem = s.mem ∧
    r.polders = s.polders

theorem State.enter_begun (hr : s.running = true) (goal : PowerState) : Begun s (s.enter goal) goal := by
  obtain ⟨m, x, h⟩ := s.enter_only goal
  rw [h]
  exact ⟨rfl, State.running_state hr, rfl, rfl, rfl, rfl⟩

theorem State.request_unused (hr : s.running = true) (he : s.pm.entering = none) (hu : s.unused = true) (goal : PowerState) :
    s.request goal = s.enter goal := by
  rw [State.request, if_neg (by simp [hr, he]), if_neg (by simp [hu])]

theorem State.request_used (hr : s.running = true) (he : s.pm.entering = none) (hu : s.unused = false) (goal : PowerState) :
    s.request goal = { s with reply := .status 1 } := by
  rw [State.request, if_neg (by simp [hr, he]), if_pos (by simp [hu])]

theorem execS1IdleTimeout_enters (hr : s.running = true) (he : s.pm.entering = none) (hu : s.unused = true)
    (h0 : (s.pm.ctl.extractLsb' 8 8).toNat ≠ 0)
    (hl : 1000000 * (s.pm.ctl.extractLsb' 8 8).toNat ≤ (s.tb - s.pm.idleSince).toNat) : execS1IdleTimeout s =
      .next (s.enter .s1) := by
  unfold execS1IdleTimeout
  dsimp only
  exact if_neg (by simp only [hr, he, hu, h0, Nat.not_lt.mpr hl, Option.isSome_none]; decide)

theorem execS1IdleTimeout_waits (h : s.unused = false ∨ (s.pm.ctl.extractLsb' 8 8).toNat = 0 ∨
    (s.tb - s.pm.idleSince).toNat < 1000000 * (s.pm.ctl.extractLsb' 8 8).toNat) : execS1IdleTimeout s = .next s := by
  unfold execS1IdleTimeout
  dsimp only
  refine if_pos ?_
  rcases h with h | h | h
  · simp [h]
  · simp only [h, decide_true, Bool.or_true, Bool.true_or]
  · simp only [h, decide_true, Bool.or_true]

/-- What a filter by address leaves of a sparse map. -/
theorem sget_filter {α : Type} (d : α) (P : Nat → Bool) (l : Sparse α) (a : Nat) :
    sget d (l.filter (fun e => P e.1)) a = if P a = true then sget d l a else d := by
  induction l with
  | nil => simp [sget]
  | cons x l ih =>
    obtain ⟨k, v⟩ := x
    by_cases hk : P k = true
    · rw [List.filter_cons, if_pos hk, sget, sget, ih]
      by_cases ha : k = a
      · subst ha
        simp [hk]
      · simp [ha]
    · rw [List.filter_cons, if_neg hk, ih, sget]
      by_cases ha : k = a
      · subst ha
        simp [hk]
      · simp [ha]

/-- In S2 the LPDDR5X keeps its bytes and the scratchpads lose theirs. -/
theorem byte_of_lpddr {r : State} (h : r.mem = s.mem.filter (fun c => decide (c.1 < 0x8000000000))) {a : Nat} (ha : a < 2 ^ 63) :
    r.byte a = if a < 0x8000000000 then s.byte a else 0 := by
  simp only [State.byte, ha, if_true, h]
  rw [sget_filter 0 (fun k => decide (k < 0x8000000000))]
  simp only [decide_eq_true_eq]

theorem execPowerStateEntryComplete_s2 (he : s.pm.entering = some .s2) : ∃ m x, execPowerStateEntryComplete s = .next { s with
    pm := { s.pm with entering := none, state := .s2, saved := some (s.disc.siteOf, s.disc.state, s.disc.mapGen,
      Vector.ofFn (fun k : Fin 32 => s.ownerOf (64 + k.val))) },
    mem := s.mem.filter (fun c => decide (c.1 < 0x8000000000)), msc := m, sec := x } := by
  unfold execPowerStateEntryComplete
  rw [he]
  exact ⟨_, _, rfl⟩

/-! ### Wake sources -/

/-- Asleep, or on the way to it. -/
def State.asleep (s : State) : Prop := s.pm.state = .s1 ∨ s.pm.state = .s2 ∨ s.pm.entering.isSome = true

theorem State.wakeSource_asleep (bits : U32) (h : s.asleep) : s.wakeSource bits = { s with
    pm := { s.pm with wakeLatched := true },
    gander := { s.gander with wakeSrc := s.gander.wakeSrc ||| bits ||| 1,
                              wakeTime := if s.gander.wakeSrc.getLsbD 0 then s.gander.wakeTime else s.tb } } := by
  unfold State.wakeSource
  dsimp only
  rw [if_neg]
  rcases h with h | h | h <;> simp [h]

theorem State.wakeSource_awake (bits : U32) (h : ¬ s.asleep) : s.wakeSource bits = s := by
  obtain ⟨h1, h2, h3⟩ := not_or.mp h |>.imp_right not_or.mp
  unfold State.wakeSource
  dsimp only
  rw [if_pos (by simp only [h1, h2, Bool.not_eq_true _ ▸ h3]; decide)]

theorem execLinkSignalDetect_wilvar (h0 : s.pm.state ≠ .off) (h1 : s.pm.state ≠ .refused) (w : Fin 6) (pattern : Bool) :
    execLinkSignalDetect (.wilvar w) pattern s =
      .next ((if pattern then s.onWlv w (fun x => { x with wakeSeen := true }) else s).wakeSource 2) :=
  if_neg (by simp [h0, h1])

/-- What a wake source records, by a source that leaves the power state and the sources recorded before as they are. -/
theorem wakes_of {t r : State} {bits : U32} (ht : t.pm = s.pm) (hg : t.gander = s.gander) (htb : t.tb = s.tb) (hm : t.mem = s.mem)
    (hr : r = t.wakeSource bits) (ha : s.asleep) : r.pm.wakeLatched = true ∧
      r.gander.wakeSrc = (s.gander.wakeSrc ||| bits ||| 1) ∧
      r.gander.wakeTime = (if s.gander.wakeSrc.getLsbD 0 then s.gander.wakeTime else s.tb) ∧ r.mem = s.mem := by
  rw [hr, State.wakeSource_asleep bits (show t.asleep by unfold State.asleep; rwa [ht]), ← hg, ← htb, ← hm]
  exact ⟨rfl, rfl, rfl, rfl⟩

theorem onWlv_wakeSeen (s : State) (w : Fin 6) (pattern : Bool) :
    (if pattern then s.onWlv w (fun x => { x with wakeSeen := true }) else s).wlv[w].wakeSeen = true ↔
      pattern = true ∨ s.wlv[w].wakeSeen = true := by
  cases pattern <;> simp [State.onWlv]

/-! ### Wakes -/

theorem State.serveUpdates_none (h : s.mgt.updates = []) : s.serveUpdates = { s with mgt := { s.mgt with updates := [] } } := by
  unfold State.serveUpdates
  rw [h]
  rfl

/-- The states that a boot ends in. -/
def Booted (d : Bool) (t : State) : Prop :=
  (t.pm.state = .run ∨ t.pm.state = .recovery ∨ t.pm.state = .refused) ∧ t.sec.debugLock = d

theorem State.bootRom_booted {d : Bool} (h : Booted d s) (e : List (BitVec 256)) : Booted d (s.bootRom e) := by
  unfold State.bootRom
  dsimp only
  split
  · exact ⟨.inr (.inl rfl), h.2⟩
  · exact ⟨h.1, h.2⟩

theorem State.restoreMap_booted {d : Bool} (h : Booted d s) : Booted d s.restoreMap := by
  unfold State.restoreMap
  split
  · exact ⟨h.1, h.2⟩
  · exact h

theorem State.confirm_booted {d : Bool} (h : Booted d s) : Booted d s.confirm := ⟨h.1, h.2⟩

theorem State.powerUp_booted (s : State) (b : BootInputs) : Booted s.sec.debugLock (s.powerUp b) := by
  unfold State.powerUp
  extract_lets pm mgt s1 s2 s3 disc pnx cad herd pm' integ s4
  have h1 : Booted s.sec.debugLock s1 := ⟨.inl rfl, rfl⟩
  have h2 : Booted s.sec.debugLock s2 := State.bootRom_booted h1 _
  have h3 : Booted s.sec.debugLock s2.restoreMap := State.restoreMap_booted h2
  have h4 : Booted s.sec.debugLock (s4.setPoint 0) := ⟨h3.1, h3.2⟩
  split
  · exact h2
  · exact State.confirm_booted h4

theorem State.fromMgt_booted (s : State) (b : BootInputs) : Booted s.sec.debugLock (s.fromMgt b) := by
  unfold State.fromMgt
  split
  · exact ⟨.inr (.inr rfl), rfl⟩
  · exact s.powerUp_booted b

theorem State.interrupt_booted {d : Bool} (h : Booted d s) : Booted d s.interrupt := by
  obtain ⟨i, hi⟩ := s.interrupt_only
  rw [hi]
  exact ⟨h.1, h.2⟩

theorem State.updateCal_booted {d : Bool} (h : Booted d s) (c : List Byte) : Booted d (s.updateCal c) := by
  unfold State.updateCal
  split
  · exact ⟨h.1, h.2⟩
  · exact ⟨h.1, h.2⟩

theorem State.serveUpdates_booted {d : Bool} (h : Booted d s) : Booted d s.serveUpdates := by
  unfold State.serveUpdates
  have h0 : Booted d { s with mgt := { s.mgt with updates := [] } } := ⟨h.1, h.2⟩
  dsimp only
  generalize ({ s with mgt := { s.mgt with updates := [] } } : State) = t at h0
  induction s.mgt.updates generalizing t with
  | nil => exact h0
  | cons u l ih =>
    refine ih _ ?_
    cases u with
    | image i => exact State.interrupt_booted ⟨h0.1, h0.2⟩
    | calibration c => exact State.interrupt_booted (State.updateCal_booted h0 c)

theorem State.fromS2_debugLock (s : State) : s.fromS2.sec.debugLock = s.sec.debugLock := by
  unfold State.fromS2
  dsimp only
  split <;> rfl

theorem State.wakeS2_booted (s : State) (b : BootInputs) : Booted s.sec.debugLock (s.wakeS2 b) := by
  unfold State.wakeS2
  extract_lets kept boot t1 disc t2 t3 pm mgt
  have h1 : Booted s.sec.debugLock t1 := s.fromS2_debugLock ▸ kept.powerUp_booted _
  split
  · exact State.serveUpdates_booted ⟨h1.1, h1.2⟩
  · exact State.fromMgt_booted _ b

theorem execWake_s1 {b : BootInputs} (h : s.pm.wakeLatched = true) (hs : s.pm.state = .s1) (he : s.pm.entering = none) :
    execWake b s = .next s.wakeS1 := by
  rw [execWake, if_neg (by simp [h]), if_pos ⟨hs, he⟩]

theorem execWake_s2 {b : BootInputs} (h : s.pm.wakeLatched = true) (hs : s.pm.state = .s2) : execWake b s = .next (s.wakeS2 b) :=
    by
  rw [execWake, if_neg (by simp [h]), if_neg (by simp [hs]), if_pos hs]

/-- Settles O50: entries are `State.enter`, sources are `State.wakeSource`, and every boot of a wake ends `Booted`. -/
theorem powerStates : Obligations.PowerStates := by
  refine ⟨fun s hr he => ⟨?_, fun hu h0 hl => ⟨_, execS1IdleTimeout_enters hr he hu h0 hl, State.enter_begun hr _⟩,
      fun h => execS1IdleTimeout_waits h⟩,
    fun s => ⟨fun he => ?_, fun he => ?_, fun he => ?_⟩, fun s src pattern => ⟨fun ha => ?_, fun ha => ?_, fun h0 h1 => ⟨?_, ?_⟩⟩,
    fun s b => ⟨fun h => ?_, fun h hs he hu => ?_, fun h hs => ?_⟩⟩
  · have hask (c : Instr) (goal : PowerState) (hc : exec c s = .next (s.request goal)) :
        (s.unused = true → ∃ r, exec c s = .next r ∧ Begun s r goal) ∧
        (s.unused = false → exec c s = .next { s with reply := .status 1 }) :=
      ⟨fun hu => ⟨_, hc.trans (congrArg Host.Outcome.next (State.request_unused hr he hu goal)), State.enter_begun hr goal⟩,
        fun hu => hc.trans (congrArg Host.Outcome.next (State.request_used hr he hu goal))⟩
    exact List.forall_mem_cons.mpr ⟨hask _ _ rfl, List.forall_mem_cons.mpr ⟨hask _ _ rfl, List.forall_mem_nil _⟩⟩
  · simp only [exec_powerStateEntryComplete, execPowerStateEntryComplete, he]
  · simp only [exec_powerStateEntryComplete, execPowerStateEntryComplete, he]
    rfl
  · obtain ⟨m, x, hx⟩ := execPowerStateEntryComplete_s2 he
    refine ⟨_, hx, rfl, rfl, rfl, fun a ha => ?_, fun a ha h63 => ?_, rfl, rfl, rfl⟩
    · rw [byte_of_lpddr (s := s) rfl (by omega), if_pos ha]
    · rw [byte_of_lpddr (s := s) rfl h63, if_neg (by omega)]
  · exact ⟨_, rfl, wakes_of rfl rfl rfl rfl rfl ha⟩
  · exact congrArg Host.Outcome.next (State.wakeSource_awake 8 ha)
  · rintro lane rfl ha
    exact ⟨_, if_neg (by simp [h0, h1]), wakes_of rfl rfl rfl rfl rfl ha⟩
  · rintro w rfl
    have hx := execLinkSignalDetect_wilvar h0 h1 w pattern
    refine ⟨fun ha => ⟨_, hx, wakes_of ?_ ?_ ?_ ?_ rfl ha⟩, _, hx, by rw [State.wakeSource_wlv]; exact onWlv_wakeSeen s w pattern⟩
    all_goals (split <;> rfl)
  · exact if_pos (by simp [h])
  · refine ⟨_, execWake_s1 h hs he, ?_⟩
    rw [State.wakeS1, State.serveUpdates_none (by exact hu)]
    exact ⟨rfl, rfl, fun q => ⟨by simp [State.setPoint], by simp [State.setPoint]⟩, rfl, rfl, rfl, rfl, rfl, rfl, rfl, rfl⟩
  · obtain ⟨hstate, hlock⟩ := s.wakeS2_booted b
    exact ⟨_, execWake_s2 h hs, hstate, ((Keeps.refl s).wakeS2 b).fuses, hlock⟩

end Sys2Proof.Machine
end
section
/-! PROOFS. Comparators, the trip and its restart (16 R389-R392). -/

namespace Sys2Proof.Machine

variable {s s₀ : State} {n : Fin 8}

/-! ### What the outcomes of a comparator leave -/

/-- What no outcome of a comparator changes: the registers of the comparators, the memory, the operating point, the samples. -/
structure Steady (s₀ s : State) : Prop where
  active : s.gander.active = s₀.gander.active
  value : s.gander.value = s₀.gander.value
  cmp : s.gander.cmp = s₀.gander.cmp
  thr : s.gander.thr = s₀.gander.thr
  refused : s.gander.refused = s₀.gander.refused
  mem : s.mem = s₀.mem
  disc : s.disc = s₀.disc
  sensors : s.pm.sensors = s₀.pm.sensors
  state : s.pm.state = s₀.pm.state

/-- The trip and its count stay. -/
def Untripped (s₀ s : State) : Prop := s.pm.halted = s₀.pm.halted ∧ s.pm.trips = s₀.pm.trips

theorem Steady.refl (s : State) : Steady s s := ⟨rfl, rfl, rfl, rfl, rfl, rfl, rfl, rfl, rfl⟩

/-- A change of anything else. -/
theorem Steady.other {reply cad holdWaits wakeSrc wakeTime fired pm} (h : Steady s₀ s) (hm : pm.sensors = s.pm.sensors)
    (hs : pm.state = s.pm.state) :
    Steady s₀ { s with reply, cad, holdWaits, pm, gander := { s.gander with wakeSrc, wakeTime, fired } } := by
  obtain ⟨active, value, cmp, thr, refused, mem, disc, sensors, state⟩ := h
  exact ⟨active, value, cmp, thr, refused, mem, disc, hm.trans sensors, hs.trans state⟩

theorem Steady.wakeSource (h : Steady s₀ s) (bits : U32) : Steady s₀ (s.wakeSource bits) := by
  by_cases ha : s.asleep
  · rw [State.wakeSource_asleep bits ha]
    exact h.other rfl rfl
  · rwa [State.wakeSource_awake bits ha]

theorem Steady.refreshCap (h : Steady s₀ s) : Steady s₀ s.refreshCap := by
  obtain ⟨c, hc⟩ := s.refreshCap_only
  rw [hc]
  exact h.other rfl rfl

theorem State.trip_of_halted (h : s.pm.halted = true) : s.trip = s := if_pos h

/-- The trips of the last second, with the one of now. -/
def State.recentTrips (s : State) : List U64 := (s.pm.tripTimes ++ [s.tb]).filter (fun t => (s.tb - t).toNat < 1000000000)

/-- A trip halts the arithmetic, counts, and announces HALT. -/
theorem State.trip_of_not_halted (h : s.pm.halted = false) : ∃ c, s.trip = { s with
    pm := { s.pm with halted := true, trips := s.pm.trips + 1, tripTimes := s.recentTrips, coolSince := none,
                      lockout := s.pm.lockout || 3 ≤ s.recentTrips.length },
    cad := c, holdWaits := true } := by
  unfold State.trip
  rw [if_neg (by simp [h])]
  dsimp only
  obtain ⟨c, hc⟩ := State.announce_only ({ s with pm := { s.pm with
    halted := true, trips := s.pm.trips + 1, tripTimes := s.recentTrips, coolSince := none,
    lockout := s.pm.lockout || 3 ≤ s.recentTrips.length } } : State) 5 0
  unfold State.recentTrips at hc ⊢
  rw [hc]
  exact ⟨_, rfl⟩

theorem State.recentTrips_length (s : State) :
    s.recentTrips.length = (s.pm.tripTimes.filter (fun t => decide ((s.tb - t).toNat < 1000000000))).length + 1 := by
  have hnow : (s.tb - s.tb).toNat < 1000000000 := by rw [BitVec.sub_self]; decide
  rw [State.recentTrips, List.filter_append, List.length_append, List.filter_cons, if_pos (decide_eq_true hnow)]
  rfl

theorem Steady.trip (h : Steady s₀ s) : Steady s₀ s.trip := by
  cases hh : s.pm.halted with
  | true => rwa [State.trip_of_halted hh]
  | false =>
    obtain ⟨c, hc⟩ := State.trip_of_not_halted hh
    rw [hc]
    exact h.other rfl rfl

theorem State.trip_halted (s : State) : s.trip.pm.halted = true := by
  cases hh : s.pm.halted with
  | true => rwa [State.trip_of_halted hh]
  | false =>
    obtain ⟨c, hc⟩ := State.trip_of_not_halted hh
    rw [hc]

/-! ### The comparator -/

/-- A comparator's new activity, before its action. -/
def State.compared (s : State) (n : Fin 8) (now : Bool) : State :=
  { s with gander := { s.gander with
      active := s.gander.active.set n now
      fired := if now && !s.gander.active[n] then s.gander.fired ||| (1#8 <<< n.val) else s.gander.fired } }

theorem Untripped.wakeSource (h : Untripped s₀ s) (bits : U32) : Untripped s₀ (s.wakeSource bits) := by
  by_cases ha : s.asleep
  · rwa [State.wakeSource_asleep bits ha]
  · rwa [State.wakeSource_awake bits ha]

theorem Untripped.refreshCap (h : Untripped s₀ s) : Untripped s₀ s.refreshCap := by
  obtain ⟨c, hc⟩ := s.refreshCap_only
  rwa [hc]

/-- A comparator takes its activity and acts on it; the trip, of G0 becoming active, is the last of its actions. -/
theorem State.comparator_cases (s : State) (n : Fin 8) (now : Bool) : ∃ r, Steady (s.compared n now) r ∧ Untripped s r ∧
    s.comparator n now = if n = 0 ∧ now = true ∧ s.gander.active[n] = false then r.trip else r := by
  unfold State.comparator
  extract_lets g was act wov s1 s2 pm s3 pm' s4
  have h1 : Steady (s.compared n now) s1 ∧ Untripped s s1 := ⟨.refl _, rfl, rfl⟩
  have h2 : Steady (s.compared n now) s2 ∧ Untripped s s2 := by
    unfold s2
    split
    · exact ⟨h1.1.wakeSource _, h1.2.wakeSource _⟩
    · exact h1
  have h3 : Steady (s.compared n now) s3 ∧ Untripped s s3 := by
    unfold s3
    split
    · exact ⟨h2.1.other rfl rfl, h2.2⟩
    · exact h2
  have h4 : Steady (s.compared n now) s4 ∧ Untripped s s4 := by
    unfold s4
    split
    · exact ⟨Steady.refreshCap (h3.1.other rfl rfl), Untripped.refreshCap h3.2⟩
    · exact h3
  by_cases hfire : (now && !was) = true
  · obtain ⟨hn, hw⟩ := (Bool.and_eq_true_iff).mp hfire
    have hw : s.gander.active[n] = false := Bool.not_eq_true' _ ▸ hw
    rw [if_pos hfire]
    by_cases h0 : n = 0
    · exact ⟨s4, h4.1, h4.2, by rw [if_pos h0, if_pos ⟨h0, hn, hw⟩]⟩
    · rw [if_neg h0]
      split
      · exact ⟨s4.preAlarm, Steady.refreshCap (h4.1.other rfl rfl), Untripped.refreshCap h4.2, by rw [if_neg (fun h => h0 h.1)]⟩
      · exact ⟨s4, h4.1, h4.2, by rw [if_neg (fun h => h0 h.1)]⟩
  · have hno : ¬ (n = 0 ∧ now = true ∧ s.gander.active[n] = false) := by
      rintro ⟨-, hn, hw⟩
      exact hfire (by simp [was, g, hn, hw])
    rw [if_neg hfire]
    simp only [if_neg hno]
    split
    · split
      · exact ⟨s1.preAlarmClears, Steady.refreshCap (h1.1.other rfl rfl), Untripped.refreshCap h1.2, rfl⟩
      · exact ⟨s1.refreshCap, h1.1.refreshCap, Untripped.refreshCap h1.2, rfl⟩
    · exact ⟨s1, h1.1, h1.2, rfl⟩

theorem Steady.comparator (s : State) (n : Fin 8) (now : Bool) : Steady (s.compared n now) (s.comparator n now) := by
  obtain ⟨r, hr, -, h⟩ := s.comparator_cases n now
  rw [h]
  split
  · exact hr.trip
  · exact hr

theorem Untripped.comparator {now : Bool} (h : ¬ (n = 0 ∧ now = true)) : Untripped s (s.comparator n now) := by
  obtain ⟨r, -, hr, hc⟩ := s.comparator_cases n now
  rwa [hc, if_neg (fun hn => h ⟨hn.1, hn.2.1⟩)]

/-- G0 becoming active trips. -/
theorem State.comparator_trips {now : Bool} (h0 : n = 0) (hn : now = true) (hw : s.gander.active[n] = false)
    (hh : s.pm.halted = false) : (s.comparator n now).pm.halted = true ∧ (s.comparator n now).pm.trips = s.pm.trips + 1 := by
  obtain ⟨r, -, hr, hc⟩ := s.comparator_cases n now
  obtain ⟨c, ht⟩ := State.trip_of_not_halted (hr.1.trans hh)
  rw [hc, if_pos ⟨h0, hn, hw⟩, ht]
  exact ⟨rfl, congrArg (· + 1) hr.2⟩

/-- A comparator does not trip again what is tripped. -/
theorem Untripped.comparator_of_halted {now : Bool} (hh : s.pm.halted = true) : Untripped s (s.comparator n now) := by
  obtain ⟨r, -, hr, hc⟩ := s.comparator_cases n now
  rw [hc]
  split
  · rwa [State.trip_of_halted (hr.1.trans hh)]
  · exact hr

/-! ### Samples -/

theorem channelValid_congr {t : State} (h : t.pm.state = s.pm.state) (src : Nat) : channelValid t src = channelValid s src := by
  simp only [channelValid, State.running, h]

theorem channelValid_zero (hr : s.running = true) : channelValid s 0 = true := by
  simp [channelValid, hr, State.running_state hr]

/-- The state with the trip of a TJ_MAX sample of 115.0 °C. -/
def State.heated (s : State) (n : Fin 8) (src : BitVec 4) (v : U32) : State :=
  if n = 0 ∧ src = 0 ∧ 920 ≤ v.toInt then s.trip else s

theorem Steady.heated (s : State) (n : Fin 8) (src : BitVec 4) (v : U32) : Steady s (s.heated n src v) := by
  unfold State.heated
  split
  · exact (Steady.refl s).trip
  · exact Steady.refl s

/-- Whether a comparator is active after a valid sample. -/
def sampleActive (s : State) (n : Fin 8) (v : U32) : Bool :=
  s.gander.cmp[n].getLsbD 27 && compare1 (s.gander.cmp[n].getLsbD 26) (s.gander.thr[n].extractLsb' 0 28).toInt
    (s.gander.cmp[n].extractLsb' 0 16).toNat v.toInt s.gander.active[n]

/-- What a sample leaves for the comparator: the value, the channel's reading, and since when G0 has been cool. -/
def State.taken (s : State) (n : Fin 8) (src : BitVec 4) (v : U32) : State :=
  let valid := channelValid s src.toNat
  let t : State := { s with
    gander := { s.gander with value := s.gander.value.set n (if valid then v else 0x80000000) },
    pm := { s.pm with sensors := s.pm.sensors.set src.toFin (if valid then some v else none) } }
  if n = 0 ∧ valid then { t with pm := { t.pm with coolSince :=
    if t.pm.halted && v.toInt ≤ 760 then (if t.pm.coolSince.isSome then t.pm.coolSince else some t.tb) else none } } else t

theorem compare1_iff (falling : Bool) (thr hyst v : Int) (was : Bool) : compare1 falling thr hyst v was = true ↔
    if falling = true then v ≤ thr ∨ (was = true ∧ v < thr + hyst) else thr ≤ v ∨ (was = true ∧ thr - hyst < v) := by
  unfold compare1
  split
  · split
    · simp [*]
    · split <;> simp [*]; omega
  · split
    · simp [*]
    · split <;> simp [*]; omega

section
variable {src : BitVec 4} {v : U32} (hr : s.running = true) (hn : n ≠ 7)
include hr hn

/-- A sample of a comparator but G7. -/
theorem execGanderSample_eq : execGanderSample n src v s = if src ≠ s.gander.cmp[n].extractLsb' 18 4 then .next (s.heated n src v)
    else .next (((s.heated n src v).taken n src v).comparator n
      (channelValid (s.heated n src v) src.toNat && sampleActive (s.heated n src v) n v)) := by
  have hh : (if n = 0 ∧ src = 0 ∧ channelValid s 0 = true ∧ 920 ≤ v.toInt then s.trip else s) = s.heated n src v := by
    simp only [State.heated, channelValid_zero hr, true_and]
  have hcmp := (Steady.heated s n src v).cmp
  have h7 : (n == 7) = false := by simpa using hn
  unfold execGanderSample
  rw [if_neg (by rw [State.running_state hr]; decide), hh, ← hcmp]
  simp only [if_neg hn, h7, bne, Bool.false_and, Bool.not_false, Bool.true_or, Bool.and_true, Bool.true_and,
    Bool.false_eq_true, if_false, Bool.and_assoc]
  rfl

theorem execGanderSample_other (h : src ≠ s.gander.cmp[n].extractLsb' 18 4) : execGanderSample n src v s =
    .next (s.heated n src v) := by
  rw [execGanderSample_eq hr hn, if_pos h]

theorem execGanderSample_own (h : src = s.gander.cmp[n].extractLsb' 18 4) : execGanderSample n src v s =
    .next (((s.heated n src v).taken n src v).comparator n (channelValid s src.toNat && sampleActive s n v)) := by
  have hs := Steady.heated s n src v
  rw [execGanderSample_eq hr hn, if_neg (not_not.mpr h), channelValid_congr hs.state, sampleActive, hs.cmp, hs.thr, hs.active,
    ← sampleActive]

end

/-- The comparator's registers and the state of the trip after a sample is taken, with `t` the state of the sample. -/
theorem taken_spec (t : State) (n : Fin 8) (src : BitVec 4) (v : U32) :
    (t.taken n src v).gander = { t.gander with value := t.gander.value.set n (if channelValid t src.toNat then v else 0x80000000)
      } ∧
    (t.taken n src v).pm.sensors = t.pm.sensors.set src.toFin (if channelValid t src.toNat then some v else none) ∧
    (t.taken n src v).mem = t.mem ∧ (t.taken n src v).disc = t.disc ∧ (t.taken n src v).pm.state = t.pm.state ∧
    Untripped t (t.taken n src v) := by
  unfold State.taken
  dsimp only
  split
  · exact ⟨rfl, rfl, rfl, rfl, rfl, rfl, rfl⟩
  · exact ⟨rfl, rfl, rfl, rfl, rfl, rfl, rfl⟩

/-- What a sample of its channel does to a comparator, and to no other. -/
theorem sample_spec {src : BitVec 4} {v : U32} {r : State} {now : Bool} (hr : r =
    ((s.heated n src v).taken n src v).comparator n now) :
    r.gander.value = s.gander.value.set n (if channelValid s src.toNat then v else 0x80000000) ∧
    r.gander.active = s.gander.active.set n now ∧
    r.pm.sensors = s.pm.sensors.set src.toFin (if channelValid s src.toNat then some v else none) ∧ r.mem = s.mem ∧
      r.disc = s.disc ∧
    r.pm.state = s.pm.state := by
  have hs := Steady.heated s n src v
  obtain ⟨hg, hsens, hm, hd, hst, -⟩ := taken_spec (s.heated n src v) n src v
  have hc := Steady.comparator ((s.heated n src v).taken n src v) n now
  rw [← hr] at hc
  rw [hc.value, hc.active, hc.sensors, hc.mem, hc.disc, hc.state]
  unfold State.compared
  dsimp only
  rw [hg, hsens, hm, hd, hst, hs.value, hs.active, hs.sensors, hs.mem, hs.disc, hs.state, channelValid_congr hs.state]
  exact ⟨rfl, rfl, rfl, rfl, rfl, rfl⟩

theorem State.heated_cool {n : Fin 8} {src : BitVec 4} {v : U32} (h : ¬ (n = 0 ∧ src = 0 ∧
    920 ≤ v.toInt)) : s.heated n src v = s :=
  if_neg h

theorem State.heated_hot {n : Fin 8} {src : BitVec 4} {v : U32} (h : n = 0 ∧ src = 0 ∧
    920 ≤ v.toInt) : s.heated n src v = s.trip :=
  if_pos h

/-- Without a trip by temperature, a sample trips when it makes G0 active, and only then. -/
theorem sample_untripped {src : BitVec 4} {v : U32} {now : Bool} (hcool : ¬ (n = 0 ∧ src = 0 ∧ 920 ≤ v.toInt))
    (h : ¬ (n = 0 ∧ now = true)) : Untripped s (((s.heated n src v).taken n src v).comparator n now) := by
  obtain ⟨-, -, -, -, -, hu⟩ := taken_spec (s.heated n src v) n src v
  have hc := Untripped.comparator (s := (s.heated n src v).taken n src v) h
  rw [State.heated_cool hcool] at hu hc ⊢
  exact ⟨hc.1.trans hu.1, hc.2.trans hu.2⟩

/-- A sample at 115.0 °C trips, and its comparator not again. -/
theorem sample_hot {src : BitVec 4} {v : U32} {now : Bool} (hhot : n = 0 ∧ src = 0 ∧ 920 ≤ v.toInt) :
    Untripped s.trip (((s.heated n src v).taken n src v).comparator n now) := by
  obtain ⟨-, -, -, -, -, hu⟩ := taken_spec (s.heated n src v) n src v
  rw [State.heated_hot hhot] at hu ⊢
  have hc := Untripped.comparator_of_halted (n := n) (now := now) (hu.1.trans s.trip_halted)
  exact ⟨hc.1.trans hu.1, hc.2.trans hu.2⟩

theorem sample_fires {src : BitVec 4} {v : U32} {now : Bool} (h0 : n = 0) (hn : now = true) (hw : s.gander.active[n] = false)
    (hh : s.pm.halted = false) : (((s.heated n src v).taken n src v).comparator n now).pm.halted = true ∧
      (((s.heated n src v).taken n src v).comparator n now).pm.trips = s.pm.trips + 1 := by
  by_cases hhot : n = 0 ∧ src = 0 ∧ 920 ≤ v.toInt
  · have hu := sample_hot (s := s) (now := now) hhot
    obtain ⟨c, hc⟩ := State.trip_of_not_halted hh
    rw [hc] at hu
    exact hu
  · obtain ⟨hg, -, -, -, -, hu⟩ := taken_spec (s.heated n src v) n src v
    rw [State.heated_cool hhot] at hg hu ⊢
    have hc := State.comparator_trips (s := s.taken n src v) h0 hn (by rw [hg]; exact hw) (hu.1.trans hh)
    exact ⟨hc.1, hc.2.trans (congrArg (· + 1) hu.2)⟩

/-- The outcome of a sample of its channel, with `now` whether the comparator is active then. -/
theorem sample_outcome {src : BitVec 4} {v : U32} {now : Bool} (hr : s.running = true) (hn : n ≠ 7)
    (h : src = s.gander.cmp[n].extractLsb' 18 4) (hnow : (channelValid s src.toNat && sampleActive s n v) = now) :
    ∃ r, execGanderSample n src v s = .next r ∧
      r.gander.value = s.gander.value.set n (if channelValid s src.toNat then v else 0x80000000) ∧
      r.gander.active = s.gander.active.set n now ∧
      r.pm.sensors = s.pm.sensors.set src.toFin (if channelValid s src.toNat then some v else none) ∧ r.mem = s.mem ∧
        r.disc = s.disc ∧
      (n = 0 → now = true → s.gander.active[n] = false → s.pm.halted = false → r.pm.halted = true ∧ r.pm.trips = s.pm.trips + 1) ∧
      (n = 0 ∧ src = 0 ∧ 920 ≤ v.toInt → r.pm.halted = true) ∧
      (¬ (n = 0 ∧ src = 0 ∧ 920 ≤ v.toInt) → ¬ (n = 0 ∧ now = true) → Untripped s r) := by
  obtain ⟨hval, hact, hsens, hm, hd, -⟩ := sample_spec (s := s) (n := n) (src := src) (v := v) (now := now) rfl
  refine ⟨_, hnow ▸ execGanderSample_own hr hn h, hval, hact, hsens, hm, hd, sample_fires, fun hhot => ?_, sample_untripped⟩
  exact (sample_hot hhot).1.trans s.trip_halted

theorem sampleActive_iff {v : U32} : sampleActive s n v = true ↔ s.gander.cmp[n].getLsbD 27 = true ∧
    (if s.gander.cmp[n].getLsbD 26 = true
      then v.toInt ≤ (s.gander.thr[n].extractLsb' 0 28).toInt ∨
        (s.gander.active[n] = true ∧ v.toInt < (s.gander.thr[n].extractLsb' 0 28).toInt + (s.gander.cmp[n].extractLsb' 0
          16).toNat)
      else (s.gander.thr[n].extractLsb' 0 28).toInt ≤ v.toInt ∨
        (s.gander.active[n] = true ∧ (s.gander.thr[n].extractLsb' 0 28).toInt - (s.gander.cmp[n].extractLsb' 0 16).toNat <
          v.toInt)) := by
  rw [sampleActive, Bool.and_eq_true, compare1_iff]

theorem set_self {α : Type} (l : Vector α 8) (n : Fin 8) (x : α) : (l.set n x)[n] = x := by simp

theorem set_other {α : Type} (l : Vector α 8) {n k : Fin 8} (x : α) (h : k ≠ n) : (l.set n x)[k] = l[k] := by
  simp [show ¬ n.val = k.val from fun e => h (Fin.ext e.symm)]

/-! ### The restart and the registers -/

theorem execTripRestart_waits {t : U64} (hc : s.pm.coolSince = some t) (h : s.pm.lockout = true ∨ (s.tb - t).toNat < 1000000) :
    execTripRestart s = .next s := by
  unfold execTripRestart
  rw [hc]
  refine if_pos ?_
  rcases h with h | h
  · simp [h]
  · rw [decide_eq_true h, Bool.or_true]

theorem execTripRestart_restarts {t : U64} (hr : s.running = true) (hh : s.pm.halted = true) (hc : s.pm.coolSince = some t)
    (hl : s.pm.lockout = false) (ht : 1000000 ≤ (s.tb - t).toNat) : ∃ c P w, execTripRestart s = .next { s with
      pm := { s.pm with halted := false, coolSince := none, hardMhz := true, nThrottle := some 0 }, cad := c, polders := P,
      holdWaits := w } := by
  unfold execTripRestart
  rw [hc]
  dsimp only
  rw [if_neg (by rw [hr, hh, hl, decide_eq_false (Nat.not_lt.mpr ht)]; decide)]
  obtain ⟨c, hcap⟩ := State.refreshCap_only ({ s with
    pm := { s.pm with halted := false, coolSince := none, hardMhz := true, nThrottle := some 0 } } : State)
  rw [hcap]
  obtain ⟨c', ha⟩ := State.announce_only ({ s with
    pm := { s.pm with halted := false, coolSince := none, hardMhz := true, nThrottle := some 0 }, cad := c } : State) 6 0
  rw [ha]
  obtain ⟨P, hP⟩ := State.resumeFrom_only ({ s with
    pm := { s.pm with halted := false, coolSince := none, hardMhz := true, nThrottle := some 0 }, cad := c' } : State) s.cad.coord
  rw [hP]
  exact ⟨_, _, _, rfl⟩

theorem State.ownerOf_comparator (s : State) (n : Fin 8) : s.ownerOf (64 + n.val) = s.owner ⟨64 + n.val, by omega⟩ := dif_pos _

theorem State.ganderWrite_refused {thr : Bool} {v : U32} (h : v.extractLsb' 28 4 ≠ s.ownerOf (64 + n.val)) :
    s.ganderWrite n thr v = { s with gander := { s.gander with refused := true }, reply := .status 5 } := if_pos h

theorem State.ganderWrite_thr {v : U32} (h : v.extractLsb' 28 4 = s.ownerOf (64 + n.val)) :
    s.ganderWrite n true v = { s with gander := { s.gander with thr := s.gander.thr.set n v } } := if_neg (not_not.mpr h)

theorem State.ganderWrite_cmp {v : U32} (h : v.extractLsb' 28 4 = s.ownerOf (64 + n.val)) :
    s.ganderWrite n false v =
      if v.getLsbD 27 then { s with gander := { s.gander with cmp := s.gander.cmp.set n (v &&& 0xFFFCFFFF) } }
      else ({ s with gander := { s.gander with cmp := s.gander.cmp.set n (v &&& 0xFFFCFFFF) } } : State).comparator n false :=
  if_neg (not_not.mpr h)

theorem execGanderCmpWrite_on {v : U32} (hr : s.running = true) :
    exec (.ganderCmpWrite n v) s = .next (s.ganderWrite n false v) := by
  rw [exec_ganderCmpWrite, execGanderCmpWrite, whenRunning_on hr]

theorem execGanderThrWrite_on {v : U32} (hr : s.running = true) :
    exec (.ganderThrWrite n v) s = .next (s.ganderWrite n true v) := by
  rw [exec_ganderThrWrite, execGanderThrWrite, whenRunning_on hr]

/-- Settles O51: a sample is `State.heated`, `State.taken` and the comparator, a write of a comparator is `State.ganderWrite`. -/
theorem ganderAndTrip : Obligations.GanderAndTrip := by
  refine ⟨fun s n v hr hn => ⟨fun other ho => ?_, fun hv => ?_, fun hv => ?_⟩, fun s => ⟨State.trip_of_halted, fun hh => ?_⟩,
    fun s t hr hh hc => ⟨fun h => execTripRestart_waits hc h, fun hl ht => ?_⟩, fun s n v hr => ⟨fun ho => ?_, fun ho => ⟨?_,
      ?_⟩⟩⟩
  · rw [exec_ganderSample, execGanderSample_other hr hn ho, State.heated]
    simp only [and_assoc, and_comm (a := other = 0)]
  · obtain ⟨r, hx, hval, hact, hsens, hm, hd, hfires, hheat, hcool⟩ := sample_outcome (v := v) hr hn rfl rfl
    have hon := sampleActive_iff (s := s) (n := n) (v := v)
    rw [hv, Bool.true_and] at hact hfires hcool
    rw [hv] at hval hsens
    refine ⟨r, hx, ?_, ?_, ?_, hm, hd, fun k hk => ⟨?_, ?_⟩, fun h0 ho hw hh => ?_, fun hh h0 => ?_, fun ho hh => ?_⟩
    · rw [hval, set_self, if_pos rfl]
    · rw [hact, set_self, hon]
    · rw [hsens]
      simp
    · rw [hact, set_other _ _ hk]
    · rw [hval, set_other _ _ hk]
    · obtain ⟨hhalt, htrips⟩ := hfires h0 (hon.mpr ho) hw hh
      exact ⟨hhalt, htrips, by simp [State.arithOn, hhalt]⟩
    · exact hheat ⟨hh.1, h0, hh.2⟩
    · exact hcool (fun h => hh ⟨⟨h.1, h.2.2⟩, h.2.1⟩) (fun h => ho ⟨h.1, hon.mp h.2⟩)
  · obtain ⟨r, hx, hval, hact, -, -, -, -, -, hcool⟩ := sample_outcome (v := v) hr hn rfl rfl
    rw [hv, Bool.false_and] at hact hcool
    rw [hv] at hval
    have h0 : ¬ (n = 0 ∧ s.gander.cmp[n].extractLsb' 18 4 = 0 ∧ 920 ≤ v.toInt) := by
      rintro ⟨-, h, -⟩
      rw [h] at hv
      exact Bool.false_ne_true (hv.symm.trans (channelValid_zero hr))
    exact ⟨r, hx, by rw [hval, set_self, if_neg Bool.false_ne_true], by rw [hact, set_self],
      (hcool h0 fun h => Bool.false_ne_true h.2).1⟩
  · obtain ⟨c, ht⟩ := State.trip_of_not_halted hh
    rw [ht]
    refine ⟨rfl, rfl, rfl, fun h2 => ?_⟩
    have h3 : 3 ≤ s.recentTrips.length := by rw [State.recentTrips_length]; omega
    simp [h3]
  · obtain ⟨c, P, w, h⟩ := execTripRestart_restarts hr hh hc hl ht
    exact ⟨_, h, rfl, rfl, rfl, rfl, rfl, by simp [State.arithOn, State.running, State.running_state hr]⟩
  · rintro c (rfl | rfl)
    · exact (execGanderCmpWrite_on hr).trans (congrArg Host.Outcome.next (State.ganderWrite_refused (by rwa
        [State.ownerOf_comparator])))
    · exact (execGanderThrWrite_on hr).trans (congrArg Host.Outcome.next (State.ganderWrite_refused (by rwa
        [State.ownerOf_comparator])))
  · exact (execGanderThrWrite_on hr).trans (congrArg Host.Outcome.next (State.ganderWrite_thr (by rwa
      [State.ownerOf_comparator])))
  · refine ⟨_, (execGanderCmpWrite_on hr).trans (congrArg Host.Outcome.next (State.ganderWrite_cmp (by rwa
      [State.ownerOf_comparator]))), ?_⟩
    cases hb : v.getLsbD 27 with
    | true => exact ⟨rfl, rfl, rfl, rfl, fun _ => rfl, fun h => absurd h.symm Bool.false_ne_true⟩
    | false =>
      have hs := Steady.comparator { s with gander := { s.gander with cmp := s.gander.cmp.set n (v &&& 0xFFFCFFFF) } } n false
      refine ⟨hs.cmp, hs.thr, hs.refused, hs.mem, fun h => absurd h Bool.false_ne_true, fun _ => ?_⟩
      have := congrArg (fun x : Vector Bool 8 => x[n]) hs.active
      exact this.trans (by simp [State.compared])

end Sys2Proof.Machine
end
section
/-! PROOFS. Jobs and streams (14 R316, R319; 15 R344). -/

namespace Sys2Proof.Machine

variable {s t s₀ : State} {f : Frame} {cls st : Byte} {bs : List Byte} {k : Frame → State → Answer}

/-! ### A command at the head of the buffer -/

/-- The state whose one command Herd has taken from the buffer. -/
def State.heard (s : State) : State := { s with pnx := { s.pnx with cmds := [] } }

theorem skipReserved_nil (h : s.pnx.cmds = []) (n : Nat) : skipReserved n s = s := by
  cases n with
  | zero => rfl
  | succ n => simp only [skipReserved, h]

theorem herdCommand_idle (h : s.herdUp = false ∨ s.sendRoom = false ∨ (∀ f, s.pnx.cmds.head? = some f → f.cls ≠ cls)) :
    herdCommand cls s k = .next s := by
  unfold herdCommand
  split
  · rfl
  · rename_i f rest hq
    refine if_pos ?_
    rcases h with h | h | h
    · simp [h]
    · simp [h]
    · simp [h f (by rw [hq]; rfl)]

theorem herdCommand_served (h : Claims.served s f cls) : herdCommand cls s k =
    match k f s.heard with
    | (s', some (st, bs)) => .next (skipReserved 256 (s'.respond f st bs))
    | (s', none) => .next (skipReserved 256 s') := by
  obtain ⟨hup, hroom, hq, hc⟩ := h
  unfold herdCommand
  rw [hq]
  dsimp only
  rw [if_neg (by simp [hup, hroom, hc])]
  rfl

theorem State.respond_cmds (t : State) (f : Frame) (st : Byte) (bs : List Byte) : (t.respond f st bs).pnx.cmds = t.pnx.cmds := by
  unfold State.respond
  dsimp only
  split <;> rfl

/-- A response is the last frame of the send buffer. -/
theorem State.respond_answers (h : t.pnx.cmds = []) (f : Frame) (st : Byte) (bs : List Byte) :
    Claims.answered (t.respond f st bs) f (st :: bs) := by
  refine ⟨(t.respond_cmds f st bs).trans h, ?_⟩
  unfold State.respond State.sendFrame
  dsimp only
  split
  all_goals
    refine ⟨_, List.getLast?_concat, rfl, rfl, rfl, ?_⟩
    exact List.take_left' rfl

/-- The end of a command that Herd answers. -/
theorem herdCommand_answers (h : Claims.served s f cls) (hk : k f s.heard = (t, some (st, bs))) (ht : t.pnx.cmds = []) :
    herdCommand cls s k = .next (t.respond f st bs) ∧ Claims.answered (t.respond f st bs) f (st :: bs) := by
  rw [herdCommand_served h, hk]
  exact ⟨congrArg Host.Outcome.next (skipReserved_nil ((t.respond_cmds f st bs).trans ht) 256), State.respond_answers ht f st bs⟩

/-- An answer touches the link and, for a refusal, the count of refusals. -/
theorem State.respond_only (h : st ≠ 1) : ∃ b n l, t.respond f st bs =
    { t with pnx := { t.pnx with txBuf := b, txNext := n, lastTx := l } } := by
  unfold State.respond
  rw [if_neg h]
  exact ⟨_, _, _, rfl⟩

/-! ### Payloads shorter than their form -/

theorem plForm_short {n : Nat} {P : Nat → Bool} (h : f.payload.length < n) : plForm f n P = false := by
  rw [plForm, decide_eq_false (by omega), Bool.false_and]

theorem submitForm_short (h : f.payload.length < 64) : submitForm f = false := by
  unfold submitForm
  dsimp only
  rw [plForm_short (by split <;> omega)]
  rfl

theorem trainForm_short (h : f.payload.length < 64) : trainForm f = false := by
  unfold trainForm
  rw [plForm_short h]
  rfl

theorem onProgram_short {g : Fin 4 → Prog → Answer} (h : f.payload.length < 1) : onProgram f s g = malformed s := by
  unfold onProgram
  rw [plForm_short h]
  rfl

/-- A command is a class with a handler, and does nothing else. -/
theorem nodeCommands_malformed (x : Byte × Instr × Nat) (hx : x ∈ Claims.nodeCommands)
    (hp : ∀ g P, s.prog g = some P → P.replaying = false) (hr : s.integ.rolling = false) :
    ∃ k, exec x.2.1 s = herdCommand x.1 s k ∧ ∀ f t, f.payload.length < x.2.2 → k f t = malformed t := by
  have hb : (s.integ.rolling || s.bound.any fun x => x.2.replaying) = false := by
    rw [hr, Bool.false_or, List.any_eq_false]
    intro y hy
    obtain ⟨g, -, hg⟩ := List.mem_filterMap.mp hy
    obtain ⟨P, hP, rfl⟩ := Option.map_eq_some_iff.mp hg
    simp [hp g P hP]
  simp only [Claims.nodeCommands, List.mem_cons, List.not_mem_nil, or_false] at hx
  rcases hx with rfl | rfl | rfl | rfl | rfl | rfl | rfl | rfl | rfl | rfl | rfl
  · rw [exec_jobOpen]
    unfold execJobOpen
    refine ⟨_, rfl, ?_⟩
    exact fun f t h => if_pos (by rw [plForm_short h]; rfl)
  · rw [exec_jobClose]
    unfold execJobClose
    refine ⟨_, rfl, ?_⟩
    exact fun f t h => if_pos (by rw [plForm_short h]; rfl)
  · rw [exec_streamOpen]
    unfold execStreamOpen
    refine ⟨_, rfl, ?_⟩
    exact fun f t h => if_pos (by rw [plForm_short h]; rfl)
  · rw [exec_streamClose]
    unfold execStreamClose
    refine ⟨_, rfl, ?_⟩
    exact fun f t h => if_pos (by rw [plForm_short h]; rfl)
  · rw [exec_progUnbind]
    unfold execProgUnbind
    refine ⟨_, rfl, ?_⟩
    exact fun f t h => onProgram_short h
  · rw [exec_progRestart]
    unfold execProgRestart
    refine ⟨_, rfl, ?_⟩
    exact fun f t h => onProgram_short h
  · rw [exec_reqSubmit]
    unfold execReqSubmit
    refine ⟨_, if_neg (by rw [hb]; decide), ?_⟩
    exact fun f t h => if_pos (by rw [submitForm_short h]; rfl)
  · rw [exec_reqCancel]
    unfold execReqCancel
    refine ⟨_, if_neg (by rw [hb]; decide), ?_⟩
    exact fun f t h => if_pos (by rw [plForm_short h]; rfl)
  · rw [exec_trainStart]
    unfold execTrainStart
    refine ⟨_, rfl, ?_⟩
    exact fun f t h => if_pos (by rw [trainForm_short h]; rfl)
  · rw [exec_trainStop]
    unfold execTrainStop
    refine ⟨_, rfl, ?_⟩
    exact fun f t h => onProgram_short h
  · rw [exec_statsRead]
    unfold execStatsRead
    refine ⟨_, rfl, ?_⟩
    exact fun f t h => if_pos (by rw [plForm_short h]; rfl)

theorem nodeCommand_malformed {c : Instr} {n : Nat} (hc : exec c s = herdCommand cls s k)
    (hk : ∀ f t, f.payload.length < n → k f t = malformed t) (h : Claims.served s f cls) (hn : f.payload.length < n) :
    ∃ r, exec c s = .next r ∧ Claims.answered r f [2] ∧ r.herd = s.herd ∧ r.mem = s.mem ∧ r.polders = s.polders ∧
      r.pnx.job = s.pnx.job ∧ r.pnx.streams = s.pnx.streams := by
  obtain ⟨hx, ha⟩ := herdCommand_answers h (hk f s.heard hn) rfl
  exact ⟨_, hc.trans hx, ha, rfl, rfl, rfl, rfl, rfl⟩

/-! ### What the link sends -/

theorem Pnx.takeCred_only (q : Pnx) : ∃ c x, q.takeCred = (c, { q with rxHeld := x }) := by
  unfold Pnx.takeCred
  split
  · exact ⟨0, q.rxHeld, rfl⟩
  · exact ⟨_, _, rfl⟩

/-- Sending stream packets touches the link's credits, its retry buffer and the stream in progress, and the reply. -/
theorem pump_only (n : Nat) (s : State) : ∃ credits txLseq retry sending rxHeld reply,
    pump n s = { s with reply, pnx := { s.pnx with credits, txLseq, retry, sending, rxHeld } } := by
  induction n generalizing s with
  | zero => exact ⟨_, _, _, _, _, _, rfl⟩
  | succ n ih =>
    unfold pump
    dsimp only
    split
    · exact ⟨_, _, _, _, _, _, rfl⟩
    · split
      · exact ⟨_, _, _, _, _, _, rfl⟩
      · split
        · exact ⟨_, _, _, _, _, _, rfl⟩
        · obtain ⟨c, x, hq⟩ := s.pnx.takeCred_only
          simp only [hq]
          obtain ⟨credits, txLseq, retry, sending, rxHeld, reply, h⟩ := ih _
          rw [h]
          exact ⟨_, _, _, _, _, _, rfl⟩

theorem State.pumpAll_only (s : State) : ∃ credits txLseq retry sending rxHeld reply,
    s.pumpAll = { s with reply, pnx := { s.pnx with credits, txLseq, retry, sending, rxHeld } } := by
  unfold State.pumpAll
  split
  · exact ⟨_, _, _, _, _, _, rfl⟩
  · split
    · exact ⟨_, _, _, _, _, _, rfl⟩
    · exact pump_only _ s

/-- What a stream is opened with. -/
def Stream.opened (x : Stream) : Byte × BitVec 16 × U64 × U64 := (x.type, x.weir, x.base, x.length)

/-- What records that go out leave: the command buffer, the timebase, the memory and what the streams were opened with. -/
structure Told (s₀ s : State) : Prop where
  cmds : s.pnx.cmds = s₀.pnx.cmds
  tb : s.tb = s₀.tb
  mem : s.mem = s₀.mem
  streams : ∀ id, (s.pnx.find id).map Stream.opened = (s₀.pnx.find id).map Stream.opened

theorem Told.refl (s : State) : Told s s := ⟨rfl, rfl, rfl, fun _ => rfl⟩

/-- A change of anything else. -/
theorem Told.other {reply weirs flight transfers res herd credits txLseq retry sending rxHeld send txBuf txNext lastTx} (h :
    Told s₀ s) :
    Told s₀ { s with
      reply, weirs, flight, transfers, res, herd
      pnx := { s.pnx with credits, txLseq, retry, sending, rxHeld, send, txBuf, txNext, lastTx } } := by
  obtain ⟨cmds, tb, mem, streams⟩ := h
  exact ⟨cmds, tb, mem, streams⟩

theorem Told.foldl {α : Type} {g : State → α → State} (h : Told s₀ s) (hg : ∀ s x, Told s₀ s → Told s₀ (g s x)) (l : List α) :
    Told s₀ (l.foldl g s) := by
  induction l generalizing s with
  | nil => exact h
  | cons x l ih => exact ih (hg s x h)

theorem Told.herdEvent (h : Told s₀ s) (c : Byte) (p : List Byte) : Told s₀ (s.herdEvent c p) := by
  unfold State.herdEvent
  dsimp only
  split
  · split
    · exact h.other
    · exact h.other
  · split
    · exact h.other
    · exact h.other

theorem Told.pumpAll (h : Told s₀ s) : Told s₀ s.pumpAll := by
  obtain ⟨credits, txLseq, retry, sending, rxHeld, reply, hp⟩ := s.pumpAll_only
  rw [hp]
  exact h.other

theorem Told.onProg (h : Told s₀ s) (g : Fin 4) (u : Prog → Prog) : Told s₀ (s.onProg g u) := h.other

/-- Streams marked done are opened as before. -/
theorem find_marked (l : List Stream) (id a : Byte) :
    ((l.map (fun y => if y.id = a then { y with done := true } else y)).find? (fun x => x.id == id)).map Stream.opened =
      (l.find? (fun x => x.id == id)).map Stream.opened := by
  induction l with
  | nil => rfl
  | cons y l ih =>
    have hid : (if y.id = a then { y with done := true } else y).id = y.id := by split <;> rfl
    have ho : (if y.id = a then { y with done := true } else y).opened = y.opened := by split <;> rfl
    rw [List.map_cons, List.find?_cons, List.find?_cons, hid]
    split
    · exact congrArg some ho
    · exact ih

/-- The state with one stream marked done. -/
def State.mark (s : State) (a : Byte) : State :=
  { s with pnx := { s.pnx with streams := s.pnx.streams.map (fun y => if y.id = a then { y with done := true } else y) } }

theorem Told.mark (h : Told s₀ s) (a : Byte) : Told s₀ (s.mark a) :=
  ⟨h.cmds, h.tb, h.mem, fun id => (find_marked s.pnx.streams id a).trans (h.streams id)⟩

theorem Told.sendRecords (h : Told s₀ s) (g : Fin 4) : Told s₀ (s.sendRecords g) := by
  unfold State.sendRecords
  split
  · exact h
  · split
    · exact h
    · split
      · exact h
      · dsimp -zeta only
        extract_lets full bs job s1 pnx
        have hfull : ∀ t, Told s₀ t → Told s₀ (full t) := by
          intro t ht
          unfold full
          split
          · exact ht
          · exact (ht.mark _).herdEvent _ _
        split
        · exact hfull s h
        · exact hfull _ (Told.pumpAll (h.onProg g _).other)

theorem Told.sendAll (h : Told s₀ s) : Told s₀ s.sendAll := h.foldl (fun _ g h => h.sendRecords g) _

theorem Told.attachSamples (h : Told s₀ s) : Told s₀ s.attachSamples := by
  refine h.foldl (fun s g h => ?_) _
  split
  · exact h
  · split
    · exact h
    · split
      · exact h.onProg _ _
      · exact h

/-! ### What the end of a program leaves -/

/-- The command buffer and the timebase stay. -/
def Posted (s₀ s : State) : Prop := s.pnx.cmds = s₀.pnx.cmds ∧ s.tb = s₀.tb

theorem Posted.refl (s : State) : Posted s s := ⟨rfl, rfl⟩

theorem Posted.foldl {α : Type} {g : State → α → State} (h : Posted s₀ s) (hg : ∀ s x,
    Posted s₀ s → Posted s₀ (g s x)) (l : List α) :
    Posted s₀ (l.foldl g s) := by
  induction l generalizing s with
  | nil => exact h
  | cons x l ih => exact ih (hg s x h)

theorem Posted.told (h : Posted s₀ s) (ht : Told s t) : Posted s₀ t := ⟨ht.cmds.trans h.1, ht.tb.trans h.2⟩

theorem Posted.respond (h : Posted s₀ s) (f : Frame) (st : Byte) (bs : List Byte) : Posted s₀ (s.respond f st bs) := by
  unfold State.respond
  dsimp only
  split <;> exact h

theorem Posted.emit (h : Posted s₀ s) (g : Fin 4) (rs : List Sample) : Posted s₀ (s.emit g rs) := by
  unfold State.emit
  split
  · exact h
  · dsimp only
    split
    · exact h
    · exact h.told (Told.sendRecords (((Told.refl s).onProg g _).other) g)

theorem Posted.endAll (h : Posted s₀ s) (g : Fin 4) (reason : Nat) : Posted s₀ (s.endAll g reason) := by
  unfold State.endAll
  split
  · exact h
  · refine Posted.foldl (Posted.emit (s := State.onProg _ _ _) h _ _) (fun s c h => ?_) _
    split
    · exact h.respond _ _ _
    · exact h

theorem Posted.seqAbort (h : Posted s₀ s) (p : Pid) : Posted s₀ (s.seqAbort p) := by
  unfold State.seqAbort
  split
  · exact h
  · dsimp only
    exact ⟨by simpa [State.fresh, State.discardArray] using h.1, by simpa [State.fresh, State.discardArray] using h.2⟩

theorem Posted.seqFlush (h : Posted s₀ s) (p : Pid) : Posted s₀ (s.seqFlush p) := h

theorem Posted.freePolders (h : Posted s₀ s) (ps : List Pid) (o : BitVec 4) : Posted s₀ (s.freePolders ps o) := by
  unfold State.freePolders
  refine h.foldl (fun s p h => ?_) ps
  exact ⟨h.1, h.2⟩

theorem Posted.dropTimers (h : Posted s₀ s) (g : Fin 4) : Posted s₀ (s.dropTimers g) := by
  refine h.foldl (fun s n h => ?_) _
  split
  · exact ⟨h.1, h.2⟩
  · exact h

theorem Posted.poolRange (h : Posted s₀ s) (g : Fin 4) (b n : Nat) (on : Bool) : Posted s₀ (s.poolRange g b n on) := ⟨h.1, h.2⟩

theorem Posted.other {herd pm integ claimedRegions claimedWeirs} (h : Posted s₀ s) :
    Posted s₀ { s with herd, pm, integ, claimedRegions, claimedWeirs } := ⟨h.1, h.2⟩

theorem Posted.zeroRefs (h : Posted s₀ s) (p : Pid) : Posted s₀ { s with integ := { s.integ with
    rfSrc := s.integ.rfSrc.set p (Vector.replicate 16 0), rfMst := s.integ.rfMst.set p (Vector.replicate 16 0) } } := ⟨h.1, h.2⟩

theorem Posted.unbind (h : Posted s₀ s) (g : Fin 4) : Posted s₀ (s.unbind g) := by
  unfold State.unbind
  split
  · exact h
  · rename_i P hP
    dsimp only
    have h1 := (h.endAll g 6).foldl (g := fun s p => (s.seqAbort p).seqFlush p) (fun s p h => (h.seqAbort p).seqFlush p)
      (planPolders P.plan)
    have h3 := (h1.freePolders (planPolders P.plan) (progOwner g)).dropTimers g
    generalize State.dropTimers _ g = t at h3 ⊢
    have h4 : Posted s₀ (if P.poolLen = 0 then t else t.poolRange g P.poolBase P.poolLen false) := by
      split
      · exact h3
      · exact h3.poolRange _ _ _ _
    generalize (if P.poolLen = 0 then t else t.poolRange g P.poolBase P.poolLen false) = t4 at h4 ⊢
    have h5 := h4.foldl (fun (s : State) (p : Pid) h => Posted.zeroRefs h p) (planPolders P.plan)
    generalize List.foldl _ t4 _ = t5 at h5 ⊢
    split
    · exact h5.other
    · exact h5.other

/-! ### JOB_OPEN and JOB_CLOSE -/

/-- The member's place in the job, and its lock. -/
def Cad.place (c : Cad) : BitVec 12 × BitVec 12 × Bool := (c.coord, c.extents, c.locked)

theorem State.holdAnnounce_place (s : State) (a : Announce) : (s.holdAnnounce a).cad.place = s.cad.place := by
  rcases Nat.lt_or_ge (effectAt a.stamp.toNat) s.tb.toNat with h | h
  · rw [State.holdAnnounce_late h]
    rfl
  · rw [State.holdAnnounce_due h]
    rfl

theorem State.announce_place (s : State) (kind : BitVec 4) (point : Nat) : (s.announce kind point).cad.place = s.cad.place := by
  unfold State.announce
  dsimp only
  split
  · rfl
  · exact State.holdAnnounce_place _ _

theorem State.refreshCap_place (s : State) : s.refreshCap.cad.place = s.cad.place := by
  have key : ∀ kind point cap, (if cap = s.cad.myCap then s else
      ({ s with cad := { s.cad with myCap := cap } } : State).announce kind point).cad.place = s.cad.place := by
    intro kind point cap
    split
    · rfl
    · exact State.announce_place _ _ _
  unfold State.refreshCap
  dsimp only
  split
  · split
    · exact key _ _ _
    · exact key _ _ _
  · exact key _ _ _

theorem State.renewCad_place (s : State) (coord extents : BitVec 12) (locked : Bool) :
    (s.renewCad coord extents locked).cad.place = (coord, extents, locked) := State.refreshCap_place _

theorem State.renewCad_only (s : State) (coord extents : BitVec 12) (locked : Bool) :
    ∃ cad holdWaits, s.renewCad coord extents locked = { s with cad, holdWaits } := by
  unfold State.renewCad
  obtain ⟨c, hc⟩ := State.refreshCap_only
    { s with cad := s.cad.fresh coord extents locked s.pm.halted 0, holdWaits := s.pm.halted }
  rw [hc]
  exact ⟨_, _, rfl⟩

theorem mkCoord_toNat {x y z : Nat} (hx : x < 16) (hy : y < 16) (hz : z < 16) : (mkCoord x y z).toNat = x * 256 + y * 16 + z := by
  unfold mkCoord
  rw [BitVec.toNat_ofNat]
  omega

theorem extent_mkCoord {c : Cad} {x y z : Nat} (hx : x < 16) (hy : y < 16) (hz : z < 16) (h : c.extents = mkCoord x y z) :
    c.extent 0 = 1 + x ∧ c.extent 1 = 1 + y ∧ c.extent 2 = 1 + z := by
  have hn := mkCoord_toNat hx hy hz
  refine ⟨?_, ?_, ?_⟩ <;>
    simp only [Cad.extent, coordX, coordY, coordZ, h, BitVec.extractLsb'_toNat, hn, Nat.shiftRight_eq_div_pow] <;> simp <;> omega

/-- What Herd opens a job with. -/
def State.opening (s : State) (f : Frame) : State :=
  { s with
    pnx := { s.pnx with job := some (BitVec.ofNat 64 (plNum f 0 8)) }
    wlv := s.wlv.map (fun w => { w with peerValid := false, miscabled := false, peer := 0 })
    pm := { s.pm with energyJob := 0, fracJob := 0, jobFrom := some s.tb, jobTo := none } }

/-- The member's place named by a JOB_OPEN, and the extents of its job. -/
def jobCoord (f : Frame) : BitVec 12 := mkCoord (plNum f 8 1) (plNum f 9 1) (plNum f 10 1)
def jobExtents (f : Frame) : BitVec 12 := mkCoord (plNum f 11 1 - 1) (plNum f 12 1 - 1) (plNum f 13 1 - 1)

/-- The job opened, with the member's place. -/
def State.opened (s : State) (f : Frame) : State :=
  let s := (s.opening f).renewCad (jobCoord f) (jobExtents f) ((jobCoord f) == 0)
  let s := { s with cad := { s.cad with parent := if (jobCoord f) == 0 then none else chooseParent s } }
  if (jobCoord f) == 0 then s.announce 1 (classOpMax s.pm.coolClass) else s

theorem State.opened_only (s : State) (f : Frame) : ∃ cad holdWaits, s.opened f = { s.opening f with cad, holdWaits } := by
  unfold State.opened
  obtain ⟨c, w, h⟩ := (s.opening f).renewCad_only (jobCoord f) (jobExtents f) ((jobCoord f) == 0)
  dsimp only
  rw [h]
  split
  · obtain ⟨c', h'⟩ := State.announce_only _ 1 _
    rw [h']
    exact ⟨_, _, rfl⟩
  · exact ⟨_, _, rfl⟩

theorem State.opened_place (s : State) (f : Frame) : (s.opened f).cad.place = ((jobCoord f), (jobExtents f),
    (jobCoord f) == 0) := by
  have h := (s.opening f).renewCad_place (jobCoord f) (jobExtents f) ((jobCoord f) == 0)
  unfold State.opened
  dsimp only
  split
  · rw [State.announce_place]
    exact h
  · exact h

theorem jobOpen_form (hp : plForm f 14 (fun i => i < 14) = true)
    (hd : ∀ d < 3, plNum f (8 + d) 1 < 16 ∧ plNum f (11 + d) 1 ≤ 16 ∧ plNum f (8 + d) 1 < plNum f (11 + d) 1) :
    ¬ (!plForm f 14 (fun i => i < 14) || 16 ≤ plNum f 8 1 || 16 ≤ plNum f 9 1 || 16 ≤ plNum f 10 1
      || !([11, 12, 13].all (fun i => 1 ≤ plNum f i 1 && plNum f i 1 ≤ 16 && plNum f (i - 3) 1 < plNum f i 1))) = true := by
  have h0 := hd 0 (by decide)
  have h1 := hd 1 (by decide)
  have h2 := hd 2 (by decide)
  simp only [Nat.reduceAdd] at h0 h1 h2
  simp [hp]
  omega

theorem execJobOpen_opens (h : Claims.served s f 0x01) (hp : plForm f 14 (fun i => i < 14) = true)
    (hd : ∀ d < 3, plNum f (8 + d) 1 < 16 ∧ plNum f (11 + d) 1 ≤ 16 ∧ plNum f (8 + d) 1 < plNum f (11 + d) 1)
    (hj : s.pnx.job = none) (hn : s.herd.noJobs = false) (ho : s.herd.outOfService = false) :
    execJobOpen s = .next ((s.heard.opened f).respond f 0 []) ∧ Claims.answered ((s.heard.opened f).respond f 0 []) f [0] := by
  have hc : (s.heard.opened f).pnx.cmds = [] := by
    obtain ⟨c, w, h⟩ := s.heard.opened_only f
    rw [h]
    rfl
  refine herdCommand_answers h ?_ hc
  refine (if_neg (jobOpen_form hp hd)).trans (if_neg ?_)
  simp [State.heard, hj, hn, ho]

theorem execJobOpen_refuses (h : Claims.served s f 0x01) (hp : plForm f 14 (fun i => i < 14) = true)
    (hd : ∀ d < 3, plNum f (8 + d) 1 < 16 ∧ plNum f (11 + d) 1 ≤ 16 ∧ plNum f (8 + d) 1 < plNum f (11 + d) 1)
    (hr : s.pnx.job.isSome = true ∨ s.herd.noJobs = true ∨ s.herd.outOfService = true) :
    execJobOpen s = .next (s.heard.respond f 1 []) ∧ Claims.answered (s.heard.respond f 1 []) f [1] := by
  refine herdCommand_answers h ?_ rfl
  refine (if_neg (jobOpen_form hp hd)).trans (if_pos ?_)
  rcases hr with hr | hr | hr
  · simp [State.heard, hr]
  · simp [State.heard, hr]
  · simp [State.heard, hr]

/-- What Herd closes a job to: the programs ended, and no window, stream or model left. -/
def State.closed (s : State) : State :=
  let s := (List.finRange 4).foldl State.unbind s
  let closed := s.polders.map (fun P =>
    { P with terp := { P.terp with windows := P.terp.windows.map (fun w => { w with isOpen := false }) } })
  let s := { s with
    polders := closed
    pnx := { s.pnx with job := none, streams := [], sending := none }
    herd := { s.herd with models := [], sets := [], cxCount := [], tiled := [] }
    pm := { s.pm with jobTo := some s.tb, idleSince := s.tb } }
  s.renewCad 0 0 true

theorem State.closed_cmds (s : State) : s.closed.pnx.cmds = s.pnx.cmds := by
  unfold State.closed
  dsimp only
  obtain ⟨c, w, h⟩ := State.renewCad_only _ 0 0 true
  rw [h]
  exact ((Posted.refl s).foldl (fun _ g h => h.unbind g) _).1

theorem State.closed_spec (s : State) : s.closed.pnx.job = none ∧ s.closed.pnx.streams = [] ∧ s.closed.pnx.sending = none ∧
    s.closed.herd.models = [] ∧ s.closed.pm.jobTo = some s.tb ∧
    ∀ (p : Pid) (w : Fin 4), s.closed.polders[p].terp.windows[w].isOpen = false := by
  unfold State.closed
  dsimp only
  obtain ⟨c, w, h⟩ := State.renewCad_only _ 0 0 true
  rw [h]
  refine ⟨rfl, rfl, rfl, rfl, congrArg some ?_, fun p w => ?_⟩
  · exact ((Posted.refl s).foldl (fun _ g h => h.unbind g) _).2
  · simp

theorem execJobClose_closes (h : Claims.served s f 0x02) (hp : plForm f 8 (fun i => i < 8) = true)
    (hj : s.pnx.job = some (BitVec.ofNat 64 (plNum f 0 8))) :
    execJobClose s = .next (s.heard.closed.respond f 0 []) ∧ Claims.answered (s.heard.closed.respond f 0 []) f [0] := by
  refine herdCommand_answers h ?_ s.heard.closed_cmds
  exact (if_neg (by simp [hp])).trans (if_neg (not_not.mpr hj))

theorem execJobClose_refuses (h : Claims.served s f 0x02) (hp : plForm f 8 (fun i => i < 8) = true)
    (hj : s.pnx.job ≠ some (BitVec.ofNat 64 (plNum f 0 8))) :
    execJobClose s = .next (s.heard.respond f 1 []) ∧ Claims.answered (s.heard.respond f 1 []) f [1] := by
  refine herdCommand_answers h ?_ rfl
  exact (if_neg (by simp [hp])).trans (if_pos hj)

/-! ### STREAM_OPEN and STREAM_CLOSE -/

/-- The stream that a STREAM_OPEN opens. -/
def streamOf (f : Frame) : Stream :=
  { id := BitVec.ofNat 8 (plNum f 0 1), type := BitVec.ofNat 8 (plNum f 1 1), weir := BitVec.ofNat 16 (plNum f 2 2)
    base := BitVec.ofNat 64 (plNum f 8 8), length := BitVec.ofNat 64 (plNum f 16 8) }

/-- The state with one more stream open. -/
def State.streamed (s : State) (x : Stream) : State := { s with pnx := { s.pnx with streams := s.pnx.streams ++ [x] } }

/-- Herd's use of the stream opened: a sample stream starts at its beginning, and its records go out. -/
def State.used (s : State) (x : Stream) (samples : Bool) : State :=
  let s := if samples then (List.finRange 4).foldl (fun s g =>
      s.onProg g (fun P => if P.sampleStream = some x.id then { P with sampleOff := 0 } else P)) s
    else s
  s.attachSamples.sendAll

theorem Told.used (s : State) (x : Stream) (samples : Bool) : Told s (s.used x samples) := by
  unfold State.used
  dsimp only
  refine Told.sendAll (Told.attachSamples ?_)
  split
  · exact (Told.refl s).foldl (fun _ g h => h.onProg g _) _
  · exact Told.refl s

theorem streamed_find {x : Stream} (h : s.pnx.find x.id = none) : (s.streamed x).pnx.find x.id = some x := by
  unfold Pnx.find State.streamed at *
  rw [List.find?_append, h]
  simp

theorem execStreamOpen_opens (h : Claims.served s f 0x03) (hp : plForm f 24 (fun i => i < 4 || (8 ≤ i && i < 24)) = true)
    (hb : plNum f 8 8 % 64 = 0) (hf : s.pnx.find (BitVec.ofNat 8 (plNum f 0 1)) =
      none) (h1 : 1 ≤ plNum f 1 1) (h5 : plNum f 1 1 ≤ 5)
    (hm : mapped (plNum f 8 8) (plNum f 16 8) = true) : ∃ samples,
    execStreamOpen s = .next (((s.heard.streamed (streamOf f)).used (streamOf f) samples).respond f 0 []) ∧
      Claims.answered (((s.heard.streamed (streamOf f)).used (streamOf f) samples).respond f 0 []) f [0] := by
  refine ⟨decide (plNum f 1 1 = 2), herdCommand_answers h ?_ (Told.used _ _ _).cmds⟩
  refine (if_neg (by simp [hp, hb])).trans ((if_neg ?_).trans ?_)
  · have hf' : s.heard.pnx.find (BitVec.ofNat 8 (plNum f 0 1)) = none := hf
    simp [hf', hm]
    omega
  · simp only [State.used, decide_eq_true_eq]
    rfl

theorem execStreamOpen_refuses (h : Claims.served s f 0x03) (hp : plForm f 24 (fun i => i < 4 || (8 ≤ i && i < 24)) = true)
    (hb : plNum f 8 8 % 64 = 0) (hn : ¬ (s.pnx.find (BitVec.ofNat 8 (plNum f 0 1)) = none ∧ 1 ≤ plNum f 1 1 ∧ plNum f 1 1 ≤ 5 ∧
      mapped (plNum f 8 8) (plNum f 16 8) = true)) :
    execStreamOpen s = .next (s.heard.respond f 1 []) ∧ Claims.answered (s.heard.respond f 1 []) f [1] := by
  refine herdCommand_answers h ?_ rfl
  refine (if_neg (by simp [hp, hb])).trans (if_pos ?_)
  by_contra hc
  simp only [Bool.or_eq_true, decide_eq_true_eq, Bool.not_eq_true', not_or, Bool.not_eq_false, Option.isSome_iff_ne_none,
    not_not] at hc
  obtain ⟨⟨⟨hf, h0⟩, h6⟩, hm⟩ := hc
  exact hn ⟨hf, by omega, by omega, hm⟩

/-- The streams without one, and nothing of it being sent. -/
def State.unstreamed (s : State) (id : Byte) : State :=
  { s with pnx := { s.pnx with
    streams := s.pnx.streams.filter (fun x => x.id != id)
    sending := s.pnx.sending.bind (fun x => if x.stream = id then none else some x) } }

theorem unstreamed_find (s : State) (id : Byte) : (s.unstreamed id).pnx.find id = none := by
  simp [State.unstreamed, Pnx.find, List.find?_eq_none]

theorem execStreamClose_closes (h : Claims.served s f 0x04) (hp : plForm f 1 (fun i => i < 1) = true)
    (hf : (s.pnx.find (BitVec.ofNat 8 (plNum f 0 1))).isSome = true) :
    execStreamClose s = .next ((s.heard.unstreamed (BitVec.ofNat 8 (plNum f 0 1))).respond f 0 []) ∧
      Claims.answered ((s.heard.unstreamed (BitVec.ofNat 8 (plNum f 0 1))).respond f 0 []) f [0] := by
  refine herdCommand_answers h ?_ rfl
  refine (if_neg (by rw [hp]; decide)).trans ((if_neg ?_).trans ?_)
  · have hf' : (s.heard.pnx.find (BitVec.ofNat 8 (plNum f 0 1))).isSome = true := hf
    simp [Option.isNone_iff_eq_none, Option.isSome_iff_ne_none.mp hf']
  · cases hs : s.pnx.sending with
    | none => simp [State.heard, State.unstreamed, hs, done]
    | some x => simp [State.heard, State.unstreamed, hs, done]

theorem execStreamClose_refuses (h : Claims.served s f 0x04) (hp : plForm f 1 (fun i => i < 1) = true)
    (hf : s.pnx.find (BitVec.ofNat 8 (plNum f 0 1)) = none) :
    execStreamClose s = .next (s.heard.respond f 1 []) ∧ Claims.answered (s.heard.respond f 1 []) f [1] := by
  refine herdCommand_answers h ?_ rfl
  have hf' : s.heard.pnx.find (BitVec.ofNat 8 (plNum f 0 1)) = none := hf
  exact (if_neg (by rw [hp]; decide)).trans (if_pos (by simp [hf']))

/-! ### The reads -/

/-- What a STATUS_READ answers (14 R316). -/
def statusBytes (s : State) : List Byte :=
  leBytes 4 (pnxStatus s).toNat ++ leBytes 4 (cadStatus s).toNat ++ leBytes 8 (s.pnx.job.getD 0).toNat

theorem execStatusRead_answers (h : Claims.served s f 0x40) (hp : plForm f 0 (fun _ => false) = true) :
    execStatusRead s = .next (s.heard.respond f 0 (statusBytes s)) ∧
      Claims.answered (s.heard.respond f 0 (statusBytes s)) f (0 :: statusBytes s) :=
  herdCommand_answers h (if_neg (by rw [hp]; decide)) rfl

theorem execStatsRead_answers (h : Claims.served s f 0x30) (hp : plForm f 1 (fun i => i < 1) = true)
    (hn : plNum f 0 1 < 4 ∨ plNum f 0 1 = 0xFF) :
    execStatsRead s = .next (s.heard.respond f 0 (herdImage s)) ∧
      Claims.answered (s.heard.respond f 0 (herdImage s)) f (0 :: herdImage s) := by
  refine herdCommand_answers h (if_neg ?_) rfl
  rw [hp]
  simp
  omega

/-! ### The commands -/

theorem jobOpen_spec (h : Claims.served s f 0x01) (hp : plForm f 14 (fun i => i < 14) = true)
    (hd : ∀ d < 3, plNum f (8 + d) 1 < 16 ∧ plNum f (11 + d) 1 ≤ 16 ∧ plNum f (8 + d) 1 < plNum f (11 + d) 1)
    (hj : s.pnx.job = none) (hn : s.herd.noJobs = false) (ho : s.herd.outOfService = false) : ∃ r, exec .jobOpen s = .next r ∧
      Claims.answered r f [0] ∧ r.pnx.job = some (BitVec.ofNat 64 (plNum f 0 8)) ∧
      r.cad.coord = mkCoord (plNum f 8 1) (plNum f 9 1) (plNum f 10 1) ∧ (∀ d < 3, r.cad.extent d = plNum f (11 + d) 1) ∧
      (r.cad.locked = true ↔ r.cad.coord = 0) ∧ r.pm.energyJob = 0 ∧ r.pm.jobFrom = some s.tb ∧ r.polders = s.polders ∧
      r.mem = s.mem := by
  obtain ⟨hx, ha⟩ := execJobOpen_opens h hp hd hj hn ho
  have hplace := s.heard.opened_place f
  obtain ⟨c, w, hc⟩ := s.heard.opened_only f
  rw [hc] at hx ha hplace
  obtain ⟨b, n, l, hr⟩ := State.respond_only (t := { s.heard.opening f with cad := c, holdWaits := w }) (f := f) (bs := [])
    (st := 0) (by decide)
  simp only [Cad.place, Prod.mk.injEq] at hplace
  obtain ⟨hcoord, hext, hlock⟩ := hplace
  have h0 := hd 0 (by decide)
  have h1 := hd 1 (by decide)
  have h2 := hd 2 (by decide)
  simp only [Nat.reduceAdd] at h0 h1 h2
  obtain ⟨e0, e1, e2⟩ := extent_mkCoord (by omega) (by omega) (by omega) hext
  refine ⟨_, hx, ha, ?_⟩
  rw [hr]
  refine ⟨rfl, hcoord, fun d hd => ?_, ?_, rfl, rfl, rfl, rfl⟩
  · obtain rfl | rfl | rfl : d = 0 ∨ d = 1 ∨ d = 2 := by omega
    · exact (e0.trans (by omega) : c.extent 0 = plNum f 11 1)
    · exact (e1.trans (by omega) : c.extent 1 = plNum f 12 1)
    · exact (e2.trans (by omega) : c.extent 2 = plNum f 13 1)
  · change c.locked = true ↔ c.coord = 0
    rw [hlock, hcoord, beq_iff_eq]

theorem streamOpen_spec (h : Claims.served s f 0x03) (hp : plForm f 24 (fun i => i < 4 || (8 ≤ i && i < 24)) = true)
    (hb : plNum f 8 8 % 64 = 0) (hf : s.pnx.find (BitVec.ofNat 8 (plNum f 0 1)) =
      none) (h1 : 1 ≤ plNum f 1 1) (h5 : plNum f 1 1 ≤ 5)
    (hm : mapped (plNum f 8 8) (plNum f 16 8) = true) : ∃ r, exec .streamOpen s = .next r ∧ Claims.answered r f [0] ∧
      r.mem = s.mem ∧ (r.pnx.find (BitVec.ofNat 8 (plNum f 0 1))).map Stream.opened = some (streamOf f).opened := by
  obtain ⟨samples, hx, ha⟩ := execStreamOpen_opens h hp hb hf h1 h5 hm
  have ht := Told.used (s.heard.streamed (streamOf f)) (streamOf f) samples
  generalize (s.heard.streamed (streamOf f)).used (streamOf f) samples = u at hx ha ht
  have hmem : u.mem = s.mem := ht.mem
  have hfind := (ht.streams (streamOf f).id).trans (congrArg _ (streamed_find (s := s.heard) hf))
  obtain ⟨b, n, l, hr⟩ := State.respond_only (t := u) (f := f) (bs := []) (st := 0) (by decide)
  rw [hr] at hx ha
  exact ⟨_, hx, ha, hmem, hfind⟩

/-- Settles O46: each command is served by `herdCommand`, and its handler is one of the states above. -/
theorem jobAndStreamCommands : Obligations.JobAndStreamCommands := by
  refine ⟨fun s x hx hp hr => ?_, fun s f => ⟨fun h hp hd => ⟨jobOpen_spec h hp hd, fun hr => ?_⟩, fun h hp => ⟨fun hj => ?_,
    fun hj => ?_⟩, fun h hp hb => ?_, fun h hp => ⟨fun hf => ?_, fun hf => ?_⟩, fun h hp => ?_, fun h hp hn => ?_⟩⟩
  · obtain ⟨k, hc, hk⟩ := nodeCommands_malformed x hx hp hr
    exact ⟨fun h => hc.trans (herdCommand_idle h), fun f h hn => nodeCommand_malformed hc hk h hn⟩
  · obtain ⟨hx, ha⟩ := execJobOpen_refuses h hp hd hr
    exact ⟨_, hx, ha, rfl, rfl, rfl⟩
  · obtain ⟨hx, ha⟩ := execJobClose_closes h hp hj
    obtain ⟨b, n, l, hr⟩ := State.respond_only (t := s.heard.closed) (f := f) (bs := []) (st := 0) (by decide)
    refine ⟨_, hx, ha, ?_⟩
    rw [hr]
    exact s.heard.closed_spec
  · obtain ⟨hx, ha⟩ := execJobClose_refuses h hp hj
    exact ⟨_, hx, ha, rfl, rfl, rfl⟩
  · refine ⟨fun ⟨hf, h1, h5, hm⟩ => streamOpen_spec h hp hb hf h1 h5 hm, fun hn => ?_⟩
    obtain ⟨hx, ha⟩ := execStreamOpen_refuses h hp hb hn
    exact ⟨_, hx, ha, rfl⟩
  · obtain ⟨hx, ha⟩ := execStreamClose_closes h hp hf
    obtain ⟨b, n, l, hr⟩ := State.respond_only (t := s.heard.unstreamed (BitVec.ofNat 8 (plNum f 0 1))) (f := f) (bs := [])
      (st := 0) (by decide)
    refine ⟨_, hx, ha, ?_⟩
    rw [hr]
    exact ⟨unstreamed_find _ _, rfl, rfl⟩
  · obtain ⟨hx, ha⟩ := execStreamClose_refuses h hp hf
    exact ⟨_, hx, ha, rfl⟩
  · obtain ⟨hx, ha⟩ := execStatusRead_answers h hp
    exact ⟨_, hx, ha, rfl, rfl, rfl⟩
  · obtain ⟨hx, ha⟩ := execStatsRead_answers h hp hn
    exact ⟨_, hx, ha, rfl, rfl⟩

end Sys2Proof.Machine
end
section
/-! PROOFS. The memory controllers (13 R299-R307, 17 R403). -/

namespace Sys2Proof.Machine

variable {s t : State} {m : Fin 8} {l : Loc} {e : LineErrs} {c : Mc}

/-! ### The visible map -/

theorem xor_undone (x a b c d : Nat) : x ^^^ a ^^^ b ^^^ c ^^^ d ^^^ a ^^^ b ^^^ c ^^^ d = x := by
  have bit : ∀ x a b c d : Bool, ((((((((x ^^ a) ^^ b) ^^ c) ^^ d) ^^ a) ^^ b) ^^ c) ^^ d) = x := by decide
  refine Nat.eq_of_testBit_eq fun i => ?_
  simp only [Nat.testBit_xor]
  exact bit _ _ _ _ _

theorem bitsOf_lt (x lo n : Nat) : bitsOf x lo n < 2 ^ n := Nat.mod_lt _ (Nat.two_pow_pos n)

theorem bitsOf_div (B lo n : Nat) : bitsOf (B / 64) lo n = bitsOf B (lo + 6) n := by
  rw [bitsOf, bitsOf, Nat.div_div_eq_div_mul, Nat.pow_add, Nat.mul_comm]

theorem channelSet_lt (B : Nat) : channelSet B < 2 ^ 6 := by
  have h4 : bitsOf B 24 4 < 2 ^ 6 := Nat.lt_trans (bitsOf_lt B 24 4) (by decide)
  unfold channelSet
  exact Nat.xor_lt_two_pow (Nat.xor_lt_two_pow (Nat.xor_lt_two_pow (Nat.xor_lt_two_pow (bitsOf_lt _ _ _) (bitsOf_lt _ _ _))
    (bitsOf_lt _ _ _)) (bitsOf_lt _ _ _)) h4

/-- The low bits of a block from its channel set: the set's own XOR undone. -/
theorem low_of_channelSet (B : Nat) : (8 * (channelSet B / 8) + (Fin.ofNat 8 (channelSet B)).val) ^^^ bitsOf (B / 64) 0 6 ^^^
    bitsOf (B / 64) 6 6 ^^^ bitsOf (B / 64) 12 6 ^^^ bitsOf (B / 64) 18 4 = B % 64 := by
  rw [Fin.val_ofNat, Nat.div_add_mod]
  simp only [bitsOf_div]
  exact (xor_undone _ _ _ _ _).trans (by rw [bitsOf, Nat.pow_zero, Nat.div_one]; rfl)

theorem addrOf_locate (a : Nat) : addrOf (locate a).1 (locate a).2 = some (a / 64 * 64) := by
  have hi : ((a / 2048 / 64 / 8 + 1 + a / 2048 / 64 % 8) % 9 + 9 - (a / 2048 / 64 / 8 + 1) % 9) % 9 = a / 2048 / 64 % 8 :=
    by omega
  have hb : 8 * (a / 2048 / 64 / 8) + a / 2048 / 64 % 8 = a / 2048 / 64 := Nat.div_add_mod _ 8
  unfold addrOf locate
  dsimp only
  rw [hi, if_neg (by omega), hb, low_of_channelSet]
  exact congrArg some (by omega)

theorem locOf_id {l : Loc} (h1 : l.stripe < 524288) (h2 : l.channel < 9) (h3 : l.line < 32) : locOf l.id = l := by
  obtain ⟨set, stripe, channel, line⟩ := l
  simp only [locOf, Loc.id, Loc.mk.injEq] at *
  omega

theorem locate_bounds {a : Nat} (h : a < 2 ^ 39) : (locate a).2.set < 8 ∧ (locate a).2.stripe < 524288 ∧
    (locate a).2.channel < 9 ∧ (locate a).2.line < 32 := by
  have hT := channelSet_lt (a / 2048)
  unfold locate
  dsimp only
  omega

/-! ### One controller -/

theorem State.onMc_same (s : State) (m : Fin 8) (g : Mc → Mc) : (s.onMc m g).mc[m] = g s.mc[m] := Vector.getElem_set_self ..

theorem State.onMc_other (s : State) (g : Mc → Mc) {j : Fin 8} (h : j ≠ m) : (s.onMc m g).mc[j] = s.mc[j] :=
  Vector.getElem_set_ne m.isLt j.isLt fun hv => h (Fin.ext hv.symm)

theorem State.onMc_congr {g g' : Mc → Mc} (h : g s.mc[m] = g' s.mc[m]) : s.onMc m g = s.onMc m g' := by
  rw [State.onMc, State.onMc, h]

theorem gate_open {a b c : Bool} (ha : a = true) (hb : b = true) (hc : c = false) : ¬ (!a || !b || c) = true := by
  rw [ha, hb, hc]
  decide

theorem gate_closed {a b c : Bool} (hc : c = true) : (!a || !b || c) = true := by rw [hc, Bool.or_true]

theorem execRefpb_on (hr : s.running = true) (ht : s.mc[m].trained =
    true) (ch : Fin 72) (bank : Fin 16) : exec (.refpb m ch bank) s =
    .next (s.onMc m (fun c => { c with
      refreshes := sput 0 c.refreshes (16 * ch.val + bank.val) (sget 0 c.refreshes (16 * ch.val + bank.val) + 1)
      rows := sput 0 c.rows (16 * ch.val + bank.val) 0 })) :=
  if_neg (by rw [hr, ht]; decide)

theorem execTempReportPoll_on (hr : s.running = true) (ht : s.mc[m].trained = true) (rs : List Byte)
    (h : 16000000 ≤ (s.tb - s.mc[m].reportAt).toNat) :
    exec (.tempReportPoll m rs) s = .next (s.onMc m (fun c => { c with reports := rs, reportAt := s.tb })) :=
  if_neg (gate_open hr ht (decide_eq_false (BitVec.not_lt.mpr h)))

theorem execTempReportPoll_early (rs : List Byte) (h : (s.tb - s.mc[m].reportAt).toNat < 16000000) :
    exec (.tempReportPoll m rs) s = .next s := if_pos (gate_closed (decide_eq_true (BitVec.lt_def.mpr h)))

theorem execWckDriftTracking_on (hr : s.running = true) (ht : s.mc[m].trained = true) (ch : Fin 72)
    (h : 1000000 ≤ (s.tb - sget 0 s.mc[m].drift ch.val).toNat) :
    exec (.wckDriftTracking m ch) s = .next (s.onMc m (fun c => { c with drift := sput 0 c.drift ch.val s.tb })) :=
  if_neg (gate_open hr ht (decide_eq_false (BitVec.not_lt.mpr h)))

theorem execWckDriftTracking_early (ch : Fin 72) (h : (s.tb - sget 0 s.mc[m].drift ch.val).toNat < 1000000) :
    exec (.wckDriftTracking m ch) s = .next s := if_pos (gate_closed (decide_eq_true (BitVec.lt_def.mpr h)))

theorem execSpareCopyDone_first {x : Nat × Nat} {rest : List (Nat × Nat)} (h : s.mc[m].copying = x :: rest) :
    exec (.spareCopyDone m) s = .next (s.onMc m (fun c => { c with copying := rest, remap := c.remap ++ [x] })) := by
  rw [exec_spareCopyDone, execSpareCopyDone, h]

theorem execChannelFailure_notes (hr : s.running = true) (ch : Fin 72) : ∃ r, exec (.channelFailure m ch) s = .next r ∧
    ch ∈ r.mc[m].failed ∧ (∀ x ∈ s.mc[m].failed, x ∈ r.mc[m].failed) ∧ r.mem = s.mem ∧ ∀ j, j ≠ m → r.mc[j] = s.mc[j] := by
  refine ⟨_, rfl, ?_⟩
  cases hc : s.mc[m].failed.contains ch with
  | true =>
    rw [Bool.or_true, if_pos rfl]
    exact ⟨List.contains_iff_mem.mp hc, fun x hx => hx, rfl, fun j hj => rfl⟩
  | false =>
    rw [hr, if_neg (by decide)]
    refine ⟨?_, fun x hx => ?_, rfl, fun j hj => State.onMc_other s _ hj⟩
    · rw [State.onMc_same]
      exact List.mem_append_right _ List.mem_cons_self
    · rw [State.onMc_same]
      exact List.mem_append_left _ hx

/-! ### What the code makes of a line -/

theorem lineEcc_clean {w : U64} (h : symbolsOf e = []) : lineEcc e w = .clean := by rw [lineEcc, h]

theorem lineEcc_one {w : U64} {y : Nat} (h : symbolsOf e = [y]) : lineEcc e w = .corrected (BitVec.ofNat 7 y) := by rw [lineEcc,
    h]

theorem lineEcc_few {w : U64} (h : (symbolsOf e).length = 2 ∨ (symbolsOf e).length = 3) : lineEcc e w = .uncorrectable := by
  unfold lineEcc
  match hs : symbolsOf e, h with
  | [_, _], _ => rfl
  | [_, _, _], _ => rfl

theorem lineEcc_many {w : U64} (h : 4 ≤ (symbolsOf e).length) : lineEcc e w = .uncorrectable ∨ lineEcc e w = .miscorrected := by
  unfold lineEcc
  match hs : symbolsOf e, h with
  | _ :: _ :: _ :: _ :: _, _ =>
    dsimp only
    split
    · exact .inl rfl
    · exact .inr rfl

/-- What a corrected line leaves: the counts and, from the fourth error, the spare. -/
theorem Mc.corrected_spec (c : Mc) (half i : Nat) (y : BitVec 7) : (c.corrected half i y).ce = c.ce + 1 ∧
    (c.corrected half i y).ue = c.ue ∧ (c.corrected half i y).rows = c.rows ∧ (c.corrected half i y).scrubPos = c.scrubPos ∧
    (c.corrected half i y).scrubs = c.scrubs ∧ (c.corrected half i y).status.getLsbD 1 = true ∧
    sget 0 (c.corrected half i y).errors half = sget 0 c.errors half + 1 ∧
    (3 ≤ sget 0 c.errors half → (c.corrected half i y).copying.any (fun e => e.1 == half) = true ∨
      (c.corrected half i y).status.getLsbD 3 = true) := by
  have herr := sget_sput_self 0 (sget 0 c.errors half + 1) c.errors half
  unfold Mc.corrected
  dsimp only
  generalize (if (sget [] c.symbols (16 * half + i)).contains y then sget [] c.symbols (16 * half + i)
    else sget [] c.symbols (16 * half + i) ++ [y]) = symbols
  split
  · rename_i h
    refine ⟨rfl, rfl, rfl, rfl, rfl, by simp, herr, fun h3 => .inl ?_⟩
    simp only [Bool.or_eq_true, Bool.and_eq_true, decide_eq_true_eq] at h
    exact h.resolve_left (by omega)
  · split
    · exact ⟨rfl, rfl, rfl, rfl, rfl, by simp, herr, fun _ => .inl (by simp)⟩
    · exact ⟨rfl, rfl, rfl, rfl, rfl, by simp, herr, fun _ => .inr (by simp)⟩

/-! ### Reading a line -/

/-- The half that serves a line. -/
def Mc.halfOf (c : Mc) (l : Loc) : Nat := c.servedHalf (l.id / 16)

/-- The line's row open in its bank. -/
def State.rowOpen (s : State) (m : Fin 8) (l : Loc) (e : LineErrs) : State :=
  s.onMc m (fun c => c.open_ (locOf (16 * s.mc[m].halfOf l)) e.retries)

/-- An uncorrectable line counted. -/
def State.lineBad (s : State) (m : Fin 8) (l : Loc) (e : LineErrs) : State :=
  (s.rowOpen m l e).onMc m (fun c => { c with ue := c.ue + 1, status := c.status ||| 4 })

/-- A corrected line counted. -/
def State.lineMended (s : State) (m : Fin 8) (l : Loc) (e : LineErrs) (y : BitVec 7) : State :=
  (s.rowOpen m l e).onMc m (fun c => c.corrected (s.mc[m].halfOf l) (l.id % 16) y)

theorem State.readLine_eq (hf : s.mc[m].failed = []) : s.readLine m l e =
    match lineEcc e (Config.freeWord s.freeIx) with
    | .clean => (s.rowOpen m l e, true)
    | .corrected y => (s.lineMended m l e y, true)
    | .miscorrected =>
      let t := { s.lineMended m l e (BitVec.ofNat 7 ((Config.freeWord (s.freeIx + 1)).toNat % 68)) with freeIx := s.freeIx + 66 }
      match addrOf m l with
      | some a => (t.putBytes (a / 64 * 64) (freeBytes (s.freeIx + 2) 64), true)
      | none => (t, true)
    | .uncorrectable =>
      match addrOf m l with
      | some a => (s.lineBad m l e).lineLost a
      | none => (s.lineBad m l e, false) := by
  unfold State.readLine
  dsimp only
  rw [hf, List.any_nil, if_neg Bool.false_ne_true]
  rfl

/-- What every read of a line leaves: the place of the patrol, the other controllers, and the line's row open. -/
structure Scanned (s t : State) (m : Fin 8) (l : Loc) : Prop where
  pos : t.mc[m].scrubPos = s.mc[m].scrubPos
  scrubs : t.mc[m].scrubs = s.mc[m].scrubs
  rows : sget 0 t.mc[m].rows (locOf (16 * s.mc[m].halfOf l)).bank = (cellOf (locOf (16 * s.mc[m].halfOf l)).stripe).row + 1
  others : ∀ j, j ≠ m → t.mc[j] = s.mc[j]

theorem Scanned.same {u : State} (h : Scanned s t m l) (hm : u.mc = t.mc) : Scanned s u m l := by
  obtain ⟨pos, scrubs, rows, others⟩ := h
  exact ⟨hm ▸ pos, hm ▸ scrubs, hm ▸ rows, hm ▸ others⟩

theorem Scanned.onMc (h : Scanned s t m l) {g : Mc → Mc} (h1 : (g t.mc[m]).scrubPos = t.mc[m].scrubPos)
    (h2 : (g t.mc[m]).scrubs = t.mc[m].scrubs) (h3 : (g t.mc[m]).rows = t.mc[m].rows) : Scanned s (t.onMc m g) m l := by
  obtain ⟨pos, scrubs, rows, others⟩ := h
  refine ⟨?_, ?_, ?_, fun j hj => (State.onMc_other t g hj).trans (others j hj)⟩
  · rw [State.onMc_same, h1, pos]
  · rw [State.onMc_same, h2, scrubs]
  · rw [State.onMc_same, h3, rows]

theorem Scanned.rowOpen (s : State) (m : Fin 8) (l : Loc) (e : LineErrs) : Scanned s (s.rowOpen m l e) m l := by
  refine ⟨?_, ?_, ?_, fun j hj => State.onMc_other s _ hj⟩
  · rw [State.rowOpen, State.onMc_same]
    rfl
  · rw [State.rowOpen, State.onMc_same]
    rfl
  · rw [State.rowOpen, State.onMc_same]
    simp only [Mc.open_, sget_sput_self]

theorem Scanned.lineBad (s : State) (m : Fin 8) (l : Loc) (e : LineErrs) : Scanned s (s.lineBad m l e) m l :=
  (Scanned.rowOpen s m l e).onMc rfl rfl rfl

theorem Scanned.lineMended (s : State) (m : Fin 8) (l : Loc) (e : LineErrs) (y : BitVec 7) :
    Scanned s (s.lineMended m l e y) m l := by
  obtain ⟨-, -, hrows, hpos, hscrubs, -⟩ := (s.rowOpen m l e).mc[m].corrected_spec (s.mc[m].halfOf l) (l.id % 16) y
  exact (Scanned.rowOpen s m l e).onMc hpos hscrubs hrows

theorem State.lineBad_counts (s : State) (m : Fin 8) (l : Loc) (e : LineErrs) : (s.lineBad m l e).mc[m].ue = s.mc[m].ue + 1 ∧
    (s.lineBad m l e).mc[m].ce = s.mc[m].ce ∧ (s.lineBad m l e).mc[m].status.getLsbD 2 = true := by
  rw [State.lineBad, State.onMc_same, State.rowOpen, State.onMc_same]
  exact ⟨rfl, rfl, by simp⟩

theorem State.lineMended_counts (s : State) (m : Fin 8) (l : Loc) (e : LineErrs) (y : BitVec 7) :
    (s.lineMended m l e y).mc[m].ce = s.mc[m].ce + 1 ∧ (s.lineMended m l e y).mc[m].ue = s.mc[m].ue ∧
    (s.lineMended m l e y).mc[m].status.getLsbD 1 = true ∧
    sget 0 (s.lineMended m l e y).mc[m].errors (s.mc[m].halfOf l) = sget 0 s.mc[m].errors (s.mc[m].halfOf l) + 1 ∧
    (3 ≤ sget 0 s.mc[m].errors (s.mc[m].halfOf l) →
      (s.lineMended m l e y).mc[m].copying.any (fun x => x.1 == s.mc[m].halfOf l) = true ∨
      (s.lineMended m l e y).mc[m].status.getLsbD 3 = true) := by
  rw [State.lineMended, State.onMc_same, State.rowOpen, State.onMc_same]
  obtain ⟨hce, hue, -, -, -, hst, herr, hsp⟩ :=
    (s.mc[m].open_ (locOf (16 * s.mc[m].halfOf l)) e.retries).corrected_spec (s.mc[m].halfOf l) (l.id % 16) y
  exact ⟨hce, hue, hst, herr, hsp⟩

theorem State.onMc_byte (s : State) (m : Fin 8) (g : Mc → Mc) (b : Nat) : (s.onMc m g).byte b = s.byte b := rfl

theorem State.lineBad_mem (s : State) (m : Fin 8) (l : Loc) (e : LineErrs) : (s.lineBad m l e).mem = s.mem := rfl

theorem State.lineBad_integ (s : State) (m : Fin 8) (l : Loc) (e : LineErrs) : (s.lineBad m l e).integ = s.integ := rfl

theorem State.lineBad_byte (s : State) (m : Fin 8) (l : Loc) (e : LineErrs) (b : Nat) : (s.lineBad m l e).byte b = s.byte b := rfl

theorem State.imageOf_lineBad (s : State) (m : Fin 8) (l : Loc) (e : LineErrs) (a : Nat) :
    imageOf (s.lineBad m l e) a = imageOf s a := rfl

theorem State.lineLost_mc (s : State) (a : Nat) : (s.lineLost a).1.mc = s.mc := by
  unfold State.lineLost
  dsimp only
  split
  · exact State.putBytes_mc _ _ _
  · rfl

/-- A line without an image starts a rollback. -/
theorem State.lineLost_rolls {a : Nat} (h : imageOf s (a / 64 * 64) = none) :
    (s.lineLost a).1 = s.startRollback (.line (BitVec.ofNat 64 (a / 64 * 64))) := by
  rw [State.lineLost, h]

/-- A line with an image is rewritten from it. -/
theorem State.lineLost_rebuilds {a w : Nat} (h : imageOf s (a / 64 * 64) = some w) : (s.lineLost a).1 =
    { s.putBytes (a / 64 * 64) (s.bytes w 64) with integ := { s.integ with rebuilt := s.integ.rebuilt + 1 } } := by
  rw [State.lineLost, h]

theorem State.startRollback_cause (s : State) (x : RollbackCause) : (s.startRollback x).integ.cause.isSome = true ∧
    (s.integ.cause = none → (s.startRollback x).integ.cause = some x) := by
  unfold State.startRollback
  cases s.integ.cause with
  | none => exact ⟨rfl, fun _ => rfl⟩
  | some y => exact ⟨rfl, fun h => nomatch h⟩

/-! ### The patrol -/

/-- The patrol one line on. -/
def Mc.onward (c : Mc) : Mc :=
  { c with
    scrubPos := (c.scrubPos + 1) % linesPerMc
    scrubs := if (c.scrubPos + 1) % linesPerMc = 0 then c.scrubs + 1 else c.scrubs }

theorem execPatrolScrubRead_waits (h : lineWaits s m (locOf s.mc[m].scrubPos) = true) : exec (.patrolScrubRead m e) s = .next s :=
  if_pos (gate_closed h)

theorem execPatrolScrubRead_reads (hr : s.running = true) (ht : s.mc[m].trained = true)
    (hw : lineWaits s m (locOf s.mc[m].scrubPos) = false) (hp : (s.readLine m (locOf s.mc[m].scrubPos) e).1 = t)
    (hs : Scanned s t m (locOf s.mc[m].scrubPos)) : exec (.patrolScrubRead m e) s = .next (t.onMc m Mc.onward) := by
  have hx : exec (.patrolScrubRead m e) s = if !s.running || !s.mc[m].trained || lineWaits s m (locOf s.mc[m].scrubPos) then .next
    s
      else .next ((s.readLine m (locOf s.mc[m].scrubPos) e).1.onMc m (fun c => { c with
        scrubPos := (s.mc[m].scrubPos + 1) % linesPerMc
        scrubs := if (s.mc[m].scrubPos + 1) % linesPerMc = 0 then c.scrubs + 1 else c.scrubs })) := rfl
  rw [hx, if_neg (gate_open hr ht hw), hp]
  refine congrArg Host.Outcome.next (State.onMc_congr ?_)
  rw [Mc.onward, hs.pos]

/-- What the patrol of a line leaves in its controller and the others. -/
theorem Scanned.onward (h : Scanned s t m (locOf s.mc[m].scrubPos)) :
    (t.onMc m Mc.onward).mc[m].scrubPos = (s.mc[m].scrubPos + 1) % 1207959552 ∧
    (t.onMc m Mc.onward).mc[m].scrubs = (if (s.mc[m].scrubPos + 1) % 1207959552 = 0 then s.mc[m].scrubs + 1 else s.mc[m].scrubs) ∧
    (∀ j, j ≠ m → (t.onMc m Mc.onward).mc[j] = s.mc[j]) ∧
    sget 0 (t.onMc m Mc.onward).mc[m].rows (locOf (16 * s.mc[m].halfOf (locOf s.mc[m].scrubPos))).bank =
      (cellOf (locOf (16 * s.mc[m].halfOf (locOf s.mc[m].scrubPos))).stripe).row + 1 := by
  rw [State.onMc_same]
  refine ⟨?_, ?_, fun j hj => (State.onMc_other t _ hj).trans (h.others j hj), h.rows⟩
  · rw [Mc.onward, h.pos, linesPerMc]
  · rw [Mc.onward, h.pos, h.scrubs, linesPerMc]

theorem State.readLine_clean (hf : s.mc[m].failed = []) (h : symbolsOf e = []) : (s.readLine m l e).1 = s.rowOpen m l e := by
  rw [State.readLine_eq hf, lineEcc_clean h]

theorem State.readLine_one {y : Nat} (hf : s.mc[m].failed = []) (h : symbolsOf e = [y]) :
    (s.readLine m l e).1 = s.lineMended m l e (BitVec.ofNat 7 y) := by
  rw [State.readLine_eq hf, lineEcc_one h]

theorem State.readLine_few {a : Nat} (hf : s.mc[m].failed = []) (h : (symbolsOf e).length = 2 ∨ (symbolsOf e).length = 3)
    (ha : addrOf m l = some a) : (s.readLine m l e).1 = ((s.lineBad m l e).lineLost a).1 := by
  rw [State.readLine_eq hf, lineEcc_few h, ha]

/-- A line with more errors counts as one or the other. -/
theorem State.readLine_many (hf : s.mc[m].failed = []) (h : 4 ≤ (symbolsOf e).length) :
    (s.readLine m l e).1.mc = (s.lineBad m l e).mc ∨ ∃ y, (s.readLine m l e).1.mc = (s.lineMended m l e y).mc := by
  rw [State.readLine_eq hf]
  rcases lineEcc_many (w := Config.freeWord s.freeIx) h with hw | hw
  · rw [hw]
    cases addrOf m l with
    | none => exact .inl rfl
    | some a => exact .inl (State.lineLost_mc _ a)
  · rw [hw]
    cases addrOf m l with
    | none => exact .inr ⟨_, rfl⟩
    | some a => exact .inr ⟨_, State.putBytes_mc _ _ _⟩

/-- The patrol of a line with two or three symbols in error. -/
theorem execPatrolScrubRead_lost {a : Nat} (hr : s.running = true) (ht : s.mc[m].trained = true)
    (hw : lineWaits s m (locOf s.mc[m].scrubPos) = false) (hf : s.mc[m].failed = []) (ha : addrOf m (locOf s.mc[m].scrubPos) =
      some a)
    (h : (symbolsOf e).length = 2 ∨ (symbolsOf e).length = 3) :
    let t := ((s.lineBad m (locOf s.mc[m].scrubPos) e).lineLost a).1
    exec (.patrolScrubRead m e) s = .next (t.onMc m Mc.onward) ∧ Scanned s t m (locOf s.mc[m].scrubPos) ∧
      t.mc[m].ue = s.mc[m].ue + 1 ∧ t.mc[m].status.getLsbD 2 = true := by
  have hmc := State.lineLost_mc (s.lineBad m (locOf s.mc[m].scrubPos) e) a
  obtain ⟨hue, -, hst⟩ := s.lineBad_counts m (locOf s.mc[m].scrubPos) e
  have hs := (Scanned.lineBad s m (locOf s.mc[m].scrubPos) e).same hmc
  exact ⟨execPatrolScrubRead_reads hr ht hw (State.readLine_few hf h ha) hs, hs, by rw [hmc, hue], by rw [hmc, hst]⟩

theorem State.onMc_onward_ue (t : State) (m : Fin 8) : (t.onMc m Mc.onward).mc[m].ue = t.mc[m].ue := by
  rw [State.onMc_same]
  rfl

theorem State.lineLost_rebuilt {a w : Nat} (h : imageOf s (a / 64 * 64) = some w) : (s.lineLost a).1.integ.rebuilt =
    s.integ.rebuilt + 1 ∧
    (s.lineLost a).1.integ.cause = s.integ.cause ∧ ∀ b < 2 ^ 63, (s.lineLost a).1.byte b =
      if a / 64 * 64 ≤ b ∧ b < a / 64 * 64 + 64 then s.byte (w + (b - a / 64 * 64)) else s.byte b := by
  rw [State.lineLost_rebuilds h]
  refine ⟨rfl, rfl, fun b hb => ?_⟩
  have hput := s.byte_putBytes (a / 64 * 64) (s.bytes w 64) hb
  rw [s.bytes_length] at hput
  refine Eq.trans hput ?_
  split
  · exact s.bytes_getD w (by omega)
  · rfl

/-- Settles O39: the map is its own inverse, and every outcome of the patrol is one of `State.readLine`'s. -/
theorem memoryControllers : Obligations.MemoryControllers := by
  refine ⟨fun a ha => ?_, fun s m hr ht => ⟨fun ch bank => ?_, fun rs => ⟨execTempReportPoll_on hr ht rs,
    execTempReportPoll_early rs⟩,
    fun ch => ⟨fun h => ?_, execWckDriftTracking_early ch⟩, fun e h => execPatrolScrubRead_waits h, fun hw hf => ⟨fun e h => ?_,
    fun e y h => ?_, fun e h => ?_, fun a e ha h => ?_⟩, fun x rest h => execSpareCopyDone_first h, execChannelFailure_notes hr⟩⟩
  · obtain ⟨h1, h2, h3, h4⟩ := locate_bounds ha
    exact ⟨addrOf_locate a, h1, h2, h3, locOf_id h2 h3 h4⟩
  · refine ⟨_, execRefpb_on hr ht ch bank, rfl, fun j hj => State.onMc_other s _ hj, ?_, fun k => ?_⟩
    · simp only [State.onMc_same, sget_sput_self]
    · rw [State.onMc_same]
      dsimp only
      rw [sget_sput]
      split
      · rename_i h
        rw [h]
      · rfl
  · refine ⟨_, execWckDriftTracking_on hr ht ch h, ?_, rfl, fun j hj => State.onMc_other s _ hj⟩
    simp only [State.onMc_same, sget_sput_self]
  · have hs := Scanned.rowOpen s m (locOf s.mc[m].scrubPos) e
    refine ⟨_, execPatrolScrubRead_reads hr ht hw (State.readLine_clean hf h) hs, hs.onward, rfl, ?_⟩
    rw [State.onMc_same, State.rowOpen, State.onMc_same]
    exact ⟨rfl, rfl, rfl⟩
  · have hs := Scanned.lineMended s m (locOf s.mc[m].scrubPos) e (BitVec.ofNat 7 y)
    refine ⟨_, execPatrolScrubRead_reads hr ht hw (State.readLine_one hf h) hs, hs.onward, rfl, ?_⟩
    rw [State.onMc_same]
    obtain ⟨hce, -, hst, herr, hsp⟩ := s.lineMended_counts m (locOf s.mc[m].scrubPos) e (BitVec.ofNat 7 y)
    exact ⟨hce, hst, herr, hsp⟩
  · rcases State.readLine_many (l := locOf s.mc[m].scrubPos) hf h with hmc | ⟨y, hmc⟩
    · have hs := (Scanned.lineBad s m _ e).same hmc
      obtain ⟨hue, hce, -⟩ := s.lineBad_counts m (locOf s.mc[m].scrubPos) e
      refine ⟨_, execPatrolScrubRead_reads hr ht hw rfl hs, hs.onward, .inl ?_⟩
      rw [State.onMc_same]
      exact ⟨(congrArg (fun x : Vector Mc 8 => x[m].ue) hmc).trans hue, (congrArg (fun x : Vector Mc 8 => x[m].ce) hmc).trans hce⟩
    · have hs := (Scanned.lineMended s m _ e y).same hmc
      obtain ⟨hce, hue, -⟩ := s.lineMended_counts m (locOf s.mc[m].scrubPos) e y
      refine ⟨_, execPatrolScrubRead_reads hr ht hw rfl hs, hs.onward, .inr ?_⟩
      rw [State.onMc_same]
      exact ⟨(congrArg (fun x : Vector Mc 8 => x[m].ce) hmc).trans hce, (congrArg (fun x : Vector Mc 8 => x[m].ue) hmc).trans hue⟩
  · obtain ⟨hx, hs, hue, hst⟩ := execPatrolScrubRead_lost hr ht hw hf ha h
    refine ⟨_, hx, hs.onward, ?_, ?_, fun hi => ?_, fun w hi => ?_⟩
    · exact (State.onMc_onward_ue _ m).trans hue
    · rw [State.onMc_same]
      exact hst
    · obtain ⟨hc, hn⟩ := (s.lineBad m (locOf s.mc[m].scrubPos) e).startRollback_cause (.line (BitVec.ofNat 64 (a / 64 * 64)))
      rw [State.lineLost_rolls ((s.imageOf_lineBad m (locOf s.mc[m].scrubPos) e _).trans hi), State.onMc_mem, State.onMc_integ]
      exact ⟨s.lineBad_mem m (locOf s.mc[m].scrubPos) e, hc, hn⟩
    · obtain ⟨hn, hc, hbyte⟩ := State.lineLost_rebuilt ((s.imageOf_lineBad m (locOf s.mc[m].scrubPos) e _).trans hi)
      rw [State.lineBad_integ] at hn hc
      simp only [State.lineBad_byte] at hbyte
      rw [State.onMc_integ]
      exact ⟨hn, hc, fun b hb => (State.onMc_byte _ m _ b).trans (hbyte b hb)⟩

end Sys2Proof.Machine
end
section
/-! PROOFS. The ack engine (14 R311-R315). -/

namespace Sys2Proof.Machine

variable {s t : State} {f : Frame} {lane : Bool} {n : Nat}

/-! ### Reserved classes at the head of the buffer -/

theorem skipReserved_known (h : ∀ x, s.pnx.cmds.head? = some x → knownClass x.cls = true) (n : Nat) : skipReserved n s = s := by
  cases n with
  | zero => rfl
  | succ n =>
    unfold skipReserved
    split
    · rename_i f rest hq
      rw [if_neg (by rw [h f (by rw [hq]; rfl), Bool.not_true, Bool.and_false]; decide)]
    · rfl

/-- Answering commands of reserved classes touches the command buffer and the send buffer with its number and lane. -/
theorem skipReserved_only (n : Nat) (s : State) : ∃ cmds txBuf txNext lastTx,
    skipReserved n s = { s with pnx := { s.pnx with cmds, txBuf, txNext, lastTx } } := by
  induction n generalizing s with
  | zero => exact ⟨_, _, _, _, rfl⟩
  | succ n ih =>
    unfold skipReserved
    split
    · rename_i f rest hq
      split
      · obtain ⟨b, m, l, hr⟩ := State.respond_only (t := { s with pnx := { s.pnx with cmds := rest } }) (f := f) (st := 2) (bs :=
          [])
          (by decide)
        rw [hr]
        obtain ⟨c, b', m', l', h⟩ := ih ({ s with pnx := { s.pnx with cmds := rest, txBuf := b, txNext := m, lastTx := l } })
        exact ⟨c, b', m', l', h⟩
      · exact ⟨_, _, _, _, rfl⟩
    · exact ⟨_, _, _, _, rfl⟩

/-! ### What the engine sends -/

theorem frameIntact_seal (f : Frame) : frameIntact f.seal = (1 ≤ f.type.toNat && f.type.toNat ≤ 5 && f.len.toNat ≤ 1024 &&
    f.len.toNat % 4 == 0 && f.payload.length == f.len.toNat && (f.len == 0 || (f.type != 2 && f.type != 3))) := by
  rw [frameIntact, Frame.crcOk_seal, Bool.true_and]
  rfl

/-- A frame without payload goes out intact. -/
theorem frameIntact_empty (ht : f.type = 2 ∨ f.type = 3) (h0 : f.len = 0) (hp : f.payload = []) : frameIntact f.seal = true := by
  rw [frameIntact_seal, h0, hp]
  rcases ht with ht | ht
  · rw [ht]
    decide
  · rw [ht]
    decide

/-- An acknowledgement of a frame. -/
def Acked (r : State) (f : Frame) (status : Byte) : Prop :=
  ∃ a, r.reply = .frame a ∧ a.type = 2 ∧ a.ackSeq = f.seq ∧ a.status = status ∧ frameIntact a = true

theorem State.ackOn_acked (s : State) (lane : Bool) (f : Frame) (status : Byte) : Acked (s.ackOn lane f.seq status) f status :=
  ⟨_, rfl, rfl, rfl, rfl, frameIntact_empty (.inl rfl) rfl rfl⟩

theorem Acked.skipReserved {status : Byte} (h : Acked t f status) (n : Nat) : Acked (skipReserved n t) f status := by
  obtain ⟨c, b, m, l, hs⟩ := skipReserved_only n t
  rw [hs]
  exact h

/-! ### Frames that come in -/

theorem frameIntact_of_badCrc (h : f.crcOk = false) : frameIntact f = false := by simp [frameIntact, h]

theorem frameIntact_of_payload (ht : f.type = 2 ∨ f.type = 3) (hl : f.len ≠ 0) : frameIntact f = false := by
  have hlast : (f.len == 0 || (f.type != 2 && f.type != 3)) = false := by
    rw [beq_false_of_ne hl]
    rcases ht with ht | ht
    · rw [ht]
      decide
    · rw [ht]
      decide
  rw [frameIntact, hlast, Bool.and_false]

theorem State.frameDropped_bad (h : f.crcOk = false) :
    s.frameDropped f = { s with pnx := { s.pnx with crcDrop := s.pnx.crcDrop + 1 } } := by
  rw [State.frameDropped, if_neg (by rw [frameIntact_of_badCrc h]; decide), if_neg (by rw [h]; decide)]

theorem State.frameDropped_payload (h : f.crcOk = true) (ht : f.type = 2 ∨ f.type = 3) (hl : f.len ≠ 0) : s.frameDropped f = s :=
    by
  rw [State.frameDropped, if_neg (by rw [frameIntact_of_payload ht hl]; decide), if_pos h]

/-- A frame that is not intact is dropped by each of the three commands. -/
theorem frame_dropped (hr : s.running = true) (hl : s.pnx.laneUp lane = true) (hi : frameIntact f = false) {c : Instr}
    (hc : c = .commandFrame lane f ∨ c = .heartbeatFrame lane f ∨ c = .ackFrame lane f) : exec c s = .next (s.frameDropped f) :=
      by
  have h1 : ¬ (!s.running || !s.pnx.laneUp lane) = true := by rw [hr, hl]; decide
  rcases hc with rfl | rfl | rfl
  · rw [exec_commandFrame, execCommandFrame, if_neg h1, if_pos (by simp [hi])]
  · rw [exec_heartbeatFrame, execHeartbeatFrame, if_neg h1, if_pos (by simp [hi])]
  · rw [exec_ackFrame, execAckFrame, if_neg h1, if_pos (by simp [hi])]

/-- The state with the command stored. -/
def State.stored (s : State) (lane : Bool) (f : Frame) : State :=
  { s.frameIn with pnx := { s.frameIn.pnx with
    cmds := s.pnx.cmds ++ [f], rxNext := s.pnx.rxNext + 1, accepted := s.pnx.accepted + 1, active := lane } }

/-- The state with the command turned away for want of room. -/
def State.busied (s : State) : State := { s.frameIn with pnx := { s.frameIn.pnx with ackBusy := s.pnx.ackBusy + 1 } }

theorem execCommandFrame_eq (hr : s.running = true) (hl : s.pnx.laneUp lane = true) (hi : frameIntact f = true) (ht : f.type =
    1) :
    exec (.commandFrame lane f) s = if f.seq = s.pnx.rxNext then
        if s.pnx.cmds.length < 256 then .next (skipReserved 256 ((s.stored lane f).ackOn lane f.seq 0))
        else .next (s.busied.ackOn lane f.seq 3)
      else if seqBefore f.seq s.pnx.rxNext then .next (s.frameIn.ackOn lane f.seq 1)
      else .next (s.frameIn.ackOn lane f.seq 2) := by
  rw [exec_commandFrame, execCommandFrame, if_neg (by rw [hr, hl]; decide), if_neg (by simp [hi, ht])]
  rfl

theorem execHeartbeatFrame_answers (hr : s.running = true) (hl : s.pnx.laneUp lane = true) (hi : frameIntact f = true)
    (ht : f.type = 3) : exec (.heartbeatFrame lane f) s = .next (s.frameIn.ackOn lane f.seq 4) := by
  rw [exec_heartbeatFrame, execHeartbeatFrame, if_neg (by rw [hr, hl]; decide), if_neg (by simp [hi, ht])]

/-- The frames that an acknowledgement leaves. -/
def State.released (s : State) (f : Frame) : State :=
  { s.frameIn with pnx := { s.frameIn.pnx with
    txBuf := s.pnx.txBuf.filter (fun x => x.1.seq != f.ackSeq && decide ((x.1.seq - f.ackSeq).toNat < 2 ^ 31)) } }

theorem kept_iff (a b : U32) : (!(a == b || seqBefore a b)) = (a != b && decide ((a - b).toNat < 2 ^ 31)) := by
  rw [Bool.not_or, seqBefore, ← decide_not, bne]
  simp only [Nat.not_le]

theorem execAckFrame_releases (hr : s.running = true) (hl : s.pnx.laneUp lane = true) (hi : frameIntact f = true) (ht : f.type =
    2)
    (hs : f.status = 0 ∨ f.status = 1) : exec (.ackFrame lane f) s = .next (skipReserved 256 (s.released f)) := by
  rw [exec_ackFrame, execAckFrame, if_neg (by rw [hr, hl]; decide), if_neg (by simp [hi, ht])]
  dsimp only
  rw [if_pos hs]
  simp only [kept_iff]
  rfl

theorem execAckFrame_resends (hr : s.running = true) (hl : s.pnx.laneUp lane = true) (hi : frameIntact f = true) (ht : f.type = 2)
    (hs : f.status = 2 ∨ f.status = 3) : exec (.ackFrame lane f) s = .next (s.frameIn.resendFrom 0 s.pnx.txLane) := by
  rw [exec_ackFrame, execAckFrame, if_neg (by rw [hr, hl]; decide), if_neg (by simp [hi, ht])]
  dsimp only
  rw [if_neg (by rcases hs with hs | hs <;> rw [hs] <;> decide), if_pos hs]
  rfl

/-! ### Frames that go again -/

/-- What a resend leaves: the frames before, the numbers of all of them, and the time of those sent. -/
theorem State.resendFrom_spec (s : State) (i : Nat) (lane : Bool) : (s.resendFrom i lane).pnx.txLane = lane ∧
    (s.resendFrom i lane).pnx.resent = s.pnx.resent + BitVec.ofNat 64 (s.pnx.txBuf.length - i) ∧
    (s.resendFrom i lane).pnx.txBuf.map (fun x => x.1.seq) = s.pnx.txBuf.map (fun x => x.1.seq) ∧
    (s.resendFrom i lane).pnx.cmds = s.pnx.cmds := by
  refine ⟨rfl, ?_, ?_, rfl⟩
  · rw [State.resendFrom, List.length_map, List.length_drop]
  · have hseq : ((fun x : Frame × U64 => x.1.seq) ∘ fun x : Frame × U64 => (Frame.seal { x.1 with lane := if lane then 1 else 0 },
      s.tb))
        = fun x => x.1.seq := rfl
    rw [State.resendFrom]
    dsimp only
    rw [List.map_append, List.map_map, hseq, ← List.map_append, List.take_append_drop]

theorem State.resendFrom_take (s : State) {i : Nat} (lane : Bool) (h : i ≤ s.pnx.txBuf.length) :
    (s.resendFrom i lane).pnx.txBuf.take i = s.pnx.txBuf.take i ∧ ∀ x ∈ (s.resendFrom i lane).pnx.txBuf.drop i, x.2 = s.tb := by
  have hlen : (s.pnx.txBuf.take i).length = i := List.length_take_of_le h
  rw [State.resendFrom]
  refine ⟨List.take_left' hlen, fun x hx => ?_⟩
  rw [List.drop_left' hlen] at hx
  obtain ⟨y, -, rfl⟩ := List.mem_map.mp hx
  rfl

/-! ### Timers -/

theorem execFrameResendTimeout_none (h : ∀ x ∈ s.pnx.txBuf, decide (6000 ≤ (s.tb - x.2).toNat) = false) :
    exec .frameResendTimeout s = .next s := by
  rw [exec_frameResendTimeout, execFrameResendTimeout, List.findIdx?_eq_none_iff.mpr h]
  split <;> rfl

theorem execFrameResendTimeout_some {i : Nat} (hr : s.running = true)
    (h : s.pnx.txBuf.findIdx? (fun x => decide (6000 ≤ (s.tb - x.2).toNat)) = some i) :
    exec .frameResendTimeout s = .next (s.resendFrom i !s.pnx.txLane) := by
  rw [exec_frameResendTimeout, execFrameResendTimeout, if_neg (by rw [hr]; decide), h]

theorem execHeartbeatIdleTimeout_sends (hr : s.running = true) (hl : s.pnx.laneUp lane = true)
    (h : 5000 ≤ (s.tb - s.pnx.lastTx[laneIx lane]).toNat) : ∃ r a,
      exec (.heartbeatIdleTimeout lane) s = .next r ∧ r.reply = .frame a ∧
      a.type = 3 ∧ frameIntact a = true ∧ a.seq = s.pnx.txNext ∧ a.ackSeq = s.pnx.rxNext ∧ r.pnx.txBuf = s.pnx.txBuf ∧
      r.pnx.txNext = s.pnx.txNext ∧ r.pnx.lastTx[laneIx lane] = s.tb :=
  ⟨_, _, if_neg (by simpa [hr, hl] using h), rfl, rfl, frameIntact_empty (.inr rfl) rfl rfl, rfl, rfl, rfl, rfl,
    Vector.getElem_set_self ..⟩

/-- Settles O41: each frame and each timer has its outcome above. -/
theorem controlFrames : Obligations.ControlFrames := by
  refine ⟨fun s lane f hr hl => ⟨fun hi ht => ?_, fun hi ht => ⟨_, execHeartbeatFrame_answers hr hl hi ht, ⟨rfl, rfl, rfl, rfl,
    rfl, rfl⟩,
      State.ackOn_acked _ _ _ _⟩, fun hcrc c hc => ?_, fun hcrc ht hlen c hc => ?_, fun hi ht => ⟨fun hs hk => ?_, fun hs => ?_⟩⟩,
    fun s hr => ⟨execFrameResendTimeout_none, fun i h => ?_, fun lane => execHeartbeatIdleTimeout_sends hr, fun lane h => ?_,
      fun h0 h => ?_, fun h => ?_⟩⟩
  · have hx := execCommandFrame_eq hr hl hi ht
    refine ⟨fun hseq hn => ?_, fun hseq hn => ?_, fun hseq => ?_⟩
    · rw [if_pos hseq, if_pos hn] at hx
      have hack := ((s.stored lane f).ackOn_acked lane f 0).skipReserved 256
      obtain ⟨c, b, m, l, hs⟩ := skipReserved_only 256 ((s.stored lane f).ackOn lane f.seq 0)
      refine ⟨_, hx, hack, ?_⟩
      have hkeep := skipReserved_known (s := (s.stored lane f).ackOn lane f.seq 0) (n := 256)
      refine ⟨by rw [hs]; rfl, by rw [hs]; rfl, by rw [hs]; rfl, by rw [hs]; rfl, by rw [hs]; rfl, fun hk => ?_⟩
      rw [hkeep hk]
      exact ⟨rfl, rfl⟩
    · rw [if_pos hseq, if_neg (Nat.not_lt.mpr hn)] at hx
      exact ⟨_, hx, State.ackOn_acked _ _ _ _, ⟨rfl, rfl, rfl, rfl, rfl, rfl⟩, rfl⟩
    · rw [if_neg hseq] at hx
      by_cases hb : 2 ^ 31 ≤ (f.seq - s.pnx.rxNext).toNat
      · rw [if_pos (show seqBefore f.seq s.pnx.rxNext = true from decide_eq_true hb)] at hx
        dsimp only
        rw [if_pos hb]
        exact ⟨_, hx, ⟨rfl, rfl, rfl, rfl, rfl, rfl⟩, State.ackOn_acked _ _ _ _⟩
      · rw [if_neg (by rw [seqBefore, decide_eq_false hb]; decide)] at hx
        dsimp only
        rw [if_neg hb]
        exact ⟨_, hx, ⟨rfl, rfl, rfl, rfl, rfl, rfl⟩, State.ackOn_acked _ _ _ _⟩
  · rw [frame_dropped hr hl (frameIntact_of_badCrc hcrc) hc, State.frameDropped_bad hcrc]
  · rw [frame_dropped hr hl (frameIntact_of_payload ht hlen) hc, State.frameDropped_payload hcrc ht hlen]
  · have hx := execAckFrame_releases hr hl hi ht hs
    rw [skipReserved_known (s := s.released f) hk] at hx
    exact ⟨_, hx, rfl, rfl, rfl⟩
  · obtain ⟨hlane, hres, hseq, hcmds⟩ := s.frameIn.resendFrom_spec 0 s.pnx.txLane
    exact ⟨_, execAckFrame_resends hr hl hi ht hs, hres, hseq, (s.frameIn.resendFrom_take s.pnx.txLane (Nat.zero_le _)).2, hcmds,
      hlane⟩
  · obtain ⟨hlane, hres, hseq, -⟩ := s.resendFrom_spec i (!s.pnx.txLane)
    have hi : i ≤ s.pnx.txBuf.length := Nat.le_of_lt (List.findIdx?_eq_some_iff_getElem.mp h).1
    obtain ⟨htake, hdrop⟩ := s.resendFrom_take (!s.pnx.txLane) hi
    exact ⟨_, execFrameResendTimeout_some hr h, hlane, hres, htake, hseq, hdrop⟩
  · refine if_pos ?_
    rcases h with h | h
    · rw [h, Bool.or_assoc]
      simp
    · rw [decide_eq_true h, Bool.or_true]
  · exact if_neg (by simpa [hr, h0] using h)
  · refine if_pos ?_
    rcases h with h | h
    · rw [h, Bool.or_assoc]
      simp
    · rw [decide_eq_true h, Bool.or_true]

end Sys2Proof.Machine
end
section
/-! PROOFS. The timebase and the epochs (14 R327-R333, 16 R370). -/

namespace Sys2Proof.Machine

variable {s t r : State} {w : Fin 6}

/-! ### What an announcement leaves of the cadence -/

/-- What steers the timebase, and the epoch. -/
def Cad.steering (c : Cad) : BitVec 32 × Bool × Int × Nat × Bool × Nat := (c.offset, c.stepped, c.slew, c.inBand, c.locked,
    c.epoch)

/-- A change of the cadence alone that keeps its steering and holds announcements for later than `s.tb` alone. -/
structure Announced (s r : State) : Prop where
  only : ∃ c, r = { s with cad := c }
  steering : r.cad.steering = s.cad.steering
  held : ∀ e ∈ r.cad.held, e ∈ s.cad.held ∨ s.tb.toNat < e.2

theorem Announced.refl (s : State) : Announced s s := ⟨⟨s.cad, rfl⟩, rfl, fun _ h => .inl h⟩

theorem Announced.trans (h1 : Announced s t) (h2 : Announced t r) : Announced s r := by
  obtain ⟨c, rfl⟩ := h1.only
  obtain ⟨c', rfl⟩ := h2.only
  refine ⟨⟨c', rfl⟩, h2.steering.trans h1.steering, fun e he => ?_⟩
  rcases h2.held e he with he | he
  · exact h1.held e he
  · exact .inr he

theorem effectAt_gt (n : Nat) : n < effectAt n := by
  unfold effectAt
  omega

theorem State.announce_announced (s : State) (kind : BitVec 4) (point : Nat) : Announced s (s.announce kind point) := by
  unfold State.announce
  dsimp only
  split
  · exact ⟨⟨_, rfl⟩, rfl, fun _ h => .inl h⟩
  · rw [State.holdAnnounce_due (by exact Nat.le_of_lt (effectAt_gt _))]
    refine ⟨⟨_, rfl⟩, rfl, fun e he => ?_⟩
    rcases List.mem_append.mp he with he | he
    · exact .inl he
    · rw [List.mem_singleton.mp he]
      exact .inr (effectAt_gt _)

theorem Announced.ite (c : Prop) [Decidable c] (kind : BitVec 4) (point : Nat) :
    Announced s (if c then s.announce kind point else s) := by
  split
  · exact s.announce_announced kind point
  · exact .refl s

theorem State.refreshCap_announced (s : State) : Announced s s.refreshCap := by
  have key : ∀ kind point cap, Announced s (if cap = s.cad.myCap then s else
      ({ s with cad := { s.cad with myCap := cap } } : State).announce kind point) := by
    intro kind point cap
    split
    · exact .refl s
    · have h1 : Announced s { s with cad := { s.cad with myCap := cap } } := ⟨⟨_, rfl⟩, rfl, fun _ h => .inl h⟩
      exact h1.trans (State.announce_announced _ kind point)
  unfold State.refreshCap
  dsimp only
  split
  · split
    · exact key _ _ _
    · exact key _ _ _
  · exact key _ _ _

theorem State.target_announced (s : State) : Announced s s.target := by
  unfold State.target
  split
  · exact .refl s
  · split
    · exact .refl s
    · split
      · exact .refl s
      · exact s.announce_announced 2 _

/-! ### Sync exchanges -/

theorem execSyncExchange_waits {t : SyncStamps} (hp : s.cad.parent = some w)
    (h : s.wlv[w].trained = false ∨ (s.tb - s.cad.exchangeAt).toNat < 10000) : exec (.syncExchange t) s = .next s := by
  rw [exec_syncExchange, execSyncExchange, hp]
  refine if_pos ?_
  rcases h with h | h
  · rw [State.portUp, h]
    simp
  · rw [decide_eq_true h, Bool.or_true]

/-- The offset of an exchange, and whether it lies in the band. -/
def offsetOf (t : SyncStamps) : Int := ((t.t2 - t.t1) - (t.t4 - t.t3)) / 2
def insideBand (t : SyncStamps) : Bool := decide (-800 ≤ offsetOf t) && decide (offsetOf t ≤ 800)

/-- The timebase at an exchange: the parent's at the first. -/
def State.timedBy (s : State) (t : SyncStamps) : State := if s.cad.stepped then s else s.stepTimebase t.parentTb

/-- The state after an exchange. -/
def State.exchanged (s : State) (t : SyncStamps) : State :=
  { s.timedBy t with cad := { (s.timedBy t).cad with
    offset := BitVec.ofInt 32 (offsetOf t)
    exchangeAt := (s.timedBy t).tb
    inBand := if insideBand t then s.cad.inBand + 1 else 0
    locked := insideBand t && (s.cad.locked || 100 ≤ (if insideBand t then s.cad.inBand + 1 else 0))
    slew := if s.cad.stepped then max (-2000) (min 2000 (offsetOf t)) else 0
    slewTick := 0
    rateHeld := false } }

theorem execSyncExchange_steers {t : SyncStamps} (hr : s.running = true) (hj : s.pnx.job.isSome = true) (hc : s.cad.coord ≠ 0)
    (hp : s.cad.parent = some w) (ht : s.wlv[w].trained = true) (hx : 10000 ≤ (s.tb - s.cad.exchangeAt).toNat) :
    ∃ r, exec (.syncExchange t) s = .next r ∧ Announced (s.exchanged t) r := by
  have hn : s.pnx.job.isNone = false := by rw [← Option.not_isSome, hj, Bool.not_true]
  have hl : s.leads = false := by rw [State.leads, hn, beq_false_of_ne hc, Bool.or_false]
  have hg : ¬ (!s.running || s.pnx.job.isNone || s.leads || !s.portUp w || (s.tb - s.cad.exchangeAt).toNat < 10000) = true := by
    rw [hr, hn, hl, State.portUp, ht, decide_eq_false (Nat.not_lt.mpr hx)]
    decide
  rw [exec_syncExchange, execSyncExchange, hp]
  dsimp only
  rw [if_neg hg]
  exact ⟨_, rfl, Announced.ite _ _ _⟩

theorem State.timedBy_kept (s : State) (t : SyncStamps) : (s.timedBy t).cad.stepped = true ∧ (s.timedBy t).mem = s.mem ∧
    (s.timedBy t).polders = s.polders ∧ (s.cad.stepped = false → (s.timedBy t).tb = t.parentTb) ∧
    (s.cad.stepped = true → (s.timedBy t).tb = s.tb) := by
  unfold State.timedBy
  cases h : s.cad.stepped with
  | true => exact ⟨h, rfl, rfl, nofun, fun _ => rfl⟩
  | false => exact ⟨rfl, rfl, rfl, fun _ => rfl, nofun⟩

theorem syncExchange_spec {t : SyncStamps} (hr : s.running = true) (hj : s.pnx.job.isSome = true) (hc : s.cad.coord ≠ 0)
    (hp : s.cad.parent = some w) (ht : s.wlv[w].trained = true) (hx : 10000 ≤ (s.tb - s.cad.exchangeAt).toNat) :
    ∃ r, exec (.syncExchange t) s = .next r ∧ r.cad.offset = BitVec.ofInt 32 (offsetOf t) ∧ r.cad.stepped = true ∧
      (s.cad.stepped = false → r.tb = t.parentTb ∧ r.cad.slew = 0) ∧
      (s.cad.stepped = true → r.tb = s.tb ∧ -2000 ≤ r.cad.slew ∧ r.cad.slew ≤ 2000 ∧
        (-2000 ≤ offsetOf t → offsetOf t ≤ 2000 → r.cad.slew = offsetOf t)) ∧
      (-800 ≤ offsetOf t ∧ offsetOf t ≤ 800 → r.cad.inBand = s.cad.inBand + 1 ∧
        (r.cad.locked = true ↔ s.cad.locked = true ∨ 99 ≤ s.cad.inBand)) ∧
      (¬ (-800 ≤ offsetOf t ∧ offsetOf t ≤ 800) → r.cad.inBand = 0 ∧ r.cad.locked = false) ∧ r.mem = s.mem ∧
        r.polders = s.polders := by
  obtain ⟨r, hx, hn⟩ := execSyncExchange_steers (t := t) hr hj hc hp ht hx
  obtain ⟨hstep, hmem, hpol, hfirst, hlater⟩ := s.timedBy_kept t
  have hst := hn.steering
  obtain ⟨c, rfl⟩ := hn.only
  simp only [Cad.steering, Prod.mk.injEq] at hst
  obtain ⟨hoff, hstepped, hslew, hband, hlock, -⟩ := hst
  have hin : insideBand t = true ↔ -800 ≤ offsetOf t ∧ offsetOf t ≤ 800 := by simp [insideBand]
  refine ⟨_, hx, hoff, hstepped.trans hstep, fun h => ⟨hfirst h, ?_⟩, fun h => ⟨hlater h, ?_⟩, fun h => ?_, fun h => ?_, hmem,
    hpol⟩
  · rw [hslew, State.exchanged, h]
    rfl
  · rw [hslew, State.exchanged, h]
    dsimp only
    rw [if_pos rfl]
    omega
  · rw [hband, hlock, State.exchanged, hin.mpr h]
    simp
  · rw [hband, hlock, State.exchanged, Bool.eq_false_iff.mpr fun hi => h (hin.mp hi)]
    exact ⟨rfl, rfl⟩

/-! ### A parent's port that goes down -/

theorem chooseParent_up {v : Fin 6} (h : chooseParent s = some v) : s.wlv[v].trained = true := by
  unfold chooseParent at h
  exact List.find?_some (p := fun w => s.portUp w) h

theorem execParentPortDown_up (hp : s.cad.parent = some w) (ht : s.wlv[w].trained = true) : exec .parentPortDown s = .next s := by
  rw [exec_parentPortDown, execParentPortDown, hp]
  refine if_pos ?_
  rw [State.portUp, ht, Bool.or_true]

theorem parentPortDown_spec (hr : s.running = true) (hj : s.pnx.job.isSome = true) (hc : s.cad.coord ≠ 0)
    (hp : s.cad.parent = some w) (ht : s.wlv[w].trained = false) : ∃ r, exec .parentPortDown s = .next r ∧ r.cad.rateHeld = true ∧
      r.cad.slew = s.cad.slew ∧ r.tb = s.tb ∧
      (∀ v, r.cad.parent = some v → s.wlv[v].trained = true ∧ r.cad.reparent = s.cad.reparent + 1 ∧ r.cad.locked = s.cad.locked) ∧
      (r.cad.parent = none → r.cad.locked = false ∧ r.cad.reparent = s.cad.reparent) := by
  have hn : s.pnx.job.isNone = false := by rw [← Option.not_isSome, hj, Bool.not_true]
  have hl : s.leads = false := by rw [State.leads, hn, beq_false_of_ne hc, Bool.or_false]
  rw [exec_parentPortDown, execParentPortDown, hp]
  dsimp only
  rw [if_neg (by rw [hr, hn, hl, State.portUp, ht]; decide)]
  split
  · rename_i v hv
    refine ⟨_, rfl, rfl, rfl, rfl, fun x hx => ?_, nofun⟩
    obtain rfl := Option.some.inj hx
    exact ⟨chooseParent_up hv, rfl, rfl⟩
  · exact ⟨_, rfl, rfl, rfl, rfl, nofun, fun _ => ⟨rfl, rfl⟩⟩

/-! ### Epochs -/

theorem le_foldl_min {n : Nat} (l : List Nat) (a : Nat) : n ≤ l.foldl min a ↔ n ≤ a ∧ ∀ x ∈ l, n ≤ x := by
  induction l generalizing a with
  | nil => simp
  | cons x l ih => simp [ih, and_assoc]

theorem Cad.le_capOp {n : Nat} (c : Cad) : n ≤ c.capOp ↔ n ≤ 7 ∧ ∀ e ∈ c.caps ++ c.lockCaps, n ≤ e.2 := by
  rw [Cad.capOp, le_foldl_min, List.forall_mem_map]

theorem classOpMax_le (c : BitVec 2) : classOpMax c ≤ 6 := by
  revert c
  decide

theorem opMhz_lt (p : Nat) : opMhz p < 2 ^ 16 := by
  unfold opMhz
  split_ifs <;> decide

/-- What an epoch runs at: within every cap, one point above the last at most, within the class, and TARGET where these allow. -/
theorem nextPoint_spec (s : State) : nextPoint s ≤ s.disc.opNow.toNat + 1 ∧ nextPoint s ≤ classOpMax s.pm.coolClass ∧
    (∀ e ∈ s.cad.caps ++ s.cad.lockCaps, nextPoint s ≤ e.2) ∧ (s.cad.cadence = false → nextPoint s = 0) ∧
    (s.cad.cadence = true → nextPoint s ≤ s.cad.targetOp ∧ ((∀ e ∈ s.cad.caps ++ s.cad.lockCaps, s.cad.targetOp ≤ e.2) →
      s.cad.targetOp ≤ s.disc.opNow.toNat + 1 → s.cad.targetOp ≤ classOpMax s.pm.coolClass → nextPoint s = s.cad.targetOp)) := by
  have hmax := classOpMax_le s.pm.coolClass
  unfold nextPoint
  cases hc : s.cad.cadence with
  | false =>
    dsimp only
    rw [hc, if_neg Bool.false_ne_true]
    exact ⟨by omega, by omega, fun e _ => by omega, fun _ => by omega, nofun⟩
  | true =>
    dsimp only
    rw [hc, if_pos rfl]
    refine ⟨by omega, by omega, fun e he => ?_, nofun, fun _ => ⟨by omega, fun hcap hup hcl => ?_⟩⟩
    · have := (s.cad.le_capOp.mp (Nat.le_refl _)).2 e he
      omega
    · have := s.cad.le_capOp.mpr ⟨by omega, hcap⟩
      omega

theorem Cad.apply_held (c : Cad) (a : Announce) : (c.apply a).held = c.held := by
  unfold Cad.apply
  dsimp only
  split
  · rfl
  · split
    · split
      · split <;> rfl
      · split <;> rfl
    · split
      · rfl
      · split <;> rfl

theorem Cad.applyDue_held (c : Cad) {n : Nat} {e : Announce × Nat} (h : e ∈ (c.applyDue n).held) : n < e.2 := by
  have hfold : ∀ (l : List (Announce × Nat)) (c : Cad), (l.foldl (fun c e => c.apply e.1) c).held = c.held := by
    intro l
    induction l with
    | nil => exact fun _ => rfl
    | cons x l ih => exact fun c => (ih (c.apply x.1)).trans (c.apply_held x.1)
  rw [Cad.applyDue, hfold] at h
  simpa using (List.mem_filter.mp h).2

theorem State.learn_only (s : State) (n : Nat) : ∃ pm, s.learn n = { s with pm } := by
  unfold State.learn
  split
  · exact ⟨_, rfl⟩
  · dsimp only
    split
    · exact ⟨_, rfl⟩
    · split
      · exact ⟨_, rfl⟩
      · split
        · exact ⟨_, rfl⟩
        · exact ⟨_, rfl⟩

/-- The state with the announcements due at an epoch's boundary applied. -/
def State.applied (s : State) (k : Nat) : State := { s with cad := { s.cad.applyDue (20000 * k) with epoch := k } }

/-- What the boundary of an epoch not yet begun leaves. -/
theorem execEpochBoundary_begins {i : EpochInputs} (hr : s.running = true) (hk : s.tb.toNat / 20000 ≠ s.cad.epoch) :
    ∃ t r pm, exec (.epochBoundary i) s = .next { r with pm } ∧ Announced t r ∧
      ∃ pm', t = { (s.applied (s.tb.toNat / 20000)).setPoint (nextPoint (s.applied (s.tb.toNat / 20000))) with pm := pm' } := by
  obtain ⟨pm, hl⟩ := ((s.applied (s.tb.toNat / 20000)).setPoint (nextPoint (s.applied (s.tb.toNat / 20000)))).learn_only
    s.disc.opNow.toNat
  have hx : exec (.epochBoundary i) s = if !s.running || s.tb.toNat / 20000 = s.cad.epoch then .next s else _ := rfl
  rw [hx, if_neg (by rw [hr]; simp [hk])]
  dsimp only [State.applied] at hl
  rw [hl]
  exact ⟨_, _, _, rfl, (State.refreshCap_announced _).trans (State.target_announced _), _, rfl⟩

theorem State.setPoint_spec (s : State) {p : Nat} (h : p ≤ 6) : (s.setPoint p).disc.opNow.toNat = p ∧
    (s.setPoint p).disc.arithMhz.toNat = opMhz p :=
  ⟨Nat.mod_eq_of_lt (by omega), Nat.mod_eq_of_lt (opMhz_lt p)⟩

theorem epochBoundary_spec {i : EpochInputs} (hr : s.running = true) (hk : s.tb.toNat / 20000 ≠ s.cad.epoch) :
    ∃ r, exec (.epochBoundary i) s = .next r ∧ r.cad.epoch = s.tb.toNat / 20000 ∧
      (∀ e ∈ r.cad.held, 20000 * (s.tb.toNat / 20000) < e.2) ∧
      r.disc.opNow.toNat = nextPoint (s.applied (s.tb.toNat / 20000)) ∧ r.disc.arithMhz.toNat = opMhz r.disc.opNow.toNat ∧
      r.mem = s.mem ∧ r.polders = s.polders ∧ r.weirs = s.weirs := by
  obtain ⟨t, r, pm, hx, ha, pm', ht⟩ := execEpochBoundary_begins (i := i) hr hk
  have hst := ha.steering
  have hheld := ha.held
  obtain ⟨c, hc⟩ := ha.only
  subst ht hc
  simp only [Cad.steering, Prod.mk.injEq] at hst
  obtain ⟨-, -, -, -, -, hepoch⟩ := hst
  have hmax := (nextPoint_spec (s.applied (s.tb.toNat / 20000))).2.1
  obtain ⟨hop, hmhz⟩ := (s.applied (s.tb.toNat / 20000)).setPoint_spec (Nat.le_trans hmax (classOpMax_le _))
  refine ⟨_, hx, hepoch, fun e he => ?_, hop, ?_, rfl, rfl, rfl⟩
  · rcases hheld e he with he | he
    · exact s.cad.applyDue_held he
    · exact Nat.lt_of_le_of_lt (Nat.mul_div_le _ _) he
  · exact hmhz.trans (congrArg opMhz hop.symm)

/-- Settles O45: an exchange steers, a lost port is replaced by `chooseParent`, and an epoch runs at `nextPoint`. -/
theorem timebaseAndEpochs : Obligations.TimebaseAndEpochs := by
  refine ⟨fun s w hr hj hc hp => ⟨fun t ht hx => syncExchange_spec hr hj hc hp ht hx, fun t h => execSyncExchange_waits hp h,
    execParentPortDown_up hp, parentPortDown_spec hr hj hc hp⟩, fun s i hr => ⟨fun hk => ?_, fun hk => ?_⟩⟩
  · exact if_pos (by simp [hk])
  · obtain ⟨r, hx, hepoch, hheld, hop, hmhz, hmem, hpol, hw⟩ := epochBoundary_spec (i := i) hr hk
    obtain ⟨hup, hcl, hcap, hoff, hon⟩ := nextPoint_spec (s.applied (s.tb.toNat / 20000))
    rw [← hop] at hup hcl hcap hoff hon
    exact ⟨r, hx, hepoch, hheld, hcap, hup, hcl, fun h => BitVec.eq_of_toNat_eq (hoff h), hon, hmhz, hmem, hpol, hw⟩

end Sys2Proof.Machine
end
section
/-! PROOFS. The stream channel (14 R317-R320). -/

namespace Sys2Proof.Machine

variable {s t : State} {k : StreamPacket} {id : Byte} {x : Stream}

/-! ### A write of PNX_SEND -/

theorem goBit_send (v : U64) : (v ||| 0x8000000000000000).getLsbD 63 = true ∧
    (v ||| 0x8000000000000000).extractLsb' 48 8 = v.extractLsb' 48 8 ∧
      (v ||| 0x8000000000000000).extractLsb' 0 48 = v.extractLsb' 0 48 := by
  refine ⟨by simp, ?_, ?_⟩
  · rw [BitVec.extractLsb'_or]
    exact BitVec.or_zero
  · rw [BitVec.extractLsb'_or]
    exact BitVec.or_zero

/-- The send register after a write that starts a stream. -/
def sendWord (v : U64) : U64 := (v ||| 0x8000000000000000) &&& 0x00FFFFFFFFFFFFFF

theorem execPnxSendGo_busy {v : U64} (hr : s.running = true) (h : s.pnx.sending.isSome = true) : exec (.pnxSendGo v) s =
    .next { s with pnx := { s.pnx with send := sendWord v, status := s.pnx.status ||| 0x20 } } := by
  obtain ⟨hgo, -, -⟩ := goBit_send v
  rw [exec_pnxSendGo, execPnxSendGo, whenRunning_on hr, State.sendWrite, hgo]
  exact congrArg Host.Outcome.next (if_pos h)

theorem execPnxSendGo_closed {v : U64} (hr : s.running = true) (h : s.pnx.sending = none)
    (hx : ∀ x, s.pnx.find (v.extractLsb' 48 8) = some x → outboundType x.type = false) :
    exec (.pnxSendGo v) s = .next { s with pnx := { s.pnx with send := sendWord v } } := by
  obtain ⟨hgo, hid, -⟩ := goBit_send v
  rw [exec_pnxSendGo, execPnxSendGo, whenRunning_on hr, State.sendWrite, hgo, hid]
  refine congrArg Host.Outcome.next ((if_neg Bool.false_ne_true).trans ((if_neg (by rw [h]; decide)).trans ?_))
  change (match s.pnx.find (v.extractLsb' 48 8) with | none => _ | some x => _) = _
  cases hf : s.pnx.find (v.extractLsb' 48 8) with
  | none => rfl
  | some x => exact if_pos (by rw [hx x hf]; rfl)

/-- The stream that a write of PNX_SEND starts. -/
def sendJob (s : State) (v : U64) : Sending :=
  { stream := v.extractLsb' 48 8, off := 0, data := none, addr := s.pnx.sendAddr.toNat, len := (v.extractLsb' 0 48).toNat,
    sent := 0 }

theorem execPnxSendGo_starts {v : U64} (hr : s.running = true) (h : s.pnx.sending = none)
    (hf : s.pnx.find (v.extractLsb' 48 8) = some x) (hx : outboundType x.type = true) : exec (.pnxSendGo v) s =
      .next ({ s with pnx := { s.pnx with send := sendWord v, sending := some (sendJob s v) } } : State).pumpAll := by
  obtain ⟨hgo, hid, hlen⟩ := goBit_send v
  rw [exec_pnxSendGo, execPnxSendGo, whenRunning_on hr, State.sendWrite, hgo, hid, hlen]
  refine congrArg Host.Outcome.next ((if_neg Bool.false_ne_true).trans ((if_neg (by rw [h]; decide)).trans ?_))
  change (match s.pnx.find (v.extractLsb' 48 8) with | none => _ | some x => _) = _
  rw [hf]
  exact if_neg (by rw [hx]; decide)

/-- Sending goes on in the stream in progress, to its length at most. -/
theorem pump_sending (n : Nat) (s : State) {x : Sending} (hs : s.pnx.sending = some x) (hx : x.sent ≤ x.len) :
    ∃ m ≤ x.len, (pump n s).pnx.sending = some { x with sent := m } := by
  induction n generalizing s x with
  | zero => exact ⟨x.sent, hx, hs⟩
  | succ n ih =>
    unfold pump
    dsimp only
    rw [hs]
    dsimp only
    split
    · exact ⟨x.sent, hx, hs⟩
    · split
      · exact ⟨x.sent, hx, hs⟩
      · exact ih (x := { x with sent := x.sent + min 16384 (x.len - x.sent) }) _ rfl (by dsimp only; omega)

theorem State.pumpAll_idle (h : s.pnx.sending = none) : s.pumpAll = s := by rw [State.pumpAll, h]

theorem State.pumpAll_down (h : s.pnx.sWidth = 0) : s.pumpAll = s := by
  unfold State.pumpAll
  split
  · rfl
  · exact if_pos h

theorem State.pumpAll_sending {x : Sending} (hs : s.pnx.sending = some x) (hx : x.sent ≤ x.len) :
    ∃ m ≤ x.len, s.pumpAll.pnx.sending = some { x with sent := m } := by
  rw [State.pumpAll, hs]
  dsimp only
  split
  · exact ⟨x.sent, hx, hs⟩
  · exact pump_sending _ s hs hx

/-! ### The end of a stream that is sent -/

theorem State.sendRecords_none {g : Fin 4} (h : ∀ P, s.prog g = some P → P.records = []) : s.sendRecords g = s := by
  unfold State.sendRecords
  split
  · rfl
  · rename_i P hP
    exact if_pos (by rw [h P hP]; rfl)

theorem State.sendAll_none (h : ∀ g P, s.prog g = some P → P.records = []) : s.sendAll = s :=
  List.foldl_fixed' (fun g => State.sendRecords_none (h g)) _

theorem execStreamSendDone_ends {x : Sending} (hr : s.running = true) (hs : s.pnx.sending = some x) (hx : x.len ≤ x.sent)
    (h : ∀ g P, s.prog g = some P → P.records = []) :
    exec .streamSendDone s = .next { s with pnx := { s.pnx with sending := none } } := by
  rw [exec_streamSendDone, execStreamSendDone, hs]
  dsimp only
  rw [if_neg (by simpa [hr] using hx)]
  exact congrArg Host.Outcome.next (State.sendAll_none h)

theorem execStreamSendDone_goes_on {x : Sending} (hs : s.pnx.sending = some x) (hx : x.sent < x.len) :
    exec .streamSendDone s = .next s := by
  rw [exec_streamSendDone, execStreamSendDone, hs]
  exact if_pos (by simp [hx])

/-! ### Credits and replays -/

theorem dropAcked_spec (type : Byte) (n : Nat) (l : List StreamPacket) : (dropAcked type n l).Sublist l ∧
    (dropAcked type n l).filter (fun k => k.type != type) = l.filter (fun k => k.type != type) := by
  induction l generalizing n with
  | nil => exact ⟨List.Sublist.refl _, rfl⟩
  | cons k l ih =>
    unfold dropAcked
    split
    · rename_i h
      obtain ⟨hsub, hfil⟩ := ih (n - creditsOf k.data.length)
      exact ⟨hsub.cons k, by rw [hfil, List.filter_cons_of_neg (by simp [h.1])]⟩
    · obtain ⟨hsub, hfil⟩ := ih n
      exact ⟨hsub.cons_cons k, by rw [List.filter_cons, List.filter_cons, hfil]⟩

theorem State.creditBack_idle (h : s.pnx.sending = none) (type n : Nat) : s.creditBack type n =
    { s with pnx := { s.pnx with
      credits := s.pnx.credits.set (Fin.ofNat 8 type) (s.pnx.credits[Fin.ofNat 8 type] + n)
      retry := dropAcked (BitVec.ofNat 8 type) n s.pnx.retry } } := State.pumpAll_idle h

theorem up_iff (hr : s.running = true) (h : s.pnx.sWidth ≠ 0) : ¬ (!s.running || s.pnx.sWidth = 0) = true := by simp [hr, h]

theorem execStreamCredit_idle (hr : s.running = true) (hw : s.pnx.sWidth ≠ 0) (h : s.pnx.sending = none) (t : BitVec 3)
    (n : BitVec 29) : exec (.streamCredit t n) s = .next { s with pnx := { s.pnx with
      credits := s.pnx.credits.set (Fin.ofNat 8 t.toNat) (s.pnx.credits[Fin.ofNat 8 t.toNat] + n.toNat)
      retry := dropAcked (BitVec.ofNat 8 t.toNat) n.toNat s.pnx.retry } } := by
  rw [exec_streamCredit, execStreamCredit, if_neg (up_iff hr hw), State.creditBack_idle h]

/-- The packets of the retry buffer from a link sequence number on. -/
def againFrom (l : List StreamPacket) (lseq : U32) : List StreamPacket :=
    l.filter (fun k => decide ((k.lseq - lseq).toNat < 2 ^ 31))

theorem State.replayFrom_spec (s : State) (lseq : U32) : ∃ reply, s.replayFrom lseq = { s with
    pnx := { s.pnx with replays := s.pnx.replays + BitVec.ofNat 64 (againFrom s.pnx.retry lseq).length }, reply } ∧
    ∀ x, (againFrom s.pnx.retry lseq).getLast? = some x → reply = .stream x := by
  have hf : s.pnx.retry.filter (fun k => !seqBefore k.lseq lseq) = againFrom s.pnx.retry lseq :=
    congrArg (fun p => s.pnx.retry.filter p) (funext fun k => by rw [seqBefore, ← decide_not]; simp only [Nat.not_le])
  unfold State.replayFrom
  dsimp only
  rw [hf]
  refine ⟨_, rfl, fun x hx => ?_⟩
  rw [hx]

theorem execStreamNak_replays (hr : s.running = true) (hw : s.pnx.sWidth ≠ 0) (lseq : U32) :
    exec (.streamNak lseq) s = .next (s.replayFrom lseq) := by rw [exec_streamNak, execStreamNak, if_neg (up_iff hr hw)]

/-! ### CREDIT packets -/

/-- A CREDIT packet as it goes out. -/
def creditReply (lseq cred : U32) (nak : Bool) : StreamPacket :=
  StreamPacket.seal { type := 0, stream := 0, len := 0, lseq, offset := 0, cred, flags := if nak then 1 else 0, data := [] }

theorem State.creditPacket_only (s : State) (lseq : U32) (nak : Bool) : ∃ cred rxHeld, s.creditPacket lseq nak =
    { s with pnx := { s.pnx with rxHeld }, reply := .stream (creditReply lseq cred nak) } := by
  obtain ⟨c, h, hq⟩ := s.pnx.takeCred_only
  unfold State.creditPacket
  rw [hq]
  exact ⟨c, h, rfl⟩

/-- With credits of one pool to return, the packet returns them. -/
theorem Pnx.takeCred_one (q : Pnx) (u : Fin 8) (hu : q.rxHeld[u] ≠ 0) (ho : ∀ v, v ≠ u → q.rxHeld[v] = 0) :
    q.takeCred = (BitVec.ofNat 32 (u.val * 2 ^ 29 + q.rxHeld[u] % 2 ^ 29), { q with rxHeld := q.rxHeld.set u 0 }) := by
  have hp : (fun v : Fin 8 => decide (q.rxHeld[v] ≠ 0)) = fun v => decide (v = u) := by
    funext v
    by_cases hv : v = u
    · rw [hv]
      simpa using hu
    · simpa [hv] using ho v hv
  have hfind : (List.finRange 8).find? (fun v : Fin 8 => decide (q.rxHeld[v] ≠ 0)) = some u := by
    have key : ∀ u : Fin 8, (List.finRange 8).find? (fun v => decide (v = u)) = some u := by decide
    rw [hp, key u]
  unfold Pnx.takeCred
  rw [hfind]

/-- The state with a packet taken from the receive buffer and its credits on their way back. -/
def State.received (s : State) (k : StreamPacket) : State :=
  ({ s with pnx := { s.pnx with rxLseq := s.pnx.rxLseq + 1 } } : State).creditOwed k.type.toNat k.data.length

theorem State.received_only (s : State) (k : StreamPacket) : ∃ rxHeld reply, s.received k =
    { s with pnx := { s.pnx with rxLseq := s.pnx.rxLseq + 1, rxHeld }, reply } := by
  unfold State.received State.creditOwed
  dsimp only
  obtain ⟨c, h, hp⟩ := State.creditPacket_only _ s.pnx.txLseq false
  rw [hp]
  exact ⟨_, _, rfl⟩

theorem inboundType_lt {t : Byte} (h : inboundType t = true) : t.toNat < 8 := by
  simp only [inboundType, Bool.or_eq_true, beq_iff_eq] at h
  rcases h with (rfl | rfl) | rfl <;> decide

/-- The link with credits of a pool to return. -/
def Pnx.owes (q : Pnx) (u : Fin 8) (n : Nat) : Pnx := { q with rxHeld := q.rxHeld.set u (q.rxHeld[u] + n) }

theorem Pnx.owes_same (q : Pnx) (u : Fin 8) (n : Nat) : (q.owes u n).rxHeld[u] = q.rxHeld[u] + n := Vector.getElem_set_self ..

theorem Pnx.owes_other (q : Pnx) {u v : Fin 8} (n : Nat) (h : v ≠ u) : (q.owes u n).rxHeld[v] = q.rxHeld[v] :=
  Vector.getElem_set_ne u.isLt v.isLt fun e => h (Fin.ext e.symm)

/-- Credits of one pool alone go back all at once. -/
theorem State.creditPacket_owes {q : Pnx} (hz : ∀ t : Fin 8, q.rxHeld[t] = 0) (u : Fin 8) {n : Nat} (h0 : 0 < n) (hn : n < 2 ^ 29)
    (hs : s.pnx = q.owes u n) (lseq : U32) : (∀ t : Fin 8, (s.creditPacket lseq false).pnx.rxHeld[t] = 0) ∧
      (s.creditPacket lseq false).reply = .stream (creditReply lseq (BitVec.ofNat 32 (u.val * 2 ^ 29 + n)) false) := by
  have hu : (q.owes u n).rxHeld[u] = n := by rw [Pnx.owes_same, hz, Nat.zero_add]
  have ho : ∀ v, v ≠ u → (q.owes u n).rxHeld[v] = 0 := fun v hv => by rw [Pnx.owes_other q n hv, hz]
  have hq := (q.owes u n).takeCred_one u (by rw [hu]; omega) ho
  rw [hu, Nat.mod_eq_of_lt hn] at hq
  unfold State.creditPacket
  rw [hs, hq]
  refine ⟨fun v => ?_, rfl⟩
  by_cases hv : v = u
  · rw [hv]
    exact Vector.getElem_set_self ..
  · exact (Vector.getElem_set_ne u.isLt v.isLt fun e => hv (Fin.ext e.symm)).trans (ho v hv)

/-- The state with a packet taken whose credits have yet to go back. -/
def State.owing (s : State) (k : StreamPacket) : State :=
  { s with pnx := Pnx.owes { s.pnx with rxLseq := s.pnx.rxLseq + 1 } (Fin.ofNat 8 k.type.toNat) (creditsOf k.data.length) }

theorem State.received_credits (hi : inboundType k.type = true) (hz : ∀ t : Fin 8, s.pnx.rxHeld[t] = 0) (hd : k.data ≠ [])
    (hl : k.data.length ≤ 16384) : (∀ t : Fin 8, (s.received k).pnx.rxHeld[t] = 0) ∧ ∃ a, (s.received k).reply = .stream a ∧
      a.type = 0 ∧ a.flags = 0 ∧ a.cred.toNat = k.type.toNat * 2 ^ 29 + (k.data.length + 511) / 512 := by
  have hlt := inboundType_lt hi
  have hpos := List.length_pos_iff.mpr hd
  have hu : (Fin.ofNat 8 k.type.toNat).val = k.type.toNat := Nat.mod_eq_of_lt hlt
  have hr : s.received k = (s.owing k).creditPacket s.pnx.txLseq false := rfl
  obtain ⟨h0, hrep⟩ := State.creditPacket_owes (s := s.owing k) (q := { s.pnx with rxLseq := s.pnx.rxLseq + 1 }) hz
    (Fin.ofNat 8 k.type.toNat) (n := creditsOf k.data.length) (by rw [creditsOf]; omega) (by rw [creditsOf]; omega) rfl
      s.pnx.txLseq
  rw [hr]
  refine ⟨h0, _, hrep, rfl, rfl, ?_⟩
  rw [hu]
  refine (BitVec.toNat_ofNat _ _).trans (Nat.mod_eq_of_lt ?_)
  rw [creditsOf]
  omega

/-! ### Streams that land -/

/-- The end of a tag's transfer touches the terps alone. -/
theorem State.slotEnds_only (l : List (Pid × Nat)) (s : State) : ∃ polders, s.slotEnds l = { s with polders } := by
  induction l generalizing s with
  | nil => exact ⟨_, rfl⟩
  | cons x l ih =>
    have h1 : ∃ polders, s.slotEnd x.1 x.2 = { s with polders } := by
      unfold State.slotEnd
      split
      · exact ⟨_, rfl⟩
      · exact ⟨_, rfl⟩
    obtain ⟨P, hP⟩ := h1
    obtain ⟨P', hP'⟩ := ih (s.slotEnd x.1 x.2)
    refine ⟨P', hP'.trans ?_⟩
    rw [hP]

theorem State.wakeSlots_touches (l : List (Pid × Nat)) (s : State) : ∃ pm, s.wakeSlots l = { s with pm } := by
  induction l generalizing s with
  | nil => exact ⟨_, rfl⟩
  | cons x l ih =>
    have h1 : ∃ pm, s.wakeQuad (quadOf x.1) = { s with pm } := by
      unfold State.wakeQuad
      split
      · exact ⟨_, rfl⟩
      · exact ⟨_, rfl⟩
    obtain ⟨P, hP⟩ := h1
    obtain ⟨P', hP'⟩ := ih (s.wakeQuad (quadOf x.1))
    refine ⟨P', hP'.trans ?_⟩
    rw [hP]

/-- A fault without a program bound: the stream closed, the flag and the event. -/
theorem State.streamFault_unbound (h : ∀ g, s.prog g = none) (id : Byte) : ∃ herd, s.streamFault id = { s with
    pnx := { s.pnx with streams := s.pnx.streams.filter (fun x => x.id != id), status := s.pnx.status ||| 1 }, herd } := by
  have hev : ∀ t : State, ∃ herd, t.herdEvent 0x02 [id] = { t with herd } ∧ herd.progs = t.herd.progs := by
    intro t
    unfold State.herdEvent
    dsimp only
    split
    · split
      · exact ⟨_, rfl, rfl⟩
      · exact ⟨_, rfl, rfl⟩
    · split
      · exact ⟨_, rfl, rfl⟩
      · exact ⟨_, rfl, rfl⟩
  unfold State.streamFault
  dsimp only
  obtain ⟨herd, hx, hp⟩ := hev { s with
    pnx := { s.pnx with streams := s.pnx.streams.filter (fun x => x.id != id), status := s.pnx.status ||| 1 } }
  rw [hx]
  refine ⟨herd, List.foldl_fixed' (fun g => ?_) _⟩
  have hg : ({ s with
      pnx := { s.pnx with streams := s.pnx.streams.filter (fun x => x.id != id), status := s.pnx.status ||| 1 }
      herd } : State).prog g = none := (congrArg (fun v : Vector (Option Prog) 4 => v[g]) hp).trans (h g)
  rw [State.cancelQueued, hg]

/-- A packet whose data may be taken: intact, a data packet without credits, in its turn, with room in its pool. -/
structure InTurn (s : State) (k : StreamPacket) : Prop where
  running : s.running = true
  up : s.pnx.sWidth ≠ 0
  crc : k.crcOk = true
  data : k.type ≠ 0
  turn : k.lseq = s.pnx.rxLseq
  cred : k.cred = 0
  room : inboundType k.type = true → creditsOf k.data.length ≤ s.pnx.rxFree (Fin.ofNat 8 k.type.toNat)

theorem InTurn.taken (h : InTurn s k) :
    ¬ (k.lseq ≠ s.pnx.rxLseq || (inboundType k.type && s.pnx.rxFree (Fin.ofNat 8 k.type.toNat) < creditsOf k.data.length)) =
      true := by
  simp only [h.turn, ne_eq, not_true_eq_false, decide_false, Bool.false_or, Bool.and_eq_true, decide_eq_true_eq, not_and,
    Nat.not_lt]
  exact h.room

theorem execStreamPacketArrival_fault (h : InTurn s k) (hf : s.pnx.find k.stream = none) :
    exec (.streamPacketArrival k) s = .next ((s.streamFault k.stream).received k) := by
  rw [exec_streamPacketArrival, execStreamPacketArrival, if_neg (up_iff h.running h.up), if_neg (by rw [h.crc]; decide)]
  dsimp only
  rw [if_neg h.data, if_neg h.taken, hf]
  simp only [if_pos h.cred]
  rfl

/-- The slots of a packet, and the state with its data landed. -/
def landSlots (x : Stream) (k : StreamPacket) : List (Pid × Nat) := slotsOf [(x.base.toNat + k.offset.toNat, k.data.length)]

def State.streamLands (s : State) (x : Stream) (k : StreamPacket) : State :=
  (((s.wakeSlots (landSlots x k)).putBytes (x.base.toNat + k.offset.toNat) k.data).slotEnds (landSlots x k)).onStream k.stream
    (fun x => { x with landed := mergeRange k.offset.toNat (k.offset.toNat + k.data.length) x.landed })

theorem execStreamPacketArrival_lands (h : InTurn s k) (hf : s.pnx.find k.stream = some x) (ht : x.type = k.type)
    (hi : inboundType x.type = true) (hl : k.offset.toNat + k.data.length ≤ x.length.toNat)
    (hg : gate (s.wakeSlots (landSlots x k)) true (landSlots x k) = .ok ()) :
    exec (.streamPacketArrival k) s = .next ((s.streamLands x k).received k) := by
  rw [exec_streamPacketArrival, execStreamPacketArrival, if_neg (up_iff h.running h.up), if_neg (by rw [h.crc]; decide)]
  dsimp only
  rw [if_neg h.data, if_neg h.taken, hf]
  dsimp only
  rw [if_neg (by rw [hi, decide_eq_false (not_not.mpr ht), decide_eq_false (Nat.not_lt.mpr hl)]; decide)]
  unfold landSlots at hg
  rw [hg]
  simp only [if_pos h.cred]
  rfl

theorem State.streamLands_spec (s : State) (x : Stream) (k : StreamPacket) : (s.streamLands x k).weirs = s.weirs ∧
    (s.streamLands x k).pnx.rxLseq = s.pnx.rxLseq ∧ (s.streamLands x k).pnx.rxHeld = s.pnx.rxHeld ∧
    ∀ b < 2 ^ 63, (s.streamLands x k).byte b = if x.base.toNat + k.offset.toNat ≤ b ∧
      b < x.base.toNat + k.offset.toNat + k.data.length then k.data.getD (b - (x.base.toNat + k.offset.toNat)) 0 else s.byte b :=
        by
  unfold State.streamLands
  obtain ⟨pm, hw⟩ := s.wakeSlots_touches (landSlots x k)
  rw [hw]
  have hput := fun b (hb : b < 2 ^ 63) => State.byte_putBytes { s with pm } (x.base.toNat + k.offset.toNat) k.data hb
  obtain ⟨m, n, hm⟩ := State.putBytes_only { s with pm } (x.base.toNat + k.offset.toNat) k.data
  rw [hm] at hput ⊢
  obtain ⟨P, hP⟩ := State.slotEnds_only (landSlots x k) { s with pm, mem := m, sent := n }
  rw [hP]
  exact ⟨rfl, rfl, rfl, hput⟩

/-! ### The end of an inbound stream -/

theorem find_onStream {g : Stream → Stream} (hg : ∀ x, (g x).id = x.id) (s : State) (id : Byte) :
    (s.onStream id g).pnx.find id = (s.pnx.find id).map g := by
  unfold State.onStream Pnx.find
  dsimp only
  induction s.pnx.streams with
  | nil => rfl
  | cons y l ih =>
    rw [List.map_cons, List.find?_cons, List.find?_cons]
    by_cases hy : y.id = id
    · rw [if_pos hy, hg, hy]
      simp
    · rw [if_neg hy, beq_false_of_ne hy]
      exact ih

theorem State.promptLands_only (s : State) (x : Stream) : ∃ herd, s.promptLands x = { s with herd } := by
  have key : ∀ (l : List (Fin 4)) (g : State → Fin 4 → State), (∀ t i, ∃ herd, g t i = { t with herd }) → ∀ t,
      ∃ herd, l.foldl g t = { t with herd } := by
    intro l g hg
    induction l with
    | nil => exact fun t => ⟨_, rfl⟩
    | cons i l ih =>
      intro t
      obtain ⟨h1, e1⟩ := hg t i
      obtain ⟨h2, e2⟩ := ih (g t i)
      refine ⟨h2, e2.trans ?_⟩
      rw [e1]
  exact key _ _ (fun t i => ⟨_, rfl⟩) s

theorem State.herdEvent_touches (s : State) (c : Byte) (bs : List Byte) : ∃ herd, s.herdEvent c bs = { s with herd } := by
  unfold State.herdEvent
  dsimp only
  split
  · split
    · exact ⟨_, rfl⟩
    · exact ⟨_, rfl⟩
  · split
    · exact ⟨_, rfl⟩
    · exact ⟨_, rfl⟩

theorem execStreamDone_stays (hf : s.pnx.find id = some x) (hd : x.done = true) : exec (.streamDone id) s = .next s := by
  rw [exec_streamDone, execStreamDone]
  split
  · rfl
  · rw [hf]
    exact if_pos (by rw [hd]; rfl)

theorem execStreamDone_ends (hr : s.running = true) (hf : s.pnx.find id = some x) (hi : inboundType x.type = true) (hd : x.done =
    false)
    (hl : x.landed = [(0, x.length.toNat)] ∨ x.length = 0) : ∃ r, exec (.streamDone id) s = .next r ∧
      (r.pnx.find id).map (·.done) = some true ∧ r.mem = s.mem ∧
      r.flight = if x.weir = 0xFFFF then s.flight else s.flight ++ [(x.weir.toNat, 1)] := by
  have hfind : ((s.onStream id (fun x => { x with done := true })).pnx.find id).map (·.done) = some true := by
    rw [find_onStream (g := fun x => { x with done := true }) (fun _ => rfl), hf]
    rfl
  rw [exec_streamDone, execStreamDone, if_neg (by rw [hr]; decide), hf]
  dsimp only
  rw [if_neg (by rcases hl with hl | hl <;> simp [hd, hi, hl])]
  refine ⟨_, rfl, ?_⟩
  obtain ⟨h1, e1⟩ := State.herdEvent_touches (if x.weir = 0xFFFF then s.onStream id (fun x => { x with done := true })
    else { s.onStream id (fun x => { x with done := true }) with
      flight := (s.onStream id (fun x => { x with done := true })).flight ++ [(x.weir.toNat, 1)] }) 0x01 [id]
  rw [e1]
  obtain ⟨h2, e2⟩ := State.promptLands_only _ x
  rw [e2]
  split
  · exact ⟨hfind, rfl, rfl⟩
  · exact ⟨hfind, rfl, rfl⟩

/-! ### Lanes -/

/-- The packets that a retrained channel sends again. -/
def againAll (l : List StreamPacket) : List StreamPacket := (l.head?.map (fun k => againFrom l k.lseq)).getD []

/-- The channel on its new width. -/
def State.relaned (s : State) (working : Byte) : State := { s with pnx := { s.pnx with sWidth := laneWidth working } }

theorem execStreamLaneRetrain_nil (hr : s.running = true) (hq : s.pnx.retry = []) (working : Byte) :
    exec (.streamLaneRetrain working) s = .next (s.relaned working).pumpAll := by
  rw [exec_streamLaneRetrain, execStreamLaneRetrain, if_neg (by rw [hr]; decide)]
  unfold State.relaned
  dsimp only
  rw [hq]

theorem execStreamLaneRetrain_cons {l : List StreamPacket} (hr : s.running = true) (hq : s.pnx.retry = k :: l) (working : Byte) :
    exec (.streamLaneRetrain working) s = .next ((s.relaned working).replayFrom k.lseq).pumpAll := by
  rw [exec_streamLaneRetrain, execStreamLaneRetrain, if_neg (by rw [hr]; decide)]
  unfold State.relaned
  dsimp only
  rw [hq]

theorem execStreamLaneRetrain_idle (hr : s.running = true) (h : s.pnx.sending = none) (working : Byte) : ∃ reply,
    exec (.streamLaneRetrain working) s = .next { s with
      pnx := { s.pnx with
        sWidth := laneWidth working
        replays := s.pnx.replays + BitVec.ofNat 64 (againAll s.pnx.retry).length }, reply } ∧
    ∀ x, (againAll s.pnx.retry).getLast? = some x → reply = .stream x := by
  cases hq : s.pnx.retry with
  | nil =>
    rw [execStreamLaneRetrain_nil hr hq, State.pumpAll_idle (s := s.relaned working) h]
    refine ⟨s.reply, ?_, nofun⟩
    simp [State.relaned, againAll]
  | cons k l =>
    obtain ⟨reply, hx, hl⟩ := (s.relaned working).replayFrom_spec k.lseq
    have hs : ((s.relaned working).replayFrom k.lseq).pnx.sending = none := by
      rw [hx]
      exact h
    have ha : againAll (k :: l) = againFrom s.pnx.retry k.lseq := by rw [hq]; rfl
    rw [execStreamLaneRetrain_cons hr hq, State.pumpAll_idle hs, hx, ha]
    exact ⟨reply, rfl, hl⟩

theorem execStreamPacketArrival_nak (hr : s.running = true) (hw : s.pnx.sWidth ≠ 0) (hc : k.crcOk = false) :
    exec (.streamPacketArrival k) s = .next (s.creditPacket k.lseq true) := by
  rw [exec_streamPacketArrival, execStreamPacketArrival, if_neg (up_iff hr hw), if_pos (by rw [hc]; rfl)]

theorem execStreamPacketArrival_waits (hr : s.running = true) (hw : s.pnx.sWidth ≠ 0) (hc : k.crcOk = true) (ht : k.type ≠ 0)
    (h : k.lseq ≠ s.pnx.rxLseq ∨ inboundType k.type = true ∧ s.pnx.rxFree (Fin.ofNat 8 k.type.toNat) < creditsOf k.data.length) :
    exec (.streamPacketArrival k) s = .next s := by
  rw [exec_streamPacketArrival, execStreamPacketArrival, if_neg (up_iff hr hw), if_neg (by rw [hc]; decide)]
  dsimp only
  rw [if_neg ht]
  refine if_pos ?_
  rcases h with h | ⟨h1, h2⟩
  · rw [decide_eq_true h, Bool.true_or]
  · rw [h1, decide_eq_true h2, Bool.and_true, Bool.or_true]

/-- Settles O42: each command of the stream channel has the outcomes above. -/
theorem streams : Obligations.Streams := by
  refine fun s hr => ⟨fun v => ⟨execPnxSendGo_busy hr, execPnxSendGo_closed hr, fun x hs hf hx => ?_⟩,
    fun x hs hx hp => execStreamSendDone_ends hr hs hx hp, fun x hs hx => execStreamSendDone_goes_on hs hx,
    fun hw => ⟨fun k => ?_, fun t n => ?_, fun n => ?_⟩, fun hw => ⟨fun t n hs => ?_, fun lseq => ?_, fun k hc => ?_,
      fun k hc ht =>
      ⟨fun h => execStreamPacketArrival_waits hr hw hc ht (.inl h),
        fun h1 h2 => execStreamPacketArrival_waits hr hw hc ht (.inr ⟨h1, h2⟩),
        fun hl hcred hroom => ⟨fun hf hp => ?_, fun x hf htx hi hlen hg => ?_⟩⟩⟩, fun working hs => ?_, fun id x hf hi =>
    ⟨execStreamDone_stays hf, execStreamDone_ends hr hf hi⟩⟩
  · have hx := execPnxSendGo_starts hr hs hf hx
    generalize hu : ({ s with pnx := { s.pnx with send := sendWord v, sending := some (sendJob s v) } } : State) = u at hx
    have hsend : u.pnx.sending = some (sendJob s v) := by rw [← hu]
    obtain ⟨m, hm, hy⟩ := State.pumpAll_sending hsend (Nat.zero_le _)
    obtain ⟨credits, txLseq, retry, sending, rxHeld, reply, hp⟩ := u.pumpAll_only
    refine ⟨_, _, hx, hy, rfl, rfl, rfl, hm, fun hw => ?_, ?_, ?_⟩
    · rw [State.pumpAll_down (by rw [← hu]; exact hw), hsend] at hy
      exact (congrArg Sending.sent (Option.some.inj hy)).symm
    · rw [hp, ← hu]
    · rw [hp, ← hu]
  · exact if_pos (by simp [hw])
  · exact if_pos (by simp [hw])
  · exact if_pos (by simp [hw])
  · obtain ⟨hsub, hfil⟩ := dropAcked_spec (t.setWidth 8) n.toNat s.pnx.retry
    have ht : BitVec.ofNat 8 t.toNat = t.setWidth 8 := BitVec.eq_of_toNat_eq (by simp)
    have hx := execStreamCredit_idle hr hw hs t n
    rw [ht] at hx
    refine ⟨_, hx, fun u => ?_, hsub, hfil⟩
    have hu : (Fin.ofNat 8 t.toNat).val = t.toNat := Nat.mod_eq_of_lt t.isLt
    by_cases h : u.val = t.toNat
    · obtain rfl : u = Fin.ofNat 8 t.toNat := Fin.ext (h.trans hu.symm)
      rw [if_pos h]
      exact Vector.getElem_set_self ..
    · rw [if_neg h]
      exact Vector.getElem_set_ne (Fin.ofNat 8 t.toNat).isLt u.isLt fun e => h (e.symm.trans hu)
  · obtain ⟨reply, hx, hl⟩ := s.replayFrom_spec lseq
    have he := execStreamNak_replays hr hw lseq
    rw [hx] at he
    exact ⟨_, he, rfl, hl⟩
  · obtain ⟨cred, held, hp⟩ := s.creditPacket_only k.lseq true
    have hx := execStreamPacketArrival_nak hr hw hc
    rw [hp] at hx
    exact ⟨_, _, hx, rfl, rfl, rfl, rfl, StreamPacket.crcOk_seal _, rfl, rfl⟩
  · have hx := execStreamPacketArrival_fault ⟨hr, hw, hc, ht, hl, hcred, hroom⟩ hf
    obtain ⟨herd, hfault⟩ := State.streamFault_unbound hp k.stream
    obtain ⟨held, reply, hrec⟩ := (s.streamFault k.stream).received_only k
    rw [hrec, hfault] at hx
    refine ⟨_, hx, by simp, rfl, ?_, rfl⟩
    simp [Pnx.find, List.find?_eq_none]
  · have hx := execStreamPacketArrival_lands ⟨hr, hw, hc, ht, hl, hcred, hroom⟩ hf htx hi hlen hg
    obtain ⟨hweirs, hrx, hheld, hbyte⟩ := s.streamLands_spec x k
    have hcr := State.received_credits (s := s.streamLands x k) (htx ▸ hi)
    obtain ⟨held, reply, hrec⟩ := (s.streamLands x k).received_only k
    rw [hrec] at hx hcr
    refine ⟨_, hx, congrArg (· + 1) hrx, hweirs, fun hz hd hlen => hcr (fun t => ?_) hd hlen, hbyte⟩
    rw [hheld]
    exact hz t
  · obtain ⟨reply, hx, hl⟩ := execStreamLaneRetrain_idle hr hs working
    intro again q'
    have ha : again = againAll s.pnx.retry := by
      unfold again againAll
      cases hq : s.pnx.retry with
      | nil => rfl
      | cons k l => rfl
    rw [← ha] at hx hl
    exact ⟨_, hx, rfl, hl⟩

end Sys2Proof.Machine
end
section
/-! PROOFS. The package mesh (13 R286-R292). -/

namespace Sys2Proof.Machine

variable {s t : State} {n m : Site} {o : Port} {net : Net} {now : Nat} {k : FabPacket}

/-! ### Routes (13 R289) -/

theorem dest_toNat (d : Site) : (BitVec.ofNat 6 d.val).toNat = d.val := by
  rw [BitVec.toNat_ofNat]
  omega

/-- The distance of two sites along their rows and columns. -/
def apart (a b : Site) : Nat := ((siteCol a : Int) - siteCol b).natAbs + ((siteRow a : Int) - siteRow b).natAbs

theorem route_same (n : Site) : route n (BitVec.ofNat 6 n.val) = some .here := by
  unfold route
  dsimp only
  rw [dest_toNat, if_pos n.isLt, if_neg (by rw [siteCol]; omega), if_neg (by rw [siteCol]; omega),
    if_neg (by rw [siteRow]; omega),
    if_neg (by rw [siteRow]; omega)]

theorem neighbour_all (o : Port) : ∀ n : Site, (neighbour n o).all (fun x => x.1 != n && hasPort x.1 x.2 && !injects x.2) =
    true := by
  cases o <;> decide

theorem neighbour_spec {inp : Port} (h : neighbour n o = some (m, inp)) : m ≠ n ∧ hasPort m inp = true ∧ injects inp = false := by
  have hall := neighbour_all o n
  rw [h] at hall
  simpa [and_assoc] using hall

theorem entersAt_link {inp : Port} (h : injects inp = false) (m : Site) (d : BitVec 6) : entersAt m inp d = true := by
  cases inp with
  | north | east | south | west => rfl
  | here | embankment | side => exact absurd h (by decide)

/-- One hop along a row or a column. -/
theorem neighbour_nearer {d : Site} (h : (o = .east ∧ siteCol n < siteCol d) ∨ (o = .west ∧ siteCol d < siteCol n) ∨
    (o = .south ∧ siteRow n < siteRow d) ∨ (o = .north ∧ siteRow d < siteRow n)) :
    ∃ m inp, neighbour n o = some (m, inp) ∧ apart m d + 1 = apart n d := by
  have hn := n.isLt
  have hd := d.isLt
  rcases h with ⟨rfl, h⟩ | ⟨rfl, h⟩ | ⟨rfl, h⟩ | ⟨rfl, h⟩
  all_goals
    simp only [siteCol, siteRow] at h
    refine ⟨_, _, if_pos (by simp only [siteCol, siteRow]; omega), ?_⟩
    simp only [apart, siteCol, siteRow, Fin.val_ofNat]
    omega

/-- The output of a route to another site leads to it. -/
theorem route_other {d : Site} (h : n ≠ d) : ∃ o, route n (BitVec.ofNat 6 d.val) = some o ∧
    ((o = .east ∧ siteCol n < siteCol d) ∨ (o = .west ∧ siteCol d < siteCol n) ∨
      (o = .south ∧ siteRow n < siteRow d) ∨ (o = .north ∧ siteRow d < siteRow n)) := by
  unfold route
  dsimp only
  rw [dest_toNat, if_pos d.isLt]
  split
  · exact ⟨_, rfl, .inl ⟨rfl, ‹_›⟩⟩
  · split
    · exact ⟨_, rfl, .inr (.inl ⟨rfl, ‹_›⟩)⟩
    · split
      · exact ⟨_, rfl, .inr (.inr (.inl ⟨rfl, ‹_›⟩))⟩
      · split
        · exact ⟨_, rfl, .inr (.inr (.inr ⟨rfl, ‹_›⟩))⟩
        · refine absurd (Fin.ext ?_) h
          simp only [siteCol, siteRow] at *
          omega

/-- What an agent sends never goes out where it comes in. -/
theorem route_enters {d : BitVec 6} (hi : injects o = true) (he : entersAt n o d = true) : route n d ≠ some o := by
  intro hr
  have hd := d.isLt
  unfold route at hr
  cases o with
  | north | east | south | west => exact absurd hi (by decide)
  | here =>
    simp only [entersAt, bne_iff_ne] at he
    simp only [siteCol, siteRow] at hr
    grind
  | embankment =>
    simp only [entersAt] at he
    grind
  | side =>
    simp only [entersAt] at he
    grind

/-! ### Who sends next (13 R292) -/

theorem takeTurns_queues {α : Type} {weight cost : α → Nat} {fuel : Nat} {N M : Arbiter α} {i : Fin 7}
    (h : takeTurns weight cost fuel N = some (i, M)) : M.queues = N.queues := by
  induction fuel generalizing N with
  | zero => exact nomatch h
  | succ fuel ih =>
    have key : ∀ {N' : Arbiter α} {c : Nat}, N'.queues = N.queues → (if (c : Int) ≤ N'.deficit[N.turn] then some (N.turn, N')
        else takeTurns weight cost fuel { N' with turn := N.turn + 1, inTurn := false }) = some (i, M) → M.queues = N.queues := by
      intro N' c hN' h
      split at h
      · rw [← (Prod.mk.inj (Option.some.inj h)).2, hN']
      · exact (ih h).trans hN'
    unfold takeTurns at h
    dsimp only at h
    split at h
    · exact (ih h).trans rfl
    · split at h
      · exact key rfl h
      · refine key ?_ h
        rfl

theorem nextSender_queues {N M : OutNet} {i : Fin 7} (h : nextSender N = some (i, M)) : M.queues = N.queues := by
  unfold nextSender pickSender at h
  split at h
  · rw [(Prod.mk.inj (Option.some.inj h)).2]
  · split at h
    · exact nomatch h
    · exact takeTurns_queues h

/-! ### Outputs of routers -/

/-- An output of a router. -/
def State.out (s : State) (n : Site) (o : Port) : OutPort := s.routers[n].outs[Port.ix o]

theorem getElem_set_same {α : Type} {j : Nat} (v : Vector α j) (i : Fin j) (x : α) : (v.set i x)[i] = x :=
    Vector.getElem_set_self ..

theorem getElem_set_other {α : Type} {j : Nat} (v : Vector α j) {i i' : Fin j} (x : α) (h : i' ≠ i) : (v.set i x)[i'] = v[i'] :=
  Vector.getElem_set_ne i.isLt i'.isLt fun e => h (Fin.ext e.symm)

/-- The port at a place of the tie order. -/
def portAt (i : Fin 7) : Port :=
  if i = 0 then .north else if i = 1 then .east else if i = 2 then .south else if i = 3 then .west
  else if i = 4 then .here else if i = 5 then .embankment else .side

theorem ix_portAt : ∀ i : Fin 7, Port.ix (portAt i) = i := by decide

theorem portAt_ix (o : Port) : portAt (Port.ix o) = o := by cases o <;> rfl

theorem Port.ix_inj {o p : Port} (h : Port.ix o = Port.ix p) : o = p := by rw [← portAt_ix o, h, portAt_ix]

theorem State.onOut_same (s : State) (n : Site) (o : Port) (g : OutPort → OutPort) : (s.onOut n o g).out n o = g (s.out n o) := by
  unfold State.onOut State.out
  dsimp only
  rw [getElem_set_same, getElem_set_same]

theorem State.onOut_out (s : State) (n : Site) (g : OutPort → OutPort) {o p : Port} (h : p ≠ o) :
    (s.onOut n o g).out n p = s.out n p := by
  unfold State.onOut State.out
  dsimp only
  rw [getElem_set_same, getElem_set_other _ _ (fun e => h (Port.ix_inj e))]

theorem State.onOut_counts (s : State) (n : Site) (o : Port) (g : OutPort → OutPort) :
    (s.onOut n o g).routers[n].flits = s.routers[n].flits ∧ (s.onOut n o g).routers[n].promoted = s.routers[n].promoted := by
  unfold State.onOut
  dsimp only
  rw [getElem_set_same]
  exact ⟨rfl, rfl⟩

theorem State.onOut_site (s : State) (o : Port) (g : OutPort → OutPort) (h : m ≠ n) : (s.onOut n o g).routers[m] = s.routers[m] :=
  getElem_set_other _ _ h

/-! ### Packets that arrive -/

/-- A packet at the end of the queue of an output and an input. -/
def OutPort.joined (P : OutPort) (v : Net) (inp : Port) (k : FabPacket) (at_ : Nat) : OutPort :=
  { P with nets := P.nets.set (netIx v) (P.nets[netIx v].join (Port.ix inp) k at_) }

theorem OutPort.joined_queue (P : OutPort) (v : Net) (inp : Port) (k : FabPacket) (at_ : Nat) :
    ((P.joined v inp k at_).nets[netIx v]).queues[Port.ix inp] = (P.nets[netIx v]).queues[Port.ix inp] ++ [(k, at_, false)] := by
  unfold OutPort.joined Arbiter.join
  dsimp only
  rw [getElem_set_same, getElem_set_same]

/-- A packet as it enters: one from an agent stands for itself. -/
def asEntered (inp : Port) (k : FabPacket) : FabPacket := if injects inp then { k with srcs := 1 } else k

theorem State.packetArrives_eq {at_ : Nat} {inp q : Port} (hp : hasPort n inp = true) (he : entersAt n inp k.dest = true)
    (hr : route n k.dest = some q) :
    s.packetArrives n at_ inp k = s.onOut n q (fun P => P.joined k.kind.net inp (asEntered inp k) at_) := by
  rw [State.packetArrives, if_neg (by rw [hp, he]; decide), hr]
  dsimp only
  unfold asEntered
  split <;> rfl

/-- A packet that arrives joins one queue, or comes to nothing. -/
theorem State.packetArrives_cases (s : State) (n : Site) (at_ : Nat) (inp : Port) (k : FabPacket) : s.packetArrives n at_ inp k =
    s ∨
    ∃ q g, entersAt n inp k.dest = true ∧ route n k.dest = some q ∧ s.packetArrives n at_ inp k = s.onOut n q g := by
  by_cases hp : hasPort n inp = true
  · by_cases he : entersAt n inp k.dest = true
    · cases hr : route n k.dest with
      | none =>
        left
        rw [State.packetArrives, if_neg (by rw [hp, he]; decide), hr]
      | some q => exact .inr ⟨q, _, he, rfl, State.packetArrives_eq hp he hr⟩
    · exact .inl (if_pos (by rw [Bool.eq_false_iff.mpr he, Bool.not_false, Bool.or_true]))
  · exact .inl (if_pos (by rw [Bool.eq_false_iff.mpr hp]; rfl))

theorem State.packetArrives_site (s : State) (at_ : Nat) (inp : Port) (k : FabPacket) (h : m ≠ n) :
    (s.packetArrives n at_ inp k).routers[m] = s.routers[m] := by
  rcases s.packetArrives_cases n at_ inp k with e | ⟨q, g, -, -, e⟩
  · rw [e]
  · rw [e, State.onOut_site _ _ _ h]

theorem State.packetArrives_rest (s : State) (n : Site) (at_ : Nat) (inp : Port) (k : FabPacket) :
    ∃ routers, s.packetArrives n at_ inp k = { s with routers } := by
  rcases s.packetArrives_cases n at_ inp k with e | ⟨q, g, -, -, e⟩
  · exact ⟨_, e⟩
  · exact ⟨_, e⟩

theorem State.packetEnters_full {inp : Port} (hi : inp ≠ .here) (hf :
    64 < flitsFrom s.routers[n] inp k.kind.net + packetFlits k) :
    s.packetEnters n now inp k = s :=
  if_pos (by rw [decide_eq_true hf, bne_iff_ne.mpr hi]; simp)

theorem State.packetEnters_room {inp : Port} (hi : injects inp = true)
    (hf : inp = .here ∨ flitsFrom s.routers[n] inp k.kind.net + packetFlits k ≤ 64) :
    s.packetEnters n now inp k = s.packetArrives n now inp k := by
  refine if_neg ?_
  rw [hi]
  rcases hf with rfl | hf
  · simp
  · rw [decide_eq_false (Nat.not_lt.mpr hf)]
    simp

theorem State.packetEnters_cases (s : State) (n : Site) (at_ : Nat) (inp : Port) (k : FabPacket) : s.packetEnters n at_ inp k =
    s ∨
    injects inp = true ∧ s.packetEnters n at_ inp k = s.packetArrives n at_ inp k := by
  unfold State.packetEnters
  cases hi : injects inp with
  | false => exact .inl rfl
  | true =>
    split
    · exact .inl rfl
    · exact .inr ⟨rfl, rfl⟩

theorem State.packetEnters_rest (s : State) (n : Site) (at_ : Nat) (inp : Port) (k : FabPacket) :
    ∃ routers, s.packetEnters n at_ inp k = { s with routers } := by
  rcases s.packetEnters_cases n at_ inp k with e | ⟨-, e⟩
  · exact ⟨_, e⟩
  · rw [e]
    exact s.packetArrives_rest n at_ inp k

/-! ### Packets that leave -/

/-- What a packet that leaves by an output does not touch: the output but for what the embankment holds, the count of flits,
and the
other parts of the state. -/
structure Left (s r : State) (n : Site) (o : Port) : Prop where
  nets : (r.out n o).nets = (s.out n o).nets
  last : (r.out n o).last = (s.out n o).last
  wire : (r.out n o).wire = (s.out n o).wire
  flits : r.routers[n].flits = s.routers[n].flits
  mem : r.mem = s.mem
  polders : r.polders = s.polders
  reply : r.reply = s.reply

theorem Left.refl (s : State) (n : Site) (o : Port) : Left s s n o := ⟨rfl, rfl, rfl, rfl, rfl, rfl, rfl⟩

theorem Left.trans {r : State} (h1 : Left s t n o) (h2 : Left t r n o) : Left s r n o :=
  ⟨h2.nets.trans h1.nets, h2.last.trans h1.last, h2.wire.trans h1.wire, h2.flits.trans h1.flits, h2.mem.trans h1.mem,
    h2.polders.trans h1.polders, h2.reply.trans h1.reply⟩

theorem Left.of_site {routers} (h : routers[n] = s.routers[n]) : Left s { s with routers } n o := by
  have ho : State.out { s with routers } n o = s.out n o := congrArg (fun r : Router => r.outs[Port.ix o]) h
  exact ⟨congrArg OutPort.nets ho, congrArg OutPort.last ho, congrArg OutPort.wire ho, congrArg Router.flits h, rfl, rfl, rfl⟩

theorem Left.onOut_other (s : State) (n : Site) (g : OutPort →
    OutPort) {o q : Port} (h : o ≠ q) : Left s (s.onOut n q g) n o := by
  have ho := s.onOut_out n g h
  exact ⟨congrArg OutPort.nets ho, congrArg OutPort.last ho, congrArg OutPort.wire ho, (s.onOut_counts n q g).1, rfl, rfl, rfl⟩

/-- What an agent sends in does not touch the output by which the agent takes packets. -/
theorem Left.packetEnters (s : State) (n : Site) (at_ : Nat) (o : Port) (k : FabPacket) : Left s (s.packetEnters n at_ o k) n o :=
    by
  rcases s.packetEnters_cases n at_ o k with e | ⟨hi, e⟩
  · rw [e]
    exact .refl s n o
  · rw [e]
    rcases s.packetArrives_cases n at_ o k with e | ⟨q, g, he, hr, e⟩
    · rw [e]
      exact .refl s n o
    · rw [e]
      refine Left.onOut_other s n g fun h => route_enters hi he ?_
      rw [hr, h]

theorem Left.held (s : State) (n : Site) (o : Port) (f : OutPort → Vector Nat 2) :
    Left s (s.onOut n o (fun P => { P with held := f P })) n o := by
  have ho := s.onOut_same n o (fun P => { P with held := f P })
  refine ⟨?_, ?_, ?_, (s.onOut_counts n o _).1, rfl, rfl, rfl⟩
  · rw [ho]
  · rw [ho]
  · rw [ho]

/-- A packet hands itself over to the neighbour. -/
theorem State.packetLeaves_link {inp : Port} {at_ : Nat} (h : neighbour n o = some (m, inp)) : s.packetLeaves n o at_ k =
    ({ s with reply := .packet k } : State).packetArrives m (at_ + 3 + if crosses n m then 7 else 1) inp k := by
  rw [State.packetLeaves, h]

theorem State.packetLeaves_left (s : State) (n : Site) (o : Port) (at_ : Nat) (k : FabPacket) :
    Left { s with reply := .packet k } (s.packetLeaves n o at_ k) n o := by
  unfold State.packetLeaves
  dsimp only
  split
  · rename_i m inp h
    have hm := (neighbour_spec h).1
    generalize at_ + 3 + (if crosses n m then 7 else 1) = at'
    have hs := State.packetArrives_site { s with reply := .packet k } (n := m) (m := n) at' inp k hm.symm
    obtain ⟨routers, hr⟩ := State.packetArrives_rest { s with reply := .packet k } m at' inp k
    rw [hr] at hs ⊢
    exact Left.of_site hs
  · have hheld : Left { s with reply := .packet k } (if o = .here then { s with reply := .packet k }
        else ({ s with reply := .packet k } : State).onOut n o (fun P =>
          { P with held := P.held.set (netIx k.kind.net) (P.held[netIx k.kind.net] + packetFlits k) })) n o := by
      split
      · exact .refl _ n o
      · exact Left.held { s with reply := .packet k } n o
          (fun P => P.held.set (netIx k.kind.net) (P.held[netIx k.kind.net] + packetFlits k))
    split
    · exact hheld.trans (Left.packetEnters _ n _ o _)
    · exact hheld

/-- What a packet that leaves by an output keeps, and that it is answered. -/
theorem State.packetLeaves_spec (s : State) (n : Site) (o : Port) (at_ : Nat) (k : FabPacket) :
    (s.packetLeaves n o at_ k).reply = .packet k ∧ ((s.packetLeaves n o at_ k).out n o).nets = (s.out n o).nets ∧
    ((s.packetLeaves n o at_ k).out n o).last = (s.out n o).last ∧ ((s.packetLeaves n o at_ k).out n o).wire = (s.out n o).wire ∧
    (s.packetLeaves n o at_ k).routers[n].flits = s.routers[n].flits ∧ (s.packetLeaves n o at_ k).mem = s.mem ∧
    (s.packetLeaves n o at_ k).polders = s.polders := by
  obtain ⟨nets, last, wire, flits, mem, polders, reply⟩ := s.packetLeaves_left n o at_ k
  exact ⟨reply, nets, last, wire, flits, mem, polders⟩

theorem State.packetLeaves_queue {q inp : Port} {at_ : Nat} {v : Net} (h : neighbour n o = some (m, inp)) (hv : k.kind.net = v)
    (hr : route m k.dest = some q) : ((s.packetLeaves n o at_ k).out m q).nets[netIx v].queues[Port.ix inp] =
      ((s.out m q).nets[netIx v]).queues[Port.ix inp] ++ [(k, at_ + 3 + if crosses n m then 7 else 1, false)] := by
  subst hv
  obtain ⟨-, hp, hi⟩ := neighbour_spec h
  rw [State.packetLeaves_link h, State.packetArrives_eq hp (entersAt_link hi m _) hr, State.onOut_same, OutPort.joined_queue,
    asEntered,
    if_neg (by rw [hi]; decide)]
  rfl

/-! ### Links -/

/-- An output whose link has taken the head packet of an input. -/
def OutPort.loaded (P : OutPort) (now : Nat) (net : Net) (i : Fin 7) (M : OutNet) (k : FabPacket)
    (rest : List (FabPacket × Nat × Bool)) : OutPort :=
  { P with
    last := P.last.set i (some (k.srcs, now + 1024))
    nets := P.nets.set (netIx net) (M.sendHead i rest (packetCost k))
    wire := P.wire.set (netIx net) (some ({ k with srcs := sourcesOf (P.last.set i (some (k.srcs, now + 1024))) now }, i,
      packetFlits k)) }

theorem State.startPacket_none (h : nextSender (s.out n o).nets[netIx net] = none) : s.startPacket n o now net = s := by
  unfold State.startPacket
  dsimp only
  split
  · rfl
  · unfold State.out at h
    rw [h]

/-- A network whose turn picks the head packet of an input, on a free link. -/
structure Ready (s : State) (n : Site) (o : Port) (net : Net) (i : Fin 7) (M : OutNet) (k : FabPacket)
    (rest : List (FabPacket × Nat × Bool)) : Prop where
  free : (s.out n o).wire[netIx net] = none
  next : nextSender (s.out n o).nets[netIx net] = some (i, M)
  head : ∃ t b, M.queues[i] = (k, t, b) :: rest

theorem State.startPacket_full {i : Fin 7} {M : OutNet} {rest : List (FabPacket × Nat × Bool)} (h : Ready s n o net i M k rest)
    (hr : linkRoom s n o k = false) : s.startPacket n o now net = s := by
  obtain ⟨hfree, hnext, t, b, hq⟩ := h
  unfold State.out at hfree hnext
  unfold State.startPacket
  dsimp only
  rw [hfree, if_neg (by decide), hnext]
  dsimp only
  rw [hq]
  exact if_pos (by rw [hr]; rfl)

theorem State.startPacket_loads {i : Fin 7} {M : OutNet} {rest : List (FabPacket × Nat × Bool)} (h : Ready s n o net i M k rest)
    (hr : linkRoom s n o k = true) : s.startPacket n o now net = s.onOut n o (fun P => P.loaded now net i M k rest) := by
  obtain ⟨hfree, hnext, t, b, hq⟩ := h
  unfold State.out at hfree hnext
  unfold State.startPacket
  dsimp only
  rw [hfree, if_neg (by decide), hnext]
  dsimp only
  rw [hq]
  dsimp only
  rw [if_neg (by rw [hr]; decide)]
  rfl

theorem linkRoom_loaded (s : State) (n : Site) (o : Port) (x : FabPacket) {g : OutPort → OutPort} (hg : ∀ P,
    (g P).held = P.held) :
    linkRoom (s.onOut n o g) n o x = linkRoom s n o x := by
  unfold linkRoom
  split
  · rename_i m inp h
    rw [State.onOut_site s o g (neighbour_spec h).1]
  · have ho := congrArg OutPort.held (s.onOut_same n o g)
    rw [hg] at ho
    unfold State.out at ho
    rw [ho]

/-- The link after both networks had their turn. -/
def State.link (s : State) (n : Site) (o : Port) (now : Nat) : State :=
    (s.startPacket n o now .request).startPacket n o now .response

/-- The other network. -/
def otherNet (net : Net) : Net := if net = .request then .response else .request

theorem netIx_other (net : Net) : netIx (otherNet net) ≠ netIx net := by cases net <;> decide

theorem OutPort.loaded_other {P : OutPort} {i : Fin 7} {M : OutNet} {rest : List (FabPacket × Nat × Bool)} {v : Net} (h :
    netIx v ≠ netIx net) :
    (P.loaded now net i M k rest).nets[netIx v] = P.nets[netIx v] ∧
      (P.loaded now net i M k rest).wire[netIx v] = P.wire[netIx v] :=
  ⟨getElem_set_other _ _ h, getElem_set_other _ _ h⟩

theorem State.link_idle (h : nextSender (s.out n o).nets[netIx net] =
    none) (h' : nextSender (s.out n o).nets[netIx (otherNet net)] = none) :
    s.link n o now = s := by
  unfold State.link
  cases net with
  | request => rw [State.startPacket_none h, State.startPacket_none (net := .response) h']
  | response => rw [State.startPacket_none (net := .request) h', State.startPacket_none h]

section

variable {i : Fin 7} {M : OutNet} {rest : List (FabPacket × Nat × Bool)}

theorem State.link_full (h : Ready s n o net i M k rest) (h' : nextSender (s.out n o).nets[netIx (otherNet net)] = none)
    (hr : linkRoom s n o k = false) : s.link n o now = s := by
  unfold State.link
  cases net with
  | request => rw [State.startPacket_full h hr, State.startPacket_none (net := .response) h']
  | response => rw [State.startPacket_none (net := .request) h', State.startPacket_full h hr]

theorem State.link_one (h : Ready s n o net i M k rest) (h' : nextSender (s.out n o).nets[netIx (otherNet net)] = none)
    (hr : linkRoom s n o k = true) : s.link n o now = s.onOut n o (fun P => P.loaded now net i M k rest) := by
  unfold State.link
  cases net with
  | request =>
    rw [State.startPacket_loads h hr]
    refine State.startPacket_none ?_
    rw [State.onOut_same, (OutPort.loaded_other (v := .response) (netIx_other .request)).1]
    exact h'
  | response => rw [State.startPacket_none (net := .request) h', State.startPacket_loads h hr]

/-- What the link carries once both networks have loaded a packet. -/
structure Paired (s t : State) (n : Site) (o : Port) (net : Net) (k k' : FabPacket) (i j : Fin 7) : Prop where
  wire : ∃ x, (t.out n o).wire[netIx net] = some ({ k with srcs := x }, i, packetFlits k)
  other : ∃ x, (t.out n o).wire[netIx (otherNet net)] = some ({ k' with srcs := x }, j, packetFlits k')
  lastNet : (t.out n o).lastNet = (s.out n o).lastNet
  flits : t.routers[n].flits = s.routers[n].flits
  mem : t.mem = s.mem

theorem State.link_pair {k' : FabPacket} {j : Fin 7} {M' : OutNet} {rest' : List (FabPacket × Nat × Bool)}
    (h : Ready s n o .request i M k rest) (h' : Ready s n o .response j M' k' rest') (hr : linkRoom s n o k = true)
    (hr' : linkRoom s n o k' = true) : Paired s (s.link n o now) n o .request k k' i j := by
  have hne : netIx .response ≠ netIx .request := by decide
  have h2 : Ready (s.onOut n o (fun P => P.loaded now .request i M k rest)) n o .response j M' k' rest' := by
    obtain ⟨hfree, hnext, hhead⟩ := h'
    refine ⟨?_, ?_, hhead⟩
    · rw [State.onOut_same, (OutPort.loaded_other hne).2]
      exact hfree
    · rw [State.onOut_same, (OutPort.loaded_other hne).1]
      exact hnext
  have hroom := linkRoom_loaded s n o k' (g := fun P => P.loaded now .request i M k rest) fun _ => rfl
  unfold State.link
  rw [State.startPacket_loads h hr, State.startPacket_loads h2 (hroom.trans hr')]
  refine ⟨?_, ?_, ?_, ?_, rfl⟩
  · rw [State.onOut_same, (OutPort.loaded_other hne.symm).2, State.onOut_same]
    exact ⟨_, getElem_set_same _ _ _⟩
  · rw [State.onOut_same]
    exact ⟨_, getElem_set_same _ _ _⟩
  · rw [State.onOut_same, State.onOut_same]
    rfl
  · rw [(State.onOut_counts _ n o _).1, (State.onOut_counts _ n o _).1]

theorem State.link_both {k' : FabPacket} {j : Fin 7} {M' : OutNet} {rest' : List (FabPacket × Nat × Bool)}
    (h : Ready s n o net i M k rest) (h' : Ready s n o (otherNet net) j M' k' rest') (hr : linkRoom s n o k = true)
    (hr' : linkRoom s n o k' = true) : Paired s (s.link n o now) n o net k k' i j := by
  cases net with
  | request => exact State.link_pair h h' hr hr'
  | response =>
    obtain ⟨wire, other, lastNet, flits, mem⟩ := State.link_pair (now := now) h' h hr' hr
    exact ⟨other, wire, lastNet, flits, mem⟩

/-! ### Turns on the link (13 R292) -/

theorem linkTurns_none {P : OutPort} (h : ∀ v : Fin 2, P.wire[v] = none) : linkTurns P = none := by
  simp only [linkTurns, h, Option.map_none]

theorem linkTurns_one {P : OutPort} {v : Fin 2} {a : Nat} (hv : P.wire[v] = some (k, i, a)) (ho : ∀ w : Fin 2,
    w ≠ v → P.wire[w] = none) :
    linkTurns P = some (v, a, 0) := by
  have hcases : ∀ u v : Fin 2, (u = v ∧ u + 1 ≠ v) ∨ (u + 1 = v ∧ u ≠ v) := by decide
  unfold linkTurns
  dsimp only
  rcases hcases P.lastNet v with ⟨h1, h2⟩ | ⟨h1, h2⟩
  · rw [ho _ h2, h1, hv]
    rfl
  · rw [h1, hv, ho _ h2]
    rfl

theorem linkTurns_two {P : OutPort} {v w : Fin 2} {k' : FabPacket} {j : Fin 7} {a b : Nat} (hl : v = P.lastNet + 1) (hw : w =
    P.lastNet)
    (h : P.wire[v] = some (k, i, a)) (h' : P.wire[w] = some (k', j, b)) :
    linkTurns P = if a ≤ b then some (v, a, a - 1) else some (w, b, b) := by
  unfold linkTurns
  dsimp only
  rw [← hl, ← hw, h, h']
  rfl

/-- An output whose link has sent flits, one network's packet being through. -/
def OutPort.turned (P : OutPort) (j : Fin 2) (b : Nat) : OutPort :=
  { P with
    wire := (P.wire.map (fun x => x.map (fun (k, i, left) => (k, i, left - b)))).set j none
    lastNet := j }

/-- The state with flits of both networks gone, the packet of one of them through. -/
def State.through (s : State) (n : Site) (o : Port) (j : Fin 2) (a b : Nat) : State :=
  let s := s.onOut n o (fun P => P.turned j b)
  let r := s.routers[n]
  { s with routers := s.routers.set n { r with flits := r.flits + BitVec.ofNat 64 (a + b) } }

theorem State.through_mem (s : State) (n : Site) (o : Port) (j : Fin 2) (a b : Nat) : (s.through n o j a b).mem = s.mem := rfl

theorem State.through_spec (s : State) (n : Site) (o : Port) (j : Fin 2) (a b : Nat) :
    ((s.through n o j a b).out n o).nets = (s.out n o).nets ∧ ((s.through n o j a b).out n o).last = (s.out n o).last ∧
    (s.through n o j a b).routers[n].flits = s.routers[n].flits + BitVec.ofNat 64 (a + b) ∧
    (∀ v, v ≠ j → ((s.through n o j a b).out n o).wire[v] = ((s.out n o).wire[v]).map (fun x => (x.1, x.2.1, x.2.2 - b))) ∧
    (∀ m, m ≠ n → (s.through n o j a b).routers[m] = s.routers[m]) := by
  have ho : (s.through n o j a b).out n o = (s.onOut n o (fun P => P.turned j b)).out n o := by
    unfold State.through State.out
    dsimp only
    rw [getElem_set_same]
  rw [ho, State.onOut_same]
  refine ⟨rfl, rfl, ?_, fun v hv => ?_, fun m hm => ?_⟩
  · unfold State.through
    dsimp only
    rw [getElem_set_same, (s.onOut_counts n o _).1]
  · unfold OutPort.turned
    dsimp only
    rw [getElem_set_other _ _ hv]
    simp only [Fin.getElem_fin, Vector.getElem_map]
  · unfold State.through
    dsimp only
    rw [getElem_set_other _ _ hm, State.onOut_site _ _ _ hm]

theorem fabricPacketForward_quiet (hr : s.running = true) (hl : linkTurns ((s.link n o now).out n o) = none) :
    exec (.fabricPacketForward n o now [] (0, 0)) s = .next (s.link n o now) := by
  unfold State.link State.out at hl
  rw [exec_fabricPacketForward, execFabricPacketForward, whenRunning_on hr]
  dsimp only [List.foldl_nil]
  rw [if_pos rfl, hl]
  rfl

theorem fabricPacketForward_sends {j : Fin 2} {a b left : Nat} (hr : s.running = true)
    (hl : linkTurns ((s.link n o now).out n o) = some (j, a, b)) (hw : ((s.link n o now).out n o).wire[j] = some (k, i, left)) :
    exec (.fabricPacketForward n o now [] (0, 0)) s =
      .next (((s.link n o now).through n o j a b).packetLeaves n o (now + a + b - 1) k) := by
  unfold State.link State.out at hl hw
  rw [exec_fabricPacketForward, execFabricPacketForward, whenRunning_on hr]
  dsimp only [List.foldl_nil]
  rw [if_pos rfl, hl]
  dsimp only
  rw [hw]
  rfl

end

/-! ### The forwards -/

theorem packetFlits_pos (k : FabPacket) : 1 ≤ packetFlits k := Nat.le_max_left _ _

/-- The sources merged into the stream: those of the packet at its input,
and what the others' last packets stand for (13 R291). -/
theorem sourcesOf_set (last : Vector (Option (BitVec 6 × Nat)) 7) (i : Fin 7) (v : BitVec 6) (now : Nat) :
    (sourcesOf (last.set i (some (v, now + 1024))) now).toNat =
      min 63 (max 1 (((List.finRange 7).map (fun j => if j = i then v.toNat else liveSources now last[j])).sum)) := by
  rw [sourcesOf_toNat]
  refine congrArg (fun n => min 63 (max 1 n)) (congrArg List.sum (List.map_congr_left fun j _ => ?_))
  by_cases h : j = i
  · rw [h, getElem_set_same, if_pos rfl, liveSources, if_pos (by omega)]
  · rw [getElem_set_other _ _ h, if_neg h]

section

variable {i : Fin 7} {M : OutNet} {rest : List (FabPacket × Nat × Bool)}

/-- The packet as it goes onto the link. -/
def carried (P : OutPort) (now : Nat) (i : Fin 7) (k : FabPacket) : FabPacket :=
  { k with srcs := sourcesOf (P.last.set i (some (k.srcs, now + 1024))) now }

/-- The state after one packet has gone over the link. -/
def State.crossed (s : State) (n : Site) (o : Port) (now : Nat) (net : Net) (i : Fin 7) (M : OutNet) (k : FabPacket)
    (rest : List (FabPacket × Nat × Bool)) : State :=
  (s.onOut n o (fun P => P.loaded now net i M k rest)).through n o (netIx net) (packetFlits k) 0

theorem fabricPacketForward_one (hr : s.running = true) (hw : ∀ v : Fin 2,
    (s.out n o).wire[v] = none) (h : Ready s n o net i M k rest)
    (h' : nextSender (s.out n o).nets[netIx (otherNet net)] = none) (hroom : linkRoom s n o k = true) :
    exec (.fabricPacketForward n o now [] (0, 0)) s = .next ((s.crossed n o now net i M k rest).packetLeaves n o
      (now + packetFlits k - 1) (carried (s.out n o) now i k)) := by
  have hlink := State.link_one (now := now) h h' hroom
  have hout : (s.link n o now).out n o = (s.out n o).loaded now net i M k rest := by rw [hlink, State.onOut_same]
  have hwire : ((s.link n o now).out n o).wire[netIx net] = some (carried (s.out n o) now i k, i, packetFlits k) := by
    rw [hout]
    exact getElem_set_same _ _ _
  have hx := fabricPacketForward_sends hr (linkTurns_one hwire fun v hv => by
    rw [hout]
    exact (getElem_set_other _ _ hv).trans (hw v)) hwire
  rw [hlink] at hx
  exact hx

theorem State.crossed_spec (s : State) (n : Site) (o : Port) (now : Nat) (net : Net) (i : Fin 7) (M : OutNet) (k : FabPacket)
    (rest : List (FabPacket × Nat × Bool)) :
    (((s.crossed n o now net i M k rest).out n o).nets[netIx net]).queues[i] = rest ∧
    ((s.crossed n o now net i M k rest).out n o).last[i] = some (k.srcs, now + 1024) ∧
    (s.crossed n o now net i M k rest).routers[n].flits = s.routers[n].flits + BitVec.ofNat 64 (packetFlits k) ∧
    ∀ m, m ≠ n → (s.crossed n o now net i M k rest).routers[m] = s.routers[m] := by
  obtain ⟨hnets, hlast, hflits, -, hsites⟩ := (s.onOut n o (fun P => P.loaded now net i M k rest)).through_spec n o (netIx net)
    (packetFlits k) 0
  refine ⟨?_, ?_, ?_, fun m hm => (hsites m hm).trans (State.onOut_site _ _ _ hm)⟩
  · rw [State.crossed, hnets, State.onOut_same]
    unfold OutPort.loaded
    dsimp only
    rw [getElem_set_same, Arbiter.sendHead]
    exact getElem_set_same _ _ _
  · rw [State.crossed, hlast, State.onOut_same]
    exact getElem_set_same _ _ _
  · rw [State.crossed, hflits, (State.onOut_counts _ n o _).1, Nat.add_zero]

theorem forward_one_spec (s : State) (n : Site) (o : Port) (now : Nat) (net : Net) (i : Fin 7) (M : OutNet) (k x : FabPacket)
    (rest : List (FabPacket × Nat × Bool)) (hx : x = { k with srcs := x.srcs }) :
    let r := (s.crossed n o now net i M k rest).packetLeaves n o (now + packetFlits k - 1) x
    r.reply = .packet x ∧ r.routers[n].flits = s.routers[n].flits + BitVec.ofNat 64 (packetFlits k) ∧
    ((r.out n o).nets[netIx net]).queues[i] = rest ∧ (r.out n o).last[i] = some (k.srcs, now + 1024) ∧
    (∀ m inp q, neighbour n o = some (m, inp) → route m k.dest = some q →
      ((r.out m q).nets[netIx k.kind.net]).queues[Port.ix inp] = ((s.out m q).nets[netIx k.kind.net]).queues[Port.ix inp] ++
        [(x, now + packetFlits k - 1 + (3 + if crosses n m then 7 else 1), false)]) ∧ r.mem = s.mem ∧ r.polders = s.polders := by
  intro r
  obtain ⟨hq, hl, hf, hs⟩ := s.crossed_spec n o now net i M k rest
  obtain ⟨reply, nets, last, -, flits, mem, polders⟩ := (s.crossed n o now net i M k rest).packetLeaves_spec n o
    (now + packetFlits k - 1) x
  refine ⟨reply, flits.trans hf, ?_, ?_, fun m inp q hm hroute => ?_, mem, polders⟩
  · rw [nets]
    exact hq
  · rw [last]
    exact hl
  · have hkind : x.kind.net = k.kind.net := by rw [hx]
    have hdest : x.dest = k.dest := by rw [hx]
    have hqueue := (s.crossed n o now net i M k rest).packetLeaves_queue (k := x) (at_ := now + packetFlits k - 1) hm hkind
      (hdest ▸ hroute)
    have hout : (s.crossed n o now net i M k rest).out m q = s.out m q :=
      congrArg (fun r : Router => r.outs[Port.ix q]) (hs m (neighbour_spec hm).1)
    rw [hout, Nat.add_assoc] at hqueue
    exact hqueue

end

/-- Two packets on a link: the one with fewer flits is through, and the other has so many the less to send. -/
theorem fabricPacketForward_two {k' : FabPacket} {i j : Fin 7} (hr : s.running = true)
    (hp : Paired s (s.link n o now) n o net k k' i j) (hnet : netIx net = (s.out n o).lastNet + 1) :
    ∃ r x, exec (.fabricPacketForward n o now [] (0, 0)) s = .next r ∧ r.reply = .packet x ∧ r.mem = s.mem ∧
      (packetFlits k ≤ packetFlits k' → x = { k with srcs := x.srcs } ∧
        r.routers[n].flits = s.routers[n].flits + BitVec.ofNat 64 (2 * packetFlits k - 1) ∧
        ((r.out n o).wire[netIx (otherNet net)]).map (fun y => (y.2.1, y.2.2)) = some (j, packetFlits k' - (packetFlits k - 1))) ∧
      (packetFlits k' < packetFlits k → x = { k' with srcs := x.srcs } ∧
        r.routers[n].flits = s.routers[n].flits + BitVec.ofNat 64 (2 * packetFlits k') ∧
        ((r.out n o).wire[netIx net]).map (fun y => (y.2.1, y.2.2)) = some (i, packetFlits k - packetFlits k')) := by
  obtain ⟨⟨x, hw⟩, ⟨y, hw'⟩, hlast, hflits, hmem⟩ := hp
  have hcases : ∀ u v w : Fin 2, v = u + 1 → w ≠ v → w = u := by decide
  have hother : netIx (otherNet net) = ((s.link n o now).out n o).lastNet := by
    rw [hlast]
    exact hcases _ _ _ hnet (netIx_other net)
  have hturns := linkTurns_two (hnet.trans (congrArg (· + 1) hlast.symm)) hother hw hw'
  have hpos := packetFlits_pos k
  by_cases hle : packetFlits k ≤ packetFlits k'
  · rw [if_pos hle] at hturns
    obtain ⟨-, -, hf, hwires, -⟩ := (s.link n o now).through_spec n o (netIx net) (packetFlits k) (packetFlits k - 1)
    obtain ⟨reply, -, -, wire, flits, mem, -⟩ := ((s.link n o now).through n o (netIx net) (packetFlits k) (packetFlits k -
      1)).packetLeaves_spec
      n o (now + packetFlits k + (packetFlits k - 1) - 1) { k with srcs := x }
    refine ⟨_, _, fabricPacketForward_sends hr hturns hw, reply, ?_, fun _ => ⟨rfl, ?_, ?_⟩, fun h => absurd h (by omega)⟩
    · rw [mem, State.through_mem, hmem]
    · rw [flits]
      refine hf.trans ?_
      rw [hflits, show packetFlits k + (packetFlits k - 1) = 2 * packetFlits k - 1 by omega]
    · rw [wire]
      exact (congrArg (Option.map _) (hwires _ (netIx_other net))).trans (by rw [hw']; rfl)
  · rw [if_neg hle] at hturns
    obtain ⟨-, -, hf, hwires, -⟩ := (s.link n o now).through_spec n o (netIx (otherNet net)) (packetFlits k') (packetFlits k')
    obtain ⟨reply, -, -, wire, flits, mem, -⟩ := ((s.link n o now).through n o (netIx (otherNet net)) (packetFlits k')
      (packetFlits k')).packetLeaves_spec n o (now + packetFlits k' + packetFlits k' - 1) { k' with srcs := y }
    refine ⟨_, _, fabricPacketForward_sends hr hturns hw', reply, ?_, fun h => absurd h hle, fun _ => ⟨rfl, ?_, ?_⟩⟩
    · rw [mem, State.through_mem, hmem]
    · rw [flits]
      refine hf.trans ?_
      rw [hflits, Nat.two_mul]
    · rw [wire]
      exact (congrArg (Option.map _) (hwires _ (netIx_other net).symm)).trans (by rw [hw]; rfl)

/-! ### Promotion and activity -/

theorem packetPromotion_early {inp : Port} {t : Nat} {rest : List (FabPacket × Nat × Bool)} (hr : s.running = true)
    (h : (s.out n o).nets[netIx net].queues[Port.ix inp] = (k, t, false) :: rest) (hn : now ≤ t + 512) :
    exec (.packetPromotion n o net inp now) s = .next s := by
  unfold State.out at h
  rw [exec_packetPromotion, execPacketPromotion, whenRunning_on hr, h]
  exact if_pos hn

theorem packetPromotion_late {inp : Port} {t : Nat} {rest : List (FabPacket × Nat × Bool)} (hr : s.running = true)
    (h : (s.out n o).nets[netIx net].queues[Port.ix inp] = (k, t, false) :: rest) (hn : t + 512 < now) :
    ∃ r, exec (.packetPromotion n o net inp now) s = .next r ∧
      ((r.out n o).nets[netIx net]).queues[Port.ix inp] = (k, t, true) :: rest ∧
      r.routers[n].promoted = s.routers[n].promoted + 1 ∧ r.routers[n].flits = s.routers[n].flits ∧
      ∀ m, m ≠ n → r.routers[m] = s.routers[m] := by
  unfold State.out at h
  rw [exec_packetPromotion, execPacketPromotion, whenRunning_on hr, h]
  dsimp only
  rw [if_neg (by omega)]
  refine ⟨_, rfl, ?_⟩
  unfold State.onNet State.onOut State.out
  dsimp only
  rw [getElem_set_same, getElem_set_same]
  dsimp only
  rw [getElem_set_same]
  dsimp only
  rw [getElem_set_same]
  dsimp only
  rw [getElem_set_same]
  exact ⟨rfl, rfl, rfl, fun m hm => by rw [getElem_set_other _ _ hm, getElem_set_other _ _ hm]⟩

theorem activityTimerExpire_early {inp : Port} {v : BitVec 6} {t : Nat} (hr : s.running = true)
    (h : (s.out n o).last[Port.ix inp] = some (v, t)) (hn : now < t) : exec (.activityTimerExpire n inp o now) s = .next s := by
  unfold State.out at h
  rw [exec_activityTimerExpire, execActivityTimerExpire, whenRunning_on hr]
  dsimp only
  rw [h]
  exact if_pos hn

theorem activityTimerExpire_due {inp : Port} {v : BitVec 6} {t : Nat} (hr : s.running = true)
    (h : (s.out n o).last[Port.ix inp] = some (v, t)) (hn : t ≤ now) : exec (.activityTimerExpire n inp o now) s =
      .next (s.onOut n o (fun P => { P with last := P.last.set (Port.ix inp) none })) := by
  unfold State.out at h
  rw [exec_activityTimerExpire, execActivityTimerExpire, whenRunning_on hr]
  dsimp only
  rw [h]
  dsimp only
  rw [if_neg (by omega)]
  rfl

theorem fabricPacketForward_enters {inp : Port} {xs : List (Port × FabPacket)} {taken : Nat × Nat} (hr : s.running = true) :
    exec (.fabricPacketForward n o now ((inp, k) :: xs) taken) s = exec (.fabricPacketForward n o now xs taken)
      (s.packetEnters n now inp k) := by
  have hr' : (s.packetEnters n now inp k).running = true := by
    obtain ⟨routers, h⟩ := s.packetEnters_rest n now inp k
    rw [h]
    exact hr
  rw [exec_fabricPacketForward, exec_fabricPacketForward, execFabricPacketForward, execFabricPacketForward, whenRunning_on hr,
    whenRunning_on hr', List.foldl_cons]

/-! ### The mesh -/

theorem free_link {P : OutPort} (h : P.wire[netIx net] = none ∧ P.wire[netIx (otherNet net)] = none) : ∀ v : Fin 2,
    P.wire[v] = none := by
  have hv : ∀ u w v : Fin 2, u ≠ w → v = w ∨ v = u := by decide
  intro v
  rcases hv _ _ v (netIx_other net) with rfl | rfl
  · exact h.1
  · exact h.2

theorem fabric_off (hr : s.running = false) {inp : Port} {xs : List (Port × FabPacket)} {taken : Nat × Nat} {c : Instr}
    (hc : c = .fabricPacketForward n o now xs taken ∨ c = .packetPromotion n o net inp now ∨ c =
      .activityTimerExpire n inp o now) :
    exec c s = .next s := by
  rcases hc with rfl | rfl | rfl
  · rw [exec_fabricPacketForward, execFabricPacketForward, whenRunning_off hr]
  · rw [exec_packetPromotion, execPacketPromotion, whenRunning_off hr]
  · rw [exec_activityTimerExpire, execActivityTimerExpire, whenRunning_off hr]

theorem State.packetEnters_joins {inp q : Port} (hi : injects inp = true) (hp : hasPort n inp =
    true) (he : entersAt n inp k.dest = true)
    (hr : route n k.dest = some q) (hf : inp = .here ∨ flitsFrom s.routers[n] inp k.kind.net + packetFlits k ≤ 64) :
    (((s.packetEnters n now inp k).out n q).nets[netIx k.kind.net]).queues[Port.ix inp] =
      ((s.out n q).nets[netIx k.kind.net]).queues[Port.ix inp] ++ [({ k with srcs := 1 }, now, false)] := by
  rw [State.packetEnters_room hi hf, State.packetArrives_eq hp he hr, State.onOut_same, OutPort.joined_queue, asEntered,
    if_pos hi]

/-- Settles O37: packets enter, cross and leave as above, and a route goes the way that shortens the distance. -/
theorem fabricForwarding : Obligations.FabricForwarding := by
  refine ⟨fun s n o inp net now xs taken hr c hc => fabric_off hr hc, fun s n o net now hr => ⟨fun inp k rest taken =>
    ⟨fabricPacketForward_enters hr, fun q hi hp he hq hf => State.packetEnters_joins hi hp he hq hf, State.packetEnters_full⟩,
    fun i M k t b rest hidle hnext hq hother => ?_,
    fun i M k t b rest j M' k' t' b' rest' hidle hnet hnext hq hnext' hq' hroom hroom' => ?_, fun hidle hnext hother => ?_,
    fun inp k t rest hq => ⟨packetPromotion_early hr hq, packetPromotion_late hr hq⟩,
    fun inp v t hl => ⟨activityTimerExpire_early hr hl, fun hn => ?_⟩⟩, fun n d => ?_⟩
  · have hready : Ready s n o net i M k rest := ⟨hidle.1, hnext, t, b, by rw [nextSender_queues hnext]; exact hq⟩
    have hfree := free_link (P := s.out n o) hidle
    refine ⟨fun hroom => ?_, fun hroom => ?_⟩
    · have hlink := State.link_full (now := now) hready hother hroom
      have hturns := linkTurns_none hfree
      rw [← hlink] at hturns
      exact (fabricPacketForward_quiet hr hturns).trans (congrArg Host.Outcome.next hlink)
    · obtain ⟨hrep, hflits, hqueue, hlast, hjoin, hmem, hpol⟩ :=
        forward_one_spec s n o now net i M k (carried (s.out n o) now i k) rest rfl
      have hix : ∀ Q : Vector (List (FabPacket × Nat × Bool)) 7, Q[Port.ix (portAt i)] = Q[i] := fun Q => by simp only [ix_portAt]
      exact ⟨_, _, fabricPacketForward_one hr hfree hready hother hroom, hrep, rfl, sourcesOf_set _ _ _ _, hflits,
        (hix _).trans hqueue, hlast, hjoin, hmem, hpol⟩
  · have h : Ready s n o net i M k rest := ⟨hidle.1, hnext, t, b, by rw [nextSender_queues hnext]; exact hq⟩
    have h' : Ready s n o (otherNet net) j M' k' rest' := ⟨hidle.2, hnext', t', b', by rw [nextSender_queues hnext']; exact hq'⟩
    exact fabricPacketForward_two hr (State.link_both h h' hroom hroom') hnet
  · have hlink := State.link_idle (now := now) (net := net) hnext hother
    have hturns := linkTurns_none (free_link (P := s.out n o) hidle)
    rw [← hlink] at hturns
    exact (fabricPacketForward_quiet hr hturns).trans (congrArg Host.Outcome.next hlink)
  · refine ⟨_, activityTimerExpire_due hr hl hn, fun j => ?_, ?_, fun m hm => State.onOut_site _ _ _ hm⟩
    · refine (congrArg (fun P : OutPort => P.last[j]) (s.onOut_same n o _)).trans ?_
      by_cases h : j = Port.ix inp
      · rw [if_pos h, h]
        exact getElem_set_same _ _ _
      · rw [if_neg h]
        exact getElem_set_other _ _ h
    · refine (congrArg OutPort.nets (s.onOut_same n o _)).trans ?_
      rfl
  · split
    · rename_i h
      rw [h]
      exact route_same d
    · rename_i h
      obtain ⟨o, hroute, hdir⟩ := route_other h
      obtain ⟨m, inp, hm, hnear⟩ := neighbour_nearer hdir
      exact ⟨o, m, inp, hroute, hm, (neighbour_spec hm).2.1, hnear⟩

end Sys2Proof.Machine
end
section
/-! PROOFS. The memory-side caches (13 R294-R298, R306). -/

namespace Sys2Proof.Machine

variable {s : State} {c : Msc} {x y : MscAcc} {k : Fin 4} {n : Fin 16} {B w sector : Nat} {d : Bool} {v : U64}
  {a : Nat}

theorem State.onMsc_same (s : State) (k : Fin 4) (g : Msc → Msc) : (s.onMsc k g).msc[k] = g s.msc[k] := getElem_set_same ..

theorem State.onMsc_other (s : State) (g : Msc → Msc) {j : Fin 4} (h : j ≠ k) : (s.onMsc k g).msc[j] = s.msc[j] :=
  getElem_set_other _ _ h

/-! ### Ways and sectors (13 R295) -/

theorem Msc.way_setWay_same (c : Msc) (set w : Nat) (x : MscWay) : (c.setWay set w x).way set w = x := sget_sput_self ..

theorem Msc.way_setWay_other (c : Msc) (set : Nat) (x : MscWay) {j w : Nat} (h : j ≠ w) :
    (c.setWay set w x).way set j = c.way set j :=
  sget_sput_ne _ _ _ (by omega)

/-- Whether a way of a block's set holds the block. -/
def Msc.holds (c : Msc) (B w : Nat) : Bool := (c.way (cacheSet B) w).valid != 0 && (c.way (cacheSet B) w).block == B

theorem Msc.find_some : c.find B = some w ↔ c.holds B w = true ∧ w < 16 ∧ ∀ j < w, c.holds B j = false := by
  unfold Msc.find
  rw [List.find?_range_eq_some]
  simp only [Bool.not_eq_true', List.mem_range]
  exact Iff.rfl

theorem Msc.find_none : c.find B = none ↔ ∀ j < 16, c.holds B j = false := by
  unfold Msc.find
  rw [List.find?_range_eq_none]
  simp only [Bool.not_eq_true']
  exact Iff.rfl

theorem Msc.find_block (h : c.find B = some w) : (c.way (cacheSet B) w).block = B := by
  have hw := (Msc.find_some.mp h).1
  simp only [Msc.holds, Bool.and_eq_true, beq_iff_eq] at hw
  exact hw.2

theorem bit_set (x : U32) (h : sector < 32) : (x ||| 1#32 <<< sector).getLsbD sector = true := by
  simp [h]

theorem Msc.touch_way (c : Msc) (B w sector : Nat) (d : Bool) : (c.touch B w sector d).way (cacheSet B) w =
    { c.way (cacheSet B) w with
      valid := (c.way (cacheSet B) w).valid ||| 1#32 <<< sector
      dirty := if d then (c.way (cacheSet B) w).dirty ||| 1#32 <<< sector else (c.way (cacheSet B) w).dirty } :=
  Msc.way_setWay_same ..

theorem Msc.touch_holds_other (c : Msc) (B sector : Nat) (d : Bool) {j w : Nat} (h : j ≠ w) :
    (c.touch B w sector d).holds B j = c.holds B j := by
  have hway : (c.touch B w sector d).way (cacheSet B) j = c.way (cacheSet B) j := Msc.way_setWay_other c (cacheSet B) _ h
  rw [Msc.holds, hway, Msc.holds]

theorem Msc.touch_holds (d : Bool) (hs : sector < 32) (hb : (c.way (cacheSet B) w).block = B) :
    (c.touch B w sector d).holds B w = true := by
  have hbit := bit_set (c.way (cacheSet B) w).valid hs
  have hne : (c.way (cacheSet B) w).valid ||| 1#32 <<< sector ≠ 0 := fun e => by
    rw [e] at hbit
    exact absurd hbit (by simp)
  rw [Msc.holds, Msc.touch_way]
  simp only [hb, beq_self_eq_true, Bool.and_true, bne_iff_ne]
  exact hne

/-- A way that no other holds the block beside is the one that holds it once it is used. -/
theorem Msc.touch_find (d : Bool) (hs : sector < 32) (hw : w < 16) (hb : (c.way (cacheSet B) w).block = B)
    (hf : ∀ j < w, c.holds B j = false) : (c.touch B w sector d).find B = some w :=
  Msc.find_some.mpr ⟨Msc.touch_holds d hs hb, hw, fun j hj => (Msc.touch_holds_other c B sector d (by omega)).trans (hf j hj)⟩

/-- A sector of a block that a mask of its way has. -/
def Msc.hasSector (c : Msc) (B sector : Nat) (f : MscWay → U32) : Prop :=
  ∃ w, c.find B = some w ∧ (f (c.way (cacheSet B) w)).getLsbD sector = true

theorem Msc.hasSector_iff (h : c.find B = some w) (f : MscWay → U32) :
    c.hasSector B sector f ↔ (f (c.way (cacheSet B) w)).getLsbD sector = true := by
  constructor
  · rintro ⟨w', hw', hbit⟩
    rw [h] at hw'
    rwa [Option.some.inj hw']
  · exact fun hbit => ⟨w, h, hbit⟩

/-- A used way holds its sector, dirty where it is written. -/
theorem Msc.touch_hasSector (d : Bool) (hs : sector < 32) (hw : w < 16) (hb : (c.way (cacheSet B) w).block = B)
    (hf : ∀ j < w, c.holds B j = false) : (c.touch B w sector d).hasSector B sector (·.valid) ∧
      ((c.touch B w sector d).hasSector B sector (·.dirty) ↔
        d = true ∨ (c.way (cacheSet B) w).dirty.getLsbD sector = true) := by
  have hfind := Msc.touch_find d hs hw hb hf
  rw [Msc.hasSector_iff hfind, Msc.hasSector_iff hfind, Msc.touch_way]
  refine ⟨bit_set _ hs, ?_⟩
  cases d with
  | false => simp
  | true => simp [hs]

/-! ### Allocation (13 R295) -/

theorem plruPick_lt (t : BitVec 15) (ok : Nat → Bool) : plruPick t ok < 16 := by
  have step : ∀ (lead want b : Nat) (q : Bool), (want = 2 * lead ∨ want = 2 * lead + 1) → lead < b →
      (if q then want else 2 * lead + (1 - want % 2)) < 2 * b := by
    intro lead want b q hwant hlead
    split
    · omega
    · omega
  have side : ∀ (lead : Nat) (q : Bool), (2 * lead + (if q then 1 else 0) = 2 * lead ∨
      2 * lead + (if q then 1 else 0) = 2 * lead + 1) := by
    intro lead q
    cases q with
    | false => exact .inl rfl
    | true => exact .inr rfl
  unfold plruPick
  simp only [show List.range 4 = [0, 1, 2, 3] from rfl, List.foldl_cons, List.foldl_nil]
  exact step _ _ 8 _ (side _ _) (step _ _ 4 _ (side _ _) (step _ _ 2 _ (side _ _) (step _ _ 1 _ (side _ _) Nat.one_pos)))

theorem Msc.victim_lt (c : Msc) (set : Nat) : c.victim set < 16 := by
  unfold Msc.victim
  split
  · rename_i w h
    exact List.mem_range.mp (List.mem_of_find?_eq_some h)
  · exact plruPick_lt _ _

/-- The victim becomes an empty way of the block; its set keeps the other ways. -/
theorem Msc.allocate_spec (c : Msc) (B : Nat) : ∃ p, (c.allocate B).2 = c.victim (cacheSet B) ∧
    (c.allocate B).1.way (cacheSet B) (c.victim (cacheSet B)) = { block := B, pinned := p } ∧
    (∀ j, j ≠ c.victim (cacheSet B) → (c.allocate B).1.way (cacheSet B) j = c.way (cacheSet B) j) ∧
    (c.allocate B).1.hits = c.hits ∧ (c.allocate B).1.misses = c.misses := by
  unfold Msc.allocate
  dsimp only
  refine ⟨_, rfl, Msc.way_setWay_same .., ?_⟩
  split
  · exact ⟨fun j hj => Msc.way_setWay_other _ _ _ hj, rfl, rfl⟩
  · exact ⟨fun j hj => Msc.way_setWay_other _ _ _ hj, rfl, rfl⟩

/-- A cache that has served a miss. -/
def Msc.filled (c : Msc) (B sector : Nat) (d : Bool) : Msc :=
  match c.find B with
  | some w => c.touch B w sector d
  | none => if c.policy B = 2 then c else (c.allocate B).1.touch B (c.allocate B).2 sector d

theorem Msc.filled_held (h : c.find B = some w) : c.filled B sector d = c.touch B w sector d := by rw [Msc.filled, h]

theorem Msc.filled_through (h : c.find B = none) (hp : c.policy B = 2) : c.filled B sector d = c := by
  rw [Msc.filled, h]
  exact if_pos hp

theorem Msc.filled_allocates (h : c.find B = none) (hp : c.policy B ≠ 2) :
    c.filled B sector d = (c.allocate B).1.touch B (c.allocate B).2 sector d := by
  rw [Msc.filled, h]
  exact if_neg hp

theorem Msc.filled_counts (c : Msc) (B sector : Nat) (d : Bool) :
    (c.filled B sector d).hits = c.hits ∧ (c.filled B sector d).misses = c.misses := by
  obtain ⟨p, -, -, -, hhits, hmisses⟩ := Msc.allocate_spec c B
  cases hf : c.find B with
  | some w =>
    rw [Msc.filled_held hf]
    exact ⟨rfl, rfl⟩
  | none =>
    by_cases hp : c.policy B = 2
    · rw [Msc.filled_through hf hp]
      exact ⟨rfl, rfl⟩
    · rw [Msc.filled_allocates hf hp]
      exact ⟨hhits, hmisses⟩

/-- A miss of a block that is held or may be allocated leaves its sector. -/
theorem Msc.filled_hasSector (d : Bool) (hs : sector < 32) (h : (c.find B).isSome = true ∨ c.policy B ≠ 2) :
    (c.filled B sector d).hasSector B sector (·.valid) ∧ (d = true → (c.filled B sector d).hasSector B sector (·.dirty)) := by
  cases hf : c.find B with
  | some w =>
    obtain ⟨-, hw, hless⟩ := Msc.find_some.mp hf
    obtain ⟨hvalid, hdirty⟩ := Msc.touch_hasSector d hs hw (Msc.find_block hf) hless
    rw [Msc.filled_held hf]
    exact ⟨hvalid, fun hd => hdirty.mpr (.inl hd)⟩
  | none =>
    rw [hf] at h
    have hp : c.policy B ≠ 2 := h.resolve_left (by decide)
    obtain ⟨p, hvictim, hway, hother, -, -⟩ := Msc.allocate_spec c B
    have hless : ∀ j < (c.allocate B).2, (c.allocate B).1.holds B j = false := by
      intro j hj
      have hlt := Msc.victim_lt c (cacheSet B)
      rw [hvictim] at hj
      rw [Msc.holds, hother j (by omega)]
      exact Msc.find_none.mp hf j (by omega)
    obtain ⟨hvalid, hdirty⟩ := Msc.touch_hasSector (c := (c.allocate B).1) (B := B) d hs
      (hvictim ▸ Msc.victim_lt c (cacheSet B)) (by rw [hvictim, hway]) hless
    rw [Msc.filled_allocates hf hp]
    exact ⟨hvalid, fun hd => hdirty.mpr (.inl hd)⟩

/-! ### One access (13 R295, R297, R306) -/

/-- The home cache of an address. -/
def homeCache (a : Nat) : Fin 4 := Fin.ofNat 4 ((locate a).1.val / 2)

/-- Whether a cache holds the sector of an address. -/
def Msc.hasLine (c : Msc) (a : Nat) : Prop := c.hasSector (a / 2048) (a / 64 % 32) (·.valid)

theorem State.mscServe_hit (ha : x.addr.toNat < 2 ^ 39) (hf : s.msc[homeCache x.addr.toNat].find (x.addr.toNat / 2048) = some w)
    (hv : (s.msc[homeCache x.addr.toNat].way (cacheSet (x.addr.toNat / 2048)) w).valid.getLsbD (x.addr.toNat / 64 % 32) = true) :
    s.mscServe x = some (s.onMsc (homeCache x.addr.toNat) (fun c =>
      { c.touch (x.addr.toNat / 2048) w (x.addr.toNat / 64 % 32) (decide (x.kind ≠ .read)) with hits := c.hits + 1 })) := by
  unfold State.mscServe
  dsimp only
  rw [if_neg (by omega)]
  unfold homeCache at hf hv
  rw [hf]
  exact if_pos hv

/-- The test of `State.mscServe` for a hit, when the line is absent. -/
theorem Msc.hit_absent (h : ¬ c.hasLine a) : ¬ (match c.find (a / 2048) with
    | some w => (c.way (cacheSet (a / 2048)) w).valid.getLsbD (a / 64 % 32)
    | none => false) = true := by
  split
  · rename_i w hf
    exact fun hv => h ⟨w, hf, hv⟩
  · decide

theorem State.mscServe_waits (ha : x.addr.toNat < 2 ^ 39) (hm : ¬ s.msc[homeCache x.addr.toNat].hasLine x.addr.toNat)
    (hw : missWaits s s.msc[homeCache x.addr.toNat] x.addr.toNat x.kind = true) : s.mscServe x = none := by
  unfold State.mscServe
  dsimp only
  rw [if_neg (by omega), if_neg]
  · exact if_pos hw
  · exact Msc.hit_absent hm

theorem State.readLine_plain {m : Fin 8} (l : Loc) (hf : s.mc[m].failed = []) : s.readLine m l {} = (s.rowOpen m l {}, true) := by
  rw [State.readLine_eq hf, lineEcc_clean rfl]

theorem State.rowOpen_mc (s : State) (m : Fin 8) (l : Loc) (j : Fin 8) :
    (s.rowOpen m l {}).mc[j] = { s.mc[j] with rows := (s.rowOpen m l {}).mc[j].rows } := by
  unfold State.rowOpen
  by_cases h : j = m
  · subst h
    rw [State.onMc_same]
    simp [Mc.open_]
  · rw [State.onMc_other s _ h]

/-- A miss counted. -/
def Msc.missed (c : Msc) : Msc := { c with misses := c.misses + 1 }

/-- The state after the line of a miss has come. -/
structure Fetched (s u : State) (k : Fin 4) : Prop where
  msc : u.msc = s.msc.set k s.msc[k].missed
  mem : u.mem = s.mem
  mc : ∀ j : Fin 8, u.mc[j] = { s.mc[j] with rows := u.mc[j].rows }

theorem State.fetches (s : State) (k : Fin 4) {m : Fin 8} (l : Loc) {e : LineErrs} {fetch : Bool}
    (h : fetch = true → e = {} ∧ s.mc[m].failed = []) :
    ∃ u, (if fetch = true then (s.onMsc k Msc.missed).readLine m l e
      else (s.onMsc k Msc.missed, true)) = (u, true) ∧ Fetched s u k := by
  cases fetch with
  | false => exact ⟨_, rfl, rfl, rfl, fun _ => rfl⟩
  | true =>
    obtain ⟨he, hf⟩ := h rfl
    subst he
    exact ⟨_, State.readLine_plain (s := s.onMsc k Msc.missed) l hf, rfl, rfl, State.rowOpen_mc _ m l⟩

/-- A miss that does not wait: the counted cache has served it. -/
theorem State.mscServe_miss (ha : x.addr.toNat < 2 ^ 39) (hm : ¬ s.msc[homeCache x.addr.toNat].hasLine x.addr.toNat)
    (hw : missWaits s s.msc[homeCache x.addr.toNat] x.addr.toNat x.kind = false)
    (hr : x.kind ≠ .writeWhole → x.errs = {} ∧ s.mc[(locate x.addr.toNat).1].failed = []) :
    ∃ r, s.mscServe x = some r ∧ r.msc = s.msc.set (homeCache x.addr.toNat)
        (s.msc[homeCache x.addr.toNat].missed.filled (x.addr.toNat / 2048) (x.addr.toNat / 64 % 32)
          (decide (x.kind ≠ .read))) ∧
      r.mem = s.mem ∧ ∀ j : Fin 8, r.mc[j] = { s.mc[j] with rows := r.mc[j].rows } := by
  obtain ⟨u, hu, hmsc, hmem, hmc⟩ := State.fetches s (homeCache x.addr.toNat) (m := (locate x.addr.toNat).1)
    (locate x.addr.toNat).2 (e := x.errs) (fetch := decide (x.kind ≠ .writeWhole)) (fun h => hr (of_decide_eq_true h))
  have hserved : ∀ g : Msc → Msc, (u.onMsc (homeCache x.addr.toNat) g).msc = s.msc.set (homeCache x.addr.toNat)
      (g s.msc[homeCache x.addr.toNat].missed) := by
    intro g
    unfold State.onMsc
    dsimp only
    rw [hmsc, getElem_set_same, Vector.set_set]
  unfold State.mscServe
  dsimp only
  rw [if_neg (by omega), if_neg]
  case hnc => exact Msc.hit_absent hm
  rw [if_neg]
  case hnc => exact Bool.eq_false_iff.mp hw
  delta homeCache Msc.missed at hu
  rw [hu]
  dsimp only
  rw [if_neg (by decide)]
  cases hf : s.msc[homeCache x.addr.toNat].find (x.addr.toNat / 2048) with
  | some w =>
    unfold homeCache at hf
    rw [hf]
    refine ⟨_, rfl, (hserved _).trans ?_, hmem, hmc⟩
    rw [Msc.filled_held]
    exact hf
  | none =>
    unfold homeCache at hf
    rw [hf]
    dsimp only
    split
    · rename_i hp
      refine ⟨_, rfl, hmsc.trans ?_, hmem, hmc⟩
      rw [Msc.filled_through]
      · exact hf
      · exact hp
    · rename_i hp
      refine ⟨_, rfl, (hserved _).trans ?_, hmem, hmc⟩
      rw [Msc.filled_allocates]
      · exact hf
      · exact hp

/-! ### The accesses of a cycle (13 R296, R306) -/

theorem execMscAccess_one (hr : s.running = true) (x : MscAcc) :
    exec (.mscAccess x.addr x.kind ⟨x.site, x.errs, []⟩) s = .next ((s.mscServe x).getD s) := by
  rw [exec_mscAccess, execMscAccess, whenRunning_on hr]
  refine congrArg Host.Outcome.next ?_
  change s.mscAll [] [x] = _
  unfold State.mscAll
  cases s.mscServe x with
  | some r => rfl
  | none => rfl

theorem execMscAccess_two (hr : s.running = true) (x y : MscAcc) (h : siteRank x ≤ siteRank y) :
    exec (.mscAccess x.addr x.kind ⟨x.site, x.errs, [y]⟩) s = .next (s.mscAll [] [x, y]) := by
  rw [exec_mscAccess, execMscAccess, whenRunning_on hr]
  refine congrArg (fun l => Host.Outcome.next (s.mscAll [] l)) ?_
  exact if_neg (Nat.not_lt.mpr h)

theorem execMscAccess_swapped (hr : s.running = true) (x y : MscAcc) (h : siteRank x < siteRank y) :
    exec (.mscAccess y.addr y.kind ⟨y.site, y.errs, [x]⟩) s = .next (s.mscAll [] [x, y]) := by
  rw [exec_mscAccess, execMscAccess, whenRunning_on hr]
  refine congrArg (fun l => Host.Outcome.next (s.mscAll [] l)) ?_
  exact if_pos h

theorem State.mscAll_serves {s1 s2 : State} (h1 : s.mscServe x = some s1) (h2 : s1.mscServe y = some s2) :
    s.mscAll [] [x, y] = s2 := by
  unfold State.mscAll
  dsimp only
  rw [h1]
  change s1.mscAll [] [y] = s2
  unfold State.mscAll
  dsimp only
  rw [h2]
  rfl

theorem State.mscAll_waits (h : s.mscServe x = none) : s.mscAll [] [x, y] = s.mscAll [x.addr.toNat / 64] [y] := by
  conv_lhs => unfold State.mscAll
  dsimp only
  rw [h]
  rfl

theorem State.mscAll_behind {L : Nat} (h : L = y.addr.toNat / 64) : s.mscAll [L] [y] = s := by
  unfold State.mscAll
  exact if_pos (by simp [h])

theorem State.mscAll_past {L : Nat} {s2 : State} (h : L ≠ y.addr.toNat / 64) (h2 : s.mscServe y = some s2) :
    s.mscAll [L] [y] = s2 := by
  unfold State.mscAll
  dsimp only
  rw [if_neg (by simpa using fun e => h e.symm), h2]
  rfl

/-! ### Flushes (13 R298) -/

theorem State.mscFlush_spec (s : State) (k : Fin 4) : (s.mscFlush k).msc[k].flushing.isSome = true ∧
    (∀ set w, (s.mscFlush k).msc[k].way set w = { s.msc[k].way set w with dirty := 0 }) ∧
    ∀ j, j ≠ k → (s.mscFlush k).msc[j] = s.msc[j] := by
  unfold State.mscFlush
  refine ⟨?_, fun set w => ?_, fun j hj => State.onMsc_other s _ hj⟩
  · rw [State.onMsc_same]
    rfl
  · rw [State.onMsc_same]
    exact sget_map ({} : MscWay) ({} : MscWay) (fun x => { x with dirty := 0 }) rfl s.msc[k].ways (16 * set + w)

theorem execFlushDone_busy {i : Nat} (h : s.msc[k].flushing = some i) : exec (.flushDone k) s =
    .next (s.onMsc k (fun c => { c with flushing := none, writebacks := c.writebacks + BitVec.ofNat 64 i })) := by
  rw [exec_flushDone, execFlushDone, h]

theorem execFlushDone_idle (h : s.msc[k].flushing = none) : exec (.flushDone k) s = .next s := by
  rw [exec_flushDone, execFlushDone, h]

/-! ### Range registers (13 R297) -/

/-- The block number in a range register. -/
def rangeBlock (x : U64) : Nat := (x.extractLsb' 11 28).toNat

theorem rangeLim_policy (v : U64) : (v &&& rangeLimMask).extractLsb' 62 2 = v.extractLsb' 62 2 := by
  rw [BitVec.extractLsb'_and, show rangeLimMask.extractLsb' 62 2 = BitVec.allOnes 2 by decide, BitVec.and_allOnes]

theorem rangeLim_enable (v : U64) : (v &&& rangeLimMask).getLsbD 61 = v.getLsbD 61 := by
  rw [BitVec.getLsbD_and, show rangeLimMask.getLsbD 61 = true by decide, Bool.and_true]

theorem rangeLim_block (v : U64) : rangeBlock (v &&& rangeLimMask) = rangeBlock v := by
  rw [rangeBlock, BitVec.extractLsb'_and, show rangeLimMask.extractLsb' 11 28 = BitVec.allOnes 28 by decide,
    BitVec.and_allOnes, rangeBlock]

/-- Another enabled range that meets the written one. -/
def Msc.meets (c : Msc) (n : Fin 16) (v : U64) : Prop :=
  ∃ j, j ≠ n ∧ c.lim[j].getLsbD 61 = true ∧ rangeBlock c.base[n] ≤ rangeBlock c.lim[j] ∧ rangeBlock c.base[j] ≤ rangeBlock v

theorem Msc.meets_iff : (List.finRange 16).any (fun j => j != n && c.lim[j].getLsbD 61 &&
    rangesMeet c.base[n] (v &&& rangeLimMask) c.base[j] c.lim[j]) = true ↔ c.meets n v := by
  have hblock : (v &&& rangeLimMask).extractLsb' 11 28 = v.extractLsb' 11 28 := BitVec.eq_of_toNat_eq (rangeLim_block v)
  simp only [List.any_eq_true, List.mem_finRange, true_and, Bool.and_eq_true, bne_iff_ne, rangesMeet, decide_eq_true_eq, hblock,
    and_assoc]
  exact Iff.rfl

/-- What a cache refuses of a limit. -/
def Msc.badLimit (c : Msc) (n : Fin 16) (v : U64) : Prop :=
  v.extractLsb' 62 2 = 3 ∨ (c.lim[n].getLsbD 61 = true ∧ v.getLsbD 61 = true ∧ v &&& rangeLimMask ≠ c.lim[n]) ∨
    (c.lim[n].getLsbD 61 = false ∧ v.getLsbD 61 = true ∧ c.meets n v)

theorem execMscRangeWrite_on (hr : s.running = true) (lim : Bool) (h : s.msc[k].rangeWrite n lim v = c) :
    exec (.mscRangeWrite k n lim v) s = .next { s with msc := s.msc.set k c } := by
  rw [exec_mscRangeWrite, execMscRangeWrite, if_pos hr, ← h]
  rfl

theorem Msc.rangeWrite_base_on (h : c.lim[n].getLsbD 61 = true) : c.rangeWrite n false v =
    if v &&& rangeBaseMask = c.base[n] then c else { c with status := c.status ||| 2 } := by
  unfold Msc.rangeWrite
  exact if_pos h

theorem Msc.rangeWrite_base_off (h : c.lim[n].getLsbD 61 = false) : c.rangeWrite n false v =
    { c with base := c.base.set n (v &&& rangeBaseMask) } := by
  unfold Msc.rangeWrite
  exact if_neg (Bool.eq_false_iff.mp h)

theorem Msc.rangeWrite_bad (h : c.badLimit n v) : c.rangeWrite n true v = { c with status := c.status ||| 2 } := by
  unfold Msc.rangeWrite
  dsimp only
  rw [rangeLim_policy, rangeLim_enable]
  rcases h with h | ⟨hon, hv, hl⟩ | ⟨hoff, hv, hm⟩
  · exact if_pos h
  · rw [hon, hv]
    exact ite_eq_left_iff.mpr fun _ => if_pos (decide_eq_true hl)
  · rw [hoff, hv]
    exact ite_eq_left_iff.mpr fun _ => if_pos (Msc.meets_iff.mpr hm)

/-- The ways when an enabled PINNED range is disabled: its blocks are unpinned. -/
def Msc.unpinned (c : Msc) (n : Fin 16) : Sparse MscWay := c.ways.map (fun e => (e.1,
  if rangeBlock c.base[n] ≤ e.2.block && e.2.block ≤ rangeBlock c.lim[n] then { e.2 with pinned := false } else e.2))

theorem Msc.rangeWrite_good (h : ¬ c.badLimit n v) : c.rangeWrite n true v =
    { c with
      lim := c.lim.set n (v &&& rangeLimMask)
      ways := if c.lim[n].getLsbD 61 && !v.getLsbD 61 && c.lim[n].extractLsb' 62 2 = 1 then c.unpinned n else c.ways } := by
  unfold Msc.badLimit at h
  unfold Msc.rangeWrite
  dsimp only
  rw [rangeLim_policy, rangeLim_enable, if_neg (by decide), if_neg (fun e => h (.inl e)), if_neg, if_neg]
  · rfl
  · simp only [Bool.and_eq_true, Bool.not_eq_true', Msc.meets_iff]
    exact fun ⟨⟨hoff, hv⟩, hm⟩ => h (.inr (.inr ⟨hoff, hv, hm⟩))
  · simp only [Bool.and_eq_true, decide_eq_true_eq]
    exact fun ⟨⟨hon, hv⟩, hl⟩ => h (.inr (.inl ⟨hon, hv, hl⟩))

/-- What unpinning leaves of a way. -/
def Msc.unpin (c : Msc) (n : Fin 16) (x : MscWay) : MscWay :=
  if rangeBlock c.base[n] ≤ x.block && x.block ≤ rangeBlock c.lim[n] then { x with pinned := false } else x

theorem Msc.unpin_empty (c : Msc) (n : Fin 16) : c.unpin n {} = {} := by
  unfold Msc.unpin
  exact ite_self _

theorem Msc.sget_unpinned (c : Msc) (n : Fin 16) (set w : Nat) : sget {} (c.unpinned n) (16 * set + w) =
    c.unpin n (c.way set w) :=
  sget_map ({} : MscWay) {} (c.unpin n) (c.unpin_empty n) c.ways (16 * set + w)

theorem Msc.unpin_data (c : Msc) (n : Fin 16) (x : MscWay) :
    (c.unpin n x).block = x.block ∧ (c.unpin n x).valid = x.valid ∧ (c.unpin n x).dirty = x.dirty := by
  unfold Msc.unpin
  split
  · exact ⟨rfl, rfl, rfl⟩
  · exact ⟨rfl, rfl, rfl⟩

theorem Msc.unpin_pinned {x : MscWay} (h1 : rangeBlock c.base[n] ≤ x.block) (h2 : x.block ≤ rangeBlock c.lim[n]) :
    (c.unpin n x).pinned = false := by
  rw [Msc.unpin, decide_eq_true h1, decide_eq_true h2]
  rfl

/-- A written limit moves no block, and unpins those of a PINNED range that it disables. -/
theorem Msc.rangeWrite_ways (h : ¬ c.badLimit n v) (set w : Nat) :
    (((c.rangeWrite n true v).way set w).block = (c.way set w).block ∧
      ((c.rangeWrite n true v).way set w).valid = (c.way set w).valid ∧
      ((c.rangeWrite n true v).way set w).dirty = (c.way set w).dirty) ∧
    (c.lim[n].getLsbD 61 = true → v.getLsbD 61 = false → c.lim[n].extractLsb' 62 2 = 1 →
      rangeBlock c.base[n] ≤ (c.way set w).block → (c.way set w).block ≤ rangeBlock c.lim[n] →
      ((c.rangeWrite n true v).way set w).pinned = false) := by
  rw [Msc.rangeWrite_good h]
  unfold Msc.way
  dsimp only
  split
  · rw [Msc.sget_unpinned]
    exact ⟨c.unpin_data n _, fun _ _ _ h1 h2 => Msc.unpin_pinned h1 h2⟩
  · rename_i hno
    exact ⟨⟨rfl, rfl, rfl⟩, fun hon hv hp => absurd (by rw [hon, hv, hp]; rfl) hno⟩

/-! ### The statement -/

/-- Settles O38: a hit uses the way that `find` gives, a miss the one that holds the block or its victim (`Msc.touch_find`). -/
theorem memorySideCaches : Obligations.MemorySideCaches := by
  unfold Obligations.MemorySideCaches
  refine ⟨⟨fun s site addr kind errs hr ha => ?_, fun s s1 s2 x y hr => ⟨fun hle h1 h2 => ?_, fun hle h1 => ?_⟩,
    fun s k => ⟨fun hr => ?_, fun i hi => ?_, execFlushDone_idle⟩⟩, fun s k n v hr => ?_⟩
  · have hrun := execMscAccess_one hr ⟨site, addr, kind, errs⟩
    refine ⟨fun ⟨w, hf, hv⟩ => ?_, fun hm hw => ?_, fun hm hw hfetch => ?_⟩
    · obtain ⟨-, hlt, hless⟩ := Msc.find_some.mp hf
      obtain ⟨hvalid, hdirty⟩ := Msc.touch_hasSector (decide (kind ≠ .read)) (Nat.mod_lt (addr.toNat / 64) (by decide)) hlt
        (Msc.find_block hf) hless
      rw [State.mscServe_hit (x := ⟨site, addr, kind, errs⟩) ha hf hv] at hrun
      refine ⟨_, hrun, ?_⟩
      dsimp only [Option.getD_some]
      rw [show (homeCache addr.toNat) = Fin.ofNat 4 ((locate addr.toNat).1.val / 2) from rfl, State.onMsc_same]
      refine ⟨hvalid, rfl, rfl, hdirty.trans ?_, rfl, rfl, fun j hj => State.onMsc_other s _ hj⟩
      rw [decide_eq_true_eq]
      exact or_congr_right (Msc.hasSector_iff hf (·.dirty)).symm
    · rw [State.mscServe_waits (x := ⟨site, addr, kind, errs⟩) ha hm hw] at hrun
      exact hrun
    · obtain ⟨r, hserve, hmsc, hmem, hmc⟩ := State.mscServe_miss (x := ⟨site, addr, kind, errs⟩) ha hm hw hfetch
      rw [hserve] at hrun
      refine ⟨r, hrun, ?_⟩
      have hcounts := Msc.filled_counts s.msc[homeCache addr.toNat].missed
        (addr.toNat / 2048) (addr.toNat / 64 % 32) (decide (kind ≠ .read))
      have hhome : r.msc[homeCache addr.toNat] = s.msc[homeCache addr.toNat].missed.filled (addr.toNat / 2048)
          (addr.toNat / 64 % 32) (decide (kind ≠ .read)) := by
        rw [hmsc, getElem_set_same]
      refine ⟨(congrArg Msc.misses hhome).trans hcounts.2, (congrArg Msc.hits hhome).trans hcounts.1, fun h => ?_,
        fun hf hp => ?_, hmem, hmc, fun j hj => ?_⟩
      · obtain ⟨hvalid, hdirty⟩ := Msc.filled_hasSector (c := s.msc[homeCache addr.toNat].missed)
          (decide (kind ≠ .read)) (Nat.mod_lt (addr.toNat / 64) (by decide)) h
        rw [← hhome] at hvalid hdirty
        exact ⟨hvalid, fun hk => hdirty (decide_eq_true hk)⟩
      · rw [Msc.filled_through (c := s.msc[homeCache addr.toNat].missed) hf hp] at hhome
        exact ⟨(congrArg Msc.ways hhome).trans rfl, (congrArg Msc.writebacks hhome).trans rfl⟩
      · rw [hmsc]
        exact getElem_set_other _ _ hj
  · rw [execMscAccess_two hr x y hle, State.mscAll_serves h1 h2]
    exact ⟨rfl, fun hlt => by rw [execMscAccess_swapped hr x y hlt, State.mscAll_serves h1 h2]⟩
  · rw [execMscAccess_two hr x y hle, State.mscAll_waits h1]
    exact ⟨fun h => by rw [State.mscAll_behind h], fun h h2 => by rw [State.mscAll_past h h2]⟩
  · obtain ⟨hbusy, hways, hother⟩ := State.mscFlush_spec s k
    exact ⟨s.mscFlush k, by rw [exec_mscCtlFlush, execMscCtlFlush, if_pos hr], hbusy, rfl, hways, hother⟩
  · refine ⟨_, execFlushDone_busy hi, ?_⟩
    rw [State.onMsc_same]
    exact ⟨rfl, rfl, rfl, rfl⟩
  · refine ⟨fun hon => execMscRangeWrite_on hr false (Msc.rangeWrite_base_on hon),
      fun hoff => execMscRangeWrite_on hr false (Msc.rangeWrite_base_off hoff),
      fun hbad => execMscRangeWrite_on hr true (Msc.rangeWrite_bad hbad), fun hgood => ?_⟩
    refine ⟨_, execMscRangeWrite_on hr true rfl, ?_⟩
    dsimp only
    rw [getElem_set_same]
    refine ⟨?_, ?_, ?_, rfl, fun set w => (Msc.rangeWrite_ways hgood set w).1, fun hon hv hp set w =>
      (Msc.rangeWrite_ways hgood set w).2 hon hv hp⟩
    · rw [Msc.rangeWrite_good hgood]
      rfl
    · rw [Msc.rangeWrite_good hgood]
    · rw [Msc.rangeWrite_good hgood]

end Sys2Proof.Machine
end
